-- ==== Sys2Proof/Word.lean ====
section
/-!
DEFINITION. The word types of the T9 block and nothing else: widths that the specification gives its
registers, counters and beats. Every helper over them lives in Machine/Ops.lean.
-/
namespace Sys2Proof

/-- An octet (00 R17). -/
abbrev Byte := BitVec 8
/-- U16 of the object dictionary (19 Table 19-2). -/
abbrev U16 := BitVec 16
/-- U32 of the object dictionary. -/
abbrev U32 := BitVec 32
/-- U64 of the object dictionary, and a whole host-target-port word (21 R653). -/
abbrev U64 := BitVec 64
/-- A string of octets; octet 0 first. -/
abbrev Bytes := List Byte

end Sys2Proof
end

