-- ==== Sys2Proof/Wire.lean ====
section
/-!
DEFINITION. What crosses the block's ports, as operands of commands: the sideband of a host access, the straps a
reset samples, a Lovaov message, the place of a compare that failed, and what a digest unit, the sweep or a training
trial reports.
-/
namespace Sys2Proof

/-- The sideband of an access of the host target port (21 Table 21-4): PASID when PASID_V is 1, byte enables. -/
structure Bus where
  pasid : Option (BitVec 20)
  be : BitVec 8
  deriving DecidableEq, Repr

/-- The strap inputs that a release of reset samples (21 R649, Table 21-2). -/
structure Straps where
  htEnable : Bool
  cascadeN : Nat
  linkRate : Nat
  deriving DecidableEq, Repr

/-- What a generate call serves (11 R416): a lane's reservoir, the filler of QUIET, or the next turn of the software
share. -/
inductive Draw where
  | reservoir (lane : Nat)
  | filler
  | software
  deriving DecidableEq, Repr

/-- Where a compare failed (08 R305, R309, R322): at a block of the request, at its accumulator, at its close, or at a beat
marked PACE_LATE; or, of no request, at a block of the load of an owner's key window (R316), or at a FILL block of a lane
or a digest unit (R318, R329). -/
inductive MismatchAt where
  | block
  | accumulator
  | close
  | paceLate
  | keyWindow (owner : Nat)
  | fillLane (lane : Nat)
  | fillUnit (u : Nat)
  deriving DecidableEq, Repr

/-- How the compare of a digest unit's block ended (09 R342, R343, R345). -/
inductive BlockEnd where
  | pass | mismatch | paceLate
  deriving DecidableEq, Repr

/-- What a digest unit reports (09 R342, R343): how many blocks of its turn have passed their compares, and how the compare of the
next one ended (`pass`: none is reported). -/
structure BlocksDone where
  passed : Nat
  last : BlockEnd
  deriving DecidableEq, Repr

/-- A reading of a bucket by the sweep: its first, or the second under the bucket's lock (07 R298). -/
structure SweepRead where
  bucket : Nat
  again : Bool
  deriving DecidableEq, Repr

/-- What a training trial measured: the metric of each receive lane, and the lanes whose PHY access got no answer (18 R584, 21
R657). -/
structure TrialEye where
  metric : Bytes
  noAnswer : BitVec 8
  deriving DecidableEq, Repr

/-- A Lovaov message (18 Tables 18-4 and 18-5): KIND, SRC, DEST, HOPS, the RESTART flag, PSEQ and the body, whose
length gives BLEN. -/
structure Msg where
  kind : Nat
  src : Nat
  dest : Nat
  hops : Nat
  restart : Bool
  pseq : Nat
  body : Bytes
  deriving DecidableEq, Repr

end Sys2Proof
end

