-- ==== Sys2Proof/Syntax.lean ====
section
/-!
DEFINITION. The commands of the T9 block: one constructor for each row of spec/opcode_table.json, in an order
that follows its families. No row gives bits; the operands are what the outside or the engine step names.
-/
namespace Sys2Proof

/-- A command (INVENTORY.md, Instructions). `owner` is 0 to 511 for a slice and 512 for the manager, `n` a ring
pair, `rid` a REQ_ID, `b` the sideband of a host access. -/
inductive Instr where
  /-- RQ_TAIL (R62). -/
  | rqTail (b : Bus) (owner n : Nat) (v : U64)
  /-- CQ_HEAD (R63). -/
  | cqHead (b : Bus) (owner n : Nat) (v : U64)
  /-- RING_ENABLE (R68). -/
  | ringEnable (b : Bus) (owner n : Nat)
  /-- RING_DISABLE (R68). -/
  | ringDisable (b : Bus) (owner n : Nat)
  /-- RING_DRAINED (R68). -/
  | ringDrained (owner n : Nat)
  /-- FETCH_TURN (R65). -/
  | fetchTurn (rids : List Nat)
  /-- DESCRIPTOR_ARRIVAL (R76). -/
  | descriptorArrival (owner n : Nat)
  /-- DESC_SINGLE_REREAD (R498). -/
  | descSingleReread (owner n : Nat)
  /-- RESOLVE (R269). -/
  | resolve (rid : Nat)
  /-- BLOB_READ_ARRIVAL (R272). -/
  | blobReadArrival (rid : Nat)
  /-- SEAM_GATE_PASS (R123). -/
  | seamGatePass (rid : Nat)
  /-- FRAGMENT_LIST_ARRIVAL (R82). -/
  | fragmentListArrival (rid : Nat)
  /-- INPUT_DATA_ARRIVAL (R38). -/
  | inputDataArrival (rid : Nat)
  /-- CANCEL (R41). -/
  | cancel (rid : Nat)
  /-- HEAD_ARRIVAL (R42). -/
  | headArrival (rid : Nat)
  /-- INWARD_BEAT_ARRIVAL (R26). -/
  | inwardBeatArrival (tag : U64)
  /-- DISPATCH (R47). -/
  | dispatch (rid : Nat)
  /-- LANE_TURN (R195). -/
  | laneTurn (lane : Nat)
  /-- TANGO_PASS (R49). -/
  | tangoPass (rid : Nat)
  /-- TANGO_MISMATCH (R309). -/
  | tangoMismatch (rid : Nat) (at_ : MismatchAt) (passed : Nat)
  /-- STAT_ARRIVAL (R25). -/
  | statArrival (rid : Nat)
  /-- OUTPUT_WRITE_ISSUE (R51). -/
  | outputWriteIssue (rid : Nat)
  /-- WRITE_RESPONSE (R651). -/
  | writeResponse (chan tag : Nat) (err : Bool)
  /-- READ_DATA_BEAT (R651). -/
  | readDataBeat (chan tag : Nat) (data : Bytes) (last err : Bool)
  /-- SP_RESPONSE_TIMEOUT (R652). -/
  | spResponseTimeout (chan tag : Nat)
  /-- JOURNAL_WRITE (R571). -/
  | journalWrite (rid : Nat)
  /-- COMPLETION_RECORD_ISSUE (R53). -/
  | completionRecordIssue (rid : Nat)
  /-- COMPLETION_RECORD_ACK (R34). -/
  | completionRecordAck (rid : Nat)
  /-- TAIL_WRITE_ISSUE (R122). -/
  | tailWriteIssue (owner n : Nat)
  /-- TAIL_WRITE_ACK (R122). -/
  | tailWriteAck (owner n : Nat)
  /-- COAL_TIME_EXPIRY (R105). -/
  | coalTimeExpiry (owner n : Nat)
  /-- ABORT_AT_DECISION_POINT (R109). -/
  | abortAtDecisionPoint (rid : Nat)
  /-- AEAD_SEAL (R189). -/
  | aeadSeal (rid : Nat)
  /-- AEAD_OPEN (R190). -/
  | aeadOpen (rid : Nat)
  /-- CIPHER_ENC (R189). -/
  | cipherEnc (rid : Nat)
  /-- CIPHER_DEC (R192). -/
  | cipherDec (rid : Nat)
  /-- MAC_GEN (R174). -/
  | macGen (rid : Nat)
  /-- MAC_VERIFY (R175). -/
  | macVerify (rid : Nat)
  /-- DIGEST (R346). -/
  | digest (rid : Nat)
  /-- HMAC (R347). -/
  | hmac (rid : Nat)
  /-- DIGEST_SAVE (R354). -/
  | digestSave (rid : Nat)
  /-- DIGEST_RESUME (R354). -/
  | digestResume (rid : Nat)
  /-- KEY_LOAD_WRAPPED (R226). -/
  | keyLoadWrapped (rid : Nat)
  /-- KEY_ERASE (R241). -/
  | keyErase (rid : Nat)
  /-- KEY_GEN (R225). -/
  | keyGen (rid : Nat)
  /-- KEY_EXPORT_WRAPPED (R233). -/
  | keyExportWrapped (rid : Nat)
  /-- ASSOC_ROLL_ROLL (R255). -/
  | assocRollRoll (rid : Nat)
  /-- ASSOC_ROLL_FORM (R255). -/
  | assocRollForm (rid : Nat)
  /-- ASSOC_ROLL_DISSOLVE (R262). -/
  | assocRollDissolve (rid : Nat)
  /-- PKE_RUN (R380). -/
  | pkeRun (rid : Nat)
  /-- RNG_FILL (R422). -/
  | rngFill (rid : Nat)
  /-- DIR_INSERT (R277). -/
  | dirInsert (rid : Nat)
  /-- DIR_DELETE (R287). -/
  | dirDelete (rid : Nat)
  /-- DIR_LOOKUP (R288). -/
  | dirLookup (rid : Nat)
  /-- NOP_FENCE (R124). -/
  | nopFence (rid : Nat)
  /-- ABORT (R108). -/
  | abort (rid : Nat)
  /-- SPREAD_GRANT (R140). -/
  | spreadGrant (rid : Nat)
  /-- MEMBER_LOST (R151). -/
  | memberLost (nn i : Nat)
  /-- KW_COMMIT_LOAD (R222). -/
  | kwCommitLoad (b : Bus) (owner : Nat)
  /-- KW_COMMIT_CLEAR (R222). -/
  | kwCommitClear (b : Bus) (owner : Nat)
  /-- LOAD_IN_FORCE (R226). -/
  | loadInForce (slot : Nat)
  /-- ERASE_COMPLETE (R241). -/
  | eraseComplete (slot : Nat)
  /-- ERASE_LIMIT_EXPIRY (R242). -/
  | eraseLimitExpiry (slot : Nat)
  /-- ALLOT_COMMIT (R212). -/
  | allotCommit
  /-- COLD_CACHE_SLOTS (R235). -/
  | coldCacheSlots (v : U32)
  /-- TICK (R298). -/
  | tick
  /-- SWEEP_VISIT (R298). -/
  | sweepVisit (visit : SweepRead)
  /-- EXCEPTION_ENTRY_WRITE (R295). -/
  | exceptionEntryWrite (owner chan : Nat)
  /-- XR_ENABLE (R294). -/
  | xrEnable (b : Bus) (owner : Nat)
  /-- LEARNED_RECOUNT (R515). -/
  | learnedRecount
  /-- LANE_RETEST (R320). -/
  | laneRetest (mask : BitVec 16)
  /-- LANE_RETEST_DONE (R320). -/
  | laneRetestDone (lane : Nat) (passed : Bool)
  /-- POSTURE (R330). -/
  | posture (code : Nat)
  /-- LANES_DRAINED_FOR_LEAN (R330). -/
  | lanesDrainedForLean
  /-- POSTURE_SETTLED (R330). -/
  | postureSettled
  /-- SUPPLY_REACHED (R662). -/
  | supplyReached
  /-- VREQ_LIMIT_EXPIRY (R662). -/
  | vreqLimitExpiry
  /-- SEAL_DIGEST_DONE (R7). -/
  | sealDigestDone
  /-- DG_CONFIG (R357). -/
  | dgConfig (b : Bus) (owner : Nat) (v : U64)
  /-- DIGEST_DATA (R358). -/
  | digestData (b : Bus) (owner : Nat) (v : U64)
  /-- DIGEST_LAST (R358). -/
  | digestLast (b : Bus) (owner : Nat) (off : Nat) (v : U64)
  /-- DIGEST_FINISH_DONE (R359). -/
  | digestFinishDone (owner : Nat)
  /-- DG_CMD_SAVE (R363). -/
  | dgCmdSave (b : Bus) (owner : Nat)
  /-- DG_CMD_RESTORE (R363). -/
  | dgCmdRestore (b : Bus) (owner : Nat)
  /-- DG_CMD_ABANDON (R363). -/
  | dgCmdAbandon (b : Bus) (owner : Nat)
  /-- DIGEST_BLOCK_DONE (R342). -/
  | digestBlockDone (unit : Nat) (done : BlocksDone)
  /-- UNIT_RETEST (R344). -/
  | unitRetest (mask : BitVec 8)
  /-- UNIT_RETEST_DONE (R344). -/
  | unitRetestDone (unit : Nat) (passed : Bool)
  /-- YIELD_POINT (R384). -/
  | yieldPoint (engine : Nat)
  /-- PKE_JOB_END (R388). -/
  | pkeJobEnd (engine : Nat) (invariantsHold : Bool)
  /-- ENGINE_MISMATCH (R390). -/
  | engineMismatch (engine : Nat)
  /-- PKE_CONTEXT_ZEROED (R392). -/
  | pkeContextZeroed (engine rid : Nat)
  /-- ENGINE_RETEST (R391). -/
  | engineRetest (mask : BitVec 4)
  /-- ENGINE_RETEST_DONE (R391). -/
  | engineRetestDone (engine : Nat) (passed : Bool)
  /-- LOCKSTEP_FAULT (R370). -/
  | lockstepFault
  /-- CALLER_RECOVERED (R370). -/
  | callerRecovered (matches_ : Bool)
  /-- PK_FIFO_DATA (R401). -/
  | pkFifoData (b : Bus) (owner : Nat)
  /-- FIFO_SET_MARK (R451). -/
  | fifoSetMark (b : Bus) (kind owner : Nat)
  /-- FIFO_REWIND (R451). -/
  | fifoRewind (b : Bus) (kind owner : Nat)
  /-- FIFO_CLEAR_MARK (R451). -/
  | fifoClearMark (b : Bus) (kind owner : Nat)
  /-- FIFO_DATA (R444). -/
  | fifoData (b : Bus) (kind owner : Nat)
  /-- SEND (R453). -/
  | send (b : Bus) (kind owner : Nat) (v : U64)
  /-- SEND_CMD_OPEN (R446). -/
  | sendCmdOpen (b : Bus) (kind owner : Nat)
  /-- SEND_CMD_ABANDON (R453). -/
  | sendCmdAbandon (b : Bus) (kind owner : Nat)
  /-- SEND_CLOSE (R446). -/
  | sendClose (b : Bus) (kind owner : Nat) (v : U64)
  /-- NOISE_SAMPLE (R404). -/
  | noiseSample (source : Nat) (bit : Bool)
  /-- SETTLING_END (R425). -/
  | settlingEnd (katOk : Bool)
  /-- STARTUP_TEST_DONE (R406). -/
  | startupTestDone
  /-- POOL_ENTRY (R408). -/
  | poolEntry
  /-- DRBG_INSTANTIATE (R409). -/
  | drbgInstantiate
  /-- GENERATE_CALL (R416). -/
  | generateCall (consumer : Draw)
  /-- RESEED (R410). -/
  | reseed
  /-- PORT_REFILL (R419). -/
  | portRefill (owner : Nat)
  /-- RNG_WORD (R418). -/
  | rngWord (b : Bus) (owner : Nat)
  /-- DRBG_MISMATCH (R411). -/
  | drbgMismatch
  /-- RNG_FAIL_MODE (R433). -/
  | rngFailMode (compat : Bool)
  /-- RAW_MODE_ENTER (R435). -/
  | rawModeEnter
  /-- RAW_MODE_EXIT (R437). -/
  | rawModeExit
  /-- RAW_RUN_CAPTURED (R436). -/
  | rawRunCaptured (run : Bytes)
  /-- CREATE (R464). -/
  | create (slice : Nat)
  /-- QUIESCE (R466). -/
  | quiesce (slice : Nat)
  /-- QUIESCE_DONE (R466). -/
  | quiesceDone (slice : Nat)
  /-- QUIESCE_LIMIT_EXPIRY (R468). -/
  | quiesceLimitExpiry (slice : Nat)
  /-- RESUME (R471). -/
  | resume (slice : Nat)
  /-- RESET (R473). -/
  | reset (slice : Nat)
  /-- REMOVE (R473). -/
  | remove (slice : Nat)
  /-- SLICE_RESET_COMPLETE (R473). -/
  | sliceResetComplete (slice : Nat)
  /-- PROM_ENABLE (R483). -/
  | promEnable (slice : Nat) (on : Bool)
  /-- PROM_LOG_WRITE (R480). -/
  | promLogWrite (slice chan : Nat)
  /-- PROM_SWAP (R482). -/
  | promSwap (slice : Nat)
  /-- PROM_SWAP_DONE (R482). -/
  | promSwapDone (slice : Nat)
  /-- RULE_COMMIT (R499). -/
  | ruleCommit
  /-- COMMIT_VALIDATED (R500). -/
  | commitValidated
  /-- EPOCH_SWITCH (R501). -/
  | epochSwitch
  /-- EPOCH_DRAINED (R503). -/
  | epochDrained
  /-- DRAIN_WARN_EXPIRY (R502). -/
  | drainWarnExpiry
  /-- SCRUB_LINE_READ (R510). -/
  | scrubLineRead (store : Nat)
  /-- ECC_INJECT (R517). -/
  | eccInject
  /-- LC_REQUEST_TRANSITION (R530). -/
  | lcRequestTransition (code : Nat)
  /-- LC_UNLOCK (R532). -/
  | lcUnlock
  /-- LC_REPAIR (R533). -/
  | lcRepair
  /-- LC_SCRAP (R534). -/
  | lcScrap
  /-- LC_FIELD_VERIFIED (R530). -/
  | lcFieldVerified (ok : Bool)
  /-- DEBUG_NONCE_REQ (R539). -/
  | debugNonceReq
  /-- DEBUG_SUBMIT (R539). -/
  | debugSubmit
  /-- CERT_CHECK_DONE (R541). -/
  | certCheckDone
  /-- DEBUG_END (R541). -/
  | debugEnd
  /-- DEBUG_REVOKE (R541). -/
  | debugRevoke
  /-- ATTEST_REQUEST (R546). -/
  | attestRequest
  /-- ATTEST_DONE (R546). -/
  | attestDone
  /-- POWER_ON (R663). -/
  | powerOn (straps : Straps)
  /-- PWR_GOOD_FALL (R663). -/
  | pwrGoodFall
  /-- ISO (R664). -/
  | iso (level : Bool) (straps : Straps)
  /-- PIN (R665). -/
  | pin (straps : Straps)
  /-- RESET_REQUEST_ORDERLY (R549). -/
  | resetRequestOrderly
  /-- RESET_REQUEST_IMMEDIATE (R548). -/
  | resetRequestImmediate (straps : Straps)
  /-- ORDERLY_RESET_TAKES_PLACE (R550). -/
  | orderlyResetTakesPlace (straps : Straps)
  /-- RESET_DRAIN_LIMIT_EXPIRY (R550). -/
  | resetDrainLimitExpiry (straps : Straps)
  /-- LC_DECODE (R527). -/
  | lcDecode (counterOk : Bool)
  /-- SELF_TEST_DONE (R554). -/
  | selfTestDone (step : Nat) (failure : Option (Nat × Nat))
  /-- VAULT_CHECK_DONE (R556). -/
  | vaultCheckDone (repairs : Nat) (damaged : Option Nat)
  /-- CALLER_IMAGE_CHECK_DONE (R557). -/
  | callerImageCheckDone
  /-- START_RETRY_TIME_EXPIRY (R560). -/
  | startRetryTimeExpiry (straps : Straps)
  /-- PAVANE_TESTS (R562). -/
  | pavaneTests (mask : BitVec 8)
  /-- PAVANE_EXIT (R564). -/
  | pavaneExit (straps : Straps)
  /-- TAMPER_ALARM (R565). -/
  | tamperAlarm (input lines : Nat)
  /-- TAMPER_HOLD (R566). -/
  | tamperHold
  /-- TAMPER_WAIT_END (R566). -/
  | tamperWaitEnd
  /-- MESH_PATTERN_CHANGE (R668). -/
  | meshPatternChange (openLines crossLines : BitVec 20)
  /-- PORT_ENABLE (R583). -/
  | portEnable (port : Nat) (on : Bool)
  /-- LANES_CLASSIFIED (R583). -/
  | lanesClassified (port : Nat) (status : List Nat) (polarity : BitVec 8)
  /-- TRAINING_TRIAL (R584). -/
  | trainingTrial (port : Nat) (coeff : Bytes) (eye : TrialEye)
  /-- TRAINING_END (R585). -/
  | trainingEnd (port : Nat) (peerOk : BitVec 8)
  /-- ALIGN_DONE (R586). -/
  | alignDone (port : Nat) (order : List Nat) (skewOk : Bool)
  /-- PORT_UP (R589). -/
  | portUp (port : Nat)
  /-- PORT_DOWN (R590). -/
  | portDown (port cause : Nat)
  /-- RELOCK (R590). -/
  | relock (port : Nat)
  /-- PHY_READY (R656). -/
  | phyReady (port : Nat)
  /-- FRAME_RECEIVE (R579). -/
  | frameReceive (port lseq lack credit : Nat) (good : Bool) (msgs : List Msg)
  /-- CONTROL_FRAME (R580). -/
  | controlFrame (port lack credit : Nat)
  /-- REPLAY_TIME_EXPIRY (R580). -/
  | replayTimeExpiry (port : Nat)
  /-- CONTROL_FRAME_PERIOD (R580). -/
  | controlFramePeriod (port : Nat)
  /-- IDENT (R588). -/
  | ident (port : Nat) (m : Msg)
  /-- IDENT_PERIOD (R589). -/
  | identPeriod (port : Nat)
  /-- MAP (R592). -/
  | map (port : Nat) (m : Msg)
  /-- MAP_PERIOD (R592). -/
  | mapPeriod
  /-- TIME (R604). -/
  | time (port : Nat) (m : Msg)
  /-- TIME_PERIOD (R604). -/
  | timePeriod
  /-- ECHO (R605). -/
  | echo (port : Nat) (m : Msg)
  /-- ECHO_RENEWAL (R605). -/
  | echoRenewal (port : Nat)
  /-- ACK_E2E (R596). -/
  | ackE2e (m : Msg)
  /-- E2E_TIME_EXPIRY (R596). -/
  | e2eTimeExpiry (inst : Nat)
  /-- ACK_E2E_PERIOD (R595). -/
  | ackE2ePeriod (inst : Nat)
  /-- DEST_LOST (R597). -/
  | destLost (inst : Nat)
  /-- MESSAGE_FORWARD (R593). -/
  | messageForward (port : Nat) (m : Msg)
  /-- DOORBELL (R599). -/
  | doorbell (m : Msg)
  /-- DOORBELL_WINDOW_WRITE (R598). -/
  | doorbellWindowWrite (b : Bus) (addr : Nat) (v : U64)
  /-- GRANT (R143). -/
  | grant (m : Msg)
  /-- TOKEN (R147). -/
  | token (m : Msg)
  /-- SPREAD_CTL (R600). -/
  | spreadCtl (m : Msg)
  /-- KEYX (R603). -/
  | keyx (m : Msg)
  /-- KEYX_SETUP (R601). -/
  | keyxSetup (m : Msg)
  /-- DICT_REQ (R625). -/
  | dictReq (m : Msg)
  /-- DICT_RESP (R626). -/
  | dictResp (m : Msg)
  /-- EVENT (R643). -/
  | event (m : Msg)
  /-- DICT_READ (R616). -/
  | dictRead (b : Bus) (v : U64)
  /-- DICT_WRITE (R617). -/
  | dictWrite (b : Bus) (v : U64)
  /-- DICT_DESCRIBE (R618). -/
  | dictDescribe (b : Bus) (v : U64)
  /-- DICT_OPERATION_END (R614). -/
  | dictOperationEnd
  /-- DICT_REMOTE_TIME_EXPIRY (R626). -/
  | dictRemoteTimeExpiry
  /-- EVENT_ACCEPTED (R634). -/
  | eventAccepted
  /-- STATUS_CLEAR (R636). -/
  | statusClear (b : Bus) (word : Nat) (v : U64)
  /-- FORCED_OCCURRENCE (R644). -/
  | forcedOccurrence (source : Nat)
  /-- REMOTE_PENDING (R643). -/
  | remotePending (b : Bus) (v : U64)
  /-- CLOCK_STOPPED (R648). -/
  | clockStopped (clock : Nat)
  /-- REGISTER_WRITE (R457). -/
  | registerWrite (b : Bus) (addr : Nat) (v : U64)
  /-- REGISTER_READ (R457). -/
  | registerRead (b : Bus) (addr : Nat)
  /-- CLOCK_RETURNED (R648). -/
  | clockReturned (clock : Nat)
  /-- VOLTAGE_DETECTORS_ARMED (R663). -/
  | voltageDetectorsArmed
  /-- CREATE_COMPLETE (R464). -/
  | createComplete (slice : Nat)
  /-- MESH_RESEED (R668). -/
  | meshReseed
  deriving DecidableEq, Repr

end Sys2Proof
end

