-- ==== Sys2Proof/Decode.lean ====
section
/-!
DEFINITION. The command a word spells. spec/opcode_table.json gives no row any bits: commands arrive through the
ports of the block, each in its own form, and are not encoded as words.
-/
namespace Sys2Proof

/-- The command that `w`, of `nbits` bits, spells by the table's bits: none, since no row has bits. -/
def decodeTableWord (_nbits _w : Nat) : Option Instr := none

end Sys2Proof
end

