-- ==== Sys2Proof/Config.lean ====
section
/-!
DEFINITION. What the specification does not fix. The functions of the published standards that the
specification only names (00 Table 0-10), the draws of the random number generator and the values it leaves
open are uninterpreted: no definition can evaluate them and no proof can see what they are. Each returns one
octet of its result, so every result has the length the specification gives it.
-/
namespace Sys2Proof.Config

/-- Octet `i` of the AES forward cipher of one block (FIPS 197). -/
opaque aesEnc (key block : Bytes) (i : Nat) : Byte
/-- Octet `i` of the AES inverse cipher of one block. -/
opaque aesDec (key block : Bytes) (i : Nat) : Byte
/-- Octet `i` of round key `r` of the AES key schedule of `key` (FIPS 197). -/
opaque aesRoundKey (key : Bytes) (r i : Nat) : Byte
/-- Octet `i` of the CHECK over the lines `data` of a slot, under the two keys of the cache `keys` (05 R217). -/
opaque slotCheck (keys data : Bytes) (i : Nat) : Byte
/-- Octet `i` of GHASH continued from `acc` over whole blocks `data` under the hash key `h` (SP 800-38D). -/
opaque ghash (h acc data : Bytes) (i : Nat) : Byte
/-- Octet `i` of the ChaCha20 block of `key`, `nonce` and block counter `ctr` (RFC 8439). -/
opaque chacha (key nonce : Bytes) (ctr : Nat) (i : Nat) : Byte
/-- Octet `i` of the Poly1305 accumulator continued from `acc` over `data`; `last` closes it. -/
opaque poly1305 (key acc data : Bytes) (last : Bool) (i : Nat) : Byte
/-- Octet `i` of the CMAC chaining value continued from `acc` over `data`; `last` closes it (SP 800-38B). -/
opaque cmac (key acc data : Bytes) (last : Bool) (i : Nat) : Byte
/-- Octet `i` of the state of hash algorithm `alg` after absorbing the block `data` in state `st`. -/
opaque hashAbsorb (alg : Nat) (st data : Bytes) (i : Nat) : Byte
/-- Octet `i` of the digest that algorithm `alg` gives on closing state `st` after the last octets `data`,
for a message of `total` octets. -/
opaque hashFinish (alg : Nat) (st data : Bytes) (total : Nat) (i : Nat) : Byte
/-- Octet `i` of the KDF of SP 800-108 in counter mode over HMAC-SHA-384. -/
opaque kdf (root label context : Bytes) (i : Nat) : Byte
/-- Octet `i` of the conditioner's fixed key, which no rule states (11 R407). -/
opaque conditionerKey (i : Nat) : Byte
/-- Octet `i` of the personalisation string that Myeno derives from the device root secret and the boot epoch (11 R409). -/
opaque personal (root : Bytes) (epoch : Nat) (i : Nat) : Byte
/-- Octet `i` of choice number `n` that the specification calls random and does not take from the DRBG. -/
opaque draw (n : Nat) (i : Nat) : Byte
/-- Octet `i` of the result of public-key routine `routine` on `input` under the secret `key`. -/
opaque pkeResult (routine : Nat) (key input drawn : Bytes) (i : Nat) : Byte
/-- Does public-key routine `routine` reject `input`, by what its standard decides and no rule states as arithmetic on octets
(10 Table 10-9: a signature that does not verify, an encoding that is not valid, a decoding that fails)? -/
opaque pkeRejects (routine : Nat) (key input : Bytes) : Bool
/-- Signing iterations of ML-DSA less one, as FIPS 204 gives them for key and message (10 R386). -/
opaque mldsaIters (routine : Nat) (key input : Bytes) : Nat
/-- Further hash blocks drawn by the samplers of a lattice routine that run short on a public seed (10 R387). -/
opaque samplerExtra (routine : Nat) (key input drawn : Bytes) : Nat
/-- Does a sampler of a lattice routine run short on a secret seed (10 R387)? -/
opaque samplerShort (routine : Nat) (key input drawn : Bytes) : Bool
/-- Field `f` of the engine command that the Caller issues in step `step` of a routine with an input of `len` octets and `iters`
iterations (10 R386: on nothing else does it depend). -/
opaque engineCmd (routine len iters step f : Nat) : Nat
/-- Octet `i` of what the Caller's thread of a job holds at step `step`, in its registers and its area of data memory. -/
opaque callerOctet (routine : Nat) (key input drawn : Bytes) (step i : Nat) : Byte
/-- The instruction that the test access port's instruction register holds for a value shifted in (21 R669): 0 BYPASS, 1 SAMPLE,
2 PRELOAD, 3 EXTEST, 4 and above private; no rule gives the codes. -/
opaque tapCode (bits : List Bool) : Nat
/-- Cells of the test access port's instruction register, less two, and of its boundary register; no rule gives them. -/
opaque tapCells (boundary : Bool) : Nat
/-- Octet `i` of a signature over `msg` by the device's key `who`. -/
opaque sign (who : Nat) (key msg : Bytes) (i : Nat) : Byte
/-- Does `sig` verify over `msg` under the key `key`? -/
opaque sigVerifies (key msg sig : Bytes) : Bool
/-- A value the specification leaves open or measures outside the block; `what` names it, `n` numbers the
reading. -/
opaque free (what n : Nat) : Nat

end Sys2Proof.Config
end

