-- ==== Sys2Proof/Machine/Table.lean ====
section
/-!
DEFINITION. Sparse tables: the one container State uses for the T9's large arrays (ring pairs, slots, slices,
directory positions, event sources). A table lists (index, value) pairs with strictly rising indices and no
value equal to what an unlisted index reads as, so that equal tables are equal data.
-/
namespace Sys2Proof.Machine

/-- A sparse table. -/
abbrev Tab (α : Type) := List (Nat × α)

/-- Read of index `k`; an unlisted index reads as `d k`. -/
def Tab.get {α : Type} (d : Nat → α) : Tab α → Nat → α
  | [], k => d k
  | (j, v) :: t, k => if j = k then v else Tab.get d t k

/-- Is index `k` listed? -/
def Tab.has {α : Type} : Tab α → Nat → Bool
  | [], _ => false
  | (j, _) :: t, k => if j = k then true else Tab.has t k

/-- Removal of index `k`, which then reads as the default. -/
def Tab.del {α : Type} : Tab α → Nat → Tab α
  | [], _ => []
  | (j, v) :: t, k => if j = k then Tab.del t k else (j, v) :: Tab.del t k

/-- Insertion in rising order, replacing a value already listed. -/
def Tab.ins {α : Type} : Tab α → Nat → α → Tab α
  | [], k, v => [(k, v)]
  | (j, w) :: t, k, v =>
    if k < j then (k, v) :: (j, w) :: t
    else if j = k then (k, v) :: t
    else (j, w) :: Tab.ins t k v

/-- Write of index `k` in canonical form: a value equal to the default is not listed. -/
def Tab.set {α : Type} [DecidableEq α] (d : Nat → α) (t : Tab α) (k : Nat) (v : α) : Tab α :=
  if v = d k then Tab.del t k else Tab.ins t k v

/-- Change of index `k` by `f`. -/
def Tab.upd {α : Type} [DecidableEq α] (d : Nat → α) (t : Tab α) (k : Nat) (f : α → α) : Tab α :=
  Tab.set d t k (f (Tab.get d t k))

/-- Strictly rising indices, all of them at least `lo`. -/
def Tab.rising {α : Type} : Nat → Tab α → Bool
  | _, [] => true
  | lo, (j, _) :: t => decide (lo ≤ j) && Tab.rising (j + 1) t

/-- No listed value is the default of its index. -/
def Tab.lean {α : Type} [DecidableEq α] (d : Nat → α) : Tab α → Bool
  | [] => true
  | (j, v) :: t => decide (v ≠ d j) && Tab.lean d t

/-- The canonical form of a table. -/
def Tab.wf {α : Type} [DecidableEq α] (d : Nat → α) (t : Tab α) : Bool :=
  Tab.rising 0 t && Tab.lean d t

/-- The first listed index at or after `lo` whose value meets `p`. -/
def Tab.firstFrom {α : Type} (p : Nat → α → Bool) (lo : Nat) : Tab α → Option Nat
  | [] => none
  | (j, v) :: t => if decide (lo ≤ j) && p j v then some j else Tab.firstFrom p lo t

end Sys2Proof.Machine
end

