-- ==== Sys2Proof/Machine/State.lean ====
section
/-!
DEFINITION. The state of the T9 block as plain data: every register, buffer, queue, counter, mode and pin the
specification names (INVENTORY.md lists them with their rules), the queue of waiting commands, the reasons a
step can stop, and the state right after reset.

Conventions. An OWNER is 0 to 511 for a slice and 512 for the manager. A ring pair has the key
8 * (owner + 1) + n for a slice and n for the manager, which is the cyclic order of R65. Counters are bit
vectors and wrap at their width. An array the specification numbers is a sparse table (Machine/Table.lean).
-/
namespace Sys2Proof.Machine

/-- Why the machine stops with a fault. No well-formed command raises one: the block turns every condition the
specification names into an effect on its state. -/
inductive Fault where
  /-- Raised by a command whose operand names a unit or an address the T9 does not have (a lane above 15, a port above 1,
  a host-target-port address of more than 26 bits): the specification describes no such thing. Safe. -/
  | noSuchUnit
  deriving DecidableEq, Repr

/-- Why the machine gives a command no meaning. -/
inductive Refusal where
  /-- A command whose meaning is not written yet, by its mnemonic. Safe. -/
  | notModelled (mnemonic : String)
  deriving DecidableEq, Repr

/-! ## Statuses (02 Table 2-10) -/

/-- STATUS of a completion record (02 Table 2-10). -/
inductive Status where
  | ok | okAbortLate | partialEnd | lengthMismatch | fragmentFault | accessFault | requestInvalid
  | keyStale | keyAbsent | keyNotOwned | nonceExhausted | authFail | keyPoisoned | notPermitted
  | rngUnavailable | pkeReject | aborted | quiesced | retryImpossible | directoryMiss | internal
  deriving DecidableEq, Repr

/-- How a request ends: STATUS and DETAIL. -/
structure Ending where
  st : Status
  detail : Nat
  deriving DecidableEq, Repr

/-! ## Events (chapter 20) -/

/-- Severity of a source (R632). -/
inductive Severity where | info | warn | fault | alarm
  deriving DecidableEq, Repr

/-- One occurrence raised and not yet accepted (R634, R637). -/
structure Occ where
  src : Nat
  arg : Nat
  info : Nat
  forced : Bool
  deriving DecidableEq, Repr

/-- One event source (R634, Table 20-6). -/
structure Source where
  status : Bool
  mask : Bool
  route : BitVec 10
  count : U32
  lastTime : BitVec 48
  lastArg : BitVec 14
  lastInfo : BitVec 46
  zeroise : Bool
  deriving DecidableEq, Repr

/-- The event logic (chapter 20). -/
structure Events where
  sources : Tab Source
  waiting : List Occ
  accepted : U64
  forcedCount : U32
  sent : U64
  received : U64
  remoteRoute : BitVec 9
  remotePending : BitVec 8
  zeroising : U32
  deriving DecidableEq, Repr

/-! ## System-port access control (chapter 14) -/

/-- A region rule (R488, Table 14-2). -/
structure Rule where
  enable : Bool
  base : U64
  limit : U64
  owners : BitVec 513
  perm : BitVec 2
  attr : U16
  deriving DecidableEq, Repr

/-- A window of the default map (R493). -/
structure Window where
  enable : Bool
  base : U64
  limit : U64
  perm : BitVec 2
  attr : U16
  deriving DecidableEq, Repr

/-- COMMIT_STATE (Table 14-5). -/
inductive CommitState where | idle | validating | waiting
  deriving DecidableEq, Repr

/-- COMMIT_STATUS (Table 14-6). -/
inductive CommitStatus where | done | busy | overlap | range | attr | noOwner
  deriving DecidableEq, Repr

/-- Access-control state (R499 to R504). `validated`: the staged copy has passed the checks of R500 and waits for its
switch; `warned`: DRAIN_WARN has been reported for this epoch. -/
structure Access where
  staged : Tab Rule
  inForce : Tab Rule
  stagedWin : Tab Window
  winInForce : Tab Window
  commitState : CommitState
  commitStatus : CommitStatus
  commitFault : U32
  epochNow : U32
  epochDrained : Bool
  drainWarn : U32
  validated : Bool
  warned : Bool
  commits : U32
  commitsRefused : U32
  deniedCh : Tab U64
  deniedSlice : U64
  deniedManager : U64
  deniedService : U64
  defaultPermits : U64
  splits : U64
  lastDenialAddr : U64
  lastDenialInfo : U64
  deriving DecidableEq, Repr

/-! ## The system port (chapters 1, 14, 21) -/

/-- Class of an access (Table 14-1). -/
inductive AccClass where | slice | manager | service
  deriving DecidableEq, Repr

/-- What an access is for (Table 14-4). -/
inductive AccKind where
  | descriptor | fragList | outList | input | side | blob | output | chainState | record | tailWord
  | notification | exceptionEntry | exceptionNotify | mailboxNotify | promRead | promWrite | callerImage
  | journal
  deriving DecidableEq, Repr

/-- One part of an access, on one tag (R495, R650). -/
structure Part where
  tag : Nat
  addr : Nat
  len : Nat
  attr : BitVec 10
  data : Bytes
  done : Bool
  deriving DecidableEq, Repr

/-- An access of the system port, from its issue until the step that consumes its end (R32, R501). `pasid` is
the sideband of R460; `epoch` is the epoch it was checked under. `data` are the octets written, or read. -/
structure Acc where
  id : Nat
  chan : Nat
  kind : AccKind
  cls : AccClass
  owner : Nat
  req : Nat
  pair : Nat
  write : Bool
  addr : Nat
  len : Nat
  off : Nat
  epoch : U32
  pasid : Option (BitVec 20)
  parts : List Part
  data : Bytes
  err : Bool
  deriving DecidableEq, Repr

/-- The four channels (R35, R501, R650 to R652). `open` holds the accesses outstanding in order of issue;
`ended` holds accesses whose last part has completed and that a later command consumes; `late` holds the tags
retired by R652 whose response has not come, as channel and tag. -/
structure Port where
  outstanding : List Acc
  ended : List Acc
  nextId : Nat
  late : List (Nat × Nat)
  responseLimit : U32
  timeouts : U32
  lateResponses : U32
  portErrors : U64
  deriving DecidableEq, Repr

/-! ## Rings (chapter 2) -/

/-- STATE of a ring pair (Table 2-1). -/
inductive RingState where | disabled | enabled | draining | faulted
  deriving DecidableEq, Repr

/-- Ordering class (Table 3-1); `reserved` is the value 3, which the register accepts. -/
inductive OrderClass where | strict | association | unordered | reserved
  deriving DecidableEq, Repr

/-- A completion-ring entry issued and not yet published (R121, R122); `chan` is the channel of its request (R53). -/
structure CqEntry where
  acked : Bool
  notify : Bool
  chan : Nat
  deriving DecidableEq, Repr

/-- A ring pair: its registers (Table 2-3, Table 2-12, Table 17-6) and what the ring engine and Deliver keep
for it. `cq` lists the entries from CQ_TAIL on; `tailInFlight` is how many of them the tail-word write in
flight covers; `reread` lists the requests still to be read one by one (R498); `tailChan` is the channel of the last
tail-word write, which the notification that follows it takes (R53). -/
structure Ring where
  rqTail : Nat
  cqHead : Nat
  rqHead : Nat
  cqTail : Nat
  enable : Bool
  state : RingState
  faultCode : Nat
  faultPos : Nat
  rqBase : U64
  cqBase : U64
  rqLog2 : Nat
  cqLog2 : Nat
  orderClass : OrderClass
  fetchWeight : Nat
  tailWordAddr : U64
  notifyAddr : U64
  notifyData : U32
  coalCount : Nat
  coalTime : Nat
  completed : U64
  nextOrder : Nat
  descOut : Bool
  reread : List Nat
  cq : List CqEntry
  tailInFlight : Nat
  tailChan : Nat
  pendingNotes : Nat
  recordsLost : Bool
  journalBase : U64
  journalLog2 : Nat
  journalNext : Nat
  deriving DecidableEq, Repr

/-- The ring engine (R65): the pair key the next turn begins its search at, and whether fetch is stopped by
an ORDERLY reset (R549). -/
structure RingEngine where
  pairs : Tab Ring
  turn : Nat
  fetchStopped : Bool
  deriving DecidableEq, Repr

/-! ## Requests in flight (chapters 1 to 3) -/

/-- The request descriptor (Table 2-4), field by field. -/
structure Desc where
  opcode : Nat
  profile : Nat
  flags : BitVec 16
  orderClass : Nat
  linePort : Nat
  reserved0 : Nat
  seq : Nat
  handle : BitVec 32
  selector : BitVec 32
  inAddr : U64
  inLen : Nat
  aadLen : Nat
  fragCount : Nat
  outAddr : U64
  outCap : Nat
  icvLen : Nat
  reserved5 : Nat
  w6 : U64
  cookie : U64
  deriving DecidableEq, Repr

/-- Ordering key (R116). `unfixed` until the request has passed Fetch and Resolve. -/
inductive OrdKey where
  | unfixed
  | null
  | slot (n : Nat)
  | entry (n : Nat)
  deriving DecidableEq, Repr

/-- Where a request stands in Outer. `abortWait`: an ABORT fetched and not settled (R108); `resolve`: at
Resolve; `blobRead`: its cold blob is being read; `gate`: at the Seam gate; `gather`: past the gate;
`granted`: routed to a spread-ring member; `over`: its content is complete or it ended in Outer. -/
inductive Stage where
  | descRead | abortWait | resolve | blobRead | gate | gather | granted | over
  deriving DecidableEq, Repr

/-- Kind of a beat (Table 1-3). -/
inductive BeatKind where
  | head | iv | aad | data | expect | keyblob | cancel | out | icv | stat | fill
  deriving DecidableEq, Repr

/-- A beat: its tag word (Table 1-2) and its octets. -/
structure Beat where
  tag : U64
  data : Bytes
  deriving DecidableEq, Repr

/-- A STAT beat (Table 1-5) with its tag word; a content made in Outer crosses no Seam and has tag 0. -/
structure Stat where
  tag : U64
  ending : Ending
  cflags : BitVec 16
  inDone : Nat
  nonceUsed : U64
  deriving DecidableEq, Repr

/-- One output write of a request (R51, R572): offset in the output, length, acknowledged, ended. -/
structure Piece where
  off : Nat
  len : Nat
  acked : Bool
  ended : Bool
  deriving DecidableEq, Repr

/-- The journal entry of a PARTIAL request (R571). -/
inductive JournalState where | notDue | written | acked | lost
  deriving DecidableEq, Repr

/-- An exact entry (Table 7-2). `type` is TYPE (0 free), `id` the eight octets of ID. -/
structure Entry where
  scope : Nat
  type : Nat
  cold : Bool
  learned : Bool
  static : Bool
  homePort : Nat
  lastHit : BitVec 8
  id : Bytes
  target : BitVec 32
  deriving DecidableEq, Repr

/-- Learning mark of a request (R291, R292, R296). -/
inductive LearnMark where
  | noMark
  | candidate
  | flooded
  | hit (pos : Nat) (target : BitVec 32)
  deriving DecidableEq, Repr

/-- The key that a request has captured or unwrapped (R47, R234): octets of the key and its parameters. -/
structure KeyCopy where
  slot : Option Nat
  gen : BitVec 12
  transform : Nat
  secret : Bytes
  salt12 : Bytes
  sci : Bytes
  ssci : Bytes
  an : Nat
  deriving DecidableEq, Repr

/-- A chain-state item opened by Myeno (R95, R99): LINK, octets so far, the accumulator and the nonce; `took` tells that
the first link took a counter value, which is then the chain's nonce (R90). -/
structure ChainState where
  opcode : Nat
  link : Nat
  slot : Nat
  gen : BitVec 12
  an : Nat
  epoch : U32
  chainNonce : U64
  took : Bool
  iv : Bytes
  acc : Bytes
  aadDone : Nat
  textDone : Nat
  deriving DecidableEq, Repr

/-- What an engine computes for a request beyond its captured key: accumulator and lengths (the context of
04, "Contexts and lane scheduling"). -/
structure Work where
  iv : Bytes
  acc : Bytes
  aadDone : Nat
  textDone : Nat
  chain : Option ChainState
  deriving DecidableEq, Repr

/-- A segment computed on a lane whose compares are still to pass (R49): its output, and the work after it. -/
structure SegOut where
  out : Bytes
  work : Work
  deriving DecidableEq, Repr

/-- The record Myeno keeps of a REQ_ID (R26, R42 to R50, R109, R572). `headTag` is the tag of its HEAD; `beats` are the
inward beats taken after HEAD, in the order of R23: KEYBLOB beats, and the IV, AAD, DATA and EXPECT beats in staging;
`stagedAt` is the place of its first segment in the order in which first segments completed in staging (R117);
`lost` tells that its retry record or checkpoint is not intact (R310). -/
structure Myeno where
  headSeen : Bool
  headTag : U64
  ending : Option Ending
  checked : Bool
  exhaustedAtCheck : List Nat
  cold : Option KeyCopy
  coldChecked : Bool
  beats : List Beat
  stagedAt : Option Nat
  lastSeen : Bool
  totalWrong : Option Nat
  cancel : Option Ending
  stopAtSegment : Option Ending
  dispatched : Bool
  waitCounted : Bool
  orderCounted : Bool
  key : Option KeyCopy
  work : Work
  ckpt : Work
  nonceUsed : U64
  nonceValid : Bool
  takes : Bool
  commits : Bool
  softLimit : Bool
  held : Bool
  heldOut : List Beat
  heldSegs : Nat
  segIssued : Nat
  segComputed : Nat
  segPassed : Nat
  inLane : List SegOut
  outReleased : Nat
  tries : Nat
  excluded : List Nat
  retried : Bool
  recovering : Bool
  lost : Bool
  posture : Nat
  poisoned : Bool
  inDone : Nat
  statSent : Option Stat
  deriving DecidableEq, Repr

/-- The epochs, modulo 16, under which the accesses that carry a request's beats were checked (R28): descriptor,
blob; for the side block and the input, each access in order, as its octets and its epoch. -/
structure Epochs where
  desc : Nat
  blob : Nat
  side : List (Nat × Nat)
  input : List (Nat × Nat)
  deriving DecidableEq, Repr

/-- A key that came by KEYX with a grant (18 R603): the key, SEAL and EARLIER_EPOCH of its blob. -/
structure Transfer where
  key : KeyCopy
  sealing : Bool
  earlier : Bool
  deriving DecidableEq, Repr

/-- A request the ring engine has given a REQ_ID (R34). `found` is the entry that its lookup hit while the hit commit is
due (R278, R299). -/
structure Req where
  owner : Nat
  ring : Nat
  pos : Nat
  order : Nat
  chan : Nat
  cls : OrderClass
  d : Desc
  stage : Stage
  ord : OrdKey
  heldCounted : Bool
  keyHeldCounted : Bool
  retryHeld : Bool
  handle : BitVec 32
  entry : Option Nat
  blobAddr : U64
  blob : Bytes
  learn : LearnMark
  found : Option Entry
  foundKey : Bytes
  frags : List (Nat × Nat)
  fragsRead : Nat
  outFrags : List (Nat × Nat)
  outListRead : Nat
  outListDone : Bool
  listDone : Bool
  readOff : Nat
  inData : Bytes
  headSent : Bool
  sent : Nat
  sideDone : Bool
  side : Bytes
  seam : List Beat
  epochs : Epochs
  sidePart : Nat
  cancelSent : Bool
  outBeats : List Beat
  icvBeats : List Beat
  outOff : Nat
  pieces : List Piece
  chainWrite : Option Bytes
  chainWriteOut : Bool
  outEnd : Option Ending
  stat : Option Stat
  outerEnded : Bool
  faultAddr : U64
  cause : Nat
  journal : JournalState
  recordIssued : Bool
  finalOutDone : Nat
  tableLost : Bool
  abortLate : Bool
  abortWaiting : List Nat
  abortSent : Bool
  waitRecords : List Nat
  sseq : Nat
  member : Nat
  homeGrant : Option (Nat × Nat)
  keyx : Option Transfer
  m : Myeno
  deriving DecidableEq, Repr

/-- The holds counted by the ordering objects (Table 3-4), and MEMBER_LOSS_TIME. -/
structure Ordering where
  memberLossTime : U32
  fenceHolds : U64
  keyFenceHolds : U64
  retryHolds : U64
  nonceOrderHolds : U64
  deriving DecidableEq, Repr

/-! ## Spread rings (chapter 3) -/

/-- SPREAD_STATE (Table 3-4). -/
inductive SpreadState where | disabled | active | degraded
  deriving DecidableEq, Repr

/-- A spread entry nn, of which this instance is the home (Table 3-4). `perMember` counts the grants sent to each
member (R143), `refused` the members that had no room for the configuration (R600). -/
structure Spread where
  enable : Bool
  slice : Nat
  mgrRing : Bool
  ring : Nat
  memberCount : Nat
  members : Bytes
  credits : Nat
  state : SpreadState
  nextSseq : U32
  lost : BitVec 8
  grantsSent : U64
  perMember : Tab Nat
  refused : BitVec 8
  deriving DecidableEq, Repr

/-- What a member holds of a spread ring of another home (R143, R144, R600): its configuration, how many grants it has taken, whose
low 32 bits are the next MSEQ, and
the grants that came early. -/
structure MemberRing where
  home : Nat
  nn : Nat
  owner : Nat
  ring : Nat
  cls : OrderClass
  members : Nat
  index : Nat
  credits : Nat
  taken : Nat
  early : List Msg
  deriving DecidableEq, Repr

/-! ## Lanes (chapters 4 and 8) -/

/-- LANE_STATE (Table 4-15). -/
inductive LaneState where | off | idle | active | draining | outOfService
  deriving DecidableEq, Repr

/-- A context of a lane (R193, R195): the request in it, had it a turn, is it sequential. -/
structure Ctx where
  req : Nat
  hadTurn : Bool
  sequential : Bool
  deriving DecidableEq, Repr

/-- A cipher lane. `ctxs` lists its contexts in order of assignment; `current` is the request whose context is loaded,
`next` the place in `ctxs` at which the search of R195(2) begins; `bulk` counts the bulk blocks that the groups of R306 are
formed from. -/
structure Lane where
  state : LaneState
  ctxs : List Ctx
  current : Option Nat
  next : Nat
  blocks : U64
  bulk : U64
  activeTime : U64
  cause : Nat
  recent : List (BitVec 48)
  retesting : Bool
  retestFailed : Bool
  deriving DecidableEq, Repr

/-- The lanes and Dispatch (Table 4-15). `staged` counts the first segments that have completed in staging (R117). -/
structure Lanes where
  enable : BitVec 16
  powered : BitVec 16
  stageCap : Nat
  holdLimit : Nat
  pointer : Nat
  staged : Nat
  lanes : Tab Lane
  dispatched : U64
  segments : U64
  contextMoves : U64
  dispatchWaits : U64
  heldOpens : U64
  streamedOpens : U64
  tagFails : U64
  replayDuplicate : U64
  replayOld : U64
  replayCommitLost : U64
  deriving DecidableEq, Repr

/-! ## Key slots (chapters 5 and 6) -/

/-- State of a slot (Table 5-3). -/
inductive SlotState where
  | empty | erased | loaded | erasing | poisoned | exhausted | window
  deriving DecidableEq, Repr

/-- A hot slot (Table 5-2, Table 6-2). `owner` is OWNER: none when ALLOTTED is 0. `secret` is the key; KEY_SCHED, AUX and CHECK
are functions of it and of the other fields (`State.slotBytes`). `bitmap` is the replay bitmap of a window slot, `serves` the
slot it serves. `checkBad`: the CHECK held is not the one of the other bytes; `genLost`: the word that holds GEN cannot be
read (15 R513). The last two fields are the once-per-load flags of R248 and R260: `notReadyRaised` tells that the pair's TX
slot found this slot not ready to take TX since its load. -/
structure Slot where
  owner : Option Nat
  state : SlotState
  gen : BitVec 12
  secret : Bytes
  counter : U64
  soft : U64
  hard : U64
  salt12 : Bytes
  sci : Bytes
  ssci : Bytes
  transform : Nat
  sealing : Bool
  fromBlob : Bool
  earlierEpoch : Bool
  kind3 : Bool
  an : Nat
  paired : Bool
  tx : Bool
  autoRoll : Bool
  loadEpoch : U32
  winW : Nat
  winEn : Bool
  winSlot : Nat
  serves : Nat
  bitmap : BitVec 1024
  chainOpen : Bool
  chainOp : Nat
  nextLink : U32
  chainTag : U64
  replayH : U64
  checkBad : Bool
  genLost : Bool
  softRaised : Bool
  notReadyRaised : Bool
  deriving DecidableEq, Repr

/-- A key window (Table 5-4). -/
structure KeyWindow where
  handle : BitVec 32
  transform : Nat
  sealing : Bool
  winW : Nat
  winEn : Bool
  winSlot : Nat
  soft : U64
  hard : U64
  start : U64
  sci : U64
  ssci : BitVec 32
  secret : Tab U64
  salt : Tab U64
  busy : Bool
  status : Nat
  detail : Nat
  newHandle : BitVec 32
  deriving DecidableEq, Repr

/-- A load waiting to come into force (R226): what it will put into the slot, and how often its blocks have been recomputed
(R316). `source` tells which counter of
Table 5-9 it moves (0 key window, 1 wrapped, 2 generated, 3 public-key target); `req` the request, `page` the
key window. -/
structure Load where
  slot : Nat
  gen : BitVec 12
  source : Nat
  req : Nat
  page : Nat
  secret : Bytes
  salt12 : Bytes
  sci : Bytes
  ssci : Bytes
  transform : Nat
  sealing : Bool
  fromBlob : Bool
  earlierEpoch : Bool
  kind3 : Bool
  epoch : U32
  soft : U64
  hard : U64
  start : U64
  winW : Nat
  winEn : Bool
  winSlot : Nat
  tries : Nat
  deriving DecidableEq, Repr

/-- An erase in progress (R241, R242): the slot, the request whose record waits for it, and whether
ERASE_LIMIT has been reached. -/
structure Erase where
  slot : Nat
  req : Nat
  limitHit : Bool
  deriving DecidableEq, Repr

/-- An entry of the cold cache (R235). Entries of a set are kept most recently used first. -/
structure ColdEntry where
  set : Nat
  owner : Nat
  lead : Bytes
  tag : Bytes
  key : KeyCopy
  deriving DecidableEq, Repr

/-- ALLOT_STATUS (Table 5-9). -/
inductive AllotStatus where | done | busy | range | notEmpty | coldRange
  deriving DecidableEq, Repr

/-- What a chain-state item is bound to beside its own octets (R95): the slot, its generation, AN and the chain's nonce;
`took` tells that the first link took that nonce as a counter value. Table 2-11a gives these values no place in the item: the
model finds them by the WRAP_COUNT in the item's WRAP_NONCE (log entry 13). -/
structure ChainBound where
  slot : Nat
  gen : BitVec 12
  an : Nat
  nonce : U64
  took : Bool
  deriving DecidableEq, Repr

/-- The key cache, its objects (Tables 5-9 and 6-8) and Myeno's own PASID records (R221). `checkKeys` are the two keys of
CHECK, drawn at every reset (R217); `bound` holds what each chain-state item wrapped since reset is bound to. -/
structure Keys where
  slots : Tab Slot
  windows : Tab KeyWindow
  loads : List Load
  erases : List Erase
  coldCache : List ColdEntry
  coldCacheSlots : Nat
  eraseLimit : U32
  pasids : Tab (Option (BitVec 20))
  mgrPasid : BitVec 21
  wrapCount : U64
  checkKeys : Bytes
  bound : List (Nat × ChainBound)
  allotOwner : U16
  allotBase : U16
  allotCount : U32
  allotStatus : AllotStatus
  querySlot : U16
  windowLoads : U64
  wrappedLoads : U64
  keyGens : U64
  exports : U64
  erasesDone : U64
  eraseLimitHits : U64
  stale : U64
  notOwned : U64
  absent : U64
  poisonedRequests : U64
  checkFails : U32
  kwPasidDrops : U32
  coldHits : U64
  coldUnwraps : U64
  coldUnwrapFails : U64
  valuesTaken : U64
  valuesBurned : U64
  softCrossings : U32
  exhaustions : U32
  exhaustedRequests : U64
  wireLimitRefusals : U64
  manualRolls : U32
  autoRolls : U32
  rollsNotReady : U32
  deriving DecidableEq, Repr

/-! ## Tango, pacing and postures (chapter 8) -/

/-- POSTURE (Table 8-3). -/
inductive Posture where | assured | balanced | lean | quiet
  deriving DecidableEq, Repr

/-- Tango, pacing and posture objects (Table 8-4). `leaving`: the change in progress leaves LEAN and waits for
the supply; `entering`: it enters LEAN and waits for lanes 8 to 15. `fillLeft` are the FILL blocks that the filler's present
key and data still serve (R329). -/
structure Tango where
  posture : Posture
  changing : Bool
  previous : Posture
  leaving : Bool
  entering : Bool
  seamHalved : Bool
  postureChanges : U32
  mismatches : U64
  recomputations : U64
  recomputedOk : U64
  retryReleased : U64
  retryNoLane : U64
  laneFaultLimit : Nat
  laneFaultWindow : U32
  comparedBlocks : U64
  uncomparedBlocks : U64
  fillBlocks : U64
  fillLeft : Nat
  paceMargin : Nat
  paceLate : U64
  deriving DecidableEq, Repr

/-! ## Tagged FIFOs (chapter 12) -/

/-- The code held with a FIFO entry (Table 12-1); `slot` is a LENGTH entry reserved and not yet written. -/
inductive FifoTag where | data | length | error | slot
  deriving DecidableEq, Repr

/-- An entry of a tagged FIFO; `seq` is its SEQ (R440); `bad` marks a word its memory cannot correct (R448);
`packetWords` is, for a LENGTH entry, how many words of its packet follow (the boundary record of R441). -/
structure FifoWord where
  tag : FifoTag
  seq : Nat
  data : BitVec 48
  bad : Bool
  packetWords : Nat
  deriving DecidableEq, Repr

/-- A tagged FIFO (R442 to R453). `kept` are the entries from the older of M and R up to W; `read` says how many
of them lie behind R while a mark is set. `openAt` is the position in `kept` of the reserved LENGTH entry of
an open packet. `streamLeft` counts the words of a streamed packet still to be written (R447). -/
structure Fifo where
  kept : List FifoWord
  read : Nat
  marked : Bool
  markLost : Bool
  lostPending : Bool
  written : Nat
  openAt : Option Nat
  reserved : Nat
  level : Nat
  aboveLevel : Bool
  lastSent : Option FifoWord
  sentConsumed : Bool
  sendDrops : U32
  streamLeft : Nat
  deriving DecidableEq, Repr

/-- Counters of a FIFO kind (Table 12-6). -/
structure FifoKind where
  corrected : U64
  uncorrectable : U64
  marksLost : U32
  lossyDiscards : U64
  sendDropsTotal : U64
  deriving DecidableEq, Repr

/-- The FIFOs software can see (Table 12-5, kinds 0 to 4), by owner; the event queue is owner 512. -/
structure Fifos where
  pke : Tab Fifo
  rng : Tab Fifo
  toManager : Tab Fifo
  toSlice : Tab Fifo
  events : Fifo
  kinds : Tab FifoKind
  deriving DecidableEq, Repr

/-! ## Slices (chapter 13) -/

/-- State of a slice (Table 13-5). -/
inductive SliceState where | absent | active | quiescing | quiesced | resetting | removing
  deriving DecidableEq, Repr

/-- CMD_STATUS (R463). -/
inductive CmdStatus where | done | busy | wrongState | pasidInvalid | pasidInUse | noRng | vault
  deriving DecidableEq, Repr

/-- PROM_STATE (Table 13-9). -/
inductive PromState where | off | logging | swapping | lost
  deriving DecidableEq, Repr

/-- The Promenade log of a slice (R479 to R483). `filter` lists the pages already set in the active bitmap;
`waiting` lists the pages to be set, each with the bitmap that was active at its data write (false for A);
`beforeSwap` lists the accesses that PROM_SWAP_DONE waits for. -/
structure Prom where
  enable : Bool
  baseA : U64
  baseB : U64
  windowBase : U64
  windowPages : U32
  activeB : Bool
  swapDone : Bool
  state : PromState
  outside : U64
  bitsSet : U64
  filter : List Nat
  waiting : List (Nat × Bool)
  beforeSwap : List Nat
  deriving DecidableEq, Repr

/-- A slice (Table 13-9, Table 13-3). -/
structure Slice where
  state : SliceState
  pasid : U32
  cmdStatus : CmdStatus
  cancelMode : Bool
  quiesceLimit : U32
  ringPairs : Nat
  creations : U32
  pageDrops : U32
  escalations : U32
  pending : Bool
  cancelling : Bool
  mbAddr : U64
  mbData : U32
  prom : Prom
  deriving DecidableEq, Repr

/-- The slices and the manager's page (Table 13-9). -/
structure Slices where
  tab : Tab Slice
  mgrPasid : BitVec 21
  mgrPageDrops : U32
  deriving DecidableEq, Repr

/-- An exception ring of a page (Table 7-7). -/
structure XRing where
  base : U64
  log2 : Nat
  enable : Bool
  tail : Nat
  head : Nat
  notifyAddr : U64
  notifyData : U32
  lost : U32
  waiting : List (List Nat)
  writing : Option Nat
  writingNotify : Bool
  deriving DecidableEq, Repr

/-! ## Association directory (chapter 7) -/

/-- A prefix of a trie (R281, R282): family 4 or 6, scope, the address bits as a number, length, result. -/
structure Prefix where
  family : Nat
  scope : Nat
  bits : Nat
  len : Nat
  result : BitVec 32
  deriving DecidableEq, Repr

/-- A line port (Table 7-10). -/
structure LinePort where
  owner : Option Nat
  scope : Nat
  espIndexed : Bool
  coldBase : U64
  coldCount : Nat
  defaultSci : Bytes
  prefixSource : Nat
  learn : Bool
  learnHandle : BitVec 32
  learnLimit : Nat
  flood : Bool
  moveAllow : Bool
  holdDown : Nat
  ageLimit : Nat
  learnedCount : Nat
  learnDrops : U64
  learnFloods : U64
  learnDuplicates : U64
  moves : U32
  moveConflicts : U64
  hits : U64
  misses : U64
  deriving DecidableEq, Repr

/-- The directory (Table 7-9). `sweep` lists the positions whose entries the sweep has read as aged once and not yet again
(R298); `unlinked` the trie nodes that were unlinked as damaged and not built anew, as family, scope, depth in octets and the
first address bits (15 R514). -/
structure Directory where
  ports : Tab LinePort
  exact : Tab Entry
  prefixes : List Prefix
  seed0 : Bytes
  seed1 : Bytes
  ageTick : U32
  tickNow : BitVec 8
  exactLookups : U64
  exactMisses : U64
  prefixLookups : U64
  prefixMisses : U64
  insertFull : U32
  relocations : U64
  agedOut : U64
  ageSurvived : U64
  poisonRemoved : U32
  xrings : Tab XRing
  recountDue : Bool
  sweep : List Nat
  unlinked : List (Nat × Nat × Nat × Nat)
  deriving DecidableEq, Repr

/-! ## Digest units (chapter 9) -/

/-- A hash computation: algorithm, state octets, octets buffered and not yet absorbed, length so far. -/
structure HashWork where
  alg : Nat
  st : Bytes
  buf : Bytes
  total : Nat
  deriving DecidableEq, Repr

/-- State of a digest unit (Table 9-11). -/
inductive UnitState where | off | idle | active | draining | outOfService
  deriving DecidableEq, Repr

/-- A context of a digest unit that a request holds, or an owner's register block (R337). -/
inductive UnitCtx where
  | req (rid : Nat)
  | page (owner : Nat)
  deriving DecidableEq, Repr

/-- An internal job of the digest units (R340): the PKE_RUN it serves, its blocks left, how often its next block has been
recomputed, and the units that failed there. -/
structure Internal where
  req : Option Nat
  blocks : Nat
  tries : Nat
  excluded : List Nat
  deriving DecidableEq, Repr

/-- A digest unit. `ctxs` are the contexts of requests and register blocks in order of assignment; `internal` is the context
reserved for internal users. `current` is the context whose turn has begun and not ended, `next` the place in `ctxs` at which
the search for the next turn begins, `internalTurn` the blocks that the internal job's turn has run, `internalLast` tells
that the last turn was one (R339). `failed`: mismatches have taken the unit out of service (R344). -/
structure DigestUnit where
  state : UnitState
  failed : Bool
  ctxs : List UnitCtx
  internal : Option Internal
  current : Option UnitCtx
  next : Nat
  internalTurn : Nat
  internalLast : Bool
  blocks : U64
  recent : List (BitVec 48)
  retesting : Bool
  deriving DecidableEq, Repr

/-- A digest register block (Table 9-8) and its computation; `reqId` is the REQ_ID of its beats while it is open (R356). -/
structure DigestPage where
  alg : Nat
  compare : Bool
  keyed : Bool
  outLen : Nat
  handle : BitVec 32
  isOpen : Bool
  done : Bool
  equal : Bool
  notEqual : Bool
  error : Nat
  kstatus : Nat
  kdetail : Nat
  expect : Bytes
  result : Bytes
  stateRec : Bytes
  work : HashWork
  key : Option KeyCopy
  lastPending : Bool
  overrun : Bool
  resultRead : Bool
  reqId : Option Nat
  unit : Nat
  tries : Nat
  excluded : List Nat
  backlog : Bytes
  deriving DecidableEq, Repr

/-- The digest units and their counters (Table 9-11). `queue` are the internal jobs that wait for a context. -/
structure Digest where
  enable : BitVec 8
  retestFailed : BitVec 8
  pointer : Nat
  queue : List Internal
  units : Tab DigestUnit
  pages : Tab DigestPage
  requests : U64
  direct : U64
  internalBlocks : U64
  equal : U64
  notEqual : U64
  silentRestarts : U64
  overruns : U32
  noContext : U32
  saved : U64
  resumed : U64
  refused : U32
  mismatches : U64
  recomputations : U64
  deriving DecidableEq, Repr

/-! ## Public-key engine (chapter 10) -/

/-- A job of the public-key engine: the request, its context of the engine (R365, R367), the slot whose secret it holds, the
routine's steps done and in all, how often it was passed over, whether its context is being zeroed, its iterations, its draw. -/
structure Job where
  req : Nat
  ctx : Nat
  slot : Option Nat
  steps : Nat
  total : Nat
  passes : Nat
  zeroing : Bool
  iters : Nat
  drawn : Bytes
  deriving DecidableEq, Repr

/-- A public-key engine (Table 10-13). `failed`: mismatches have taken it out of service (R391). -/
structure Engine where
  state : UnitState
  failed : Bool
  jobs : List Job
  current : Option Nat
  steps : U64
  recent : List (BitVec 48)
  retesting : Bool
  deriving DecidableEq, Repr

/-- CALLER_STATE (Table 10-3). -/
inductive CallerState where | off | verifying | ready | recovering | faulted | recoveryImage
  deriving DecidableEq, Repr

/-- The public-key engines and the Caller. `accs`: the accumulator of each engine; `operands`: the operand memory of each
context, context c of engine e at 4e + c, in 64-bit words (R365); `areas` and `threads`: the area of Caller data memory and the
registers of the thread of each context (R369, R392), no octets for zeros. `instrLen`: how many octets of the image that the
Caller's memories hold are instructions (R369, R371). -/
structure Pke where
  accs : List (BitVec 8320)
  operands : List (Tab U64)
  areas : List (Tab U64)
  threads : List Bytes
  instrLen : Nat
  enable : BitVec 4
  retestFailed : BitVec 4
  starveLimit : Nat
  pointer : Nat
  engines : Tab Engine
  caller : CallerState
  callerImageAddr : U64
  routineSet : U64
  imageDigest : Bytes
  vendorKeyHashes : Bytes
  imageSigned : Bool
  lockstepFaults : U32
  lockstepLimit : Nat
  lockstepRecent : List (BitVec 48)
  jobs : U64
  rejects : U64
  invariantFails : U32
  yields : U64
  starveGrants : U64
  restarts : U64
  waits : U64
  targetLoads : U64
  targetStale : U32
  mldsaIterations : U64
  samplerExtensions : U32
  deriving DecidableEq, Repr

/-! ## Random number service (chapter 11) -/

/-- RNG_STATE (Table 11-6). -/
inductive RngState where | settling | testing | filling | running | stopped | rawSample | startFailed
  deriving DecidableEq, Repr

/-- SOURCE_ROLE (Table 11-6). -/
inductive SourceRole where | inUse | spare | failed
  deriving DecidableEq, Repr

/-- A noise source and its continuous tests (R404, R405); `input`: its samples for the conditioner's next input, oldest first (R407). -/
structure Noise where
  role : SourceRole
  passed : Bool
  rctFails : U32
  aptFails : U32
  longestRun : Nat
  aptMax : Nat
  samples : U64
  lastSample : Option Bool
  run : Nat
  windowFirst : Bool
  windowCount : Nat
  windowPos : Nat
  startCount : Nat
  startFailed : Bool
  input : List Bool
  deriving DecidableEq, Repr

/-- A conditioned block (R407) that waits for the proportion windows of its samples to close (R408): `parts` gives, for each of its
sources, the numbers of its first and its last sample. -/
structure Conditioned where
  block : Bytes
  parts : List (Nat × Nat × Nat)
  deriving DecidableEq, Repr

/-- The random number service. `settled`: the settling time is over; `order`: the sources in use by their position in the
conditioner's input; `formed`: the conditioned blocks not yet in the pool, oldest first; `pool`: the blocks in it; `drbgKey` and
`drbgV`: the state of the DRBG (R409, R412); `reservoirs`: the octets of each lane's; `calls`: the generate calls since the last reseed; `fills` the
RNG_FILL requests in order of dispatch, `refills` the ports in order of request, `fillTurn` whose turn it is (R416);
`rawReturn` the state that raw-sample mode was entered from, when it stays in force after it; `rawRun` the run captured,
`rawRunSource` its source and `rawNext` the next word of its packet; `draws` numbers the draws made so far, the counter
every free draw is applied to; `started` tells that the reset-time keys are drawn. -/
structure Rng where
  state : RngState
  stopCause : Nat
  compat : Bool
  rawMode : Bool
  rawSource : Nat
  reseedInterval : Nat
  firstRelease : U32
  blocks : U64
  generateCalls : U64
  reseeds : U64
  reseedWaits : U64
  internalBits : U64
  portWords : U64
  fillBytes : U64
  unavailable : U64
  sourceSwitches : U32
  drbgMismatches : U32
  rawRuns : U32
  sources : Tab Noise
  settled : Bool
  order : List Nat
  pool : List Bytes
  formed : List Conditioned
  calls : Nat
  drbgKey : Bytes
  drbgV : Bytes
  seeded : Bool
  started : Bool
  reservoirs : Tab Bytes
  fills : List Nat
  refills : List Nat
  fillTurn : Bool
  blockTries : Nat
  rawReturn : RngState
  rawRun : Bytes
  rawRunSource : Nat
  rawNext : Nat
  draws : Nat
  deriving DecidableEq, Repr

/-! ## Memory integrity (chapter 15) -/

/-- One store of the scrubber (Table 15-3). -/
structure Store where
  scrubPeriod : U32
  scrubPasses : U64
  corrected : U64
  rebuilt : U64
  miscorrections : U32
  uncorrectable : U32
  correctedLevel : U32
  lastError : U64
  repeats : U32
  position : Nat
  passCorrected : List Nat
  lastPassCorrected : List Nat
  levelRaised : Bool
  deriving DecidableEq, Repr

/-- What a line held when an injection was armed (R517), for the stores whose layout the specification gives: a slot, a
bucket of the directory, four entries of the request table. -/
inductive LineData where
  | slot (x : Slot)
  | bucket (es : List Entry)
  | table (rs : List (Option (Nat × U64 × Nat × Nat × Nat)))
  | other
  deriving DecidableEq, Repr

/-- An injection armed (R517): store, line, word of the line or 8 for P, bits to flip, what the line held; `found` once
its words were found uncorrectable. -/
structure Damage where
  store : Nat
  line : Nat
  target : Nat
  mask : BitVec 72
  held : LineData
  found : Bool
  deriving DecidableEq, Repr

/-- Memory integrity (Table 15-3). -/
structure Memory where
  injectStore : Nat
  injectLine : U32
  injectTarget : Nat
  injectMask : BitVec 72
  damages : List Damage
  stores : Tab Store
  trieDamage : U32
  trieDamageAddr : U64
  learnRecounts : U32
  deriving DecidableEq, Repr

/-! ## Life cycle, debug and identity (chapter 16) -/

/-- A field of one antifuse copy: bits programmed (R525, R526) and whether its reads are unstable. -/
structure FuseField where
  bits : Nat
  unstable : Bool
  deriving DecidableEq, Repr

/-- Life-cycle states (Table 16-1). -/
inductive LcState where
  | blank | testUnlocked (j : Nat) | testLocked (j : Nat) | develop | mission | retire | scrap | unknown
  deriving DecidableEq, Repr

/-- A bank of a device root (R535). -/
inductive RootBank where | blank | valid (secret : Bytes) | spoilt
  deriving DecidableEq, Repr

/-- A place that the antifuse programmer works on: bank of a root, burn field of a token, field of a copy. -/
inductive FusePlace where
  | bank (root bank : Nat)
  | burn (token : Nat)
  | copy (copy field : Nat)
  deriving DecidableEq, Repr

/-- Programming in progress (R530): target code, the places still to be programmed and verified in order, the first
in progress, the root drawn for it, and whether a SCRAP waits (R534). -/
structure Programming where
  target : Nat
  todo : List FusePlace
  root : Bytes
  scrapWaits : Bool
  deriving DecidableEq, Repr

/-- The life-cycle controller, debug authorisation and attestation (Tables 16-8 to 16-13). -/
structure LifeCycle where
  copies : Tab FuseField
  tokens : Tab Bytes
  burned : Tab FuseField
  roots : Tab RootBank
  state : LcState
  request : Nat
  status : Nat
  pending : Nat
  interrupted : Bool
  interruptedTarget : Nat
  interruptedField : Nat
  votes : U32
  token : Bytes
  tokenFails : U32
  programming : Option Programming
  debugNonce : Bytes
  nonceValid : Bool
  debugCert : Bytes
  debugStatus : Nat
  debugChecking : Bool
  debugRights : BitVec 32
  debugCounter : U32
  debugAuthHashes : Bytes
  certsAccepted : U32
  certsRefused : U32
  attestChallenge : Bytes
  attestSlice : U16
  attestState : Nat
  attestReport : Bytes
  attestCaptured : Bytes
  reportCount : U32
  deviceId : Bytes
  deviceIdPub : Bytes
  aliasCert : Bytes
  deriving DecidableEq, Repr

/-! ## Start, faults and tamper (chapters 17 and 21) -/

/-- START_STATE (Table 17-6). -/
inductive StartState where
  | lcDecode | selfTest | callerLoad | running | startHalt | pavane | tamperHold | tamperWait | scrap
  | resetting
  deriving DecidableEq, Repr

/-- Reset kinds (Table 17-1). -/
inductive ResetKind where | powerOn | pin | immediate | orderly
  deriving DecidableEq, Repr

/-- Start and recovery (Tables 17-3, 17-6). `step` is the next start step to end; `failedAtStep0` is
FAILED_STARTS as read at step 0; `vaultSeeds` holds the owners' wrap seeds,
`previousRoot` the root in use at the previous start: 0 none, 1 development, 2 production; `imageDenied` and `imageDue` tell of a
read of the Caller image that was denied, or waits for its clock. -/
structure Start where
  state : StartState
  step : Nat
  step0Done : Bool
  lastReset : ResetKind
  startTime : U32
  startBegan : BitVec 48
  drainLimit : U32
  orderlyWaitsLc : Bool
  drainStarted : Bool
  failedStarts : Nat
  failedAtStep0 : Nat
  failReason : Nat
  failDetail : U32
  failHistory : U32
  retryTime : U32
  retryArmed : Bool
  vaultRepairs : U32
  recoveryImageAddr : U64
  testsPassed : Nat
  testsRunning : List Nat
  tamperVaultErase : Bool
  tamperAlarms : U32
  zeroiseTime : U16
  erasePending : Bool
  journalLost : U64
  alarmPending : Bool
  bootEpoch : U32
  longTermKeys : Bytes
  vaultSeeds : Tab Bytes
  previousRoot : Nat
  imageDenied : Bool
  imageDue : Bool
  vaultValid : Bool
  inReset : Bool
  powerGood : Bool
  completed : Bool
  deriving DecidableEq, Repr

/-- States of the test access port's controller (IEEE 1149.1). -/
inductive TapState where
  | reset | idle | selectDr | captureDr | shiftDr | exit1Dr | pauseDr | exit2Dr | updateDr
  | selectIr | captureIr | shiftIr | exit1Ir | pauseIr | exit2Ir | updateIr
  deriving DecidableEq, Repr

/-- What its instruction register selects (21 R669, 16 R523): the mandatory instructions, and the private ones that reach the scan
chains of Outer and of Myeno. -/
inductive TapInstr where | bypass | sample | preload | extest | outerScan | myenoScan
  deriving DecidableEq, Repr

/-- The test access port (21 R669): its pins TMS, TDI, TDO and TRST_N, its controller, the instruction in force, the stages that
shift, and the boundary cells as last updated. -/
structure Tap where
  tms : Bool
  tdi : Bool
  tdo : Bool
  trstN : Bool
  state : TapState
  instr : TapInstr
  ir : List Bool
  dr : List Bool
  boundary : List Bool
  deriving DecidableEq, Repr

/-- The test access port at power-on: Test-Logic-Reset with BYPASS in force, TMS and TDI high. -/
def Tap.reset : Tap :=
  { tms := true, tdi := true, tdo := false, trstN := true, state := .reset, instr := .bypass, ir := [], dr := [], boundary := [] }

/-- Ports, pins, supply and test access (Table 21-16). `vreqNext` is the voltage asked for and `vreqSteps` the cycles of TS_CLK until
VREQ_VALID rises again (R661). -/
structure Pins where
  tap : Tap
  htEnabled : Bool
  cascadeStrap : Nat
  rateStrap : Nat
  clocksPresent : BitVec 9
  htPartialDrops : U32
  phycTimeouts : U32
  vreq : Nat
  vreqValid : Bool
  vreqNext : Nat
  vreqSteps : Nat
  supplyReached : Bool
  vreqLimit : U32
  vreqTimeouts : U32
  tamperEnable : BitVec 8
  tamperActive : BitVec 8
  tamperCause : BitVec 8
  meshFaultLine : BitVec 20
  meshOpen : BitVec 20
  meshCross : BitVec 20
  meshSeeds : Nat
  iso : Bool
  resetN : Bool
  detectorsArmed : Bool
  vppOk : Bool
  htData : U64
  deriving DecidableEq, Repr

/-! ## Link (chapter 18) -/

/-- PORT_STATE (Table 18-6). -/
inductive LinkState where
  | down | lock | train | align | identify | up | failed
  deriving DecidableEq, Repr

/-- A message in a link receive FIFO (R581): the credits its entries give back when it is taken, and the count at
its arrival (R604). -/
structure RxMsg where
  msg : Msg
  cost : Nat
  arrived : BitVec 48
  deriving DecidableEq, Repr

/-- A Lovaov port (Table 18-13). `kept` are the DATA frames sent and not acknowledged, with their LSEQ (R580);
`queued` the messages that wait for a frame; `rx` the link receive FIFO; `bestPre` and `bestPost` the best trial of
each receive lane so far (R584), `basePost` the best post when the last two trials began, `trained` the lanes that a trial has
answered for (21 R657); `lastUp` TX_COEFF of the last UP period. -/
structure LinkPort where
  enable : Bool
  state : LinkState
  failCause : Nat
  role : Nat
  peerInstance : Nat
  peerPort : Nat
  peerFixed : Bool
  peerRole : Nat
  peerDevice : Bytes
  identSeen : Bool
  width : Nat
  laneSet : Nat
  laneStatus : List Nat
  polarity : BitVec 8
  reversed : Bool
  txCoeff : Bytes
  lastUp : Option Bytes
  eye : Bytes
  bestPre : Bytes
  bestPost : Bytes
  trial : Nat
  trained : BitVec 8
  basePost : Bytes
  hopDelay : U16
  crcErrors : U64
  replays : U64
  framesTx : U64
  framesRx : U64
  downCount : U32
  phyReady : Bool
  lseqTx : Nat
  lseqRx : Nat
  kept : List (Nat × List Msg)
  replayRuns : Nat
  credits : Nat
  creditsDue : Nat
  lackDue : Bool
  queued : List Msg
  rx : List RxMsg
  echoDelays : List Nat
  echoSent : Option (BitVec 48)
  relockDue : Bool
  deriving DecidableEq, Repr

/-- What the cascade map holds for an instance (R592), and the end-to-end state towards it (R595 to R597): `eastUp`
and `westUp` as its last MAP gave them, `everReached` for FORMING, `expectPseq` the PSEQ expected next from it,
`delivered` the messages delivered from it since the last ACK_E2E, `share` this
instance's secret share of a transport-key exchange under way, `setup` what has come of the peer's (R601). -/
structure Peer where
  deviceId : Bytes
  eastUp : Bool
  westUp : Bool
  everReached : Bool
  reach : BitVec 2
  hopsEast : Nat
  hopsWest : Nat
  nextPseq : Nat
  restartDue : Bool
  pending : List Msg
  expectPseq : Option Nat
  early : List Msg
  delivered : Nat
  share : Bytes
  setup : Bytes
  deriving DecidableEq, Repr

/-- CASCADE_STATE (Table 18-12). -/
inductive CascadeState where | standalone | forming | ring | wrapped | partitioned
  deriving DecidableEq, Repr

/-- The link (Tables 18-12, 18-13). `waiting` are the ordered messages that wait for space (R596); `headId` the
first octets of the head's DEVICE_ID, once known. -/
structure Link where
  cascadeSize : Nat
  linkRate : Nat
  peerIds : Tab Bytes
  instanceNo : Nat
  isFixed : Bool
  state : CascadeState
  roleSwapped : Bool
  e2eTime : U32
  trainMode : Nat
  eyeMin : Nat
  txFixed : Bytes
  ports : Tab LinkPort
  map : Tab Peer
  headId : Bytes
  waiting : List Msg
  transportKeys : Tab Bytes
  keyxCounts : Tab Nat
  keyxHeld : List Msg
  msgTx : U64
  msgRx : U64
  forwarded : U64
  e2eResends : U64
  duplicatesDropped : U64
  hopLimitDrops : U32
  unknownKind : U32
  eventsUnrouted : U64
  doorbellsForwarded : U64
  doorbellDrops : U32
  restarts : U32
  keyxSent : U64
  keyxRefused : U32
  memberRings : List MemberRing
  slewing : Int
  deriving DecidableEq, Repr

/-! ## Object dictionary (chapter 19) -/

/-- A dictionary operation: 1 READ, 2 WRITE, 3 DESCRIBE, its object and its operands, and who gave it (none for
the local window, an instance for a DICT_REQ). -/
structure DictOp where
  op : Nat
  index : Nat
  sub : Nat
  final : Bool
  offset : Nat
  count : Nat
  target : Nat
  data : Bytes
  foreign : Option Nat
  deriving DecidableEq, Repr

/-- The outcome of an operation (Table 19-4). -/
structure DictResult where
  result : Nat
  type : Nat
  access : Nat
  size : Nat
  count : Nat
  data : Bytes
  deriving DecidableEq, Repr

/-- The dictionary window (Table 19-3). `current` is the operation in progress with its outcome; `snapshot` and
`segments` are the segmented READ and WRITE buffers of the window (key 0) and of the link (key 1). -/
structure Dict where
  indexReg : U64
  busy : Bool
  status : DictResult
  ops : Nat
  data : Tab U64
  current : Option (DictOp × Option DictResult)
  snapshot : Tab (Nat × Bytes)
  segments : Tab (Nat × Bytes)
  enumCursor : U32
  remoteTime : U32
  opsLocal : U64
  opsRemote : U64
  opsRefused : U64
  sequenceErrors : U64
  opsDropped : U64
  lateResponses : U64
  noResponses : U64
  remoteDiscarded : U64
  tag : Nat
  awaiting : Option Nat
  deriving DecidableEq, Repr

/-! ## Identity and seal (chapter 0) -/

/-- SEAL_STATE (Table 0-2). -/
inductive SealState where | certified | changed | notApplicable
  deriving DecidableEq, Repr

/-- Identity and the seal (R1 to R8). `recomputing`: SEAL_DIGEST is to follow; `changed`: a field of the record has changed
since it did, so that the seal-change event follows; `measured`: an image has been measured since reset. -/
structure Ident where
  fwVersion : U32
  fwImage : Bytes
  sealDigest : Bytes
  sealReference : Bytes
  sealState : SealState
  sealRecord : Bytes
  recomputing : Bool
  changed : Bool
  measured : Bool
  sealChanges : U32
  idleTime : U64
  deriving DecidableEq, Repr

/-! ## The whole state -/

/-- The T9. `now` is the instance's copy of the cascade timestamp (R152); `pending` the queue of commands that
are waiting, first in, first out. -/
structure State where
  ident : Ident
  engine : RingEngine
  reqs : Tab Req
  order : Ordering
  spread : Tab Spread
  lanes : Lanes
  keys : Keys
  dir : Directory
  tango : Tango
  digest : Digest
  pke : Pke
  rng : Rng
  fifos : Fifos
  slices : Slices
  access : Access
  port : Port
  memory : Memory
  lc : LifeCycle
  start : Start
  pins : Pins
  link : Link
  dict : Dict
  events : Events
  now : BitVec 48
  pending : List Instr
  deriving DecidableEq, Repr

/-! ## Reset values

What an unlisted index of each table reads as, and the state right after reset. A value the specification does
not give is named in notes/assumptions. -/

/-- `n` zero octets. -/
def zeros (n : Nat) : Bytes := List.replicate n 0

/-- Severity of source `i` (Table 20-2, Table 20-3); none for a reserved source (R631). -/
def severityOf (i : Nat) : Option Severity :=
  if i < 0x0B then some .alarm
  else if i = 0x0B then some .info
  else if i = 0x0C then some .warn
  else if i = 0x0D then some .fault
  else if i = 0x0E then some .info
  else if i = 0x0F then some .warn
  else if i = 0x40 then some .alarm
  else if i = 0x41 then some .fault
  else if i = 0x42 ∨ i = 0x43 then some .warn
  else if i = 0x44 then some .info
  else if 0x60 ≤ i ∧ i < 0x70 then some .warn
  else if 0x70 ≤ i ∧ i < 0x80 then some .fault
  else if 0x80 ≤ i ∧ i < 0x88 then some .warn
  else if 0x88 ≤ i ∧ i < 0x90 then some .fault
  else if 0x90 ≤ i ∧ i < 0x94 then some .warn
  else if 0x94 ≤ i ∧ i < 0x98 then some .fault
  else if i = 0x98 then some .alarm
  else if i = 0x99 then some .warn
  else if i = 0xA3 then some .info
  else if i = 0xC3 then some .alarm
  else if 0xA0 ≤ i ∧ i < 0xE0 then
    if i % 8 = 0 then some .info
    else if i % 8 = 1 then some .warn
    else if i % 8 = 2 then
      if i = 0xA2 ∨ i = 0xD2 then some .fault
      else if i = 0xBA then some .alarm
      else some .warn
    else none
  else if 0xE0 ≤ i ∧ i < 0xE6 then some .warn
  else if 0x100 ≤ i ∧ i < 0x104 then some .fault
  else if i = 0x104 then some .info
  else if i = 0x105 ∨ i = 0x106 then some .warn
  else if i = 0x107 ∨ i = 0x108 then some .fault
  else if i = 0x109 then some .warn
  else if i = 0x10A then some .alarm
  else if i = 0x140 then some .info
  else if i = 0x141 ∨ i = 0x142 then some .warn
  else if 0x160 ≤ i ∧ i < 0x16C then some .warn
  else if i = 0x16C ∨ i = 0x16D then some .info
  else if i = 0x16E then some .warn
  else if 0x170 ≤ i ∧ i < 0x174 then some .warn
  else if i = 0x190 then some .warn
  else if i = 0x191 then some .info
  else if i = 0x192 then some .warn
  else if i = 0x193 then some .fault
  else if i = 0x1D0 ∨ i = 0x1D2 ∨ i = 0x1D4 then some .info
  else if i = 0x210 then some .alarm
  else if i = 0x211 then some .warn
  else if i = 0x212 then some .fault
  else if i = 0x228 then some .alarm
  else if i = 0x229 then some .warn
  else if i = 0x22A then some .alarm
  else if i = 0x22B then some .info
  else if i = 0x22C then some .warn
  else if i = 0x238 then some .info
  else if i = 0x239 then some .fault
  else if i = 0x23A then some .alarm
  else if i = 0x248 then some .warn
  else if i = 0x249 then some .fault
  else if i = 0x24A then some .warn
  else none

/-- Default ROUTE of a source (R638). -/
def defaultRoute (i : Nat) : BitVec 10 :=
  match severityOf i with
  | some .alarm => 0x301#10
  | some .fault => 0x302#10
  | some .warn => 0x300#10
  | some .info => 0x100#10
  | none => 0#10

/-- A source at reset (Table 20-6). -/
def Source.dflt (i : Nat) : Source :=
  { status := false, mask := false, route := defaultRoute i, count := 0, lastTime := 0, lastArg := 0,
    lastInfo := 0, zeroise := decide (i < 8) }

/-- A region rule at reset (R494). -/
def Rule.dflt (_ : Nat) : Rule :=
  { enable := false, base := 0, limit := 0, owners := 0, perm := 0, attr := 0 }

/-- A window at reset: window 0 covers the whole space for reads (R494). -/
def Window.dflt (w : Nat) : Window :=
  if w = 0 then
    { enable := true, base := 0, limit := 0xFFFFFFFFFFFFF000#64, perm := 1, attr := 2 }
  else { enable := false, base := 0, limit := 0, perm := 0, attr := 0 }

/-- A ring pair at reset (Table 2-3, Table 2-12, Table 17-6). -/
def Ring.dflt (_ : Nat) : Ring :=
  { rqTail := 0, cqHead := 0, rqHead := 0, cqTail := 0, enable := false, state := .disabled, faultCode := 0,
    faultPos := 0, rqBase := 0, cqBase := 0, rqLog2 := 4, cqLog2 := 4, orderClass := .strict,
    fetchWeight := 1, tailWordAddr := 0, notifyAddr := 0, notifyData := 0, coalCount := 1, coalTime := 0,
    completed := 0, nextOrder := 0, descOut := false, reread := [], cq := [], tailInFlight := 0, tailChan := 0,
    pendingNotes := 0, recordsLost := false, journalBase := 0, journalLog2 := 0, journalNext := 0 }

/-- A spread entry at reset (Table 3-4). -/
def Spread.dflt (_ : Nat) : Spread :=
  { enable := false, slice := 0, mgrRing := false, ring := 0, memberCount := 1,
    members := List.replicate 8 0xFF, credits := 256, state := .disabled, nextSseq := 0, lost := 0,
    grantsSent := 0, perMember := [], refused := 0 }

/-- A lane at reset (Table 4-15). -/
def Lane.dflt (_ : Nat) : Lane :=
  { state := .idle, ctxs := [], current := none, next := 0, blocks := 0, bulk := 0, activeTime := 0, cause := 0,
    recent := [], retesting := false, retestFailed := false }

/-- A slot at power-on: EMPTY, allotted to no one, generation 0x000. -/
def Slot.dflt (_ : Nat) : Slot :=
  { owner := none, state := .empty, gen := 0, secret := [], counter := 0, soft := 0, hard := 0, salt12 := [],
    sci := [], ssci := [], transform := 0, sealing := false, fromBlob := false, earlierEpoch := false,
    kind3 := false, an := 0, paired := false, tx := false, autoRoll := false, loadEpoch := 0, winW := 0,
    winEn := false, winSlot := 0, serves := 0, bitmap := 0, chainOpen := false, chainOp := 0, nextLink := 0,
    chainTag := 0, replayH := 0, checkBad := false, genLost := false, softRaised := false, notReadyRaised := false }

/-- A key window at reset (Table 5-4). -/
def KeyWindow.dflt (_ : Nat) : KeyWindow :=
  { handle := 0, transform := 0, sealing := false, winW := 0, winEn := false, winSlot := 0, soft := 0,
    hard := 0, start := 1, sci := 0, ssci := 0, secret := [], salt := [], busy := false, status := 0,
    detail := 0, newHandle := 0 }

/-- A line port at reset (Table 7-10). -/
def LinePort.dflt (p : Nat) : LinePort :=
  { owner := none, scope := p, espIndexed := false, coldBase := 0, coldCount := 0, defaultSci := zeros 8,
    prefixSource := 0, learn := false, learnHandle := 0xF0000000#32, learnLimit := 0, flood := false,
    moveAllow := false, holdDown := 4, ageLimit := 0, learnedCount := 0, learnDrops := 0,
    learnFloods := 0, learnDuplicates := 0, moves := 0, moveConflicts := 0, hits := 0, misses := 0 }

/-- A free position of the exact table. -/
def Entry.dflt (_ : Nat) : Entry :=
  { scope := 0, type := 0, cold := false, learned := false, static := false, homePort := 0, lastHit := 0,
    id := zeros 8, target := 0 }

/-- An exception ring at reset (Table 7-7). -/
def XRing.dflt (_ : Nat) : XRing :=
  { base := 0, log2 := 4, enable := false, tail := 0, head := 0, notifyAddr := 0, notifyData := 0, lost := 0,
    waiting := [], writing := none, writingNotify := false }

/-- A digest unit at reset (Table 9-11). -/
def DigestUnit.dflt (_ : Nat) : DigestUnit :=
  { state := .idle, failed := false, ctxs := [], internal := none, current := none, next := 0, internalTurn := 0,
    internalLast := false, blocks := 0, recent := [], retesting := false }

/-- A computation not begun. -/
def HashWork.none : HashWork := { alg := 0, st := [], buf := [], total := 0 }

/-- A digest register block at reset (Table 9-8). -/
def DigestPage.dflt (_ : Nat) : DigestPage :=
  { alg := 0, compare := false, keyed := false, outLen := 0, handle := 0, isOpen := false,
    done := false, equal := false, notEqual := false, error := 0, kstatus := 0, kdetail := 0,
    expect := zeros 64, result := zeros 64, stateRec := zeros 256, work := HashWork.none, key := none,
    lastPending := false, overrun := false, resultRead := false, reqId := none, unit := 0,
    tries := 0, excluded := [], backlog := [] }

/-- A public-key engine at reset (Table 10-13). -/
def Engine.dflt (_ : Nat) : Engine :=
  { state := .idle, failed := false, jobs := [], current := none, steps := 0, recent := [],
    retesting := false }

/-- A noise source at reset: sources 0 and 1 in use, 2 and 3 spare (Table 11-6). -/
def Noise.dflt (n : Nat) : Noise :=
  { role := if n < 2 then .inUse else .spare, passed := false, rctFails := 0, aptFails := 0, longestRun := 0,
    aptMax := 0, samples := 0, lastSample := none, run := 0, windowFirst := false, windowCount := 0,
    windowPos := 0, startCount := 0, startFailed := false, input := [] }

/-- An empty FIFO with its LEVEL default (Table 12-5). -/
def Fifo.empty (level : Nat) : Fifo :=
  { kept := [], read := 0, marked := false, markLost := false, lostPending := false, written := 0,
    openAt := none, reserved := 0, level := level, aboveLevel := false, lastSent := none, sentConsumed := false, sendDrops := 0,
    streamLeft := 0 }

/-- LEVEL default by kind (Table 12-5). -/
def levelDefault (kind : Nat) : Nat :=
  match kind with
  | 0 => 256
  | 2 => 1
  | 3 => 1
  | 4 => 2048
  | _ => 0

/-- A FIFO of `kind` at reset. -/
def Fifo.dflt (kind : Nat) (_ : Nat) : Fifo := Fifo.empty (levelDefault kind)

/-- Counters of a FIFO kind at reset. -/
def FifoKind.dflt (_ : Nat) : FifoKind :=
  { corrected := 0, uncorrectable := 0, marksLost := 0, lossyDiscards := 0, sendDropsTotal := 0 }

/-- A Promenade log at reset. -/
def Prom.dflt : Prom :=
  { enable := false, baseA := 0, baseB := 0, windowBase := 0, windowPages := 0, activeB := false,
    swapDone := false, state := .off, outside := 0, bitsSet := 0, filter := [], waiting := [],
    beforeSwap := [] }

/-- A slice number not created (Table 13-9). -/
def Slice.dflt (_ : Nat) : Slice :=
  { state := .absent, pasid := 0, cmdStatus := .done, cancelMode := false, quiesceLimit := 10000,
    ringPairs := 8, creations := 0, pageDrops := 0, escalations := 0, pending := false, cancelling := false,
    mbAddr := 0, mbData := 0, prom := Prom.dflt }

/-- A store of the scrubber at reset (Table 15-3). -/
def Store.dflt (n : Nat) : Store :=
  { scrubPeriod := if n = 0 then 2000 else if n = 5 ∨ n = 6 then 4000 else 1000, scrubPasses := 0, corrected := 0, rebuilt := 0, miscorrections := 0,
    uncorrectable := 0, correctedLevel := 1000, lastError := 0, repeats := 0, position := 0,
    passCorrected := [], lastPassCorrected := [], levelRaised := false }

/-- A blank antifuse field. -/
def FuseField.dflt (_ : Nat) : FuseField := { bits := 0, unstable := false }

/-- A Lovaov port at reset (Table 18-13). -/
def LinkPort.dflt (p : Nat) : LinkPort :=
  { enable := true, state := .down, failCause := 0, role := p, peerInstance := 0xFF, peerPort := 0xFF,
    peerFixed := false, peerRole := 0, peerDevice := zeros 48, identSeen := false, width := 0, laneSet := 0,
    laneStatus := List.replicate 8 0, polarity := 0, reversed := false, txCoeff := zeros 24, lastUp := none,
    eye := zeros 8, bestPre := zeros 8, bestPost := zeros 8, trial := 0, trained := 0, basePost := zeros 8, hopDelay := 0, crcErrors := 0,
    replays := 0, framesTx := 0, framesRx := 0, downCount := 0, phyReady := false, lseqTx := 0, lseqRx := 0,
    kept := [], replayRuns := 0, credits := 0, creditsDue := 0, lackDue := false, queued := [], rx := [],
    echoDelays := [], echoSent := none, relockDue := false }

/-- An instance of which nothing is known: the first ordered message to it carries RESTART (R597). -/
def Peer.dflt (_ : Nat) : Peer :=
  { deviceId := zeros 48, eastUp := false, westUp := false, everReached := false, reach := 0, hopsEast := 0,
    hopsWest := 0, nextPseq := 0, restartDue := true, pending := [], expectPseq := none, early := [],
    delivered := 0, share := [], setup := [] }

/-- Nothing written in a segmented transfer. -/
def noTransfer (_ : Nat) : Nat × Bytes := (0, [])

/-- The state right after a POWER_ON reset of a new device: antifuse and vault blank, host target port enabled,
no cascade, supply good. -/
def State.reset : State where
  ident :=
    { fwVersion := 0, fwImage := [], sealDigest := zeros 48, sealReference := zeros 48,
      sealState := .notApplicable, sealRecord := zeros 16, recomputing := false, changed := false,
      measured := false, sealChanges := 0, idleTime := 0 }
  engine :=
    { pairs := [], turn := 0, fetchStopped := false }
  reqs := []
  order :=
    { memberLossTime := 100, fenceHolds := 0, keyFenceHolds := 0, retryHolds := 0,
      nonceOrderHolds := 0 }
  spread := []
  lanes :=
    { enable := 0xFFFF, powered := 0xFFFF, stageCap := 16, holdLimit := 16384, pointer := 0, staged := 0,
      lanes := [], dispatched := 0, segments := 0, contextMoves := 0, dispatchWaits := 0, heldOpens := 0,
      streamedOpens := 0, tagFails := 0, replayDuplicate := 0, replayOld := 0, replayCommitLost := 0 }
  keys :=
    { slots := [], windows := [], loads := [], erases := [], coldCache := [], coldCacheSlots := 0,
      eraseLimit := 10000, pasids := [], mgrPasid := 0x100000#21, wrapCount := 0, checkKeys := [], bound := [], allotOwner := 0xFFFF,
      allotBase := 0, allotCount := 0, allotStatus := .done, querySlot := 0, windowLoads := 0,
      wrappedLoads := 0, keyGens := 0, exports := 0, erasesDone := 0, eraseLimitHits := 0, stale := 0,
      notOwned := 0, absent := 0, poisonedRequests := 0, checkFails := 0, kwPasidDrops := 0, coldHits := 0,
      coldUnwraps := 0, coldUnwrapFails := 0, valuesTaken := 0, valuesBurned := 0, softCrossings := 0,
      exhaustions := 0, exhaustedRequests := 0, wireLimitRefusals := 0, manualRolls := 0, autoRolls := 0,
      rollsNotReady := 0 }
  dir :=
    { ports := [], exact := [], prefixes := [], seed0 := zeros 4, seed1 := zeros 4, ageTick := 1000,
      tickNow := 0, exactLookups := 0, exactMisses := 0, prefixLookups := 0, prefixMisses := 0,
      insertFull := 0, relocations := 0, agedOut := 0, ageSurvived := 0, poisonRemoved := 0, xrings := [],
      recountDue := false, sweep := [], unlinked := [] }
  tango :=
    { posture := .assured, changing := false, previous := .assured, leaving := false,
      entering := false, seamHalved := false, postureChanges := 0, mismatches := 0, recomputations := 0,
      recomputedOk := 0, retryReleased := 0, retryNoLane := 0, laneFaultLimit := 3, laneFaultWindow := 1000,
      comparedBlocks := 0, uncomparedBlocks := 0, fillBlocks := 0, fillLeft := 0, paceMargin := 0, paceLate := 0 }
  digest :=
    { enable := 0xFF, retestFailed := 0, pointer := 0, queue := [], units := [], pages := [], requests := 0, direct := 0,
      internalBlocks := 0, equal := 0, notEqual := 0, silentRestarts := 0, overruns := 0, noContext := 0,
      saved := 0, resumed := 0, refused := 0, mismatches := 0, recomputations := 0 }
  pke :=
    { accs := List.replicate 4 0, operands := List.replicate 16 [], areas := List.replicate 16 [],
      threads := List.replicate 16 [], instrLen := 0,
      enable := 0xF, retestFailed := 0, starveLimit := 16, pointer := 0, engines := [], caller := .off,
      callerImageAddr := 0, routineSet := 0, imageDigest := zeros 48, vendorKeyHashes := zeros 96, imageSigned := false,
      lockstepFaults := 0, lockstepLimit := 3, lockstepRecent := [], jobs := 0, rejects := 0,
      invariantFails := 0, yields := 0, starveGrants := 0, restarts := 0, waits := 0, targetLoads := 0,
      targetStale := 0, mldsaIterations := 0, samplerExtensions := 0 }
  rng :=
    { state := .settling, stopCause := 0, compat := false, rawMode := false, rawSource := 0,
      reseedInterval := 64, firstRelease := 0, blocks := 0, generateCalls := 0, reseeds := 0, reseedWaits := 0,
      internalBits := 0, portWords := 0, fillBytes := 0, unavailable := 0, sourceSwitches := 0,
      drbgMismatches := 0, rawRuns := 0, sources := [], settled := false, order := [0, 1], pool := [],
      formed := [], calls := 0, drbgKey := [], drbgV := [],
      seeded := false, started := false, reservoirs := [], fills := [], refills := [], fillTurn := true,
      blockTries := 0, rawReturn := .settling, rawRun := [], rawRunSource := 0, rawNext := 0, draws := 0 }
  fifos :=
    { pke := [], rng := [], toManager := [], toSlice := [], events := Fifo.empty 2048, kinds := [] }
  slices :=
    { tab := [], mgrPasid := 0x100000#21, mgrPageDrops := 0 }
  access :=
    { staged := [], inForce := [], stagedWin := [], winInForce := [], commitState := .idle,
      commitStatus := .done, commitFault := 0, epochNow := 0, epochDrained := true, drainWarn := 1000,
      validated := false, warned := false, commits := 0, commitsRefused := 0, deniedCh := [], deniedSlice := 0,
      deniedManager := 0, deniedService := 0, defaultPermits := 0, splits := 0, lastDenialAddr := 0,
      lastDenialInfo := 0 }
  port :=
    { outstanding := [], ended := [], nextId := 0, late := [], responseLimit := 1000, timeouts := 0,
      lateResponses := 0, portErrors := 0 }
  memory :=
    { injectStore := 0, injectLine := 0, injectTarget := 0, injectMask := 0, damages := [],
      stores := [], trieDamage := 0, trieDamageAddr := 0, learnRecounts := 0 }
  lc :=
    { copies := [], tokens := [], burned := [], roots := [], state := .blank, request := 0, status := 0,
      pending := 0xFF, interrupted := false, interruptedTarget := 0xFF, interruptedField := 0, votes := 0, token := zeros 16,
      tokenFails := 0, programming := none, debugNonce := zeros 16, nonceValid := false, debugCert := [],
      debugStatus := 0, debugChecking := false, debugRights := 0, debugCounter := 0,
      debugAuthHashes := zeros 96, certsAccepted := 0, certsRefused := 0, attestChallenge := zeros 32,
      attestSlice := 0xFFFF, attestState := 0, attestReport := [], attestCaptured := [], reportCount := 0,
      deviceId := zeros 48, deviceIdPub := [], aliasCert := [] }
  start :=
    { state := .lcDecode, step := 0, step0Done := false, lastReset := .powerOn, startTime := 0,
      startBegan := 0, drainLimit := 10000, orderlyWaitsLc := false, drainStarted := false, failedStarts := 0,
      failedAtStep0 := 0, failReason := 0, failDetail := 0, failHistory := 0, retryTime := 100,
      retryArmed := false, vaultRepairs := 0, recoveryImageAddr := 0, testsPassed := 0, testsRunning := [],
      tamperVaultErase := false, tamperAlarms := 0, zeroiseTime := 0, erasePending := false, journalLost := 0,
      alarmPending := false, bootEpoch := 0, longTermKeys := [], vaultSeeds := [], previousRoot := 0, imageDenied := false, imageDue := false, vaultValid := true,
      inReset := false, powerGood := true, completed := false }
  pins :=
    { htEnabled := true, cascadeStrap := 0, rateStrap := 0, clocksPresent := 0x1FF, htPartialDrops := 0,
      phycTimeouts := 0, tap := Tap.reset, vreq := 800, vreqValid := true, vreqNext := 800, vreqSteps := 0, supplyReached := false,
      vreqLimit := 1000, vreqTimeouts := 0, tamperEnable := 0x3F, tamperActive := 0,
      tamperCause := 0, meshFaultLine := 0, meshOpen := 0,
      meshCross := 0, meshSeeds := 0, iso := false,
      resetN := true, detectorsArmed := false, vppOk := true, htData := 0 }
  link :=
    { cascadeSize := 1, linkRate := 0, peerIds := [], instanceNo := 0, isFixed := true,
      state := .standalone, roleSwapped := false, e2eTime := 20, trainMode := 0, eyeMin := 64,
      txFixed := [0x00, 0x1c, 0x04], ports := [], map := [], headId := zeros 8, waiting := [],
      transportKeys := [], keyxCounts := [], keyxHeld := [], msgTx := 0, msgRx := 0, forwarded := 0,
      e2eResends := 0, duplicatesDropped := 0, hopLimitDrops := 0, unknownKind := 0, eventsUnrouted := 0,
      doorbellsForwarded := 0, doorbellDrops := 0, restarts := 0, keyxSent := 0, keyxRefused := 0,
      memberRings := [], slewing := 0 }
  dict :=
    { indexReg := 0, busy := false,
      status := { result := 0, type := 0, access := 0, size := 0, count := 0, data := [] }, ops := 0, data := [],
      current := none, snapshot := [], segments := [], enumCursor := 0, remoteTime := 2000, opsLocal := 0,
      opsRemote := 0, opsRefused := 0, sequenceErrors := 0, opsDropped := 0, lateResponses := 0,
      noResponses := 0, remoteDiscarded := 0, tag := 0, awaiting := none }
  events :=
    { sources := [], waiting := [], accepted := 0, forcedCount := 0, sent := 0, received := 0,
      remoteRoute := 0x100, remotePending := 0, zeroising := 0 }
  now := 0
  pending := []

end Sys2Proof.Machine
end

