-- ==== Sys2Proof/Machine/Ops.lean ====
section
/-!
DEFINITION. The named operations every family uses: octets and fields, the tables of State, raising an
occurrence, checking and issuing an access of the system port, faulting a ring, ending a request, and who may
reach a page. The block has no exception entry: an alarm, an event or a ring fault is a change of state.
-/
namespace Sys2Proof.Machine

/-- The answer of every meaning: a next state, or a reason to stop. -/
abbrev Out := Host.Outcome State Fault Refusal

/-- A meaning that concerns unit `i` of `n`: a unit the T9 does not have is a fault of the command. -/
def unit (i n : Nat) (s : State) : Out := if i < n then .next s else .fault .noSuchUnit

/-! ## Octets and fields -/

/-- Field of `w` bits at bit `lo` of a number. -/
def fld (v lo w : Nat) : Nat := (v >>> lo) % 2 ^ w

/-- Bit `i` of a number. -/
def bit (v i : Nat) : Bool := Nat.testBit v i

/-- A Bool as a bit. -/
def b2n (b : Bool) : Nat := if b then 1 else 0

/-- Octet `i` of a string; beyond its end, zero. -/
def octet (bs : Bytes) (i : Nat) : Byte := bs.getD i 0

/-- `n` octets of a string from octet `i`, zero beyond its end. -/
def cut (bs : Bytes) (i n : Nat) : Bytes := (List.range n).map (fun j => octet bs (i + j))

/-- An integer of `n` octets, little-endian (00 R16). -/
def leBytes : Nat → Nat → Bytes
  | 0, _ => []
  | n + 1, v => BitVec.ofNat 8 v :: leBytes n (v / 256)

/-- The integer of a little-endian string (00 R16). -/
def leNat : Bytes → Nat
  | [] => 0
  | b :: t => b.toNat + 256 * leNat t

/-- An integer of `n` octets, big-endian (00 R17). -/
def beBytes (n v : Nat) : Bytes := (leBytes n v).reverse

/-- The integer of a big-endian string. -/
def beNat (bs : Bytes) : Nat := leNat bs.reverse

/-- XOR of two strings, over the length of the first. -/
def xorBytes (a b : Bytes) : Bytes := (List.range a.length).map (fun i => octet a i ^^^ octet b i)

/-- `n` octets of an uninterpreted result. -/
def octetsOf (n : Nat) (f : Nat → Byte) : Bytes := (List.range n).map f

/-- Round up to a multiple of 16. -/
def up16 (n : Nat) : Nat := (n + 15) / 16 * 16

/-- Zero padding of a string to whole 16-octet blocks. -/
def pad16 (bs : Bytes) : Bytes := bs ++ zeros (up16 bs.length - bs.length)

/-- Replacement of octets from `i` on by `v`. -/
def patch (bs : Bytes) (i : Nat) (v : Bytes) : Bytes := bs.take i ++ v ++ bs.drop (i + v.length)

/-! ## Owners and pairs -/

/-- The manager, as an owner. -/
def mgr : Nat := 512

/-- The owner word: slice in [8:0], MGR in [9] (05 R228). -/
def ownerWord (o : Nat) : Nat := if o = mgr then 0x200 else o

/-- The owner of a 16-bit owner word; 0xFFFF is no owner. -/
def ownerOf (w : Nat) : Option Nat := if w = 0xFFFF then none else if bit w 9 then some mgr else some (w % 512)

/-- Key of pair `n` of owner `o` in the ring engine's cyclic order (02 R65). -/
def pairKey (o n : Nat) : Nat := if o = mgr then n else 8 * (o + 1) + n

/-- Owner of a pair key. -/
def pairOwner (k : Nat) : Nat := if k < 8 then mgr else k / 8 - 1

/-! ## Tables of State -/

/-- A request by REQ_ID. -/
def findReq : Tab Req → Nat → Option Req
  | [], _ => none
  | (j, r) :: t, k => if j = k then some r else findReq t k

/-- The request with this REQ_ID. -/
def State.req (s : State) (rid : Nat) : Option Req := findReq s.reqs rid

/-- A request recorded or changed. -/
def State.putReq (s : State) (rid : Nat) (r : Req) : State := { s with reqs := Tab.ins s.reqs rid r }

/-- A change of a request that is in flight. -/
def State.onReq (s : State) (rid : Nat) (f : Req → Req) : State :=
  match s.req rid with
  | some r => s.putReq rid (f r)
  | none => s

/-- The release of a REQ_ID (01 R34). -/
def State.release (s : State) (rid : Nat) : State := { s with reqs := Tab.del s.reqs rid }

/-- Ring pair by key. -/
def State.ring (s : State) (k : Nat) : Ring := Tab.get Ring.dflt s.engine.pairs k

/-- A change of a ring pair. -/
def State.onRing (s : State) (k : Nat) (f : Ring → Ring) : State :=
  { s with engine := { s.engine with pairs := Tab.upd Ring.dflt s.engine.pairs k f } }

/-- Slot by number. -/
def State.slot (s : State) (n : Nat) : Slot := Tab.get Slot.dflt s.keys.slots n

/-- A change of a slot. -/
def State.onSlot (s : State) (n : Nat) (f : Slot → Slot) : State :=
  { s with keys := { s.keys with slots := Tab.upd Slot.dflt s.keys.slots n f } }

/-- A change of the key objects. -/
def State.onKeys (s : State) (f : Keys → Keys) : State := { s with keys := f s.keys }

/-- A slice by number. -/
def State.slice (s : State) (n : Nat) : Slice := Tab.get Slice.dflt s.slices.tab n

/-- A change of a slice. -/
def State.onSlice (s : State) (n : Nat) (f : Slice → Slice) : State :=
  { s with slices := { s.slices with tab := Tab.upd Slice.dflt s.slices.tab n f } }

/-- A lane by number. -/
def State.lane (s : State) (n : Nat) : Lane := Tab.get Lane.dflt s.lanes.lanes n

/-- A change of a lane. -/
def State.onLane (s : State) (n : Nat) (f : Lane → Lane) : State :=
  { s with lanes := { s.lanes with lanes := Tab.upd Lane.dflt s.lanes.lanes n f } }

/-- A line port by number. -/
def State.linePort (s : State) (p : Nat) : LinePort := Tab.get LinePort.dflt s.dir.ports p

/-- A change of a line port. -/
def State.onLinePort (s : State) (p : Nat) (f : LinePort → LinePort) : State :=
  { s with dir := { s.dir with ports := Tab.upd LinePort.dflt s.dir.ports p f } }

/-- The present posture by its code (Table 8-3). -/
def Posture.code : Posture → Nat
  | .assured => 0
  | .balanced => 1
  | .lean => 2
  | .quiet => 3

/-! ## Occurrences (chapter 20) -/

/-- ROUTE and the rest of a source's record. -/
def State.source (s : State) (i : Nat) : Source := Tab.get Source.dflt s.events.sources i

/-- A condition raises an occurrence, which waits to be accepted in its order (R634, R637). A reserved source
never sets (R631). -/
def State.raise (s : State) (src arg info : Nat) : State :=
  match severityOf src with
  | none => s
  | some _ =>
    { s with
      events :=
        { s.events with
          waiting := s.events.waiting ++ [{ src := src, arg := arg % 2 ^ 14, info := info % 2 ^ 46, forced := false }] } }

/-! ## Random draws -/

/-- `n` octets chosen at random outside the DRBG, and the state after the choice. -/
def State.drawBytes (s : State) (n : Nat) : Bytes × State :=
  (octetsOf n (Config.draw s.rng.draws), { s with rng := { s.rng with draws := s.rng.draws + 1 } })

/-- The forward cipher of one block under a key of 256 bits. -/
def aes256 (key b : Bytes) : Bytes := octetsOf 16 (Config.aesEnc (cut key 0 32) b)

/-- `n` counter blocks after V, enciphered (SP 800-90A, CTR_DRBG). -/
def drbgBlocks (key v : Bytes) (n : Nat) : Bytes :=
  ((List.range n).map (fun i => aes256 key (beBytes 16 ((beNat (cut v 0 16) + i + 1) % 2 ^ 128)))).flatten

/-- CTR_DRBG_Update with 48 octets: the new Key and V. -/
def drbgUpdate (key v provided : Bytes) : Bytes × Bytes :=
  let t := xorBytes (drbgBlocks key v 3) (cut provided 0 48)
  (cut t 0 32, cut t 32 16)

/-- BCC: CBC-MAC over whole blocks from a zero chaining value. -/
def drbgBcc (key data : Bytes) : Bytes :=
  (List.range (data.length / 16)).foldl (fun c i => aes256 key (xorBytes (cut data (16 * i) 16) c)) (zeros 16)

/-- The derivation function of SP 800-90A, 48 octets. -/
def drbgDerive (input : Bytes) : Bytes :=
  let body := pad16 (beBytes 4 input.length ++ beBytes 4 48 ++ input ++ [0x80#8])
  let k0 := (List.range 32).map (BitVec.ofNat 8)
  let temp := ((List.range 3).map (fun i => drbgBcc k0 (beBytes 4 i ++ zeros 12 ++ body))).flatten
  let k := cut temp 0 32
  let x1 := aes256 k (cut temp 32 16)
  let x2 := aes256 k x1
  x1 ++ x2 ++ aes256 k x2

/-- Key and V seeded from octets of entropy (11 R409): Instantiate from zeros, Reseed from what they are. -/
def Rng.seed (input : Bytes) (g : Rng) : Rng :=
  let r := drbgUpdate g.drbgKey g.drbgV (drbgDerive input)
  { g with drbgKey := r.1, drbgV := r.2, calls := 0, seeded := true }

/-- One generate call of `n` octets (11 R409, R410): counted, and the wait for a reseed that falls due with fewer than
two pool blocks is counted. -/
def State.generate (s : State) (n : Nat) : Bytes × State :=
  let g := s.rng
  let m := (n + 15) / 16
  let v := beBytes 16 ((beNat (cut g.drbgV 0 16) + m) % 2 ^ 128)
  let kv := drbgUpdate g.drbgKey v (zeros 48)
  let due := decide (g.reseedInterval ≤ g.calls + 1)
  ((drbgBlocks g.drbgKey g.drbgV m).take n,
    { s with
      rng := { g with
        draws := g.draws + 1, drbgKey := kv.1, drbgV := kv.2
        blocks := g.blocks + BitVec.ofNat 64 ((n + 15) / 16), generateCalls := g.generateCalls + 1
        calls := g.calls + 1, blockTries := 0
        reseedWaits := if due ∧ g.pool.length < 2 then g.reseedWaits + 1 else g.reseedWaits } })

/-- Has the DRBG reached its reseed point, so that no block may be generated (11 R410)? -/
def reseedDue (s : State) : Bool := decide (s.rng.reseedInterval ≤ s.rng.calls)

/-! ## Access control (chapter 14) -/

/-- Does a page lie in [base, limit]? -/
def covers (base limit : U64) (page : Nat) : Bool :=
  decide (base.toNat / 4096 ≤ page ∧ page ≤ limit.toNat / 4096)

/-- The verdict on one part (R489, R493): none when denied, else the attributes and whether the default map
permitted it. -/
def verdict (a : Access) (cls : AccClass) (owner : Nat) (write : Bool) (page : Nat) :
    Option (BitVec 10 × Bool) :=
  let scope := match cls with
    | .slice => owner
    | _ => mgr
  let perm (p : BitVec 2) : Bool := p.getLsbD (if write then 1 else 0)
  match a.inForce.find? (fun e => e.2.enable && e.2.owners.getLsbD scope && covers e.2.base e.2.limit page) with
  | some e => if perm e.2.perm then some (e.2.attr.truncate 10, false) else none
  | none =>
    match cls with
    | .slice => none
    | _ =>
      let hit := ((List.range 16).map (Tab.get Window.dflt a.winInForce)).find?
        (fun w => w.enable && covers w.base w.limit page)
      match hit with
      | some w => if perm w.perm then some (w.attr.truncate 10, true) else none
      | none => none

/-- The parts of an access: one, or two when it crosses a 4 KiB boundary (R495). -/
def partsOf (addr len : Nat) : List (Nat × Nat) :=
  let first := min len (4096 - addr % 4096)
  if first = len then [(addr, len)] else [(addr, first), ((addr + first) % 2 ^ 64, len - first)]

/-- Class of an access made for a request of `owner` (Table 14-1). -/
def classOf (owner : Nat) : AccClass := if owner = mgr then .manager else .slice

/-- DETAIL of Table 2-10 for a kind of access (Table 14-4); 0xFF for a service access, zero for a ring write. -/
def AccKind.detail : AccKind → Nat
  | .descriptor => 0x01
  | .fragList => 0x02
  | .input => 0x03
  | .side => 0x04
  | .output => 0x05
  | .chainState => 0x06
  | .blob => 0x07
  | .outList => 0x08
  | .record => 0
  | .tailWord => 0
  | .journal => 0
  | _ => 0xFF

/-- Is the access one of a request, by its REQ_ID? -/
def AccKind.ofReq : AccKind → Bool
  | .fragList => true
  | .outList => true
  | .input => true
  | .side => true
  | .blob => true
  | .output => true
  | .chainState => true
  | .record => true
  | .journal => true
  | _ => false

/-- The PASID sideband of an access (13 R460): the slice's own, else MGR_PASID, none for "no PASID". -/
def sideband (s : State) (owner : Nat) : Option (BitVec 20) :=
  if owner = mgr then
    if s.slices.mgrPasid.getLsbD 20 then none else some (s.slices.mgrPasid.truncate 20)
  else some ((s.slice owner).pasid.truncate 20)

/-- The sideband of an access: a log access of the Promenade is the manager's (13 R460, R483; DEDUCED, log entry 90). -/
def askSideband (s : State) (kind : AccKind) (owner : Nat) : Option (BitVec 20) :=
  match kind with
  | .promRead => sideband s mgr
  | .promWrite => sideband s mgr
  | _ => sideband s owner

/-- Tags in use on a channel, or retired and still awaited (21 R650, R652). -/
def tagsTaken (p : Port) (chan : Nat) : List Nat :=
  ((p.outstanding.filter (fun a => a.chan == chan)).map (fun a => (a.parts.filter (fun q => !q.done)).map Part.tag)).flatten
    ++ (p.late.filter (fun e => e.1 == chan)).map Prod.snd

/-- The lowest tag of `fuel` candidates from `t` on that is not taken. -/
def freeTagFrom (taken : List Nat) : Nat → Nat → Option Nat
  | 0, _ => none
  | fuel + 1, t => if taken.contains t then freeTagFrom taken fuel (t + 1) else some t

/-- The lowest free tag of a channel. Tags 0 to 1,023 are those of R651; one beyond them stands for an access that
waits for a tag (log entry 9). -/
def freeTag (taken : List Nat) : Option Nat := freeTagFrom taken (taken.length + 1) 0

/-- May an access of `n` parts be issued on `chan`: its clock runs (R648) and `n` tags are free (R651)? -/
def roomFor (s : State) (chan n : Nat) : Bool :=
  s.pins.clocksPresent.getLsbD (1 + chan) && decide ((tagsTaken s.port chan).length + n ≤ 1024)

/-- What an access is asked to be. -/
structure Ask where
  chan : Nat
  kind : AccKind
  cls : AccClass
  owner : Nat
  req : Nat
  pair : Nat
  write : Bool
  addr : Nat
  len : Nat
  off : Nat
  data : Bytes

/-- An access is denied (R497): the counters, the record of the last denial, and one event. DETAIL of a service access is 0xFF,
and 0 where Table 2-10 gives the access no cause code: a record, a tail word, a journal entry (DEDUCED, log entry 92). -/
def State.deny (s : State) (k : Ask) : State :=
  let a := s.access
  let clsNo := match k.cls with
    | .slice => 0
    | .manager => 1
    | .service => 2
  let info :=
    ownerWord k.owner + 0x400 * b2n (decide (clsNo = 2)) + 0x800 * b2n k.write + 0x1000 * k.chan
      + 0x4000 * (a.epochNow.toNat % 16) + 0x10000 * (if clsNo = 2 then 0xFF else k.kind.detail)
      + 0x1000000 * (k.len % 2 ^ 16)
  let a' :=
    { a with
      deniedCh := Tab.upd (fun _ => 0) a.deniedCh k.chan (· + 1)
      deniedSlice := if clsNo = 0 then a.deniedSlice + 1 else a.deniedSlice
      deniedManager := if clsNo = 1 then a.deniedManager + 1 else a.deniedManager
      deniedService := if clsNo = 2 then a.deniedService + 1 else a.deniedService
      lastDenialAddr := BitVec.ofNat 64 k.addr
      lastDenialInfo := BitVec.ofNat 64 info }
  ({ s with access := a' }).raise (0x160 + 3 * k.chan + clsNo) (ownerWord k.owner) k.addr

/-- Tags for the parts, lowest first. -/
def tagParts : List (Nat × Nat × BitVec 10) → List Nat → List Part
  | [], _ => []
  | (ad, ln, at_) :: t, taken =>
    match freeTag taken with
    | none => []
    | some g =>
      { tag := g, addr := ad, len := ln, attr := at_, data := [], done := false } :: tagParts t (g :: taken)

/-- Page bit of a data write in the Promenade log of its slice (13 R479 to R481). The on-die filter keeps the 4,096 pages set
last (DESIGN CHOICE, log entry 89). -/
def State.logPages (s : State) (owner : Nat) (addr len : Nat) : State :=
  if owner = mgr then s
  else
    let pr := (s.slice owner).prom
    if pr.enable = false ∨ pr.state = .lost then s
    else
      let base := pr.windowBase.toNat / 4096
      let mark (q : Prom) (page : Nat) : Prom :=
        if base ≤ page ∧ page < base + q.windowPages.toNat then
          let i := page - base
          if q.filter.contains i then q
          else { q with filter := i :: q.filter.take 4095, waiting := q.waiting ++ [(i, q.activeB)] }
        else q
      let inside (page : Nat) : Bool := decide (base ≤ page ∧ page < base + pr.windowPages.toNat)
      let pages := (partsOf addr len).map (fun p => p.1 / 4096)
      s.onSlice owner (fun sl =>
        let q := pages.foldl mark sl.prom
        { sl with prom := if pages.all (fun p => !inside p) then { q with outside := q.outside + 1 } else q })

/-- Does a write of this kind go into the Promenade log (R479)? Log writes do not. -/
def AccKind.logged : AccKind → Bool
  | .promWrite => false
  | _ => true

/-- An access is checked and, when every part is permitted, issued (R486, R489, R491, R495, R501). The answer
says whether it was permitted. -/
def State.issue (s : State) (k : Ask) : Bool × State :=
  let parts := partsOf k.addr k.len
  let vs := parts.map (fun p => (p, verdict s.access k.cls k.owner k.write (p.1 / 4096)))
  let split := decide (1 < parts.length)
  let s1 := if split then { s with access := { s.access with splits := s.access.splits + 1 } } else s
  if vs.all (fun v => v.2.isSome) then
    let tagged := tagParts (vs.map (fun v => (v.1.1, v.1.2, (v.2.getD (0, false)).1))) (tagsTaken s.port k.chan)
    let byDefault := (vs.filter (fun v => (v.2.getD (0, false)).2)).length
    let acc : Acc :=
      { id := s.port.nextId, chan := k.chan, kind := k.kind, cls := k.cls, owner := k.owner, req := k.req,
        pair := k.pair, write := k.write, addr := k.addr, len := k.len, off := k.off,
        epoch := s.access.epochNow, pasid := askSideband s k.kind k.owner, parts := tagged, data := k.data, err := false }
    let s2 :=
      { s1 with
        access := { s1.access with defaultPermits := s1.access.defaultPermits + BitVec.ofNat 64 byDefault }
        port := { s1.port with outstanding := s1.port.outstanding ++ [acc], nextId := s1.port.nextId + 1 } }
    (true, if k.write && k.kind.logged then s2.logPages k.owner k.addr k.len else s2)
  else (false, s1.deny k)

/-- Parts an access will take, so a command waits while the channel has too few tags (R651). -/
def partCount (addr len : Nat) : Nat := (partsOf addr len).length

/-! ## The certified configuration record (chapter 0) -/

/-- Octets of SEAL_RECORD replaced (R7): a change of a field changes SEAL_RECORD at once, is counted, and begins a
recomputation of SEAL_DIGEST. -/
def State.setRecord (s : State) (i : Nat) (v : Bytes) : State :=
  let r := patch s.ident.sealRecord i v
  if r = s.ident.sealRecord then s
  else
    { s with
      ident := { s.ident with
        sealRecord := r, recomputing := true, changed := true, sealChanges := s.ident.sealChanges + 1 } }

/-! ## Rings -/

/-- Fault codes (Table 2-2). -/
def badTail : Nat := 0x01
def badHead : Nat := 0x02
def descAccess : Nat := 0x03
def cqAccess : Nat := 0x04
def badConfig : Nat := 0x05

/-- ARG of the ring-engine events: owner word and pair. -/
def ringArg (key : Nat) : Nat := ownerWord (pairOwner key) + 0x400 * (key % 8)

/-- A pair meets a fault of Table 2-2 (R69): FAULTED, the first fault recorded, the event raised. -/
def State.ringFault (s : State) (key code pos : Nat) : State :=
  let r := s.ring key
  let r' :=
    match r.state with
    | .draining => if r.faultCode = 0 then { r with faultCode := code, faultPos := pos } else r
    | .faulted => r
    | _ => { r with state := .faulted, faultCode := code, faultPos := pos }
  let r'' := if code = cqAccess then { r' with recordsLost := true } else r'
  let s1 := s.onRing key (fun _ => r'')
  s1.raise 0x249 (ringArg key) (code + 0x100 * pos)

/-- Records whose tail word was denied or ended in error are never published (R69). -/
def Ring.uncover (r : Ring) : Ring := { r with cq := r.cq.map (fun e => { e with acked := false }) }

/-- Difference of two pointers of a ring of depth 2^k (R59). -/
def ptrSub (a b k : Nat) : Nat := (a + 2 ^ (k + 1) - b) % 2 ^ (k + 1)

/-- A pointer advanced by `n`. -/
def ptrAdd (a n k : Nat) : Nat := (a + n) % 2 ^ (k + 1)

/-- Requests of a pair in flight, in REQ_ID order; grants of another home are not of this pair. -/
def reqsOf (s : State) (key : Nat) : List (Nat × Req) :=
  s.reqs.filter (fun e => pairKey e.2.owner e.2.ring == key && e.2.homeGrant.isNone)

/-- IN_FLIGHT (Table 2-12): requests fetched whose records are not yet written. -/
def inFlight (s : State) (key : Nat) : Nat := ((reqsOf s key).filter (fun e => !e.2.recordIssued)).length

/-- Requests outstanding of a pair (R64). -/
def outstanding (s : State) (key : Nat) : Nat :=
  let r := s.ring key
  inFlight s key + r.cq.length + ptrSub r.cqTail r.cqHead r.cqLog2

/-! ## Endings -/

/-- STATUS codes (Table 2-10). -/
def Status.code : Status → Nat
  | .ok => 0x00
  | .okAbortLate => 0x01
  | .partialEnd => 0x02
  | .lengthMismatch => 0x10
  | .fragmentFault => 0x11
  | .accessFault => 0x12
  | .requestInvalid => 0x13
  | .keyStale => 0x20
  | .keyAbsent => 0x21
  | .keyNotOwned => 0x22
  | .nonceExhausted => 0x23
  | .authFail => 0x24
  | .keyPoisoned => 0x25
  | .notPermitted => 0x26
  | .rngUnavailable => 0x30
  | .pkeReject => 0x40
  | .aborted => 0x50
  | .quiesced => 0x51
  | .retryImpossible => 0x61
  | .directoryMiss => 0x70
  | .internal => 0x7F

/-- STATUS 0x00 or 0x01. -/
def Status.good : Status → Bool
  | .ok => true
  | .okAbortLate => true
  | _ => false

/-- An ending. -/
def ends (st : Status) (d : Nat) : Ending := { st := st, detail := d }

/-- Has the request not left Fetch and Resolve yet, whose endings leave it the null key (03 R116)? -/
def Stage.early : Stage → Bool
  | .descRead => true
  | .abortWait => true
  | .resolve => true
  | .blobRead => true
  | _ => false

/-- A request ends in Outer (R91): its content is complete and carries OUTER_ENDED. A first ending stands. -/
def Req.endOuter (e : Ending) (r : Req) : Req :=
  if r.stat.isSome then r
  else
    { r with
      stage := .over
      ord := if r.stage.early then .null else r.ord
      outerEnded := true
      stat := some { tag := 0, ending := e, cflags := 0, inDone := 0, nonceUsed := 0 } }

/-! ## Pages of the host target port (chapters 13 and 21) -/

/-- Is the host target port open, and the access whole (R653, R654)? A partial access is counted. -/
def State.htAccess (s : State) (b : Bus) : Bool × State :=
  if s.pins.htEnabled = false ∨ s.start.inReset then (false, s)
  else if b.be ≠ 0xFF then
    (false, { s with pins := { s.pins with htPartialDrops := s.pins.htPartialDrops + 1 } })
  else (true, s)

/-- PASID of an access as an event INFO: the PASID when one is carried. -/
def pasidInfo (b : Bus) : Nat :=
  match b.pasid with
  | some p => p.toNat
  | none => 0

/-- Does the sideband match MGR_PASID (R457, R459)? -/
def isManager (pasid : BitVec 21) (b : Bus) : Bool :=
  match b.pasid with
  | none => pasid == 0x100000#21
  | some p => pasid == p.zeroExtend 21

/-- Is an access to the page of `owner` accepted (R457)? A refused one is counted, and raises an event when the
slice exists. -/
def State.pageAccess (s : State) (b : Bus) (owner : Nat) : Bool × State :=
  if owner = mgr then
    if isManager s.slices.mgrPasid b then (true, s)
    else
      (false,
        ({ s with slices := { s.slices with mgrPageDrops := s.slices.mgrPageDrops + 1 } }).raise 0x190 0x200
          (pasidInfo b))
  else if mgr < owner then (false, s)
  else
    let sl := s.slice owner
    let ok := decide (sl.state ≠ .absent) &&
      (match b.pasid with
        | some p => decide (sl.pasid.toNat = p.toNat)
        | none => false)
    if ok then (true, s)
    else
      let s1 := s.onSlice owner (fun q => { q with pageDrops := q.pageDrops + 1 })
      (false, if sl.state = .absent then s1 else s1.raise 0x190 owner (pasidInfo b))

/-- Is the slice being reset or removed, so that its page drops what passes R457 (Table 13-5)? -/
def pageDead (s : State) (owner : Nat) : Bool :=
  if owner = mgr then false
  else
    match (s.slice owner).state with
    | .resetting => true
    | .removing => true
    | _ => false

/-- A write to a page register other than the key window: `f` acts when the port, the page and the slice accept
it (R457, R653, R654, Table 13-5). -/
def State.pageWrite (s : State) (b : Bus) (owner : Nat) (f : State → State) : State :=
  match s.htAccess b with
  | (false, s1) => s1
  | (true, s1) =>
    match s1.pageAccess b owner with
    | (false, s2) => s2
    | (true, s2) => if pageDead s2 owner then s2 else f s2

/-- A read of a page register: the data `f` gives, zero when the access is refused. -/
def State.pageRead (s : State) (b : Bus) (owner : Nat) (f : State → Nat × State) : State :=
  match s.htAccess b with
  | (false, s1) => { s1 with pins := { s1.pins with htData := 0 } }
  | (true, s1) =>
    match s1.pageAccess b owner with
    | (false, s2) => { s2 with pins := { s2.pins with htData := 0 } }
    | (true, s2) =>
      if pageDead s2 owner then { s2 with pins := { s2.pins with htData := 0 } }
      else
        let r := f s2
        { r.2 with pins := { r.2.pins with htData := BitVec.ofNat 64 r.1 } }

end Sys2Proof.Machine
end

