-- ==== Sys2Proof/Machine/Operands.lean ====
section
/-!
DEFINITION. The operand forms of a request: the descriptor read from its 64 octets, the flags, the handle, the
side block, the required output of every opcode, and the checks Fetch applies to them (02 Tables 2-4 to 2-7 and
the owning chapters' rules on lengths and unused fields).
-/
namespace Sys2Proof.Machine

/-! ## Descriptor (Table 2-4) -/

/-- Word `i` of a string of little-endian 64-bit words. -/
def word64 (bs : Bytes) (i : Nat) : Nat := leNat (cut bs (8 * i) 8)

/-- The descriptor in 64 octets (Table 2-4). -/
def parseDesc (bs : Bytes) : Desc :=
  let w0 := word64 bs 0
  let w1 := word64 bs 1
  let w3 := word64 bs 3
  let w5 := word64 bs 5
  { opcode := fld w0 0 8, profile := fld w0 8 8, flags := BitVec.ofNat 16 (fld w0 16 16),
    orderClass := fld w0 32 4, linePort := fld w0 36 8, reserved0 := fld w0 44 4, seq := fld w0 48 16,
    handle := BitVec.ofNat 32 (fld w1 0 32), selector := BitVec.ofNat 32 (fld w1 32 32),
    inAddr := BitVec.ofNat 64 (word64 bs 2), inLen := fld w3 0 32, aadLen := fld w3 32 16,
    fragCount := fld w3 48 16, outAddr := BitVec.ofNat 64 (word64 bs 4), outCap := fld w5 0 32,
    icvLen := fld w5 32 8, reserved5 := fld w5 40 24, w6 := BitVec.ofNat 64 (word64 bs 6),
    cookie := BitVec.ofNat 64 (word64 bs 7) }

/-- A descriptor of which nothing was read (R91): SEQ 0 and COOKIE 0. -/
def Desc.unread : Desc := parseDesc []

/-- A descriptor as its 64 octets, as a grant carries it (03 R143). -/
def Desc.bytes (d : Desc) : Bytes :=
  leBytes 8 (d.opcode + d.profile * 2 ^ 8 + d.flags.toNat * 2 ^ 16 + d.orderClass * 2 ^ 32 + d.linePort * 2 ^ 36
      + d.reserved0 * 2 ^ 44 + d.seq * 2 ^ 48)
    ++ leBytes 8 (d.handle.toNat + d.selector.toNat * 2 ^ 32) ++ leBytes 8 d.inAddr.toNat
    ++ leBytes 8 (d.inLen + d.aadLen * 2 ^ 32 + d.fragCount * 2 ^ 48) ++ leBytes 8 d.outAddr.toNat
    ++ leBytes 8 (d.outCap + d.icvLen * 2 ^ 32 + d.reserved5 * 2 ^ 40) ++ leBytes 8 d.w6.toNat
    ++ leBytes 8 d.cookie.toNat

namespace Desc
/-- FLAGS bits (Table 2-5). -/
def fragList (d : Desc) : Bool := d.flags.getLsbD 0
def outFragList (d : Desc) : Bool := d.flags.getLsbD 1
def fence (d : Desc) : Bool := d.flags.getLsbD 2
def notify (d : Desc) : Bool := d.flags.getLsbD 3
def contFirst (d : Desc) : Bool := d.flags.getLsbD 4
def contMid (d : Desc) : Bool := d.flags.getLsbD 5
def contLast (d : Desc) : Bool := d.flags.getLsbD 6
def nonceHw (d : Desc) : Bool := d.flags.getLsbD 7
def cmp (d : Desc) : Bool := d.flags.getLsbD 8
def inPlace (d : Desc) : Bool := d.flags.getLsbD 9
/-- Is the request a chain link? -/
def cont (d : Desc) : Bool := d.contFirst || d.contMid || d.contLast
/-- A link that reads chain state. -/
def later (d : Desc) : Bool := d.contMid || d.contLast
/-- A link that writes chain state. -/
def opens (d : Desc) : Bool := d.contFirst || d.contMid
/-- IN_LEN − AAD_LEN (R75). -/
def payload (d : Desc) : Nat := d.inLen - d.aadLen
end Desc

/-- SLOT, GEN and KIND of a handle (05 R208). -/
def hSlot (h : BitVec 32) : Nat := fld h.toNat 0 16
def hGen (h : BitVec 32) : BitVec 12 := BitVec.ofNat 12 (fld h.toNat 16 12)
def hKind (h : BitVec 32) : Nat := fld h.toNat 28 4

/-- The invalid handle. -/
def noHandle : BitVec 32 := 0xF0000000#32

/-! ## Classes of opcodes -/

/-- The opcodes of Table 2-6. -/
def knownOpcode (o : Nat) : Bool :=
  [0x10, 0x11, 0x14, 0x15, 0x18, 0x19, 0x20, 0x21, 0x22, 0x23, 0x30, 0x31, 0x32, 0x33, 0x34, 0x40, 0x50, 0x60,
    0x61, 0x62, 0x70, 0x71].contains o

/-- Lane opcodes 0x10 to 0x19. -/
def isLaneOp (o : Nat) : Bool := [0x10, 0x11, 0x14, 0x15, 0x18, 0x19].contains o
/-- Sealing opcodes. -/
def isSealing (o : Nat) : Bool := o == 0x10 || o == 0x14 || o == 0x18
/-- Opening or decrypting opcodes. -/
def isOpening (o : Nat) : Bool := o == 0x11 || o == 0x15 || o == 0x19
/-- Digest opcodes. -/
def isDigestOp (o : Nat) : Bool := [0x20, 0x21, 0x22, 0x23].contains o
/-- Key-slot opcodes and ASSOC_ROLL, which run no segments (R678). -/
def isKeyOp (o : Nat) : Bool := [0x30, 0x31, 0x32, 0x33, 0x34].contains o
/-- DIR opcodes. -/
def isDirOp (o : Nat) : Bool := [0x60, 0x61, 0x62].contains o
/-- Opcodes that form a key fence (R125). -/
def isKeyFence (o : Nat) : Bool := [0x30, 0x31, 0x32, 0x34].contains o

/-- Does the T9 read KEY_HANDLE for this descriptor (R77, R285, R346, R378)? -/
def readsHandle (d : Desc) : Bool :=
  isLaneOp d.opcode || d.opcode == 0x21
    || ((d.opcode == 0x22 || d.opcode == 0x23) && d.handle != noHandle)
    || isKeyOp d.opcode || (d.opcode == 0x40 && d.handle != noHandle)
    || (d.opcode == 0x60 && d.handle != noHandle)

/-! ## Hash algorithms (Table 9-1) -/

/-- Block or rate of a hash algorithm; 0 for an unknown code. -/
def hashRate (alg : Nat) : Nat :=
  match alg with
  | 1 => 64 | 2 => 128 | 3 => 128 | 5 => 136 | 6 => 104 | 7 => 72 | 8 => 168 | 9 => 136 | _ => 0

/-- Output length of a hash algorithm; 0 for SHAKE and unknown codes. -/
def hashLen (alg : Nat) : Nat :=
  match alg with
  | 1 => 32 | 2 => 48 | 3 => 64 | 5 => 32 | 6 => 48 | 7 => 64 | _ => 0

/-- May HMAC use the algorithm? -/
def hmacAlg (alg : Nat) : Bool := decide (hashLen alg ≠ 0)
/-- Is the algorithm extendable-output? -/
def isShake (alg : Nat) : Bool := alg == 8 || alg == 9
/-- Do chains use the algorithm? -/
def chainAlg (alg : Nat) : Bool := alg == 1 || alg == 2 || alg == 3

/-! ## Public-key routines (Tables 10-4, 10-7, 10-8) -/

/-- A row of the routine catalogue: code, key transform (0 none, 1 any KEYPAIR takes), target, input lengths
(least and greatest, for each size), required output, does it take a record, does it draw. -/
structure Routine where
  code : Nat
  key : Nat
  target : Bool
  minIn : Nat
  maxIn : Nat
  out : Nat
  deriving DecidableEq, Repr

/-- The routine catalogue. KEYPAIR and IMPORT have a row for each key transform (R380, R381). -/
def routines : List Routine :=
  [ ⟨0x01, 0x41, false, 32, 32, 64⟩, ⟨0x02, 0x42, false, 48, 48, 96⟩, ⟨0x03, 0x43, false, 294, 294, 132⟩,
    ⟨0x04, 0, false, 160, 160, 0⟩, ⟨0x05, 0, false, 240, 240, 0⟩, ⟨0x06, 0, false, 328, 328, 0⟩,
    ⟨0x07, 0x41, true, 64, 128, 0⟩, ⟨0x08, 0x42, true, 96, 160, 0⟩, ⟨0x09, 0x43, true, 362, 426, 0⟩,
    ⟨0x0A, 0x44, true, 32, 96, 0⟩, ⟨0x0B, 0x45, false, 0, 32768, 64⟩, ⟨0x0C, 0, false, 96, 32864, 0⟩ ]
  ++ [ ⟨0x10, 0x48, false, 964, 964, 256⟩, ⟨0x11, 0x49, false, 1428, 1428, 384⟩,
    ⟨0x12, 0x4A, false, 1876, 1876, 512⟩, ⟨0x13, 0, false, 548, 548, 0⟩, ⟨0x14, 0, false, 820, 820, 0⟩,
    ⟨0x15, 0, false, 1076, 1076, 0⟩, ⟨0x16, 0x48, false, 1188, 1188, 190⟩, ⟨0x17, 0x49, false, 1764, 1764, 318⟩,
    ⟨0x18, 0x4A, false, 2340, 2340, 446⟩, ⟨0x19, 0, false, 260, 450, 256⟩, ⟨0x1A, 0, false, 388, 706, 384⟩,
    ⟨0x1B, 0, false, 516, 962, 512⟩ ]
  ++ [ ⟨0x20, 0, true, 1184, 1248, 1088⟩, ⟨0x21, 0, true, 1568, 1632, 1568⟩, ⟨0x22, 0x4C, true, 1088, 1152, 0⟩,
    ⟨0x23, 0x4D, true, 1568, 1632, 0⟩, ⟨0x24, 0x4E, false, 1, 33024, 3309⟩, ⟨0x25, 0x4F, false, 1, 33024, 4627⟩,
    ⟨0x26, 0, false, 5262, 38285, 0⟩, ⟨0x27, 0, false, 7220, 40243, 0⟩ ]
  ++ [ ⟨0x38, 0x4B, false, 0, 0, 1216⟩, ⟨0x39, 0, true, 1216, 1280, 1120⟩, ⟨0x3A, 0x4B, true, 1120, 1184, 0⟩ ]

/-- Required output of KEYPAIR by key transform (Table 10-8); 0 where KEYPAIR does not take it. -/
def keypairOut (t : Nat) : Nat :=
  match t with
  | 0x41 => 64 | 0x42 => 96 | 0x43 => 362 | 0x44 => 32 | 0x45 => 32 | 0x4C => 1184 | 0x4D => 1568
  | 0x4E => 1952 | 0x4F => 2592 | _ => 0

/-- Input and record lengths of IMPORT by key transform; none where IMPORT does not take it. -/
def importLens (t : Nat) : Option (Nat × Nat) :=
  match t with
  | 0x43 => some (66, 230) | 0x48 => some (900, 932) | 0x49 => some (1348, 1380) | 0x4A => some (1796, 1828)
  | _ => none

/-- Codes of Table 10-7. -/
def knownRoutine (c : Nat) : Bool := c == 0x30 || c == 0x31 || (routines.any (fun r => r.code == c))

/-- Does a routine need a key, and does it have a target? -/
def routineNeedsKey (c : Nat) : Bool :=
  c == 0x30 || c == 0x31 || (routines.any (fun r => r.code == c && r.key != 0))
def routineHasTarget (c : Nat) : Bool := routines.any (fun r => r.code == c && r.target)

/-- Is the slot's transform the routine's key transform (R379)? -/
def routineKeyOk (c t : Nat) : Bool :=
  if c = 0x30 then decide (keypairOut t ≠ 0)
  else if c = 0x31 then (importLens t).isSome
  else routines.any (fun r => r.code == c && r.key == t)

/-- Is IN_LEN one that Table 10-8 permits, as far as the routine code shows it (R381)? KEYPAIR and IMPORT depend
on the slot, and their lengths are judged again at Check. -/
def routineInOk (c n : Nat) : Bool :=
  if c = 0x30 then n == 0
  else if c = 0x31 then [66, 900, 1348, 1796].contains n
  else routines.any (fun r => r.code == c && r.minIn ≤ n && n ≤ r.maxIn)

/-- Required output as the routine code, and the slot's transform where it matters, show it. -/
def routineOut (c t : Nat) : Nat :=
  if c = 0x30 then keypairOut t
  else if c = 0x31 then ((importLens t).getD (0, 0)).2
  else ((routines.find? (fun r => r.code == c)).map Routine.out).getD 0

/-! ## Required output (Table 2-6, Table 4-7, Table 9-4) -/

/-- Does the request deliver to the PKE result FIFO (R399)? -/
def toFifo (d : Desc) : Bool := d.opcode == 0x40 && d.outAddr == 0 && !d.outFragList

/-- The smallest OUT_CAP accepted, as the descriptor shows it; a chain link is no exception (R75, Tables 4-7 and 9-4). -/
def requiredOutput (d : Desc) : Nat :=
  match d.opcode with
  | 0x10 => if d.inPlace then d.icvLen else d.payload + d.icvLen
  | 0x11 => if d.inPlace then 0 else d.payload
  | 0x14 =>
    if d.profile = 0x07 ∧ d.nonceHw then (if d.inPlace then 16 else d.payload + 16)
    else if d.inPlace then 0 else d.payload
  | 0x15 => if d.inPlace then 0 else d.payload
  | 0x18 => d.icvLen
  | 0x19 => 0
  | 0x20 => if d.cmp then 0 else if isShake d.profile then d.outCap else hashLen d.profile
  | 0x21 => if d.cmp then 0 else if d.icvLen = 0 then hashLen d.profile else d.icvLen
  | 0x22 => 256
  | 0x23 =>
    if d.handle = noHandle then (if isShake d.profile then d.outCap else hashLen d.profile)
    else if d.icvLen = 0 then hashLen d.profile else d.icvLen
  | 0x33 => 96
  | 0x40 => if d.profile = 0x30 ∨ d.profile = 0x31 then 0 else routineOut d.profile 0
  | 0x50 => d.outCap
  | 0x62 => 32
  | _ => 0

/-! ## The side block (R72) -/

/-- Octets of the IV item. -/
def ivItem (d : Desc) : Nat := if isLaneOp d.opcode && !d.nonceHw && !d.later then 16 else 0

/-- Octets of the chain-state item: one is read by a later link, and every link of a chain has its place. -/
def chainItem (d : Desc) : Nat := if d.cont then 128 else 0

/-- Octets of the expected value. -/
def expectItem (d : Desc) : Nat :=
  let checks := !d.cont || d.contLast
  match d.opcode with
  | 0x11 => if checks then d.icvLen else 0
  | 0x19 => if checks then d.icvLen else 0
  | 0x20 => if d.cmp && checks then (if isShake d.profile then d.outCap else hashLen d.profile) else 0
  | 0x21 => if d.cmp && checks then (if d.icvLen = 0 then hashLen d.profile else d.icvLen) else 0
  | _ => 0

/-- Octets read of the side block, operand block, load-parameter block or state record that W6 addresses. A first
link does not read the place of its chain state. -/
def sideLen (d : Desc) : Nat :=
  if isLaneOp d.opcode || d.opcode == 0x20 || d.opcode == 0x21 then
    if expectItem d ≠ 0 then ivItem d + chainItem d + expectItem d
    else if d.later then ivItem d + chainItem d
    else ivItem d
  else if d.opcode == 0x22 then (if d.w6 = 0 then 0 else 256)
  else if d.opcode == 0x23 then 256
  else if d.opcode == 0x30 || d.opcode == 0x32 then 48
  else if d.opcode == 0x40 then (if routineHasTarget d.profile then 48 else 0)
  else if isDirOp d.opcode then 32
  else 0

/-- Address of the chain-state item in the side block. -/
def chainAddr (d : Desc) : Nat := d.w6.toNat + ivItem d

/-! ## Fetch checks (Table 2-7) -/

/-- ORDER_CLASS code. -/
def OrderClass.code : OrderClass → Nat
  | .strict => 0
  | .association => 1
  | .unordered => 2
  | .reserved => 3

/-- Class of a code. -/
def OrderClass.ofCode (n : Nat) : OrderClass :=
  match n with
  | 0 => .strict
  | 1 => .association
  | 2 => .unordered
  | _ => .reserved

/-- REQUEST_INVALID with a DETAIL. -/
def invalid (d : Nat) : Option Ending := some (ends .requestInvalid d)
/-- LENGTH_MISMATCH with a DETAIL. -/
def badLength (d : Nat) : Option Ending := some (ends .lengthMismatch d)

/-- Only FENCE and NOTIFY, and the bits of `more`, are set. -/
def onlyFlags (d : Desc) (more : BitVec 16) : Bool := (d.flags &&& ~~~(0x000C#16 ||| more)) == 0

/-- Step 3: PROFILE is permitted for the opcode, as the descriptor shows it. -/
def profileCheck (routineSet : U64) (d : Desc) : Option Ending :=
  let ok :=
    match d.opcode with
    | 0x10 => [1, 2, 3, 4, 5, 6].contains d.profile
    | 0x11 => [1, 2, 3, 4, 5, 6].contains d.profile
    | 0x14 => [1, 7].contains d.profile
    | 0x15 => [1, 7].contains d.profile
    | 0x18 => [1, 2, 3].contains d.profile
    | 0x19 => [1, 2, 3].contains d.profile
    | 0x20 => decide (hashRate d.profile ≠ 0)
    | 0x21 => hmacAlg d.profile
    | 0x22 => decide (hashRate d.profile ≠ 0) && (d.handle == noHandle || hmacAlg d.profile)
    | 0x23 => decide (hashRate d.profile ≠ 0) && (d.handle == noHandle || hmacAlg d.profile)
    | 0x31 => if hKind d.handle = 2 then [0, 2].contains d.profile else d.profile == 0
    | 0x34 =>
      d.profile == 0 && fld d.inAddr.toNat 0 2 != 3 && fld d.inAddr.toNat 7 57 == 0 && d.outAddr == 0
        && d.reserved5 == 0 && d.w6 == 0
    | 0x40 => knownRoutine d.profile && routineSet.getLsbD d.profile && !(([0x16, 0x17, 0x18].contains d.profile) && d.outAddr == 0)
    | _ => d.profile == 0
  if ok then none else invalid 0x02

/-- Step 4: FLAGS meet R74 and the owning chapter's table. The lane opcodes, NOP_FENCE and ABORT have no table of
permitted bits, so their reserved bits are ignored (00 R19). -/
def flagsCheck (d : Desc) : Option Ending :=
  let conts := b2n d.contFirst + b2n d.contMid + b2n d.contLast
  if 1 < conts then invalid 0x04
  else if d.cont && !([0x10, 0x11, 0x14, 0x15, 0x18, 0x19, 0x20, 0x21].contains d.opcode) then invalid 0x04
  else if d.cont && isLaneOp d.opcode && d.profile != 1 then invalid 0x04
  else if d.cont && (d.opcode == 0x20 || d.opcode == 0x21) && !chainAlg d.profile then invalid 0x04
  else if d.cmp && !(d.opcode == 0x20 || d.opcode == 0x21) then invalid 0x04
  else if d.inPlace && !([0x10, 0x11, 0x14, 0x15].contains d.opcode) then invalid 0x04
  else if d.inPlace && d.outFragList then invalid 0x04
  else if (d.opcode == 0x20 || d.opcode == 0x21) && !(onlyFlags d 0x01F3) then invalid 0x04
  else if (d.opcode == 0x22) && !(onlyFlags d 0x0081) then invalid 0x04
  else if (d.opcode == 0x23) && !(onlyFlags d 0x0083) then invalid 0x04
  else if isKeyOp d.opcode && !(onlyFlags d 0) then invalid 0x04
  else if d.opcode == 0x40 && !(onlyFlags d 0x0003) then invalid 0x04
  else if d.opcode == 0x50 && !(onlyFlags d 0x0002) then invalid 0x04
  else if isDirOp d.opcode && !(onlyFlags d 0) then invalid 0x04
  else if isOpening d.opcode && d.nonceHw && !([2, 3, 4, 5, 6].contains d.profile) then invalid 0x07
  else none

/-- Step 5: KEY_HANDLE.KIND is permitted for the opcode (Table 2-6 and the owning chapters). -/
def kindCheck (d : Desc) : Option Ending :=
  let k := hKind d.handle
  let ok :=
    if isLaneOp d.opcode then
      [0, 1, 2].contains k
        && !(k == 2 && (d.opcode == 0x10 || d.opcode == 0x18) && (d.profile == 2 || d.profile == 3))
    else
      match d.opcode with
      | 0x21 => k == 0
      | 0x22 => d.handle == noHandle || k == 0
      | 0x23 => d.handle == noHandle || k == 0
      | 0x30 => k == 0 || k == 3
      | 0x32 => k == 0 || k == 3
      | 0x33 => k == 0 || k == 3
      | 0x31 => k == 0 || k == 2 || k == 3
      | 0x34 => k == 1
      | 0x40 =>
        (if routineNeedsKey d.profile then k == 3 else d.handle == noHandle)
          && (if routineHasTarget d.profile then hKind d.selector == 0 else d.selector == 0)
      | 0x60 => k == 0 || k == 1 || d.handle == noHandle
      | 0x61 => d.handle == noHandle
      | 0x62 => d.handle == noHandle
      | _ => true
  if ok then none else invalid 0x05

/-- Step 7 of lane and digest opcodes: ICV_LEN, as the descriptor shows it. -/
def icvCheck (d : Desc) : Option Ending :=
  let l := hashLen d.profile
  let ok :=
    match d.opcode with
    | 0x10 => if d.profile = 1 ∨ d.profile = 4 then [8, 12, 16].contains d.icvLen else d.icvLen == 16
    | 0x11 => if d.profile = 1 ∨ d.profile = 4 then [8, 12, 16].contains d.icvLen else d.icvLen == 16
    | 0x14 => d.icvLen == 0
    | 0x15 => d.icvLen == 0
    | 0x18 => if d.profile = 1 then decide (8 ≤ d.icvLen ∧ d.icvLen ≤ 16) else d.icvLen == 16
    | 0x19 => if d.profile = 1 then decide (8 ≤ d.icvLen ∧ d.icvLen ≤ 16) else d.icvLen == 16
    | 0x21 => d.icvLen == 0 || decide (16 ≤ d.icvLen ∧ d.icvLen ≤ l)
    | 0x23 =>
      if d.handle = noHandle then d.icvLen == 0
      else d.icvLen == 0 || decide (16 ≤ d.icvLen ∧ d.icvLen ≤ l)
    | 0x70 => true
    | 0x71 => true
    | _ => d.icvLen == 0
  if ok then none else invalid 0x06

/-- May the opcode have AAD (Table 2-6)? -/
def aadAllowed (d : Desc) : Bool := [0x10, 0x11, 0x18, 0x19].contains d.opcode

/-- Step 11: the length rules of the profile (R176) and of the owning chapters. -/
def lengthRules (d : Desc) : Option Ending :=
  let bad :=
    match d.opcode with
    | 0x30 => d.inLen != 96 || d.aadLen != 0 || d.outCap != 0 || d.icvLen != 0 || d.fragCount != 0
    | 0x31 => d.inLen != 0 || d.aadLen != 0 || d.outCap != 0 || d.icvLen != 0 || d.fragCount != 0
    | 0x32 => d.inLen != 0 || d.aadLen != 0 || d.outCap != 0 || d.icvLen != 0 || d.fragCount != 0
    | 0x33 => d.inLen != 0 || d.aadLen != 0 || d.icvLen != 0 || d.fragCount != 0
    | 0x34 =>
      d.inLen != 0 || d.aadLen != 0 || d.outCap != 0 || d.icvLen != 0 || d.fragCount != 0
    | 0x40 =>
      d.aadLen != 0 || d.icvLen != 0 || !(routineInOk d.profile d.inLen)
        || (toFifo d && decide (512 < (routineOut d.profile 0 + 5) / 6 + 1))
    | 0x50 => d.inLen != 0 || d.aadLen != 0 || d.fragCount != 0 || d.icvLen != 0
    | 0x60 => d.inLen != 0 || d.aadLen != 0 || d.fragCount != 0 || d.icvLen != 0 || d.outCap != 0
    | 0x61 => d.inLen != 0 || d.aadLen != 0 || d.fragCount != 0 || d.icvLen != 0 || d.outCap != 0
    | 0x62 => d.inLen != 0 || d.aadLen != 0 || d.fragCount != 0 || d.icvLen != 0
    | _ =>
      if isLaneOp d.opcode then
        match d.profile with
        | 2 =>
          if d.opcode = 0x10 ∨ d.opcode = 0x11 then d.aadLen != 20 && d.aadLen != 28
          else d.aadLen != d.inLen || decide (d.aadLen < 20)
        | 3 =>
          if d.opcode = 0x10 ∨ d.opcode = 0x11 then d.aadLen != 20 && d.aadLen != 28
          else d.aadLen != d.inLen || decide (d.aadLen < 20)
        | 4 =>
          (d.aadLen != 8 && d.aadLen != 12)
            || (d.opcode == 0x11 && d.nonceHw && decide (d.payload < 8))
        | 5 =>
          (d.aadLen != 8 && d.aadLen != 12)
            || (d.opcode == 0x11 && d.nonceHw && decide (d.payload < 8))
        | 6 => d.aadLen != 5 || decide (16640 < d.payload + d.icvLen)
        | _ => false
      else false
  if bad then badLength 0x07 else none

/-- Step 12: whole blocks, where the profile or the chain link shows it (R97, R166, Table 9-5). A chain of a
lane opcode is judged against 16 octets here and against the slot's transform at Check. -/
def blockRule (d : Desc) : Option Ending :=
  let bad :=
    if d.opcode = 0x14 ∨ d.opcode = 0x15 then
      (d.profile == 7 || d.opens) && d.payload % 16 != 0
    else if isLaneOp d.opcode then d.opens && d.payload % 16 != 0
    else if d.opcode = 0x22 then d.inLen % hashRate d.profile != 0
    else if d.opcode = 0x20 ∨ d.opcode = 0x21 then d.opens && d.inLen % hashRate d.profile != 0
    else false
  if bad then badLength 0x03 else none

/-- Step 13 with the capacity rules of SHAKE and RNG_FILL. -/
def capCheck (d : Desc) : Option Ending :=
  if isShake d.profile && (d.opcode == 0x20 || d.opcode == 0x23) && !d.opens
      && (d.outCap == 0 || decide (65536 < d.outCap)) then badLength 0x05
  else if d.opcode == 0x50 && (d.outCap == 0 || decide (16777216 < d.outCap)) then badLength 0x06
  else if d.outCap < requiredOutput d then badLength 0x05
  else none

/-- Steps 14 and 15: the fragment lists (R80). -/
def listCheck (d : Desc) : Option Ending :=
  if d.fragList && (d.fragCount == 0 || decide (256 < d.fragCount)) then some (ends .fragmentFault 0x01)
  else if (d.fragList && d.inAddr.toNat % 16 != 0) || (d.outFragList && d.outAddr.toNat % 16 != 0) then
    some (ends .fragmentFault 0x02)
  else none

/-- The first of a list of checks that fails. -/
def firstFail : List (Option Ending) → Option Ending
  | [] => none
  | some e :: _ => some e
  | none :: t => firstFail t

/-- The checks of Fetch in the order of Table 2-7 (R76). `cls` is the ring's class, `portOk` whether LINE_PORT is
configured for the request's owner (R266), `routineSet` what the Caller's image provides (R378). -/
def fetchCheck (cls : OrderClass) (portOk : Bool) (routineSet : U64) (d : Desc) : Option Ending :=
  let generic := !(isKeyOp d.opcode || d.opcode == 0x40 || isDirOp d.opcode)
  firstFail
    [ if knownOpcode d.opcode then none else invalid 0x01,
      if d.orderClass = 0xF ∨ d.orderClass = cls.code then none else invalid 0x03,
      profileCheck routineSet d,
      flagsCheck d,
      kindCheck d,
      if (isDirOp d.opcode || (readsHandle d && hKind d.handle == 2)) && !portOk then invalid 0x0A else none,
      if generic then icvCheck d else none,
      if generic && ((d.aadLen != 0 && !aadAllowed d) || (d.later && d.aadLen != 0)) then invalid 0x0C else none,
      if 16777216 < d.inLen then badLength 0x06 else none,
      if d.inLen < d.aadLen then badLength 0x04 else none,
      lengthRules d,
      blockRule d,
      capCheck d,
      listCheck d ]

end Sys2Proof.Machine
end

