-- ==== Sys2Proof/Machine/Rings.lean ====
section
/-!
DEFINITION. The ring engine (chapter 2): doorbells, enabling and draining a pair, the fetch turn, descriptors as
they arrive, and the single re-reads after a denied read.
-/
namespace Sys2Proof.Machine

/-! ## Doorbells -/

/-- A doorbell value reaches pair `key` (R62): ignored while DISABLED (R68), invalid values fault the ring. -/
def State.doorbell (s : State) (key v : Nat) : State :=
  let r := s.ring key
  let k := r.rqLog2
  if r.state = .disabled then s
  else if v < 2 ^ (k + 1) ∧ ptrSub v r.rqHead k ≤ 2 ^ k ∧ ptrSub r.rqTail r.rqHead k ≤ ptrSub v r.rqHead k then
    s.onRing key (fun q => { q with rqTail := v })
  else (s.raise 0x248 (ringArg key) v).ringFault key badTail r.rqTail

/-- A CQ_HEAD value reaches pair `key` (R63). -/
def State.cqHeadWrite (s : State) (key v : Nat) : State :=
  let r := s.ring key
  let m := r.cqLog2
  if r.state = .disabled then s
  else if v < 2 ^ (m + 1) ∧ ptrSub v r.cqHead m ≤ ptrSub r.cqTail r.cqHead m then
    s.onRing key (fun q => { q with cqHead := v })
  else s.ringFault key badHead r.cqHead

/-- RQ_TAIL (R62). -/
def execRqTail (b : Bus) (owner n : Nat) (v : U64) (s : State) : Out :=
  unit n 8 (s.pageWrite b owner (fun t => t.doorbell (pairKey owner n) v.toNat))

/-- CQ_HEAD (R63). -/
def execCqHead (b : Bus) (owner n : Nat) (v : U64) (s : State) : Out :=
  unit n 8 (s.pageWrite b owner (fun t => t.cqHeadWrite (pairKey owner n) v.toNat))

/-! ## ENABLE -/

/-- The enabled spread entry that names a pair (R156), with its number. -/
def spreadOf (s : State) (key : Nat) : Option (Nat × Spread) :=
  s.spread.find? (fun e => e.2.enable && (pairKey (if e.2.mgrRing then mgr else e.2.slice) e.2.ring == key))

/-- Is an instance in the cascade map (18 R592)? -/
def inMap (s : State) (inst : Nat) : Bool :=
  inst == s.link.instanceNo || (Tab.get Peer.dflt s.link.map inst).reach != 0

/-- Does the configuration of a pair hold a cause of the CONFIG row (Table 2-2, R156, R600)? -/
def configBad (s : State) (key : Nat) : Bool :=
  let r := s.ring key
  decide (r.rqLog2 < 4 ∨ 16 < r.rqLog2 ∨ r.cqLog2 < 4 ∨ 16 < r.cqLog2)
    || (r.rqBase.toNat % 64 != 0) || (r.cqBase.toNat % 32 != 0) || (r.tailWordAddr.toNat % 8 != 0)
    || (r.orderClass == .reserved)
    || (match spreadOf s key with
        | none => false
        | some (_, e) =>
          !((e.members.take e.memberCount).all (fun i => inMap s i.toNat)) || e.refused != 0
            || ((e.members.take e.memberCount).drop 1).any (fun i => !(Tab.has s.link.transportKeys i.toNat)))

/-- A pair's start under a valid configuration: pointers at zero, FAULT cleared (Table 2-1). FAULT_POS, on which the
specification is silent there, becomes 0 with it (DESIGN CHOICE, log entry 56). -/
def Ring.start (r : Ring) : Ring :=
  { r with
    rqTail := 0, cqHead := 0, rqHead := 0, cqTail := 0, enable := true, state := .enabled, faultCode := 0,
    faultPos := 0, completed := 0, nextOrder := 0, descOut := false, reread := [], cq := [],
    tailInFlight := 0, tailChan := 0, pendingNotes := 0, recordsLost := false }

/-- ENABLE = 1 written to a pair (R68, Table 2-1, R465). LOST_MEMBERS of its spread entry, which no rule clears, is cleared here
(DESIGN CHOICE, log entry 80). -/
def State.enablePair (s : State) (key : Nat) : State :=
  let o := pairOwner key
  if o ≠ mgr ∧ (s.slice o).ringPairs ≤ key % 8 then s
  else
    match (s.ring key).state with
    | .disabled =>
      if configBad s key then (s.onRing key (fun r => { r with enable := true })).ringFault key badConfig 0
      else
        let s1 := s.onRing key Ring.start
        match spreadOf s key with
        | none => s1
        | some (nn, _) =>
          { s1 with
            spread := Tab.upd Spread.dflt s1.spread nn (fun e =>
              { e with state := .active, nextSseq := 0, lost := 0, perMember := [] }) }
    | _ => s

/-- ENABLE = 0 written to a pair (Table 2-1). -/
def State.disablePair (s : State) (key : Nat) : State :=
  match (s.ring key).state with
  | .enabled => s.onRing key (fun r => { r with enable := false, state := .draining })
  | .faulted => s.onRing key (fun r => { r with enable := false, state := .draining })
  | _ => s

/-- RING_ENABLE (R68). -/
def execRingEnable (b : Bus) (owner n : Nat) (s : State) : Out :=
  unit n 8 (s.pageWrite b owner (fun t => t.enablePair (pairKey owner n)))

/-- RING_DISABLE (R68). -/
def execRingDisable (b : Bus) (owner n : Nat) (s : State) : Out :=
  unit n 8 (s.pageWrite b owner (fun t => t.disablePair (pairKey owner n)))

/-- Is a notification due under R105: pending records have reached COAL_COUNT, or COAL_TIME is 0? -/
def noteDue (r : Ring) : Bool :=
  r.notifyAddr != 0 && decide (0 < r.pendingNotes)
    && (r.coalTime == 0 || decide ((if r.coalCount = 0 then 1 else r.coalCount) ≤ r.pendingNotes))

/-- Entries from CQ_TAIL on that are acknowledged without a gap. -/
def ackedRun (l : List CqEntry) : Nat := (l.takeWhile CqEntry.acked).length

/-- Are a pair's last record, tail-word write and notification done (R68, R136)? With records lost, the entries that a
tail word can still cover are those acknowledged before the gap. -/
def pairQuiet (s : State) (key : Nat) : Bool :=
  let r := s.ring key
  (reqsOf s key).isEmpty && (if r.recordsLost then ackedRun r.cq == 0 else r.cq.isEmpty) && r.tailInFlight == 0
    && !(noteDue r)

/-- RING_DRAINED (R68). -/
def execRingDrained (owner n : Nat) (s : State) : Out :=
  let key := pairKey owner n
  unit n 8
    (if (s.ring key).state = .draining ∧ pairQuiet s key then
      s.onRing key (fun r => { r with state := .disabled, cq := [], reread := [] })
    else s)

/-! ## Fetch -/

/-- May fetch run for this owner (R466, R549, Table 13-5)? -/
def mayFetch (s : State) (o : Nat) : Bool :=
  !s.engine.fetchStopped && (s.start.state == .running || s.start.state == .pavane || s.start.state == .scrap)
    && (o == mgr || (s.slice o).state == .active)

/-- Is a pair ready to fetch (R65)? -/
def ready (s : State) (key : Nat) (r : Ring) : Bool :=
  r.state == .enabled && mayFetch s (pairOwner key) && r.rqTail != r.rqHead
    && decide (outstanding s key < 2 ^ r.cqLog2) && !r.descOut && r.reread.isEmpty

/-- The next ready pair at or after the turn's position, in the cyclic order of R65. -/
def nextReady (s : State) : Option Nat :=
  match Tab.firstFrom (ready s) s.engine.turn s.engine.pairs with
  | some k => some k
  | none => Tab.firstFrom (ready s) 0 s.engine.pairs

/-- Descriptors a turn reads (R65). -/
def turnSize (s : State) (key : Nat) : Nat :=
  let r := s.ring key
  let w := if r.fetchWeight = 0 then 1 else r.fetchWeight
  min (min w (ptrSub r.rqTail r.rqHead r.rqLog2))
    (min (2 ^ r.cqLog2 - outstanding s key) (2 ^ r.rqLog2 - r.rqHead % 2 ^ r.rqLog2))

/-- Requests in flight on a channel (R35). -/
def onChannel (s : State) (c : Nat) : Nat := (s.reqs.filter (fun e => e.2.chan == c)).length

/-- The channel with the fewest requests in flight, the lowest among equals (R35). -/
def pickChannel (s : State) : Nat :=
  let c1 := if onChannel s 1 < onChannel s 0 then 1 else 0
  let c2 := if onChannel s 2 < onChannel s c1 then 2 else c1
  if onChannel s 3 < onChannel s c2 then 3 else c2

/-- A computation not begun. -/
def Work.none : Work := { iv := [], acc := [], aadDone := 0, textDone := 0, chain := .none }

/-- Myeno's record before HEAD. -/
def Myeno.fresh : Myeno :=
  { headSeen := false, headTag := 0, ending := none, checked := false, exhaustedAtCheck := [], cold := none,
    coldChecked := false, beats := [], stagedAt := none, lastSeen := false, totalWrong := none, cancel := none,
    stopAtSegment := none,
    dispatched := false, waitCounted := false, orderCounted := false, key := none,
    work := Work.none, ckpt := Work.none, nonceUsed := 0, nonceValid := false,
    takes := false, commits := false, softLimit := false, held := false, heldOut := [], heldSegs := 0,
    segIssued := 0, segComputed := 0, segPassed := 0, inLane := [], outReleased := 0, tries := 0,
    excluded := [], retried := false, recovering := false, lost := false, posture := 0, poisoned := false, inDone := 0,
    statSent := none }

/-- A request at its REQ_ID's assignment (R34). -/
def Req.fresh (owner ring pos order chan sseq : Nat) (cls : OrderClass) : Req :=
  { owner := owner, ring := ring, pos := pos, order := order, chan := chan, cls := cls, d := Desc.unread,
    stage := .descRead, ord := .unfixed, heldCounted := false, keyHeldCounted := false, retryHeld := false,
    handle := 0, entry := none, blobAddr := 0, blob := [], learn := .noMark, found := none, foundKey := [], frags := [],
    fragsRead := 0, outFrags := [], outListRead := 0, outListDone := false, listDone := false, readOff := 0,
    inData := [], headSent := false, sent := 0, sideDone := false, side := [], seam := [],
    epochs := { desc := 0, blob := 0, side := [], input := [] }, sidePart := 0,
    cancelSent := false,
    outBeats := [], icvBeats := [], outOff := 0, pieces := [], chainWrite := none, chainWriteOut := false,
    outEnd := none, stat := none, outerEnded := false, faultAddr := 0, cause := 0, journal := .notDue,
    recordIssued := false, finalOutDone := 0, tableLost := false, abortLate := false, abortWaiting := [], abortSent := false,
    waitRecords := [], sseq := sseq, member := 0, homeGrant := none, keyx := none, m := Myeno.fresh }

/-- REQ_IDs given out in ring order for a turn (R34, R139). -/
def State.assign (s : State) (key chan : Nat) : List Nat → Nat → State
  | [], _ => s
  | rid :: t, i =>
    let r := s.ring key
    let o := pairOwner key
    let sq := match spreadOf s key with
      | some (_, e) => e.nextSseq.toNat
      | none => 0
    let q := Req.fresh o (key % 8) (ptrAdd r.rqHead i r.rqLog2) r.nextOrder chan sq r.orderClass
    let s1 := (s.putReq rid q).onRing key (fun x => { x with nextOrder := x.nextOrder + 1 })
    let s2 := match spreadOf s key with
      | some (nn, _) =>
        { s1 with spread := Tab.upd Spread.dflt s1.spread nn (fun e => { e with nextSseq := e.nextSseq + 1 }) }
      | none => s1
    s2.assign key chan t (i + 1)

/-- Requests whose descriptor a pair is reading, in ring order. -/
def reading (s : State) (key : Nat) : List Nat :=
  ((reqsOf s key).filter (fun e => decide (e.2.stage = .descRead))).map Prod.fst

/-- Insertion of a REQ_ID in ring order. -/
def insOrder (s : State) (rid : Nat) : List Nat → List Nat
  | [] => [rid]
  | x :: t =>
    let o (i : Nat) : Nat := ((s.req i).map Req.order).getD 0
    if o rid < o x then rid :: x :: t else x :: insOrder s rid t

/-- REQ_IDs sorted in ring order. -/
def inOrder (s : State) (l : List Nat) : List Nat := l.foldl (fun acc rid => insOrder s rid acc) []

/-- The ask for a read of `n` descriptors of a pair from RQ_HEAD on. -/
def descAsk (s : State) (key chan n pos rid : Nat) : Ask :=
  let r := s.ring key
  let o := pairOwner key
  { chan := chan, kind := .descriptor, cls := classOf o, owner := o, req := rid, pair := key, write := false,
    addr := (r.rqBase.toNat + 64 * (pos % 2 ^ r.rqLog2)) % 2 ^ 64, len := 64 * n, off := 0, data := [] }

/-- An ABORT ends with OK and a DETAIL (R108, R113). -/
def State.settleAbort (s : State) (rid detail : Nat) : State :=
  s.onReq rid (fun r => if r.stage = .abortWait then r.endOuter (ends .ok detail) else r)

/-- Every ABORT that waits for a target is settled. -/
def State.settleAborts (s : State) (l : List Nat) (detail : Nat) : State :=
  l.foldl (fun t rid => t.settleAbort rid detail) s

/-- The release of a REQ_ID (01 R34): an abort that still waits for the target finds it released (R108). -/
def State.releaseReq (s : State) (rid : Nat) : State :=
  match s.req rid with
  | none => s
  | some q => (s.settleAborts q.abortWaiting 0x04).release rid

/-- Aborts that reached a target whose own ending is recorded have lost (R108, R112). -/
def State.abortsLost (s : State) (rid : Nat) : State :=
  match s.req rid with
  | none => s
  | some q =>
    if q.abortWaiting.isEmpty then s
    else (s.putReq rid { q with abortWaiting := [], abortLate := true }).settleAborts q.abortWaiting 0x02

/-- A pair's denied descriptor ends with ACCESS_FAULT and the ring enters FAULTED; the descriptors after it in
the read are not fetched (R498, R69), and their places in ring order and SSEQ stay to be given out. An ABORT that waits for
the descriptor's read loses to its ending (R108). -/
def State.descDenied (s : State) (key : Nat) : List Nat → State
  | [] => s
  | rid :: rest =>
    let pos := ((s.req rid).map Req.pos).getD 0
    let addr := (s.ring key).rqBase.toNat + 64 * (pos % 2 ^ (s.ring key).rqLog2)
    let s1 := (s.onReq rid (fun q =>
      { q.endOuter (ends .accessFault 0x01) with faultAddr := BitVec.ofNat 64 addr })).abortsLost rid
    let s2 := rest.foldl State.releaseReq s1
    let s3 := s2.onRing key (fun r =>
      { r with descOut := false, reread := [], rqHead := ptrAdd pos 1 r.rqLog2,
               nextOrder := r.nextOrder - rest.length })
    let s4 := match spreadOf s key with
      | some (nn, _) =>
        { s3 with
          spread := Tab.upd Spread.dflt s3.spread nn (fun e =>
            { e with nextSseq := e.nextSseq - BitVec.ofNat 32 rest.length }) }
      | none => s3
    s4.ringFault key descAccess pos

/-- A read of descriptors is denied, or ends in error (R498, R569). -/
def State.descReadLost (s : State) (key : Nat) (rids : List Nat) : State :=
  match rids with
  | [_] => s.descDenied key rids
  | _ => s.onRing key (fun r => { r with descOut := false, reread := rids })

/-- The first `n` of `rids` are distinct and free. A REQ_ID whose earlier request still has an access outstanding is not
given again, and a turn waits until it has a REQ_ID for each descriptor of its read (DESIGN CHOICE, log entry 57). -/
def freeIds (s : State) (rids : List Nat) (n : Nat) : Bool :=
  let l := rids.take n
  l.length == n && decide l.Nodup
    && l.all (fun i => decide (i < 65536) && (s.req i).isNone && !(s.digest.pages.any (fun e => e.2.reqId == some i))
      && !(s.port.outstanding.any (fun a => a.kind.ofReq && a.req == i)))

/-- FETCH_TURN (R65, R34, R35). `rids` are the REQ_IDs the ring engine gives out. -/
def execFetchTurn (rids : List Nat) (s : State) : Out :=
  .next <|
    match nextReady s with
    | none => s
    | some key =>
      let n := turnSize s key
      let chan := pickChannel s
      if freeIds s rids n && roomFor s chan 2 then
        let ids := rids.take n
        let pos := (s.ring key).rqHead
        let s1 := (s.assign key chan ids 0).onRing key (fun r => { r with descOut := true })
        let s2 := { s1 with engine := { s1.engine with turn := key + 1 } }
        match s2.issue (descAsk s2 key chan n pos (ids.headD 0)) with
        | (true, s3) => s3
        | (false, s3) => s3.descReadLost key ids
      else s

/-- Is LINE_PORT configured for the request's owner (07 R266)? -/
def portConfigured (s : State) (owner port : Nat) : Bool :=
  match (s.linePort port).owner with
  | some o => o == owner
  | none => false

/-- Ordering key of a request that needs no directory lookup (R116). -/
def fetchKey (d : Desc) : OrdKey :=
  if readsHandle d then
    if hKind d.handle = 2 then .unfixed else .slot (hSlot d.handle)
  else .null

/-- Does the request go through Resolve (R37)? -/
def needsResolve (d : Desc) : Bool := readsHandle d && hKind d.handle == 2

/-- Is the slice stopping, so that a request not dispatched ends QUIESCED (13 R467)? -/
def stopping (s : State) (o : Nat) : Bool :=
  o != mgr && (s.slice o).state == .quiescing

/-- One descriptor arrives at the request `rid` (R76, R108, R116, R467); an ABORT that waits for it and finds an ABORT or
a NOP_FENCE has no target. -/
def State.takeDescriptor (s : State) (rid ep : Nat) (bs : Bytes) : State :=
  match s.req rid with
  | none => s
  | some q =>
    let d := parseDesc bs
    let noTarget := d.opcode == 0x70 || d.opcode == 0x71
    let q1 := { q with d := d, handle := d.handle, ord := fetchKey d, epochs := { q.epochs with desc := ep % 16 }
                       abortWaiting := if noTarget then [] else q.abortWaiting }
    let failed :=
      if stopping s q.owner then some (ends .quiesced 0x01)
      else fetchCheck q.cls (portConfigured s q.owner d.linePort) s.pke.routineSet d
    let s1 := s.putReq rid
      (match failed with
      | some e => q1.endOuter e
      | none =>
        if d.opcode = 0x71 then { q1 with stage := .abortWait, ord := .null }
        else if needsResolve d then { q1 with stage := .resolve }
        else { q1 with stage := .gate })
    if noTarget then s1.settleAborts q.abortWaiting 0x05 else s1

/-- Descriptors of a read arrive in ring order. -/
def State.takeDescriptors (s : State) (ep : Nat) (bs : Bytes) : List Nat → Nat → State
  | [], _ => s
  | rid :: t, i => (s.takeDescriptor rid ep (cut bs (64 * i) 64)).takeDescriptors ep bs t (i + 1)

/-- The ended access that meets `p`, and the port without it. -/
def State.takeEnded (s : State) (p : Acc → Bool) : Option (Acc × State) :=
  match s.port.ended.find? p with
  | none => none
  | some a =>
    some (a, { s with port := { s.port with ended := s.port.ended.filter (fun x => x.id != a.id) } })

/-- DESCRIPTOR_ARRIVAL (R76, R65, R36). -/
def execDescriptorArrival (owner n : Nat) (s : State) : Out :=
  let key := pairKey owner n
  unit n 8 <|
    match s.takeEnded (fun a => decide (a.kind = .descriptor) && a.pair == key && !a.write) with
    | none => s
    | some (a, s1) =>
      let single := !(s.ring key).reread.isEmpty
      let rids := if single then (s.ring key).reread.take 1 else inOrder s (reading s key)
      let s2 := s1.onRing key (fun r =>
        { r with descOut := false, reread := r.reread.drop 1, rqHead := ptrAdd r.rqHead rids.length r.rqLog2 })
      s2.takeDescriptors a.epoch.toNat a.data rids 0

/-- DESC_SINGLE_REREAD (R498). -/
def execDescSingleReread (owner n : Nat) (s : State) : Out :=
  let key := pairKey owner n
  let r := s.ring key
  unit n 8 <|
    match r.reread with
    | [] => s
    | rid :: _ =>
      let q := (s.req rid).getD (Req.fresh owner n 0 0 0 0 .strict)
      if r.descOut ∨ roomFor s q.chan 2 = false then s
      else
        let s1 := s.onRing key (fun x => { x with descOut := true })
        match s1.issue (descAsk s1 key q.chan 1 q.pos rid) with
        | (true, s2) => s2
        | (false, s2) => s2.descDenied key r.reread

end Sys2Proof.Machine
end

