-- ==== Sys2Proof/Machine/Fifos.lean ====
section
/-!
DEFINITION. Tagged FIFOs (chapter 12): words, pointers, packets, marks, levels, and the software reader and writer
blocks; and the mailbox notification of 13 R477, which a level raises.
-/
namespace Sys2Proof.Machine

/-! ## One FIFO -/

/-- Depth of an instance of a kind (Table 12-5). -/
def fifoDepth (kind : Nat) : Nat :=
  match kind with
  | 0 => 512
  | 1 => 64
  | 2 => 256
  | 3 => 256
  | _ => 4096

/-- COUNT: the words a reader can take now (R442). -/
def Fifo.count (f : Fifo) : Nat :=
  match f.openAt with
  | some i => i - f.read
  | none => f.kept.length - f.read

/-- OCCUPIED (R442): `kept` reaches back to M while a mark is set. -/
def Fifo.occupied (f : Fifo) : Nat := f.kept.length + f.reserved

/-- Space (R442). -/
def Fifo.space (depth : Nat) (f : Fifo) : Nat := depth - f.occupied

/-- SEQ of the word that a read would return next (R440). -/
def Fifo.nextSeq (f : Fifo) : Nat :=
  match f.kept[f.read]? with
  | some w => w.seq
  | none => f.written % 4096

/-- Is a valid mark set, so that words already read are kept (R451, R452)? -/
def Fifo.keeps (f : Fifo) : Bool := f.marked && !f.markLost

/-- The first `n` entries released. -/
def Fifo.dropHead (n : Nat) (f : Fifo) : Fifo :=
  { f with kept := f.kept.drop n, read := f.read - n, openAt := f.openAt.map (· - n) }

/-- A word appended with the next SEQ (R440). -/
def Fifo.push (tag : FifoTag) (data : BitVec 48) (f : Fifo) : Fifo :=
  { f with
    kept := f.kept ++ [{ tag := tag, seq := f.written % 4096, data := data, bad := false, packetWords := 0 }]
    written := f.written + 1 }

/-- A word appended by a writer that never stalls (R452), with MARKS_LOST and LOSSY_DISCARDS to add. -/
def Fifo.pushLossy (depth : Nat) (data : BitVec 48) (f : Fifo) : Fifo × Nat × Nat :=
  let overtaken := f.keeps && decide (depth ≤ f.kept.length)
  let f1 := if overtaken then { f.dropHead f.read with markLost := true } else f
  let full := decide (depth ≤ f1.kept.length)
  let f2 := if full then f1.dropHead 1 else f1
  (f2.push .data data, b2n overtaken, b2n full)

/-- TAG codes (Table 12-1). -/
def tagEmpty : Nat := 0x0
def tagData : Nat := 0x9
def tagLength : Nat := 0xA
def tagIdle : Nat := 0xC
def tagConsumed : Nat := 0x6
def tagError : Nat := 0x3

/-- A 64-bit FIFO word (R439). -/
def fifoWord (tag seq data : Nat) : Nat := tag * 2 ^ 60 + (seq % 4096) * 2 ^ 48 + data % 2 ^ 48

/-- An ERROR word's DATA (R441). -/
def errorData (code follow : Nat) : Nat := code + follow * 256

/-- The word that an entry is delivered as (Tables 12-1, 12-2). -/
def FifoWord.word (w : FifoWord) : Nat :=
  if w.bad then fifoWord tagError w.seq (errorData 0x01 w.packetWords)
  else
    match w.tag with
    | .data => fifoWord tagData w.seq w.data.toNat
    | .length => fifoWord tagLength w.seq w.data.toNat
    | .error => fifoWord tagError w.seq (errorData 0x03 w.packetWords)
    | .slot => fifoWord tagEmpty w.seq 0

/-- What a read of a FIFO gives. -/
structure FifoRead where
  word : Nat
  fifo : Fifo
  taken : Option FifoWord

/-- A read (R443, R444, R451). `idle` is the idle value of an IDLE instance. -/
def Fifo.take (idle : Option Nat) (f : Fifo) : FifoRead :=
  if f.lostPending then
    { word := fifoWord tagError f.nextSeq (errorData 0x02 0)
      fifo := { f with lostPending := false, markLost := false, marked := false }, taken := none }
  else if f.count = 0 then
    { word :=
        (if f.openAt = some f.read then fifoWord tagEmpty f.nextSeq 0
        else
          match idle with
          | some v => fifoWord tagIdle f.nextSeq v
          | none => fifoWord tagEmpty f.nextSeq 0)
      fifo := f, taken := none }
  else
    match f.kept[f.read]? with
    | none => { word := fifoWord tagEmpty f.nextSeq 0, fifo := f, taken := none }
    | some w =>
      let f1 := if f.keeps then { f with read := f.read + 1 } else f.dropHead 1
      let passed :=
        match f.lastSent with
        | some x => x.seq == w.seq
        | none => false
      { word := w.word, fifo := { f1 with sentConsumed := f1.sentConsumed || passed }, taken := some w }

/-- Set the mark (R451). -/
def Fifo.setMark (f : Fifo) : Fifo :=
  { f.dropHead f.read with marked := true, markLost := false, lostPending := false }

/-- Rewind (R451). -/
def Fifo.rewind (f : Fifo) : Fifo :=
  if f.markLost then { f with lostPending := true } else if f.marked then { f with read := 0 } else f

/-- Clear the mark (R451). -/
def Fifo.clearMark (f : Fifo) : Fifo :=
  { f.dropHead f.read with marked := false, markLost := false, lostPending := false }

/-- Emptying (R445): LEVEL is a register and stays. -/
def Fifo.emptied (f : Fifo) : Fifo := Fifo.empty f.level

/-- A packet is opened: one LENGTH entry is reserved (R446). -/
def Fifo.openPacket (f : Fifo) : Fifo := { f.push .slot 0 with openAt := some f.kept.length }

/-- The open packet's entry written, with the words that follow it (R446, R453). -/
def Fifo.closeWith (tag : FifoTag) (data : BitVec 48) (i : Nat) (f : Fifo) : Fifo :=
  let w : FifoWord :=
    { tag := tag, seq := ((f.kept[i]?).map FifoWord.seq).getD 0, data := data, bad := false,
      packetWords := f.kept.length - (i + 1) }
  { f with kept := f.kept.set i w, openAt := none }

/-- The close of a packet by its LENGTH word (R446). -/
def Fifo.close (data : BitVec 48) (f : Fifo) : Fifo :=
  match f.openAt with
  | some i => f.closeWith .length data i
  | none => f

/-! ## The FIFOs of State -/

/-- A FIFO by kind and owner (Table 12-5). -/
def State.fifo (s : State) (kind o : Nat) : Fifo :=
  match kind with
  | 0 => Tab.get (Fifo.dflt 0) s.fifos.pke o
  | 1 => Tab.get (Fifo.dflt 1) s.fifos.rng o
  | 2 => Tab.get (Fifo.dflt 2) s.fifos.toManager o
  | 3 => Tab.get (Fifo.dflt 3) s.fifos.toSlice o
  | _ => s.fifos.events

/-- A FIFO written. -/
def State.putFifo (s : State) (kind o : Nat) (f : Fifo) : State :=
  match kind with
  | 0 => { s with fifos := { s.fifos with pke := Tab.set (Fifo.dflt 0) s.fifos.pke o f } }
  | 1 => { s with fifos := { s.fifos with rng := Tab.set (Fifo.dflt 1) s.fifos.rng o f } }
  | 2 => { s with fifos := { s.fifos with toManager := Tab.set (Fifo.dflt 2) s.fifos.toManager o f } }
  | 3 => { s with fifos := { s.fifos with toSlice := Tab.set (Fifo.dflt 3) s.fifos.toSlice o f } }
  | _ => { s with fifos := { s.fifos with events := f } }

/-- Counters of a kind changed (Table 12-6). -/
def State.onKind (s : State) (kind : Nat) (f : FifoKind → FifoKind) : State :=
  { s with fifos := { s.fifos with kinds := Tab.upd FifoKind.dflt s.fifos.kinds kind f } }

/-- COUNT_ONLY (R450). -/
def countOnly (s : State) : Bool :=
  !s.start.completed || s.start.state == .pavane
    || (match s.lc.state with
        | .testUnlocked _ => true
        | .testLocked _ => true
        | _ => false)

/-- The mailbox notification of a slice (13 R477): a service access (Table 14-1) with the slice's PASID. -/
def State.mailboxNotify (s : State) (o : Nat) : State :=
  let sl := s.slice o
  if sl.mbAddr = 0 then s
  else
    match s.issue { chan := pickChannel s, kind := .mailboxNotify, cls := .service, owner := o, req := 0, pair := 0,
                    write := true, addr := sl.mbAddr.toNat, len := 4, off := 0,
                    data := leBytes 4 sl.mbData.toNat } with
    | (true, s1) => s1
    | (false, s1) => s1.raise 0x192 o 0

/-- The level rule after an action on a FIFO (R449): the event, or for a mailbox to slice its notification, when
COUNT has risen to LEVEL. -/
def State.levelCheck (s : State) (kind o : Nat) : State :=
  let f := s.fifo kind o
  if kind = 1 ∨ countOnly s then s.putFifo kind o { f with aboveLevel := false }
  else
    let above := decide (f.level ≠ 0 ∧ f.level ≤ f.count)
    let s1 := s.putFifo kind o { f with aboveLevel := above }
    if above ∧ !f.aboveLevel then
      if kind = 3 then s1.mailboxNotify o else s1.raise (0x1D0 + kind) (ownerWord o) f.count
    else s1

/-- A FIFO changed by a reader or a writer, with the level rule. -/
def State.onFifo (s : State) (kind o : Nat) (f : Fifo → Fifo) : State :=
  (s.putFifo kind o (f (s.fifo kind o))).levelCheck kind o

/-- LEVEL written (R449): a COUNT at or above it counts as a rise. -/
def State.writeLevel (s : State) (kind o v : Nat) : State :=
  s.onFifo kind o (fun f => { f with level := v, aboveLevel := false })

/-- The end of count-only mode (R449, R450) at every FIFO with a level that is not empty. -/
def State.levelsAll (s : State) : State :=
  let each (kind : Nat) (t : Tab Fifo) (u : State) : State :=
    t.foldl (fun w e => w.levelCheck kind e.1) u
  (each 0 s.fifos.pke (each 2 s.fifos.toManager (each 3 s.fifos.toSlice s))).levelCheck 4 mgr

/-- The idle value of a kind (Table 12-5). -/
def idleValue (s : State) (kind : Nat) : Option Nat := if kind = 4 then some s.now.toNat else none

/-- A read of a reader block: the word, and the state after it (R444, R448). -/
def State.readFifo (s : State) (kind o : Nat) : Nat × State :=
  let r := (s.fifo kind o).take (idleValue s kind)
  let s1 := (s.putFifo kind o r.fifo).levelCheck kind o
  match r.taken with
  | some w =>
    if w.bad then
      (r.word,
        (s1.onKind kind (fun k => { k with uncorrectable := k.uncorrectable + 1 })).raise (0xE0 + kind)
          (ownerWord o) w.seq)
    else (r.word, s1)
  | none => (r.word, s1)

/-- Does the FIFO of `kind` and `o` answer its reader: not while its slice is absent or being reset (13 R478)? -/
def mailboxDead (s : State) (kind o : Nat) : Bool :=
  (kind == 2 || kind == 3) &&
    (match (s.slice o).state with
      | .absent => true
      | .resetting => true
      | .removing => true
      | _ => false)

/-- The page that holds the reader block of a FIFO (13 Tables 13-1 and 13-2, 20 Table 20-5). -/
def readerPage (kind o : Nat) : Nat :=
  match kind with
  | 2 => mgr
  | 4 => mgr
  | _ => o

/-- Is there a reader block for this kind and owner? -/
def hasReader (kind o : Nat) : Nat :=
  match kind with
  | 0 => if o ≤ 512 then 1 else 0
  | 2 => if o < 512 then 1 else 0
  | 3 => if o < 512 then 1 else 0
  | 4 => if o = mgr then 1 else 0
  | _ => 0

/-- FIFO_DATA (R444). -/
def execFifoData (b : Bus) (kind owner : Nat) (s : State) : Out :=
  unit 0 (hasReader kind owner)
    (s.pageRead b (readerPage kind owner) (fun t =>
      if kind = 2 ∧ mailboxDead t kind owner then (fifoWord tagEmpty (t.fifo kind owner).nextSeq 0, t)
      else t.readFifo kind owner))

/-- PK_FIFO_DATA (10 R401). -/
def execPkFifoData (b : Bus) (owner : Nat) (s : State) : Out :=
  unit 0 (hasReader 0 owner) (s.pageRead b owner (fun t => t.readFifo 0 owner))

/-- FIFO_SET_MARK (R451). -/
def execFifoSetMark (b : Bus) (kind owner : Nat) (s : State) : Out :=
  unit 0 (hasReader kind owner) (s.pageWrite b (readerPage kind owner) (fun t => t.onFifo kind owner Fifo.setMark))

/-- FIFO_REWIND (R451). -/
def execFifoRewind (b : Bus) (kind owner : Nat) (s : State) : Out :=
  unit 0 (hasReader kind owner) (s.pageWrite b (readerPage kind owner) (fun t => t.onFifo kind owner Fifo.rewind))

/-- FIFO_CLEAR_MARK (R451). -/
def execFifoClearMark (b : Bus) (kind owner : Nat) (s : State) : Out :=
  unit 0 (hasReader kind owner)
    (s.pageWrite b (readerPage kind owner) (fun t => t.onFifo kind owner Fifo.clearMark))

/-! ## Software writers (R453) -/

/-- The page that holds the writer block of a mailbox (13 R476). -/
def writerPage (kind o : Nat) : Nat := if kind = 2 then o else mgr

/-- Is there a writer block for this kind and owner? -/
def hasWriter (kind o : Nat) : Nat := if (kind = 2 ∨ kind = 3) ∧ o < 512 then 1 else 0

/-- A write or open dropped (R453). -/
def State.sendDrop (s : State) (kind o : Nat) : State :=
  let s1 := s.putFifo kind o { s.fifo kind o with sendDrops := (s.fifo kind o).sendDrops + 1 }
  s1.onKind kind (fun k => { k with sendDropsTotal := k.sendDropsTotal + 1 })

/-- A SEND write: one DATA word. -/
def State.sendWord (s : State) (kind o : Nat) (v : BitVec 48) : State :=
  let f := s.fifo kind o
  if mailboxDead s kind o ∨ f.space (fifoDepth kind) = 0 then s.sendDrop kind o
  else
    s.onFifo kind o (fun g =>
      { g.push .data v with
        lastSent := some { tag := .data, seq := g.written % 4096, data := v, bad := false, packetWords := 0 }
        sentConsumed := false })

/-- A SEND_CMD open. -/
def State.sendOpen (s : State) (kind o : Nat) : State :=
  let f := s.fifo kind o
  if mailboxDead s kind o ∨ f.space (fifoDepth kind) = 0 ∨ f.openAt.isSome then s.sendDrop kind o
  else s.onFifo kind o Fifo.openPacket

/-- A SEND_CMD abandon. -/
def State.sendAbandon (s : State) (kind o : Nat) : State :=
  if mailboxDead s kind o then s
  else
    s.onFifo kind o (fun f =>
      match f.openAt with
      | some i => f.closeWith .error 0 i
      | none => f)

/-- A SEND_CLOSE write. -/
def State.sendLength (s : State) (kind o : Nat) (v : BitVec 48) : State :=
  let f := s.fifo kind o
  if mailboxDead s kind o then s
  else
    match f.openAt with
    | none => s
    | some i =>
      s.onFifo kind o (fun g =>
        { g.close v with
          lastSent := some { tag := .length, seq := ((g.kept[i]?).map FifoWord.seq).getD 0, data := v,
                             bad := false, packetWords := 0 }
          sentConsumed := false })

/-- The read-back of SEND (R453). -/
def Fifo.sendReadBack (f : Fifo) : Nat :=
  match f.lastSent with
  | none => fifoWord tagEmpty (f.written % 4096) 0
  | some w => if f.sentConsumed then fifoWord tagConsumed w.seq w.data.toNat else w.word

/-- SEND (R453). -/
def execSend (b : Bus) (kind owner : Nat) (v : U64) (s : State) : Out :=
  unit 0 (hasWriter kind owner)
    (s.pageWrite b (writerPage kind owner) (fun t => t.sendWord kind owner (v.truncate 48)))

/-- SEND_CMD_OPEN (R446). -/
def execSendCmdOpen (b : Bus) (kind owner : Nat) (s : State) : Out :=
  unit 0 (hasWriter kind owner) (s.pageWrite b (writerPage kind owner) (fun t => t.sendOpen kind owner))

/-- SEND_CMD_ABANDON (R453). -/
def execSendCmdAbandon (b : Bus) (kind owner : Nat) (s : State) : Out :=
  unit 0 (hasWriter kind owner) (s.pageWrite b (writerPage kind owner) (fun t => t.sendAbandon kind owner))

/-- SEND_CLOSE (R446). -/
def execSendClose (b : Bus) (kind owner : Nat) (v : U64) (s : State) : Out :=
  unit 0 (hasWriter kind owner)
    (s.pageWrite b (writerPage kind owner) (fun t => t.sendLength kind owner (v.truncate 48)))

end Sys2Proof.Machine
end

