-- ==== Sys2Proof/Machine/Link.lean ====
section
/-!
DEFINITION. The Lovaov link (chapter 18): frames and credits, messages and their routes, the end-to-end sequence,
bring-up of a port, the cascade map, the timestamp, and the head's doorbell window. The messages whose effect
belongs to another chapter (GRANT, TOKEN, SPREAD_CTL, KEYX, KEYX_SETUP, DICT_REQ, DICT_RESP, EVENT) are taken from
the link here and acted on there.
-/
namespace Sys2Proof.Machine

/-! ## Ports and peers -/

/-- A port by number: 0 east, 1 west. -/
def State.lport (s : State) (p : Nat) : LinkPort := Tab.get LinkPort.dflt s.link.ports p

/-- A change of a port. -/
def State.onLport (s : State) (p : Nat) (f : LinkPort → LinkPort) : State :=
  { s with link := { s.link with ports := Tab.upd LinkPort.dflt s.link.ports p f } }

/-- What is held for an instance. -/
def State.peer (s : State) (i : Nat) : Peer := Tab.get Peer.dflt s.link.map i

/-- A change of what is held for an instance. -/
def State.onPeer (s : State) (i : Nat) (f : Peer → Peer) : State :=
  { s with link := { s.link with map := Tab.upd Peer.dflt s.link.map i f } }

/-- A change of the link objects. -/
def State.onLink (s : State) (f : Link → Link) : State := { s with link := f s.link }

/-- Message kinds (Table 18-5). -/
def kIdent : Nat := 0x01
def kMap : Nat := 0x02
def kTime : Nat := 0x03
def kEcho : Nat := 0x04
def kAck : Nat := 0x05
def kDoorbell : Nat := 0x10
def kGrant : Nat := 0x11
def kToken : Nat := 0x12
def kSpreadCtl : Nat := 0x13
def kKeyx : Nat := 0x14
def kKeyxSetup : Nat := 0x15
def kDictReq : Nat := 0x20
def kDictResp : Nat := 0x21
def kEvent : Nat := 0x30

/-- Is the kind ordered end to end? -/
def orderedKind (k : Nat) : Bool :=
  [kDoorbell, kGrant, kToken, kSpreadCtl, kKeyx, kKeyxSetup, kDictReq, kDictResp].contains k

/-- Is the kind one of Table 18-5? -/
def knownKind (k : Nat) : Bool := orderedKind k || [kIdent, kMap, kTime, kEcho, kAck, kEvent].contains k

/-- Every instance, as a destination. -/
def everyone : Nat := 0xFF

/-- Octets a message takes in a frame (R582). -/
def Msg.octets (m : Msg) : Nat := 8 + m.body.length

/-- Credits a DATA frame spends (R581). -/
def frameCost (ms : List Msg) : Nat := (12 + (ms.map Msg.octets).sum + 15) / 16

/-! ## Frames (R578 to R581) -/

/-- May the port send this message now: any in UP, IDENT and ECHO in IDENTIFY (Table 18-6)? -/
def LinkPort.maySend (l : LinkPort) (m : Msg) : Bool :=
  l.state == .up || (l.state == .identify && (m.kind == kIdent || m.kind == kEcho))

/-- Messages packed into frames: two grants, or two tokens, share a frame (R600). -/
def packs : List Msg → List (List Msg)
  | [] => []
  | m :: rest =>
    match packs rest with
    | [m2] :: more =>
      if m.kind = m2.kind ∧ (m.kind = kGrant ∨ m.kind = kToken) then [m, m2] :: more else [m] :: [m2] :: more
    | more => [m] :: more

/-- A DATA frame sent: it is kept, spends its credits, and carries LACK and CREDIT (R580, R581). -/
def LinkPort.frame (ms : List Msg) (l : LinkPort) : LinkPort :=
  { l with
    kept := l.kept ++ [(l.lseqTx, ms)], lseqTx := (l.lseqTx + 1) % 65536, framesTx := l.framesTx + 1,
    credits := l.credits - frameCost ms, lackDue := false, creditsDue := l.creditsDue - 255 }

/-- May a frame of these messages leave: there is credit, and room among the 64 kept? -/
def LinkPort.canFrame (ms : List Msg) (l : LinkPort) : Bool :=
  ms.all l.maySend && decide (frameCost ms ≤ l.credits ∧ l.kept.length < 64)

/-- DATA frames leave in order while they can (R580, R581); the rest stay queued. -/
def sendPacks : List (List Msg) → LinkPort → LinkPort
  | [], l => { l with queued := [] }
  | ms :: rest, l =>
    if l.canFrame ms then sendPacks rest (l.frame ms) else { l with queued := (ms :: rest).flatten }

/-- The queue of a port is sent as far as credit allows. -/
def LinkPort.flush (l : LinkPort) : LinkPort := sendPacks (packs l.queued) l

/-- Does the clock of a Lovaov port run (21 R648)? While it does not, what the port would send waits. -/
def State.linkClock (s : State) (p : Nat) : Bool := s.pins.clocksPresent.getLsbD (5 + p)

/-- A message queued at a port that may send it; a port that is not that far discards it, as it does its queue when it goes
DOWN (R590). -/
def State.queueAt (s : State) (p : Nat) (m : Msg) : State :=
  s.onLport p (fun l =>
    if l.maySend m then
      (if s.linkClock p then { l with queued := l.queued ++ [m] }.flush else { l with queued := l.queued ++ [m] })
    else l)

/-- A CONTROL frame sent: LACK and CREDIT are reported (R579, R580). -/
def LinkPort.control (l : LinkPort) : LinkPort :=
  { l with framesTx := l.framesTx + 1, lackDue := false, creditsDue := l.creditsDue - 255 }

/-- LACK received: the frames before it are released (R580). -/
def LinkPort.ackTo (l : LinkPort) (lack : Nat) : LinkPort :=
  match l.kept with
  | [] => l
  | (q, _) :: _ =>
    let n := (lack + 65536 - q) % 65536
    if n ≤ l.kept.length ∧ 0 < n then { l with kept := l.kept.drop n, replayRuns := 0 } else l

/-- Every kept frame is resent, with REPLAY set and the sender's current LACK and CREDIT (R580). -/
def LinkPort.replay (l : LinkPort) : LinkPort :=
  { l with
    replays := l.replays + 1, framesTx := l.framesTx + BitVec.ofNat 64 l.kept.length,
    replayRuns := l.replayRuns + 1, lackDue := false, creditsDue := l.creditsDue - 255 * l.kept.length }

/-! ## Routes (R592, R593) -/

/-- The physical port of a logical direction: 0 east, 1 west. -/
def State.portTo (s : State) (dir : Nat) : Nat := if (s.lport 0).role = dir then 0 else 1

/-- Is this instance's own segment up in a direction? -/
def State.ownUp (s : State) (dir : Nat) : Bool := (s.lport (s.portTo dir)).state == .up

/-- Segments up in a row from this instance, in a direction, at most `n`. `at_` is the instance reached. -/
def runFrom (s : State) (dir : Nat) : Nat → Nat → Nat
  | 0, _ => 0
  | fuel + 1, at_ =>
    let up :=
      if at_ = s.link.instanceNo then s.ownUp dir
      else if dir = 0 then (s.peer at_).eastUp else (s.peer at_).westUp
    let n := s.link.cascadeSize
    let next := if dir = 0 then (at_ + 1) % n else (at_ + n - 1) % n
    if up then runFrom s dir fuel next + 1 else 0

/-- Hops to instance `d` in a direction. -/
def State.hopsTo (s : State) (dir d : Nat) : Nat :=
  let n := s.link.cascadeSize
  if dir = 0 then (d + n - s.link.instanceNo) % n else (s.link.instanceNo + n - d) % n

/-- The direction of the route to `d`: the reachable one with fewer hops, east when equal. -/
def State.route (s : State) (d : Nat) : Option Nat :=
  let r := (s.peer d).reach
  let e := r.getLsbD 0
  let w := r.getLsbD 1
  if e ∧ w then (if (s.peer d).hopsEast ≤ (s.peer d).hopsWest then some 0 else some 1)
  else if e then some 0
  else if w then some 1
  else none

/-- A message goes out of this instance towards `d`; none of its routes may exist. -/
def State.transmit (s : State) (m : Msg) : State :=
  match s.route m.dest with
  | some dir => s.queueAt (s.portTo dir) m
  | none => s

/-- A broadcast goes out on both ports (R593). -/
def State.broadcast (s : State) (m : Msg) : State := (s.queueAt 0 m).queueAt 1 m

/-! ## Originating a message (R595 to R597) -/

/-- Ordered messages kept for every destination. -/
def State.keptMessages (s : State) : Nat := (s.link.map.map (fun e => e.2.pending.length)).sum

/-- An ordered message is given its PSEQ, kept and sent; the first one to a destination carries RESTART (R597). -/
def State.originate (s : State) (m : Msg) : State :=
  let d := m.dest
  let q := s.peer d
  let m1 := if q.restartDue then { m with pseq := 0, restart := true } else { m with pseq := q.nextPseq }
  let s1 := s.onPeer d (fun x =>
    { x with pending := x.pending ++ [m1], nextPseq := (m1.pseq + 1) % 65536, restartDue := false })
  let s2 := s1.onLink (fun l =>
    { l with msgTx := l.msgTx + 1, restarts := if q.restartDue then l.restarts + 1 else l.restarts })
  s2.transmit m1

/-- A message of this instance: an ordered one waits for space among 8,192 kept (R596). -/
def State.sendMsg (s : State) (kind dest : Nat) (body : Bytes) : State :=
  let m : Msg :=
    { kind := kind, src := s.link.instanceNo, dest := dest, hops := 0, restart := false, pseq := 0, body := body }
  if orderedKind kind then
    if s.keptMessages < 8192 ∧ s.link.waiting.isEmpty then s.originate m
    else s.onLink (fun l => { l with waiting := l.waiting ++ [m] })
  else if dest = everyone then (s.onLink (fun l => { l with msgTx := l.msgTx + 1 })).broadcast m
  else (s.onLink (fun l => { l with msgTx := l.msgTx + 1 })).transmit m

/-- A message sent on one port only: IDENT and ECHO concern one link. -/
def State.sendOn (s : State) (p kind : Nat) (body : Bytes) : State :=
  (s.onLink (fun l => { l with msgTx := l.msgTx + 1 })).queueAt p
    { kind := kind, src := s.link.instanceNo, dest := everyone, hops := 0, restart := false, pseq := 0, body := body }

/-- Messages that waited are sent as space appears. -/
def State.sendWaiting : State → List Msg → State
  | s, [] => s.onLink (fun l => { l with waiting := [] })
  | s, m :: rest =>
    if s.keptMessages < 8192 then (s.originate m).sendWaiting rest
    else s.onLink (fun l => { l with waiting := m :: rest })

/-- Every unacknowledged message to `d` is resent in order (R596). -/
def State.resendTo (s : State) (d : Nat) : State :=
  let ms := (s.peer d).pending
  let s1 := s.onLink (fun l => { l with e2eResends := l.e2eResends + BitVec.ofNat 64 ms.length })
  ms.foldl (fun t m => t.transmit m) s1

/-! ## Taking a message (R581, R593, R595) -/

/-- The head of a port's receive FIFO is taken, and its entries give credit back. -/
def State.popRx (s : State) (p : Nat) : State :=
  s.onLport p (fun l =>
    { l with rx := l.rx.drop 1, creditsDue := l.creditsDue + ((l.rx.head?).map RxMsg.cost).getD 0 })

/-- The port whose receive FIFO holds this message next. -/
def State.rxPort (s : State) (m : Msg) : Option Nat :=
  if ((s.lport 0).rx.head?).map RxMsg.msg = some m then some 0
  else if ((s.lport 1).rx.head?).map RxMsg.msg = some m then some 1
  else none

/-- Is the message for this instance? -/
def State.forMe (s : State) (m : Msg) : Bool := m.dest == s.link.instanceNo || m.dest == everyone

/-- How far a broadcast goes that arrived at physical port `p` (R593): the copy going east arrives at the logical
west port. -/
def State.broadcastLimit (s : State) (p : Nat) : Nat :=
  let n := s.link.cascadeSize
  if s.link.state = .ring then (if (s.lport p).role = 1 then n / 2 else (n - 1) / 2) else n

/-- A message that came in at port `p` goes out of the opposite port, with its HOPS counted; there it is discarded where that
port is not UP. -/
def State.forwardOn (s : State) (p : Nat) (m : Msg) : State :=
  if (s.lport (1 - p)).state = .up then
    (s.onLink (fun l => { l with forwarded := l.forwarded + 1 })).queueAt (1 - p) { m with hops := m.hops + 1 }
  else s

/-- A broadcast is passed on within its limit: with HOPS links crossed before the last, this copy has crossed HOPS + 1. -/
def State.passOn (s : State) (p : Nat) (m : Msg) : State :=
  if m.hops + 2 ≤ s.broadcastLimit p then s.forwardOn p m else s

/-- An unordered message addressed here is taken from the port it stands at. -/
def State.takeMsg (s : State) (p : Nat) (m : Msg) (kind : Nat) : Option State :=
  if ((s.lport p).rx.head?).map RxMsg.msg = some m ∧ m.kind = kind ∧ s.forMe m then
    some ((s.popRx p).onLink (fun l => { l with msgRx := l.msgRx + 1 }))
  else none

/-- A restart from the head empties the snapshot and the segment buffer kept for it (19 R626). -/
def State.dictEmptied (s : State) (src : Nat) : State :=
  if src = 0 then
    { s with dict := { s.dict with snapshot := Tab.del s.dict.snapshot 1, segments := Tab.del s.dict.segments 1 } }
  else s

/-- What the destination does with an ordered message (R595, R597): the state, and whether it is delivered. A RESTART
discards what is held from the source, its transport key with it (R601). -/
def State.acceptOrdered (s : State) (m : Msg) : State × Bool :=
  let q := s.peer m.src
  let gone (t : State) : State :=
    t.onPeer m.src (fun x => { x with early := x.early.filter (fun y => y.pseq != m.pseq) })
  if m.restart then
    (((s.onPeer m.src (fun x =>
        { x with early := [], expectPseq := some ((m.pseq + 1) % 65536), delivered := 1, setup := [] })).onLink
      (fun l =>
        { l with
          msgRx := l.msgRx + 1, transportKeys := Tab.del l.transportKeys m.src
          keyxHeld := l.keyxHeld.filter (fun x => x.src != m.src) })).dictEmptied m.src, true)
  else
    match q.expectPseq with
    | none => (s.sendMsg kAck m.src (leBytes 8 (2 ^ 63)), false)
    | some e =>
      let ahead := (m.pseq + 65536 - e) % 65536
      if ahead = 0 then
        ((gone (s.onPeer m.src (fun x =>
          { x with expectPseq := some ((e + 1) % 65536), delivered := x.delivered + 1 }))).onLink
            (fun l => { l with msgRx := l.msgRx + 1 }), true)
      else if ahead < 32768 then
        if q.early.length < 4096 ∧ q.early.all (fun y => y.pseq != m.pseq) then
          (s.onPeer m.src (fun x => { x with early := x.early ++ [m] }), false)
        else (s, false)
      else (s.onLink (fun l => { l with duplicatesDropped := l.duplicatesDropped + 1 }), false)

/-- ACK_E2E to a source, with the highest PSEQ delivered in order (R595). -/
def State.sendAck (s : State) (i : Nat) : State :=
  match (s.peer i).expectPseq with
  | none => s
  | some e => (s.onPeer i (fun x => { x with delivered := 0 })).sendMsg kAck i (leBytes 8 ((e + 65535) % 65536))

/-- An ordered message is delivered to its kind: from a receive FIFO, or, once its PSEQ is due, from the messages held
early. An ACK_E2E follows every 256 deliveries. -/
def State.deliverMsg (s : State) (m : Msg) (kind : Nat) : Option State :=
  if m.kind ≠ kind ∨ m.dest ≠ s.link.instanceNo then none
  else
    let q := s.peer m.src
    let after (r : State × Bool) : State × Bool :=
      if 256 ≤ (r.1.peer m.src).delivered then (r.1.sendAck m.src, r.2) else r
    if q.early.contains m ∧ q.expectPseq = some m.pseq then
      let r := after (s.acceptOrdered m)
      if r.2 then some r.1 else none
    else
      match s.rxPort m with
      | none => none
      | some p =>
        let r := after ((s.popRx p).acceptOrdered m)
        if r.2 then some r.1 else none

/-- The state after an ordered message that was not delivered: held early, dropped or refused. -/
def State.undelivered (s : State) (m : Msg) (kind : Nat) : State :=
  if m.kind ≠ kind ∨ m.dest ≠ s.link.instanceNo then s
  else
    match s.rxPort m with
    | none => s
    | some p => ((s.popRx p).acceptOrdered m).1

/-! ## The frame commands -/

/-- The messages of a frame enter the receive FIFO; its credits come back with the last of them. -/
def rxOf (ms : List Msg) (at_ : BitVec 48) : List RxMsg :=
  let n := ms.length
  (List.range n).zip ms |>.map (fun e =>
    { msg := e.2, cost := if e.1 + 1 = n then frameCost ms else 0, arrived := at_ })

/-- FRAME_RECEIVE (R579): `good` says that FCRC, END and the code groups are in order. -/
def execFrameReceive (port lseq lack credit : Nat) (good : Bool) (msgs : List Msg) (s : State) : Out :=
  unit port 2
    (let l := s.lport port
    if l.state ≠ .identify ∧ l.state ≠ .up then s
    else if good = false ∨ lseq ≠ l.lseqRx then
      s.onLport port (fun x => { x with crcErrors := x.crcErrors + 1 }.control)
    else
      s.onLport port (fun x =>
        (({ x with
            framesRx := x.framesRx + 1, lseqRx := (x.lseqRx + 1) % 65536, lackDue := true,
            credits := x.credits + credit, rx := x.rx ++ rxOf msgs s.now }).ackTo lack).flush))

/-- Does LACK name a frame that is kept? -/
def LinkPort.names (l : LinkPort) (lack : Nat) : Bool := l.kept.any (fun e => e.1 == lack)

/-- CONTROL_FRAME_PERIOD (R580). -/
def execControlFramePeriod (port : Nat) (s : State) : Out :=
  unit port 2
    (let l := s.lport port
    if (l.state = .identify ∨ l.state = .up) ∧ s.linkClock port ∧ (l.lackDue ∨ 0 < l.creditsDue) then
      s.onLport port LinkPort.control
    else s)

/-! ## The cascade map (R592) -/

/-- The body of this instance's MAP: its number, then state, logical role and peer of each port (log entry 12). -/
def State.mapBody (s : State) : Bytes :=
  let code (l : LinkPort) : Nat := match l.state with
    | .down => 0 | .lock => 1 | .train => 2 | .align => 3 | .identify => 4 | .up => 5 | .failed => 6
  let one (l : LinkPort) : Bytes :=
    [BitVec.ofNat 8 (code l), BitVec.ofNat 8 l.role, BitVec.ofNat 8 l.peerInstance]
  [BitVec.ofNat 8 s.link.instanceNo] ++ one (s.lport 0) ++ one (s.lport 1) ++ zeros 9

/-- MAP sent on both ports. -/
def State.sendMap (s : State) : State := s.sendMsg kMap everyone s.mapBody

/-- The reach of every instance from the segments known (R592), and CASCADE_STATE; the routes that changed resend what
is kept (R596). -/
def State.remap (s : State) : State :=
  let n := s.link.cascadeSize
  if n = 1 then s
  else
    let e := runFrom s 0 (n - 1) s.link.instanceNo
    let w := runFrom s 1 (n - 1) s.link.instanceNo
    let others := (List.range n).filter (fun d => d != s.link.instanceNo)
    let old (d : Nat) : Option Nat := s.route d
    let set (t : State) (d : Nat) : State :=
      let he := t.hopsTo 0 d
      let hw := t.hopsTo 1 d
      let re := decide (he ≤ e)
      let rw_ := decide (hw ≤ w)
      t.onPeer d (fun x =>
        { x with
          reach := BitVec.ofNat 2 (b2n re + 2 * b2n rw_)
          hopsEast := if re then he else 0
          hopsWest := if rw_ then hw else 0
          everReached := x.everReached || re || rw_ })
    let s1 := others.foldl set s
    let allNow := others.all (fun d => (s1.peer d).reach != 0)
    let formed := others.all (fun d => (s1.peer d).everReached)
    let whole := decide (e = n - 1 ∧ w = n - 1) && s.ownUp 0 && s.ownUp 1
      && others.all (fun d => (s1.peer d).eastUp && (s1.peer d).westUp)
    let st : CascadeState :=
      if !formed then .forming else if !allNow then .partitioned else if whole then .ring else .wrapped
    let s2 := s1.onLink (fun l => { l with state := st })
    others.foldl (fun t d => if old d ≠ t.route d ∧ (t.route d).isSome then t.resendTo d else t) s2

/-- A port changes state: MAP goes out and the map is made anew (R592). -/
def State.portChanged (s : State) : State := s.remap.sendMap

/-- MAP (R592). -/
def execMap (port : Nat) (m : Msg) (s : State) : Out :=
  unit port 2
    (match s.takeMsg port m kMap with
    | none => s
    | some s1 =>
      let by_ (i : Nat) : Nat := (octet m.body i).toNat
      let i := by_ 0
      let up (role : Nat) : Bool := (by_ 1 == 5 && by_ 2 == role) || (by_ 4 == 5 && by_ 5 == role)
      if i = s.link.instanceNo ∨ s.link.cascadeSize ≤ i then s1
      else ((s1.onPeer i (fun x => { x with eastUp := up 0, westUp := up 1 })).remap).passOn port m)

/-- MAP_PERIOD (R592). -/
def execMapPeriod (s : State) : Out := .next (if s.link.cascadeSize = 1 then s else s.sendMap)

/-! ## Bring-up (R583 to R590) -/

/-- A port leaves its state for DOWN: its kept and queued frames and its credits go (R590). -/
def LinkPort.lose (l : LinkPort) : LinkPort :=
  { l with
    state := .down, kept := [], queued := [], rx := [], credits := 0, creditsDue := 0, lackDue := false,
    replayRuns := 0, echoDelays := [], echoSent := none, identSeen := false, width := 0 }

/-- The preset coefficients (R584): pre 0, main 28, post 4. -/
def presetTaps : Bytes := [0, 28, 4]

/-- A port enters LOCK when it may leave DOWN (Table 18-6); it sends TRAIN sets at the preset coefficients. -/
def State.tryLock (s : State) (p : Nat) : State :=
  let l := s.lport p
  if l.state = .down ∧ l.enable ∧ l.phyReady ∧ s.link.cascadeSize ≠ 1 ∧ !s.start.inReset then
    (s.onLport p (fun x =>
      { x with state := .lock, failCause := 0, relockDue := false, txCoeff := (List.replicate 8 presetTaps).flatten })).portChanged
  else s

/-- PORT_DOWN (R590): loss of signal, missing ALIGN columns, or replay exhaustion. -/
def State.portDown (s : State) (p : Nat) : State :=
  ((s.onLport p (fun l => { l.lose with downCount := l.downCount + 1, relockDue := true })).raise (0x100 + p) p 0).portChanged

/-- A port fails (Table 18-6). -/
def State.portFail (s : State) (p cause : Nat) : State :=
  ((s.onLport p (fun l => { l.lose with state := .failed, failCause := cause })).raise (0x102 + p) p cause).portChanged

/-- A resend of the kept frames (R580): after REPLAY_LIMIT, which is 8, without an advance of LACK the port goes DOWN instead. -/
def State.resendFrames (s : State) (p : Nat) : State :=
  if 8 ≤ (s.lport p).replayRuns then s.portDown p else s.onLport p LinkPort.replay

/-- CONTROL_FRAME (R579, R580). -/
def execControlFrame (port lack credit : Nat) (s : State) : Out :=
  unit port 2
    (let l := s.lport port
    if l.state ≠ .identify ∧ l.state ≠ .up then s
    else
      let s1 := s.onLport port (fun x => ({ x with framesRx := x.framesRx + 1, credits := x.credits + credit }).ackTo lack)
      let s2 := if (s1.lport port).names lack then s1.resendFrames port else s1
      s2.onLport port LinkPort.flush)

/-- A write of PORT_ENABLE (Table 18-6). -/
def State.writePortEnable (s : State) (p : Nat) (on : Bool) : State :=
  let l := s.lport p
  if on then
    if l.enable then s
    else (s.onLport p (fun x => { x with enable := true, state := .down, failCause := 0 })).tryLock p
  else
    let s1 := s.onLport p (fun x =>
      if x.state = .failed then { x with enable := false } else { x.lose with enable := false, relockDue := false })
    if l.state = .down ∨ l.state = .failed then s1 else s1.portChanged

/-- PORT_ENABLE (R583): the dictionary write of 0x510p.01. -/
def execPortEnable (port : Nat) (on : Bool) (s : State) : Out := unit port 2 (s.writePortEnable port on)

/-- PHY_READY (21 R656): a port that went DOWN less than 10 µs ago waits for RELOCK (R590). -/
def execPhyReady (port : Nat) (s : State) : Out :=
  unit port 2
    (let s1 := s.onLport port (fun l => { l with phyReady := true })
    if (s.lport port).relockDue then s1 else s1.tryLock port)

/-- RELOCK (R590). -/
def execRelock (port : Nat) (s : State) : Out :=
  unit port 2 (if (s.lport port).relockDue then s.tryLock port else s)

/-- LANES_CLASSIFIED (R583): a status per receive lane, 0 OK, 1 OPEN, 2 STUCK, 3 SHORTED. -/
def execLanesClassified (port : Nat) (status : List Nat) (polarity : BitVec 8) (s : State) : Out :=
  unit port 2
    (if (s.lport port).state = .lock then
      (s.onLport port (fun l =>
        { l with state := .train, laneStatus := (List.range 8).map (fun i => status.getD i 1 % 4),
                 polarity := polarity, trial := 0, trained := 0, eye := zeros 8, bestPre := zeros 8,
                 bestPost := List.replicate 8 4, basePost := List.replicate 8 4 })).portChanged
    else s)

/-- The pre and post of trial `t` for a lane (R584): post in steps of 2, then pre at the best post, then post one below and one
above the best of those, none where that is out of range. `base` is the best post when the third run begins. -/
def trialCoeff (t bestPre bestPost base : Nat) : Option (Nat × Nat) :=
  if t < 9 then some (0, 2 * t)
  else if t < 18 then some (t - 9, bestPost)
  else if t = 18 then (if base = 0 then none else some (bestPre, base - 1))
  else if base < 16 then some (bestPre, base + 1)
  else none

/-- Does the port run trials under TRAIN_MODE (R584)? -/
def runsTrials (s : State) (p : Nat) : Bool :=
  match s.link.trainMode with
  | 0 => true
  | 1 => false
  | _ => (s.lport p).lastUp.isNone

/-- The coefficients of the trial that a port makes next on receive lane `i`. -/
def LinkPort.trialOf (l : LinkPort) (i : Nat) : Option (Nat × Nat) :=
  trialCoeff l.trial (octet l.bestPre i).toNat (octet l.bestPost i).toNat (octet l.basePost i).toNat

/-- Is this trial the best of lane `i` so far? One whose PHY access got no answer has failed (21 R657). -/
def LinkPort.betterTrial (l : LinkPort) (eye : Bytes) (noAnswer : BitVec 8) (i : Nat) : Bool :=
  (l.trialOf i).isSome && !(noAnswer.getLsbD i)
    && (!(l.trained.getLsbD i) || decide ((octet l.eye i).toNat < (octet eye i).toNat))

/-- A trial has been made on every receive lane at once (R584). -/
def LinkPort.tried (coeff eye : Bytes) (noAnswer : BitVec 8) (l : LinkPort) : LinkPort :=
  let pick (f : Nat → Byte) (old : Bytes) : Bytes :=
    (List.range 8).map (fun i => if l.betterTrial eye noAnswer i then f i else octet old i)
  let post := pick (fun i => BitVec.ofNat 8 ((l.trialOf i).getD (0, 0)).2) l.bestPost
  { l with
    trial := l.trial + 1, trained := l.trained ||| ~~~noAnswer, txCoeff := cut coeff 0 24
    eye := pick (octet eye) l.eye
    bestPre := pick (fun i => BitVec.ofNat 8 ((l.trialOf i).getD (0, 0)).1) l.bestPre
    bestPost := post, basePost := if l.trial < 18 then post else l.basePost }

/-- Lanes that a mask names. -/
def laneCount (m : BitVec 8) : Nat := ((List.range 8).filter (fun i => m.getLsbD i)).length

/-- TRAINING_TRIAL (R584): `coeff` is what the peer had this end apply, `eye` the metric of each receive lane and the lanes whose
PHY control access was not answered, which PHYC_TIMEOUTS counts (21 R657). After the trials the peer's last request, its best
coefficients, is applied the same way. -/
def execTrainingTrial (port : Nat) (coeff : Bytes) (eye : TrialEye) (s : State) : Out :=
  unit port 2
    (let l := s.lport port
    if l.state = .train ∧ runsTrials s port ∧ s.pins.clocksPresent.getLsbD 7 then
      let s1 := { s with pins := { s.pins with phycTimeouts := s.pins.phycTimeouts + BitVec.ofNat 32 (laneCount eye.noAnswer) } }
      s1.onLport port (if l.trial < 20 then LinkPort.tried coeff eye.metric eye.noAnswer else fun x => { x with txCoeff := cut coeff 0 24 })
    else s)

/-- The width that the usable lanes give (R585): width and LANE_SET. -/
def widthOf (ok : Nat → Bool) : Nat × Nat :=
  if (List.range 8).all ok then (8, 0)
  else if [0, 1, 2, 3].all ok then (4, 1)
  else if [4, 5, 6, 7].all ok then (4, 2)
  else (0, 0)

/-- TRAINING_END (R584, R585): `peerOk` are the lanes the peer reports OK. -/
def execTrainingEnd (port : Nat) (peerOk : BitVec 8) (s : State) : Out :=
  unit port 2
    (let l := s.lport port
    if l.state ≠ .train then s
    else
      let trials := runsTrials s port
      let st := (List.range 8).map (fun i =>
        let v := l.laneStatus.getD i 1
        if v = 0 ∧ trials ∧ (!(l.trained.getLsbD i) ∨ (octet l.eye i).toNat < s.link.eyeMin) then 4 else v)
      let coeff :=
        if trials then l.txCoeff
        else if s.link.trainMode = 1 then (List.replicate 8 s.link.txFixed).flatten
        else l.lastUp.getD l.txCoeff
      let w := widthOf (fun i => st.getD i 1 == 0 && peerOk.getLsbD i)
      let s1 := s.onLport port (fun x => { x with laneStatus := st, txCoeff := coeff })
      if w.1 = 0 then s1.portFail port 1
      else (s1.onLport port (fun x => { x with state := .align, width := w.1, laneSet := w.2 })).portChanged)

/-- The receive lanes that are active. -/
def activeLanes (set : Nat) : List Nat :=
  match set with
  | 0 => [0, 1, 2, 3, 4, 5, 6, 7]
  | 1 => [0, 1, 2, 3]
  | _ => [4, 5, 6, 7]

/-- The body of IDENT (Table 18-7). -/
def State.identBody (s : State) (p : Nat) : Bytes :=
  let l := s.lport p
  let no := if s.link.isFixed then s.link.instanceNo else 0xFF
  let head := s.pins.htEnabled
  s.lc.deviceId ++ [BitVec.ofNat 8 p, BitVec.ofNat 8 l.role, BitVec.ofNat 8 (b2n head + 2 * b2n s.link.isFixed),
    BitVec.ofNat 8 no, BitVec.ofNat 8 s.link.cascadeSize, BitVec.ofNat 8 s.link.linkRate, BitVec.ofNat 8 l.width, 0]
    ++ (if head then s.lc.deviceId.take 8 else s.link.headId)

/-- ECHO's request: T1, with [63] clear (log entry 12). -/
def State.sendEcho (s : State) (p : Nat) : State :=
  (s.onLport p (fun l => { l with echoSent := some s.now })).sendOn p kEcho (leBytes 8 s.now.toNat ++ zeros 8)

/-- A port enters IDENTIFY: it starts its sequence and credits anew, and sends IDENT and ECHO. -/
def State.identify (s : State) (p : Nat) : State :=
  let s1 := s.onLport p (fun l =>
    { l with state := .identify, lseqTx := 0, lseqRx := 0, kept := [], queued := [], rx := [], credits := 256,
             creditsDue := 0, lackDue := false, replayRuns := 0, echoDelays := [], identSeen := false })
  (((s1.sendOn p kIdent (s1.identBody p)).sendEcho p)).portChanged

/-- ALIGN_DONE (R586): `order` lists, for each receive lane, the peer's lane it carries. -/
def execAlignDone (port : Nat) (order : List Nat) (skewOk : Bool) (s : State) : Out :=
  unit port 2
    (let l := s.lport port
    if l.state ≠ .align then s
    else
      let act := activeLanes l.laneSet
      let direct := act.all (fun i => order.getD i 8 == i)
      let reversed := act.all (fun i => order.getD i 8 == 7 - i)
      if skewOk = false then s.portFail port 3
      else if !direct ∧ !reversed then s.portFail port 2
      else (s.onLport port (fun x => { x with reversed := !direct })).identify port)

/-- The causes of FAILED that an IDENT shows (R589). -/
def identConflict (s : State) (p : Nat) (b : Bytes) : Option Nat :=
  let l := s.lport p
  let by_ (i : Nat) : Nat := (octet b i).toNat
  let dev := cut b 0 48
  let mine := if s.pins.htEnabled then s.lc.deviceId.take 8 else s.link.headId
  let theirs := cut b 56 8
  let listed := dev != zeros 48 && (List.range 64).any (fun i => Tab.get (fun _ => zeros 48) s.link.peerIds i == dev)
  if s.link.isFixed ∧ bit (by_ 50) 1 ∧ by_ 49 = l.role then some 4
  else if dev = s.lc.deviceId ∧ dev ≠ zeros 48 then some 5
  else if by_ 52 ≠ s.link.cascadeSize ∨ by_ 53 ≠ s.link.linkRate then some 6
  else if mine ≠ theirs ∧ mine ≠ zeros 8 ∧ theirs ≠ zeros 8 then some 7
  else if !s.link.peerIds.isEmpty ∧ !listed then some 8
  else none

/-- An instance that is not fixed learns its number and roles from a fixed peer (R588), and says so with an IDENT on each port
that stands in IDENTIFY, whose peers wait for it (R589; DEDUCED, log entry 96). -/
def State.fixBy (s : State) (p : Nat) (b : Bytes) : State :=
  let by_ (i : Nat) : Nat := (octet b i).toNat
  let n := s.link.cascadeSize
  let swap := decide (by_ 49 = (s.lport p).role)
  let s1 :=
    if swap then
      (((s.onLport 0 (fun l => { l with role := 1 - l.role })).onLport 1 (fun l => { l with role := 1 - l.role })).onLink
        (fun l => { l with roleSwapped := true })).raise 0x104 0 0
    else s
  let west := decide ((s1.lport p).role = 1)
  let no := if west then (by_ 51 + 1) % n else (by_ 51 + n - 1) % n
  let s2 := s1.onLink (fun l =>
    { l with isFixed := true, instanceNo := no, headId := cut b 56 8 })
  let s3 := s2.sendOn p kIdent (s2.identBody p)
  if (s3.lport (1 - p)).state = .up then s3.identify (1 - p) else s3.sendOn (1 - p) kIdent (s3.identBody (1 - p))

/-- IDENT (R588, R589). -/
def execIdent (port : Nat) (m : Msg) (s : State) : Out :=
  unit port 2
    (if (s.lport port).state ≠ .identify then s
    else
      match s.takeMsg port m kIdent with
      | none => s
      | some s1 =>
        let b := m.body
        let by_ (i : Nat) : Nat := (octet b i).toNat
        let s2 := s1.onLport port (fun l =>
          { l with peerInstance := by_ 51, peerPort := by_ 48, peerFixed := bit (by_ 50) 1, peerRole := by_ 49,
                   peerDevice := cut b 0 48, identSeen := true })
        match identConflict s2 port b with
        | some c => s2.portFail port c
        | none =>
          let s3 := if !s2.link.isFixed ∧ bit (by_ 50) 1 then s2.fixBy port b else s2
          let s4 := if s3.link.headId = zeros 8 then
              s3.onLink (fun l => { l with headId := cut b 56 8 }) else s3
          if by_ 51 < s4.link.cascadeSize then
            s4.onPeer (by_ 51) (fun x => { x with deviceId := cut b 0 48 })
          else s4)

/-- IDENT_PERIOD (R589). -/
def execIdentPeriod (port : Nat) (s : State) : Out :=
  unit port 2
    (let l := s.lport port
    if l.state = .identify ∧ (s.link.isFixed = false ∨ l.peerFixed = false) then s.sendOn port kIdent (s.identBody port)
    else s)

/-- PORT_UP (R589): both ends fixed, roles opposite, 16 ECHO exchanges done. -/
def execPortUp (port : Nat) (s : State) : Out :=
  unit port 2
    (let l := s.lport port
    if l.state = .identify ∧ l.identSeen ∧ s.link.isFixed ∧ l.peerFixed ∧ l.peerRole ≠ l.role
        ∧ 16 ≤ l.echoDelays.length then
      (s.onLport port (fun x =>
        { x with state := .up, credits := 256, creditsDue := 0, lastUp := some x.txCoeff,
                 hopDelay := BitVec.ofNat 16 ((x.echoDelays.take 16).sum / 16) })).portChanged
    else s)

/-- PORT_DOWN (R590). -/
def execPortDown (port cause : Nat) (s : State) : Out :=
  unit port 2
    (let l := s.lport port
    if cause < 2 ∧ (l.state = .identify ∨ l.state = .up ∨ l.state = .align) then s.portDown port else s)

/-- REPLAY_TIME_EXPIRY (R580): after REPLAY_LIMIT resends without an advance the port goes DOWN. -/
def execReplayTimeExpiry (port : Nat) (s : State) : Out :=
  unit port 2
    (let l := s.lport port
    if l.kept.isEmpty ∨ !(s.linkClock port) then s else s.resendFrames port)

/-! ## ECHO and TIME (R604, R605) -/

/-- ECHO (R605): a request, with [63] of its first word clear, is answered with T1, T2 and T3; an answer gives
((T4 − T1) − (T3 − T2)) / 2. -/
def execEcho (port : Nat) (m : Msg) (s : State) : Out :=
  unit port 2
    (let arrived := (((s.lport port).rx.head?).map RxMsg.arrived).getD 0
    match s.takeMsg port m kEcho with
    | none => s
    | some s1 =>
      let w := leNat (cut m.body 0 8)
      if bit w 63 then
        let t1 := BitVec.ofNat 32 w
        let t2 := BitVec.ofNat 32 (leNat (cut m.body 8 4))
        let t3 := BitVec.ofNat 32 (leNat (cut m.body 12 4))
        let t4 : BitVec 32 := arrived.truncate 32
        let d := ((t4 - t1) - (t3 - t2)).toNat / 2
        let s2 := s1.onLport port (fun l =>
          { l with
            echoDelays := if l.echoDelays.length < 16 then l.echoDelays ++ [d] else l.echoDelays.drop 1 ++ [d]
            echoSent := none })
        let l2 := s2.lport port
        if l2.echoDelays.length < 16 then s2.sendEcho port
        else if l2.state = .up then
          s2.onLport port (fun l => { l with hopDelay := BitVec.ofNat 16 (l.echoDelays.sum / 16) })
        else s2
      else
        s1.sendOn port kEcho
          (leBytes 8 (w % 2 ^ 48 + 2 ^ 63) ++ leBytes 4 (arrived.truncate 32).toNat ++ leBytes 4 (s.now.truncate 32).toNat))

/-- ECHO_RENEWAL (R605): while UP the measurement is made anew. -/
def execEchoRenewal (port : Nat) (s : State) : Out :=
  unit port 2
    (if (s.lport port).state = .up then (s.onLport port (fun l => { l with echoDelays := [] })).sendEcho port else s)

/-- The body of TIME: the head's count and the correction. -/
def timeBody (count correction : Nat) : Bytes := leBytes 8 count ++ leBytes 4 correction ++ zeros 4

/-- TIME (R604): the count steps to T + correction when it differs by more than 64 ns, else it slews. The copy passed
on carries the residence time here and HOP_DELAY of the arrival port. -/
def execTime (port : Nat) (m : Msg) (s : State) : Out :=
  unit port 2
    (let arrived := (((s.lport port).rx.head?).map RxMsg.arrived).getD s.now
    match s.takeMsg port m kTime with
    | none => s
    | some s1 =>
      let t := leNat (cut m.body 0 8) % 2 ^ 48
      let c := leNat (cut m.body 8 4)
      let residence := (s.now - arrived).toNat
      let s2 := s1.passOn port { m with body := timeBody t ((c + residence + (s.lport port).hopDelay.toNat) % 2 ^ 32) }
      let target := BitVec.ofNat 48 (t + c + residence)
      let diff := (target - s.now).toInt
      if diff < -64 ∨ 64 < diff then { s2 with now := target, link := { s2.link with slewing := 0 } }
      else s2.onLink (fun l => { l with slewing := diff }))

/-- TIME_PERIOD (R604): the head broadcasts its count. -/
def execTimePeriod (s : State) : Out :=
  .next (if s.pins.htEnabled ∧ s.link.cascadeSize ≠ 1 then s.sendMsg kTime everyone (timeBody s.now.toNat 0) else s)

/-! ## End to end (R595 to R597) -/

/-- What is kept for `d` is discarded and the next message restarts (R597). The transport key goes with it (R601). -/
def State.dropPeer (s : State) (d : Nat) : State :=
  ((s.onPeer d (fun x => { x with pending := [], restartDue := true })).onLink (fun l =>
    { l with waiting := l.waiting.filter (fun m => m.dest != d)
             transportKeys := Tab.del l.transportKeys d })).raise 0x107 d 0

/-- ACK_E2E (R596, R597): [15:0] the highest PSEQ delivered in order, [63] NEED_RESTART. -/
def execAckE2e (m : Msg) (s : State) : Out :=
  .next <|
    match s.rxPort m with
    | none => s
    | some p =>
      match s.takeMsg p m kAck with
      | none => s
      | some s1 =>
        let w := leNat (cut m.body 0 8)
        if bit w 63 then s1.dropPeer m.src
        else
          let top := w % 65536
          let covered (y : Msg) : Bool := decide ((top + 65536 - y.pseq) % 65536 < 32768)
          let s2 := s1.onPeer m.src (fun x => { x with pending := x.pending.filter (fun y => !covered y) })
          s2.sendWaiting s2.link.waiting

/-- E2E_TIME_EXPIRY (R596). -/
def execE2eTimeExpiry (inst : Nat) (s : State) : Out :=
  unit inst 64 (if (s.peer inst).pending.isEmpty then s else s.resendTo inst)

/-- ACK_E2E_PERIOD (R595). -/
def execAckE2ePeriod (inst : Nat) (s : State) : Out :=
  unit inst 64 (if 0 < (s.peer inst).delivered then s.sendAck inst else s)

/-- DEST_LOST (R597): the destination is unreachable in both directions. -/
def execDestLost (inst : Nat) (s : State) : Out :=
  unit inst 64
    (if s.link.cascadeSize ≠ 1 ∧ inst ≠ s.link.instanceNo ∧ (s.peer inst).reach = 0 ∧ (s.peer inst).everReached then
      s.dropPeer inst
    else s)

/-- MESSAGE_FORWARD (R593): a message for another instance goes out of the opposite port, or is discarded at the hop
limit; a message of an unknown kind is discarded wherever it goes. -/
def execMessageForward (port : Nat) (m : Msg) (s : State) : Out :=
  unit port 2
    (if ((s.lport port).rx.head?).map RxMsg.msg ≠ some m then s
    else if !knownKind m.kind then
      ((s.popRx port).onLink (fun l => { l with unknownKind := l.unknownKind + 1 })).raise 0x105 port m.kind
    else if s.forMe m then s
    else if s.link.cascadeSize ≤ m.hops + 1 then
      ((s.popRx port).onLink (fun l => { l with hopLimitDrops := l.hopLimitDrops + 1 })).raise 0x106 m.src m.kind
    else (s.popRx port).forwardOn port m)

/-! ## Doorbells of a cascade (R598, R599) -/

/-- A doorbell value acts on this instance's ring block (R599). -/
def State.ringWrite (s : State) (owner pair reg v : Nat) : State :=
  if reg = 0 then s.doorbell (pairKey owner pair) v else s.cqHeadWrite (pairKey owner pair) v

/-- The body of DOORBELL (log entry 12): owner word, pair, register, PASID with [31] for none, value. -/
def doorbellBody (owner pair reg : Nat) (b : Bus) (v : U64) : Bytes :=
  leBytes 2 (ownerWord owner) ++ [BitVec.ofNat 8 pair, BitVec.ofNat 8 reg]
    ++ leBytes 4 (match b.pasid with
        | some p => p.toNat
        | none => 2 ^ 31)
    ++ leBytes 8 v.toNat

/-- DOORBELL_WINDOW_WRITE (R598): `addr` counts from 0x0300_0000. -/
def execDoorbellWindowWrite (b : Bus) (addr : Nat) (v : U64) (s : State) : Out :=
  .next <|
    let i := addr / 0x40000
    let r := addr % 0x40000
    let owner := r / 0x100
    let pair := r / 0x20 % 8
    let off := r % 0x20
    match s.htAccess b with
    | (false, s1) => s1
    | (true, s1) =>
      if 64 ≤ i then s1
      else if s1.link.cascadeSize ≤ i then s1.onLink (fun l => { l with doorbellDrops := l.doorbellDrops + 1 })
      else if 512 < owner ∨ (off ≠ 0 ∧ off ≠ 8) then s1
      else
        match s1.pageAccess b owner with
        | (false, s2) => s2
        | (true, s2) =>
          if i = 0 then (if pageDead s2 owner then s2 else s2.ringWrite owner pair (off / 8) v.toNat)
          else
            (s2.onLink (fun l => { l with doorbellsForwarded := l.doorbellsForwarded + 1 })).sendMsg kDoorbell i
              (doorbellBody owner pair (off / 8) b v)

/-- DOORBELL (R599): R457 applies again, by this instance's own record. -/
def execDoorbell (m : Msg) (s : State) : Out :=
  .next <|
    match s.deliverMsg m kDoorbell with
    | none => s.undelivered m kDoorbell
    | some s1 =>
      let by_ (i n : Nat) : Nat := leNat (cut m.body i n)
      let w := by_ 0 2
      let owner := if bit w 9 then mgr else w % 512
      let pw := by_ 4 4
      let b : Bus := { pasid := if bit pw 31 then none else some (BitVec.ofNat 20 pw), be := 0xFF }
      match s1.pageAccess b owner with
      | (false, s2) => s2
      | (true, s2) => if pageDead s2 owner then s2 else s2.ringWrite owner (by_ 2 1 % 8) (by_ 3 1) (by_ 8 8)

end Sys2Proof.Machine
end

