-- ==== Sys2Proof/Machine/Crypto.lean ====
section
/-!
DEFINITION. How the T9 composes the ciphers that the published standards define (chapters 4 and 5): counter mode,
GCM, ChaCha20-Poly1305, CBC, ECB and CMAC over the uninterpreted block functions of Config, the nonces of
Table 4-4 and the AAD that is authenticated (Table 4-5).
-/
namespace Sys2Proof.Machine

/-- AES forward cipher of one block. -/
def aesE (key b : Bytes) : Bytes := octetsOf 16 (Config.aesEnc key b)

/-- AES inverse cipher of one block. -/
def aesD (key b : Bytes) : Bytes := octetsOf 16 (Config.aesDec key b)

/-- A counter block whose rightmost 32 bits have advanced by `n`, modulo 2^32 (R171). -/
def inc32 (b : Bytes) (n : Nat) : Bytes := b.take 12 ++ beBytes 4 ((beNat (b.drop 12) + n) % 2 ^ 32)

/-- `n` keystream octets from octet `off` on, of a stream of blocks of `bs` octets. -/
def streamFrom (blk : Nat → Bytes) (bs off n : Nat) : Bytes :=
  cut ((List.range (n / bs + 2)).map (fun i => blk (off / bs + i))).flatten (off % bs) n

/-- AES keystream of the counter blocks from `ctr` on. -/
def ctrStream (key ctr : Bytes) (off n : Nat) : Bytes := streamFrom (fun i => aesE key (inc32 ctr i)) 16 off n

/-- ChaCha20 keystream from block counter 1 on (R170). -/
def chachaStream (key nonce : Bytes) (off n : Nat) : Bytes :=
  streamFrom (fun i => octetsOf 64 (Config.chacha key nonce (1 + i))) 64 off n

/-- The Poly1305 one-time key (R170). -/
def polyKey (key nonce : Bytes) : Bytes := octetsOf 32 (Config.chacha key nonce 0)

/-- GHASH continued over whole blocks. -/
def ghashOver (key acc data : Bytes) : Bytes :=
  if data.isEmpty then acc else octetsOf 16 (Config.ghash (aesE key (zeros 16)) acc data)

/-- The GCM tag: accumulator, lengths and E(K, J0) (R167). -/
def gcmTag (key iv acc : Bytes) (aadLen textLen : Nat) : Bytes :=
  xorBytes (ghashOver key acc (beBytes 8 (8 * aadLen) ++ beBytes 8 (8 * textLen))) (aesE key (iv ++ beBytes 4 1))

/-- GCM seal of a whole text: ciphertext and tag. -/
def gcmSeal (key iv aad pt : Bytes) : Bytes × Bytes :=
  let ct := xorBytes pt (ctrStream key (iv ++ beBytes 4 2) 0 pt.length)
  (ct, gcmTag key iv (ghashOver key (ghashOver key (zeros 16) (pad16 aad)) (pad16 ct)) aad.length ct.length)

/-- GCM open of a whole text: none when the tag does not verify. -/
def gcmOpen (key iv aad ct tag : Bytes) : Option Bytes :=
  let acc := ghashOver key (ghashOver key (zeros 16) (pad16 aad)) (pad16 ct)
  if gcmTag key iv acc aad.length ct.length = tag then
    some (xorBytes ct (ctrStream key (iv ++ beBytes 4 2) 0 ct.length))
  else none

/-- A string in blocks of 16 octets. -/
def blocksOf (bs : Bytes) : List Bytes := (List.range ((bs.length + 15) / 16)).map (fun i => (bs.drop (16 * i)).take 16)

/-- CBC encryption (R173): ciphertext and the last block. -/
def cbcEnc (key iv : Bytes) (pt : Bytes) : Bytes × Bytes :=
  (blocksOf pt).foldl (fun a b => let c := aesE key (xorBytes b a.2); (a.1 ++ c, c)) ([], iv)

/-- CBC decryption: plaintext and the last ciphertext block. -/
def cbcDec (key iv : Bytes) (ct : Bytes) : Bytes × Bytes :=
  (blocksOf ct).foldl (fun a b => (a.1 ++ xorBytes (aesD key b) a.2, b)) ([], iv)

/-! ## Transforms (Table 4-2) -/

/-- Key octets of a transform: the lanes' transforms, HMAC keys of 0x20 + ALG (R334); none for another code. -/
def keyBytes (t : Nat) : Option Nat :=
  match t with
  | 0x01 => some 16 | 0x02 => some 32 | 0x03 => some 16 | 0x04 => some 32 | 0x05 => some 16 | 0x06 => some 32
  | 0x07 => some 16 | 0x08 => some 32 | 0x09 => some 16 | 0x0A => some 32 | 0x0B => some 32
  | 0x21 => some 32 | 0x22 => some 48 | 0x23 => some 64 | 0x25 => some 32 | 0x26 => some 48 | 0x27 => some 64
  | _ => none

/-- Families of transforms. -/
def tGcm (t : Nat) : Bool := t == 1 || t == 2
def tCtr (t : Nat) : Bool := t == 3 || t == 4
def tCbc (t : Nat) : Bool := t == 5 || t == 6
def tEcb (t : Nat) : Bool := t == 7 || t == 8
def tCmac (t : Nat) : Bool := t == 9 || t == 0xA
def tChacha (t : Nat) : Bool := t == 0xB
def tHmac (t : Nat) : Bool := 0x20 < t && hmacAlg (t - 0x20)
/-- Transforms that take counter values under Table 4-4 (R231). -/
def tCounter (t : Nat) : Bool := tGcm t || tCtr t || tChacha t

/-- Is the opcode one that the transform permits (R164)? -/
def opForTransform (t op : Nat) : Bool :=
  if tGcm t then [0x10, 0x11, 0x18, 0x19].contains op
  else if tCtr t || tCbc t || tEcb t then [0x14, 0x15].contains op
  else if tCmac t then [0x18, 0x19].contains op
  else if tChacha t then [0x10, 0x11].contains op
  else false

/-- Is the profile one that Table 4-3 permits for the transform and the opcode (R176)? -/
def profileFor (p t op : Nat) : Bool :=
  match p with
  | 1 => true
  | 2 => tGcm t
  | 3 => tGcm t
  | 4 => tGcm t && (op == 0x10 || op == 0x11)
  | 5 => tChacha t
  | 6 => (tGcm t || tChacha t) && (op == 0x10 || op == 0x11)
  | 7 => tCbc t
  | _ => false

/-- Is ICV_LEN one that Tables 4-2 and 4-3 permit? -/
def icvFor (p t icv : Nat) : Bool :=
  (if tGcm t then [8, 12, 16].contains icv
   else if tCmac t then decide (8 ≤ icv ∧ icv ≤ 16)
   else if tChacha t then icv == 16
   else icv == 0)
    && (if p == 2 || p == 3 || p == 5 || p == 6 then icv == 16 else true)

/-- Is the computation sequential on a lane (R173, R174)? -/
def seqOp (t op : Nat) : Bool := tCmac t || (tCbc t && op == 0x14)

/-- Does it need the inverse cipher (R160)? -/
def needsInverse (t op : Nat) : Bool := op == 0x15 && (tCbc t || tEcb t)

/-! ## Nonces (Table 4-4) and AAD (Table 4-5) -/

/-- Does a request take a counter value (R245)? -/
def takesValue (d : Desc) (t : Nat) : Bool :=
  d.nonceHw && !d.later
    && ((isSealing d.opcode && d.profile != 7 && tCounter t) || (d.opcode == 0x11 && d.profile == 6))

/-- SCI octets of an opening: those of the SecTAG, else the slot's (R677). -/
def openSci (d : Desc) (aad : Bytes) (k : KeyCopy) : Bytes :=
  let carried := if d.opcode = 0x10 ∨ d.opcode = 0x11 then d.aadLen == 28 else (octet aad 14).getLsbD 5
  if carried then cut aad 20 8 else k.sci

/-- The nonce, IV or initial counter block (Table 4-4). `v` is the value taken, or the packet number of an
opening; `iv` the IV item; `drawn` the 16 octets of a CBC_LEGACY draw. -/
def nonceOf (d : Desc) (k : KeyCopy) (v : Nat) (iv aad payload drawn : Bytes) : Bytes :=
  let c := beBytes 8 v
  let salt := k.salt12.take 4
  if !d.nonceHw then (if tCtr k.transform || tCbc k.transform then iv else iv.take 12)
  else if isSealing d.opcode then
    match d.profile with
    | 2 => k.sci ++ c.drop 4
    | 3 => xorBytes (k.ssci ++ c) k.salt12
    | 6 => xorBytes k.salt12 (zeros 4 ++ c)
    | 7 => drawn
    | _ => if tCtr k.transform then salt ++ c ++ beBytes 4 1 else salt ++ c
  else
    match d.profile with
    | 2 => openSci d aad k ++ cut aad 16 4
    | 3 => xorBytes (k.ssci ++ c) k.salt12
    | 4 => salt ++ cut payload 0 8
    | 5 => salt ++ cut payload 0 8
    | 6 => xorBytes k.salt12 (zeros 4 ++ c)
    | _ => iv.take 12

/-- The AAD authenticated by a sealing request (R180, R258). `kind1`: the handle names a pair. -/
def sealAad (d : Desc) (k : KeyCopy) (kind1 : Bool) (v : Nat) (aad : Bytes) : Bytes :=
  let c := beBytes 8 v
  if isSealing d.opcode ∧ (d.profile = 2 ∨ d.profile = 3) then
    let a1 :=
      if d.nonceHw then
        let sciIn := if d.opcode = 0x10 then d.aadLen == 28 else (octet aad 14).getLsbD 5
        let a0 := patch aad 16 (c.drop 4)
        if sciIn then patch a0 20 k.sci else a0
      else aad
    if kind1 then patch a1 14 [((octet a1 14) &&& 0xFC#8) ||| BitVec.ofNat 8 (k.an % 4)] else a1
  else if isSealing d.opcode ∧ d.nonceHw ∧ (d.profile = 4 ∨ d.profile = 5) then
    if d.aadLen = 8 then patch aad 4 (c.drop 4) else patch aad 4 c
  else aad

/-- Octets of the payload that come before the text: the explicit IV of an ESP opening (R181). -/
def skipOf (d : Desc) : Nat :=
  if d.opcode = 0x11 ∧ d.nonceHw ∧ (d.profile = 4 ∨ d.profile = 5) then 8 else 0

/-! ## One segment on a lane -/

/-- The text of a segment's turn absorbed: `w.iv` the nonce or counter block, `w.acc` the accumulator or chaining
value; a CMAC keeps its last block back behind the chaining value, for the close. The first turn of a request
absorbs the AAD. Answers the work after it and the output. -/
def runText (op t : Nat) (key : Bytes) (w : Work) (aad text : Bytes) : Work × Bytes :=
  let fresh := w.aadDone = 0 ∧ w.textDone = 0
  let adv (acc out : Bytes) : Work × Bytes :=
    ({ w with acc := acc, aadDone := w.aadDone + aad.length, textDone := w.textDone + text.length }, out)
  if tGcm t then
    let acc0 := if fresh then zeros 16 else w.acc
    let acc1 := ghashOver key acc0 (pad16 aad)
    if op = 0x18 ∨ op = 0x19 then adv acc1 []
    else
      let out := xorBytes text (ctrStream key (w.iv ++ beBytes 4 2) w.textDone text.length)
      adv (ghashOver key acc1 (pad16 (if op = 0x10 then out else text))) out
  else if tChacha t then
    let pk := polyKey key w.iv
    let mix (a b : Bytes) : Bytes := if b.isEmpty then a else octetsOf 16 (Config.poly1305 pk a b false)
    let acc1 := mix (if fresh then zeros 16 else w.acc) (pad16 aad)
    let out := xorBytes text (chachaStream key w.iv w.textDone text.length)
    adv (mix acc1 (pad16 (if op = 0x10 then out else text))) out
  else if tCtr t then adv [] (xorBytes text (ctrStream key w.iv w.textDone text.length))
  else if tCbc t then
    let iv := if w.textDone = 0 then w.iv else w.acc
    let r := if op = 0x14 then cbcEnc key iv text else cbcDec key iv text
    adv r.2 r.1
  else if tEcb t then adv [] ((blocksOf text).map (if op = 0x14 then aesE key else aesD key)).flatten
  else
    let all := w.acc.drop 16 ++ text
    let n := (all.length - 1) / 16 * 16
    let cv := if w.acc.isEmpty then zeros 16 else w.acc.take 16
    adv ((if n = 0 then cv else octetsOf 16 (Config.cmac key cv (all.take n) false)) ++ all.drop n) []

/-- The full tag at the close of a request (R167, R170, R174). -/
def closeTag (t : Nat) (key : Bytes) (w : Work) : Bytes :=
  if tGcm t then gcmTag key w.iv w.acc w.aadDone w.textDone
  else if tChacha t then
    octetsOf 16 (Config.poly1305 (polyKey key w.iv) w.acc (leBytes 8 w.aadDone ++ leBytes 8 w.textDone) true)
  else octetsOf 16 (Config.cmac key (if w.acc.isEmpty then zeros 16 else w.acc.take 16) (w.acc.drop 16) true)

/-- Does the opcode close with a tag? -/
def closesTag (d : Desc) : Bool := [0x10, 0x11, 0x18, 0x19].contains d.opcode && (!d.cont || d.contLast)

/-! ## The curves of FIPS 186-5 that Table 10-7 names -/

/-- A curve y² = x³ - 3x + b over the field of `p`, of order `n`, with field elements of `size` octets. -/
structure Curve where
  size : Nat
  p : Nat
  n : Nat
  b : Nat
  deriving DecidableEq, Repr

/-- P-256. -/
def p256 : Curve :=
  { size := 32, p := 2 ^ 256 - 2 ^ 224 + 2 ^ 192 + 2 ^ 96 - 1
    n := 0xFFFFFFFF00000000FFFFFFFFFFFFFFFFBCE6FAADA7179E84F3B9CAC2FC632551
    b := 0x5AC635D8AA3A93E7B3EBBD55769886BC651D06B0CC53B0F63BCE3C3E27D2604B }

/-- P-384. -/
def p384 : Curve :=
  { size := 48, p := 2 ^ 384 - 2 ^ 128 - 2 ^ 96 + 2 ^ 32 - 1
    n := 0xFFFFFFFFFFFFFFFFFFFFFFFFFFFFFFFFFFFFFFFFFFFFFFFFC7634D81F4372DDF581A0DB248B0A77AECEC196ACCC52973
    b := 0xB3312FA7E23EE7E4988E056BE3F82D19181D9C6EFE8141120314088F5013875AC656398D8A2ED19D2A85C8EDD3EC2AEF }

/-- P-521. -/
def p521 : Curve :=
  { size := 66, p := 2 ^ 521 - 1
    n := 2 ^ 521 - 2 ^ 260 + 0xA51868783BF2F966B7FCC0148F709A5D03BB5C9B8899C47AEBB6FB71E91386409
    b := 0x51953EB9618E1C9A1F929A21A0B68540EEA2DA725B99B315F3B8B489918EF109E156193951EC7E937B1652C0BD3BB1BF073573DF883D2C34F1EF451FD46B503F00 }

/-- Is a number a scalar of the curve: 1 to n - 1? -/
def Curve.scalar (c : Curve) (v : Nat) : Bool := decide (0 < v ∧ v < c.n)

/-- Is X ‖ Y a point of the curve? -/
def Curve.point (c : Curve) (xy : Bytes) : Bool :=
  let x := beNat (cut xy 0 c.size)
  let y := beNat (cut xy c.size c.size)
  decide (x < c.p ∧ y < c.p ∧ (y * y + 3 * x) % c.p = (x * x * x + c.b) % c.p)

/-- A private key from random octets by the candidate test of FIPS 186-5 A.2.2, which leaves 1 to n - 1; the octets stand for
the candidate accepted (log entry 75). -/
def Curve.candidate (c : Curve) (drawn : Bytes) : Bytes := beBytes c.size (beNat (cut drawn 0 c.size) % (c.n - 1) + 1)

/-! ## HMAC and hashes (chapter 9) -/

/-- Octets of a hash state as a state record holds it (Table 9-6). -/
def stateLen (alg : Nat) : Nat := if alg = 1 then 32 else if alg = 2 ∨ alg = 3 then 64 else 200

/-- The initial hash value of an algorithm. -/
def hashInit (alg : Nat) : Bytes := octetsOf (stateLen alg) (Config.hashAbsorb alg [] [])

/-- The state after `n` whole blocks from the start of `b` are absorbed, one after the other. -/
def hashBlocks (alg : Nat) : Nat → Bytes → Bytes → Bytes
  | 0, _, st => st
  | n + 1, b, st =>
    hashBlocks alg n (b.drop (hashRate alg)) (octetsOf (stateLen alg) (Config.hashAbsorb alg st (b.take (hashRate alg))))

/-- A hash computation over more octets: whole blocks are absorbed, the rest is buffered. -/
def HashWork.absorb (w : HashWork) (data : Bytes) : HashWork :=
  let all := w.buf ++ data
  let n := all.length / hashRate w.alg
  { w with
    st := hashBlocks w.alg n all w.st
    buf := all.drop (n * hashRate w.alg)
    total := w.total + data.length }

/-- The digest at the finish, `n` octets. -/
def HashWork.finish (w : HashWork) (n : Nat) : Bytes := octetsOf n (Config.hashFinish w.alg w.st w.buf w.total)

/-- A computation begun. -/
def HashWork.start (alg : Nat) : HashWork := { alg := alg, st := hashInit alg, buf := [], total := 0 }

/-- The HMAC key block, padded to the block and combined with a constant. -/
def hmacPad (alg : Nat) (key : Bytes) (v : Byte) : Bytes := (cut key 0 (hashRate alg)).map (fun b => b ^^^ v)

/-- A keyed computation begun: K XOR ipad absorbed; its block is not message (R352, R354). -/
def HashWork.startKeyed (alg : Nat) (key : Bytes) : HashWork :=
  (HashWork.start alg).absorb (hmacPad alg (cut key 0 (hashLen alg)) 0x36#8)

/-- The HMAC of an inner computation. -/
def hmacClose (w : HashWork) (key : Bytes) (n : Nat) : Bytes :=
  (((HashWork.start w.alg).absorb (hmacPad w.alg (cut key 0 (hashLen w.alg)) 0x5C#8)).absorb
    (w.finish (hashLen w.alg))).finish n

end Sys2Proof.Machine
end

