-- ==== Sys2Proof/Machine/Flags.lean ====
section
/-!
DEFINITION. The flag words of the T9: CFLAGS of a completion record (Table 2-9), the tag word of a beat (Table 1-2),
and the counts a record carries (R88).
-/
namespace Sys2Proof.Machine

/-- CFLAGS bits that Myeno sets (Table 2-9): RETRIED, AN, NONCE_VALID, CHAIN_OPEN, SOFT_LIMIT. -/
def myenoFlags (retried : Bool) (an : Nat) (nonceValid chainOpen softLimit : Bool) : BitVec 16 :=
  BitVec.ofNat 16 (b2n retried * 4 + an % 4 * 8 + b2n nonceValid * 32 + b2n chainOpen * 64 + b2n softLimit * 128)

/-- CFLAGS of a record: Myeno's flags with those Outer sets, PARTIAL, ABORT_LATE, JOURNAL and OUTER_ENDED. -/
def recordFlags (m : BitVec 16) (st : Status) (outDone : Nat) (abortLate journal outerEnded : Bool) : BitVec 16 :=
  m ||| BitVec.ofNat 16 (b2n (decide (outDone ≠ 0) && !st.good) + b2n abortLate * 2 + b2n journal * 256
    + b2n outerEnded * 512)

/-- KIND of a beat (Table 1-3). -/
def BeatKind.code : BeatKind → Nat
  | .head => 1
  | .iv => 2
  | .aad => 3
  | .data => 4
  | .expect => 5
  | .keyblob => 6
  | .cancel => 7
  | .out => 8
  | .icv => 9
  | .stat => 0xA
  | .fill => 0xB

/-- Kind of a code; none for a reserved one. -/
def BeatKind.ofCode (n : Nat) : Option BeatKind :=
  [BeatKind.head, .iv, .aad, .data, .expect, .keyblob, .cancel, .out, .icv, .stat, .fill].find? (fun k => k.code == n)

/-- The fields of a tag word that follow a request (Table 1-2): REQ_ID, SLICE, MGR, RING, ORDER_CLASS. -/
def tagBase (rid owner ring : Nat) (cls : OrderClass) : Nat :=
  rid % 65536 + (if owner = mgr then 2 ^ 25 else (owner % 512) * 2 ^ 16) + ring % 8 * 2 ^ 26 + cls.code % 4 * 2 ^ 29

/-- A tag word (Table 1-2). `bytes` is the count of valid bytes, of which 16 is coded 0. -/
def tagWord (base epoch gen : Nat) (kind : BeatKind) (first last inseg : Bool) (bytes : Nat) : U64 :=
  BitVec.ofNat 64 (base + epoch % 16 * 2 ^ 32 + gen % 4096 * 2 ^ 36 + kind.code * 2 ^ 48 + b2n first * 2 ^ 52
    + b2n last * 2 ^ 53 + b2n inseg * 2 ^ 54 + bytes % 16 * 2 ^ 55)

/-- KIND of a beat. -/
def Beat.kind (b : Beat) : Nat := fld b.tag.toNat 48 4
/-- LAST of a beat. -/
def Beat.last (b : Beat) : Bool := b.tag.getLsbD 53
/-- POISON of a beat: the word that held it could not be corrected. -/
def Beat.poison (b : Beat) : Bool := b.tag.getLsbD 59

/-- The octets of the inward beats of one kind that Myeno has taken, in order (R23). -/
def Myeno.octets (k : BeatKind) (m : Myeno) : Bytes := ((m.beats.filter (fun b => b.kind == k.code)).map Beat.data).flatten

/-- The inward stream as Myeno holds it: blob, IV octets, AAD, payload, expected value (R24). -/
def Myeno.keyblob (m : Myeno) : Bytes := m.octets .keyblob
def Myeno.ivs (m : Myeno) : Bytes := m.octets .iv
def Myeno.aad (m : Myeno) : Bytes := m.octets .aad
def Myeno.payload (m : Myeno) : Bytes := m.octets .data
def Myeno.expect (m : Myeno) : Bytes := m.octets .expect

/-- The IV item of R72, and what travels as IV beats after it (log entry 15). -/
def Req.iv (q : Req) : Bytes := q.m.ivs.take (ivItem q.d)
def Req.item (q : Req) : Bytes := q.m.ivs.drop (ivItem q.d)

/-! ## Outward beats (R22, R25, R313) -/

/-- The tag of an outward beat: the request's fields as its HEAD carried them, EPOCH among them (log entry 55), and no
INSEG. -/
def outTag (head : U64) (kind : BeatKind) (first last retry : Bool) (bytes : Nat) : U64 :=
  BitVec.ofNat 64 (head.toNat % 2 ^ 48 + kind.code * 2 ^ 48 + b2n first * 2 ^ 52 + b2n last * 2 ^ 53
    + bytes % 16 * 2 ^ 55 + b2n retry * 2 ^ 60)

/-- Has the request no outward beat yet? -/
def Req.noOut (q : Req) : Bool := q.outBeats.isEmpty && q.icvBeats.isEmpty && q.m.heldOut.isEmpty

/-- Octets as outward beats of one kind: FIRST on the first beat of the request outwards, RETRY on every beat from a
withheld one on (R313). -/
def Req.beatsOut (kind : BeatKind) (bs : Bytes) (q : Req) : List Beat :=
  let cs := blocksOf bs
  (List.range cs.length).map (fun i =>
    let c := cs.getD i []
    { tag := outTag q.m.headTag kind (q.noOut && i == 0) false q.m.retried c.length, data := c })

/-- OUT beats cross the Seam (R51). -/
def Req.putOut (bs : Bytes) (q : Req) : Req := { q with outBeats := q.outBeats ++ q.beatsOut .out bs }
/-- ICV beats cross the Seam: a tag, a MAC or a digest (Table 1-3). -/
def Req.putIcv (bs : Bytes) (q : Req) : Req := { q with icvBeats := q.icvBeats ++ q.beatsOut .icv bs }

/-- The 16 octets of a STAT beat (Table 1-5). -/
def Stat.octets (t : Stat) : Bytes :=
  [BitVec.ofNat 8 t.ending.st.code, BitVec.ofNat 8 t.ending.detail] ++ leBytes 2 t.cflags.toNat ++ leBytes 4 t.inDone
    ++ leBytes 8 t.nonceUsed.toNat

/-- The tag base of a request; GEN is that of the handle in HEAD. -/
def Req.tagBase (rid : Nat) (q : Req) : Nat := Sys2Proof.Machine.tagBase rid q.owner q.ring q.cls

/-- The fields that R26 compares: REQ_ID, SLICE, MGR, RING and GEN. -/
def r26Fields (t : U64) : Nat × Nat × Nat := (fld t.toNat 0 26, fld t.toNat 26 3, fld t.toNat 36 12)

/-- IN_DONE of a request that did not end OK (R88): the input of the segments whose processing completed. -/
def Req.inDoneOf (q : Req) : Nat :=
  if q.m.segPassed = 0 then 0 else q.m.aad.length + min q.m.payload.length (4096 * q.m.segPassed)

/-- Payload segments of the request's stream, at least one (R39). -/
def segsOf (payload : Nat) : Nat := if payload = 0 then 1 else (payload + 4095) / 4096

/-- SEG_TOTAL (Table 17-5). -/
def Req.segTotal (q : Req) : Nat := segsOf q.d.payload

end Sys2Proof.Machine
end

