-- ==== Sys2Proof/Machine/Integrity.lean ====
section
/-!
DEFINITION. The two codes of the on-die stores (15 R505 to R511): a line read over the flipped bits that injections have
left, its counters and its events. Stores 0 to 4 are Myeno's, 5 to 7 the directory, the trie and the request table.
-/
namespace Sys2Proof.Machine

/-! ## Lines -/

/-- Lines of 64 octets of a store (Table 15-1). -/
def storeLines (n : Nat) : Nat :=
  match n with
  | 0 => 262144
  | 1 => 65536
  | 2 => 4096
  | 3 => 4096
  | 4 => 2048
  | 5 => 131072
  | 6 => 98304
  | _ => 16384

/-- The code of a store, as the events and ECC_INJECT_STORE name it. -/
def storeCode (n : Nat) : Nat := if n < 5 then n else n + 11

/-- The store of a code. -/
def storeOf (c : Nat) : Option Nat := if c < 5 then some c else if 0x10 ≤ c ∧ c < 0x13 then some (c - 11) else none

/-- The part of a slot that a line of it holds (Table 5-2); CHECK stands in the last line, so every change writes it. -/
def Slot.line (k : Nat) (x : Slot) : Slot :=
  if k < 2 then { Slot.dflt 0 with secret := x.secret, bitmap := x.bitmap }
  else if k = 2 then
    { x with secret := [], bitmap := 0, chainOpen := false, chainOp := 0, nextLink := 0, chainTag := 0, replayH := 0 }
  else x

/-- What a line holds now. -/
def lineData (s : State) (store line : Nat) : LineData :=
  match store with
  | 0 => .slot ((s.slot (line / 4)).line (line % 4))
  | 5 => .bucket ((List.range 4).map (fun w => Tab.get Entry.dflt s.dir.exact (4 * line + w)))
  | 7 => .table ((List.range 4).map (fun w => (s.req (4 * line + w)).map (fun q => (q.d.seq, q.d.cookie, q.owner, q.ring, q.chan))))
  | _ => .other

/-- Has the line been written since the injection was armed, so that its bits are flipped? A line whose contents the
specification does not place counts as written (log entry 17). -/
def Damage.landed (s : State) (d : Damage) : Bool := d.held == .other || d.found || d.held != lineData s d.store d.line

/-! ## The codes -/

/-- How the inner code reads a word with these bits flipped (R505): 0 clean, 1 corrected, 2 BAD, 3 a word it takes for
another without noticing, 4 a word it corrects wrongly. From three flipped bits on the specification does not say which. -/
def innerDecode (n : Nat) (mask : BitVec 72) : Nat :=
  let flips := ((List.range 72).filter (fun i => mask.getLsbD i)).length
  if flips < 3 then flips else 2 + Config.free 7 (n + mask.toNat) % 3

/-- What a line read found (R507): words corrected, rebuilt, caught as miscorrected, uncorrectable. -/
structure LineRead where
  corrected : List Nat
  rebuilt : List Nat
  caught : List Nat
  lost : List Nat
  deriving DecidableEq, Repr

/-- The line read of R507 over what the inner code gives for the eight words and whether P can be used. -/
def readLine (w : Nat → Nat) (pOk : Bool) : LineRead :=
  let words := List.range 8
  let bad := words.filter (fun i => w i == 2)
  let fixed := words.filter (fun i => w i == 1)
  let wrong := words.filter (fun i => w i == 3 || w i == 4)
  let none_ : LineRead := { corrected := [], rebuilt := [], caught := [], lost := [] }
  if 2 ≤ bad.length then { none_ with corrected := fixed, lost := bad }
  else if bad.length = 1 then
    if pOk ∧ wrong = [] then { none_ with corrected := fixed, rebuilt := bad } else { none_ with lost := words }
  else if wrong = [] then { none_ with corrected := fixed }
  else if pOk ∧ wrong.length = 1 ∧ wrong.all (fun i => w i == 4) then { none_ with corrected := fixed, caught := wrong }
  else { none_ with lost := words }

/-! ## Counters and events (R511, Table 15-3) -/

/-- A store by number. -/
def State.store (s : State) (n : Nat) : Store := Tab.get Store.dflt s.memory.stores n

/-- A change of a store. -/
def State.onStore (s : State) (n : Nat) (f : Store → Store) : State :=
  { s with memory := { s.memory with stores := Tab.upd Store.dflt s.memory.stores n f } }

/-- LAST_ERROR. -/
def lastErrorWord (word kind : Nat) (scrub : Bool) : U64 := BitVec.ofNat 64 (word + kind * 2 ^ 32 + b2n scrub * 2 ^ 35)

/-- A word corrected or rebuilt twice within one scrub period is a repeat. -/
def State.repeatCheck (s : State) (n word : Nat) : State :=
  let st := s.store n
  let again := st.passCorrected.contains word || st.lastPassCorrected.contains word
  let s1 := s.onStore n (fun x =>
    { x with
      passCorrected := if x.passCorrected.contains word then x.passCorrected else x.passCorrected ++ [word]
      repeats := if again then x.repeats + 1 else x.repeats })
  if again then s1.raise (0xA1 + 8 * n) (storeCode n) (st.lastError.toNat % 2 ^ 36) else s1

/-- A word corrected by the inner code. -/
def State.countCorrected (n : Nat) (scrub : Bool) (s : State) (word : Nat) : State :=
  let s1 := s.onStore n (fun x => { x with corrected := x.corrected + 1, lastError := lastErrorWord word 1 scrub })
  let st := s1.store n
  let s2 :=
    if st.correctedLevel ≠ 0 ∧ st.corrected.toNat % st.correctedLevel.toNat = 0 then
      s1.raise (0xA0 + 8 * n) (storeCode n) st.corrected.toNat
    else s1
  s2.repeatCheck n word

/-- A word rebuilt from P. -/
def State.countRebuilt (n : Nat) (scrub : Bool) (s : State) (word : Nat) : State :=
  (s.onStore n (fun x => { x with rebuilt := x.rebuilt + 1, lastError := lastErrorWord word 2 scrub })).repeatCheck n word

/-- A miscorrection caught. -/
def State.countCaught (n : Nat) (scrub : Bool) (s : State) (word : Nat) : State :=
  s.onStore n (fun x => { x with miscorrections := x.miscorrections + 1, lastError := lastErrorWord word 3 scrub })

/-- A word found uncorrectable. -/
def State.countLost (n : Nat) (scrub : Bool) (s : State) (word : Nat) : State :=
  s.onStore n (fun x => { x with uncorrectable := x.uncorrectable + 1, lastError := lastErrorWord word 4 scrub })

/-- A line read of a store (R507, R511), by the scrubber or by a user: the words of the line found uncorrectable, and the
state with what was found counted and what could be mended written back. -/
def State.lineRead (s : State) (n line : Nat) (scrub : Bool) : List Nat × State :=
  let here (d : Damage) : Bool := d.store == n && d.line == line && d.landed s
  let ds := s.memory.damages.filter here
  if ds = [] then ([], s)
  else
    let maskAt (i : Nat) : BitVec 72 := (ds.filter (fun d => d.target == i)).foldl (fun m d => m ^^^ d.mask) 0
    let w (i : Nat) : Nat := innerDecode (9 * line + i) (maskAt i)
    let r := readLine w (decide (w 8 < 2))
    let word (i : Nat) : Nat := 8 * line + i
    let s1 := (r.corrected.map word).foldl (State.countCorrected n scrub) s
    let s2 := (r.rebuilt.map word).foldl (State.countRebuilt n scrub) s1
    let s3 := (r.caught.map word).foldl (State.countCaught n scrub) s2
    let s4 := (r.lost.map word).foldl (State.countLost n scrub) s3
    let keep := s4.memory.damages.filter (fun d => !(here d))
    let left := if r.lost = [] then keep else keep ++ ds.map (fun d => { d with found := true })
    (r.lost, { s4 with memory := { s4.memory with damages := left } })

/-- The injections of a line are gone: its words have been written whole (R508). -/
def State.dropDamage (s : State) (n line : Nat) : State :=
  { s with memory := { s.memory with damages := s.memory.damages.filter (fun d => !(d.store == n && d.line == line)) } }

end Sys2Proof.Machine
end

