-- ==== Sys2Proof/Machine/Directory.lean ====
section
/-!
DEFINITION. The association directory (chapter 7): the exact table with its relocating placement, the prefix
trie, learning, moves, aging, the exception rings, and the three DIR opcodes.
-/
namespace Sys2Proof.Machine

/-! ## The exact table (R274 to R277) -/

/-- One step of the reflected CRC-32C register. -/
def crcStep (c : BitVec 32) : BitVec 32 := if c.getLsbD 0 then (c >>> 1) ^^^ 0x82F63B78#32 else c >>> 1

/-- CRC-32C (polynomial 0x1EDC_6F41) continued over one octet. -/
def crcByte (c : BitVec 32) (b : Byte) : BitVec 32 :=
  crcStep (crcStep (crcStep (crcStep (crcStep (crcStep (crcStep (crcStep (c ^^^ b.zeroExtend 32))))))))

/-- CRC-32C of a string. -/
def crc32c (bs : Bytes) : BitVec 32 := ~~~(bs.foldl crcByte 0xFFFFFFFF#32)

/-- A key of the exact table: scope, TYPE and ID. -/
structure ExactKey where
  scope : Nat
  type : Nat
  id : Bytes
  deriving DecidableEq, Repr

/-- The hash key of R275. -/
def ExactKey.bytes (k : ExactKey) : Bytes := [BitVec.ofNat 8 k.scope, BitVec.ofNat 8 k.type] ++ k.id

/-- The key of an entry. -/
def Entry.key (e : Entry) : ExactKey := { scope := e.scope, type := e.type, id := e.id }

/-- The bucket of a key in each half (R275). -/
def bucketA (d : Directory) (k : ExactKey) : Nat := fld (crc32c (d.seed0 ++ k.bytes)).toNat 0 16
def bucketB (d : Directory) (k : ExactKey) : Nat := 65536 + fld (crc32c (d.seed1 ++ k.bytes)).toNat 0 16

/-- Entry at a position. -/
def Directory.at_ (d : Directory) (n : Nat) : Entry := Tab.get Entry.dflt d.exact n

/-- A position written. -/
def Directory.put (d : Directory) (n : Nat) (e : Entry) : Directory :=
  { d with exact := Tab.set Entry.dflt d.exact n e }

/-- The four ways of a bucket. -/
def waysOf (bk : Nat) : List Nat := [4 * bk, 4 * bk + 1, 4 * bk + 2, 4 * bk + 3]

/-- The position of a key, reading both its buckets (R276). -/
def Directory.find (d : Directory) (k : ExactKey) : Option Nat :=
  (waysOf (bucketA d k) ++ waysOf (bucketB d k)).find?
    (fun n => let e := d.at_ n; e.type != 0 && e.key == k)

/-- A free way of a bucket, as the planned moves leave it. -/
def freeWay (d : Directory) (bk : Nat) : Option Nat := (waysOf bk).find? (fun n => (d.at_ n).type == 0)

/-- The plan of R277: `cur` is the key to place, `x` the bucket it takes a way of next, `path` the ways taken so far with the
keys that take them, the last one first. A way that the path comes back to holds the key that took it last. -/
def planPath (d : Directory) : Nat → Nat → ExactKey → Nat → List (Nat × ExactKey) → Option (List (Nat × ExactKey) × Nat)
  | 0, _, cur, _, path =>
    match freeWay d (bucketA d cur) with
    | some v => some (path, v)
    | none => (freeWay d (bucketB d cur)).map (fun v => (path, v))
  | fuel + 1, n, cur, x, path =>
    match freeWay d (bucketA d cur) with
    | some v => some (path, v)
    | none =>
      match freeWay d (bucketB d cur) with
      | some v => some (path, v)
      | none =>
        let way := 4 * x + n % 4
        let victim :=
          match path.find? (fun p => p.1 == way) with
          | none => (d.at_ way).key
          | some p => p.2
        let other := if bucketA d victim = x then bucketB d victim else bucketA d victim
        planPath d fuel (n + 1) victim other ((way, cur) :: path)

/-- The carry-out of R277: entries move along the path from its far end, as the rule writes it also where the path comes back
to a way (log entry 83). -/
def carryOut (d : Directory) : List Nat → Nat → Entry → Directory
  | [], dst, e => d.put dst e
  | p :: rest, dst, e => carryOut (d.put dst (d.at_ p)) rest p e

/-- Placement of a new key (R277): the position taken and the table, or FULL. -/
def Directory.place (d : Directory) (e : Entry) : Option (Nat × Directory) :=
  match planPath d 64 0 e.key (bucketA d e.key) [] with
  | none => none
  | some (path, v) =>
    let d1 := carryOut d (path.map Prod.fst) v e
    some (match path.reverse with
      | [] => v
      | p :: _ => p.1,
      { d1 with relocations := d1.relocations + BitVec.ofNat 64 path.length })

/-- Idle count of an entry (R298). -/
def idle (d : Directory) (e : Entry) : Nat := (d.tickNow - e.lastHit).toNat

/-- A change of LEARNED_COUNT of a port. -/
def State.addLearned (s : State) (p : Nat) (f : Nat → Nat) : State :=
  s.onLinePort p (fun l => { l with learnedCount := f l.learnedCount })

/-- Removal of the entry at a position. -/
def State.removeEntry (s : State) (n : Nat) : State :=
  let e := s.dir.at_ n
  let s1 := { s with dir := s.dir.put n (Entry.dflt n) }
  if e.learned then s1.addLearned e.homePort (· - 1) else s1

/-- A bucket read (15 R512): an entry with an uncorrectable word is removed and counted; when the word holds HOME_PORT,
LEARNED_COUNT is recounted (15 R515). -/
def State.readBucket (s : State) (bk : Nat) (scrub : Bool) : State :=
  match s.lineRead 5 bk scrub with
  | ([], s1) => s1
  | (lost, s1) =>
    let ways := (List.range 4).filter (fun w => (lost.contains (2 * w) || lost.contains (2 * w + 1))
      && (s1.dir.at_ (4 * bk + w)).type != 0)
    let s2 := ways.foldl (fun t w =>
      let n := 4 * bk + w
      if lost.contains (2 * w) then { t with dir := { t.dir.put n (Entry.dflt n) with recountDue := true } }
      else t.removeEntry n) s1
    ({ s2 with dir := { s2.dir with poisonRemoved := s2.dir.poisonRemoved + BitVec.ofNat 32 ways.length } }.dropDamage 5
      bk).raise 0xCA (storeCode 5) ((s2.store 5).lastError.toNat % 2 ^ 36)

/-- Both buckets of a key read (R276, R279). -/
def State.readBuckets (s : State) (k : ExactKey) : State :=
  if s.memory.damages = [] then s else (s.readBucket (bucketA s.dir k) false).readBucket (bucketB s.dir k) false

/-! ## The prefix trie (R281 to R284) -/

/-- Address bits of a family. -/
def addrBits (family : Nat) : Nat := if family = 4 then 32 else 128

/-- Does a prefix contain an address? -/
def Prefix.contains (p : Prefix) (addr : Nat) : Bool :=
  addr >>> (addrBits p.family - p.len) == p.bits >>> (addrBits p.family - p.len)

/-- The longest prefix of family and scope that contains the address. -/
def longest (ps : List Prefix) (family scope addr : Nat) : Option Prefix :=
  ps.foldl (fun best p =>
    if p.family = family ∧ p.scope = scope ∧ p.contains addr then
      match best with
      | none => some p
      | some b => if b.len < p.len then some p else best
    else best) none

/-- Does the lookup of an address pass through a node that was unlinked as damaged, and no insertion has built anew since
(15 R514)? -/
def Directory.cutOff (d : Directory) (family scope addr : Nat) : Bool :=
  d.unlinked.any (fun n => n.1 == family && n.2.1 == scope && n.2.2.2 == addr >>> (addrBits family - 8 * n.2.2.1))

/-- A trie lookup (R281): the longest prefix that contains the address, and none where the lookup meets an unlinked node. -/
def Directory.trieFind (d : Directory) (family scope addr : Nat) : Option Prefix :=
  if d.cutOff family scope addr then none else longest d.prefixes family scope addr

/-- Levels below the root that a prefix of `len` bits reaches: a root entry takes the first octet. -/
def levelsOf (len : Nat) : Nat := if len ≤ 8 then 0 else (len - 1) / 8

/-- The node path of a prefix at level `l` below the root: family, scope and its first 8·l address bits. -/
def nodeId (p : Prefix) (l : Nat) : Nat × Nat × Nat × Nat :=
  (p.family, p.scope, l, p.bits >>> (addrBits p.family - 8 * l))

/-- The nodes below the roots that a prefix needs. -/
def nodesOf (p : Prefix) : List (Nat × Nat × Nat × Nat) :=
  (List.range (levelsOf p.len)).map (fun l => nodeId p (l + 1))

/-- Results a prefix stores in its node: one for each entry of the stride it fills; none in a root (DEDUCED, log entry 85). -/
def resultsOf (p : Prefix) : Nat := if p.len ≤ 8 then 0 else 2 ^ ((8 - p.len % 8) % 8)

/-- Storage a set of prefixes uses (R283): 128 octets a node, 4 for each result stored and each child. -/
def prefixBytes (ps : List Prefix) : Nat :=
  let nodes := (ps.map nodesOf).flatten.dedup
  let children := (nodes.filter (fun n => decide (1 < n.2.2.1))).length
  128 * nodes.length + 4 * children + 4 * (ps.map resultsOf).sum

/-- PREFIX_BYTES_FREE (R283). -/
def prefixBytesFree (ps : List Prefix) : Nat := 5242880 - prefixBytes ps

/-- The same prefix: family, scope, length and bits. -/
def samePrefix (a b : Prefix) : Bool := a.family == b.family && a.scope == b.scope && a.len == b.len && a.bits == b.bits

/-! ## Exception entries (R294, R295) -/

/-- The register block of an owner's exception ring. -/
def State.xring (s : State) (o : Nat) : XRing := Tab.get XRing.dflt s.dir.xrings o

/-- A change of an exception ring. -/
def State.onXring (s : State) (o : Nat) (f : XRing → XRing) : State :=
  { s with dir := { s.dir with xrings := Tab.upd XRing.dflt s.dir.xrings o f } }

/-- An exception entry is due to the ring of the port's owner: its four words (Table 7-8). A disabled or full
ring loses it (R295). -/
def State.exception (s : State) (port cause old : Nat) (q : Req) (sci : Bytes) (target : BitVec 32)
    (pos : Nat) : State :=
  match (s.linePort port).owner with
  | none => s
  | some o =>
    let x := s.xring o
    let k := (s.ring (pairKey q.owner q.ring)).rqLog2
    let w0 := cause + port * 2 ^ 8 + old * 2 ^ 16 + q.ring * 2 ^ 24 + b2n (decide (q.owner = mgr)) * 2 ^ 27
      + (q.pos % 2 ^ k) * 2 ^ 32
    let entry := [w0, leNat sci, target.toNat + pos * 2 ^ 32, s.now.toNat]
    if x.enable = false ∨ 2 ^ x.log2 ≤ ptrSub x.tail x.head x.log2 + x.waiting.length then
      s.onXring o (fun y => { y with lost := y.lost + 1 })
    else s.onXring o (fun y => { y with waiting := y.waiting ++ [entry] })

/-- EXCEPTION_ENTRY_WRITE (R295): the write of the oldest entry is issued, or the entry is lost when the ring has been disabled
since; when that write has been
acknowledged, XR_TAIL advances and the notification is written. `chan` is the channel taken. -/
def execExceptionEntryWrite (owner chan : Nat) (s : State) : Out :=
  unit chan 4 <|
    match s.takeEnded (fun a => decide (a.kind = .exceptionEntry) && a.owner == owner) with
    | some (a, s1) =>
      if a.err then
        (s1.onXring owner (fun y => { y with waiting := y.waiting.drop 1, writing := none, lost := y.lost + 1 }))
      else
        let s2 := s1.onXring owner (fun y =>
          { y with waiting := y.waiting.drop 1, writing := none, tail := ptrAdd y.tail 1 y.log2 })
        let x := s2.xring owner
        if x.notifyAddr = 0 then s2
        else
          match s2.issue { chan := chan, kind := .exceptionNotify, cls := .service, owner := owner, req := 0,
                           pair := 0, write := true, addr := x.notifyAddr.toNat, len := 4, off := 0,
                           data := leBytes 4 x.notifyData.toNat } with
          | (true, s3) => s3
          | (false, s3) => s3.raise 0x142 (ownerWord owner) 0
    | none =>
      let x := s.xring owner
      match x.waiting, x.writing with
      | e :: _, none =>
        if !x.enable then s.onXring owner (fun y => { y with waiting := y.waiting.drop 1, lost := y.lost + 1 })
        else if roomFor s chan 2 then
          let addr := (x.base.toNat + 32 * (x.tail % 2 ^ x.log2)) % 2 ^ 64
          match s.issue { chan := chan, kind := .exceptionEntry, cls := .service, owner := owner, req := 0,
                          pair := 0, write := true, addr := addr, len := 32, off := 0,
                          data := (e.map (leBytes 8)).flatten } with
          | (true, s1) => s1.onXring owner (fun y => { y with writing := some addr })
          | (false, s1) =>
            (s1.onXring owner (fun y => { y with waiting := y.waiting.drop 1, lost := y.lost + 1 })).raise 0x142
              (ownerWord owner) 0
        else s
      | _, _ => s

/-- XR_ENABLE written 1 (R294): the pointers are zeroed and the ring enabled. -/
def execXrEnable (b : Bus) (owner : Nat) (s : State) : Out :=
  .next (s.pageWrite b owner (fun t => t.onXring owner (fun x => { x with enable := true, tail := 0, head := 0 })))

/-! ## Resolve (R269 to R273, R278, R290, R291) -/

/-- A KIND 2 lookup of a request: what is looked up, or what is still missing. -/
inductive Lookup where
  | exact (k : ExactKey)
  | indexed (i : Nat)
  | prefixOf (family addr : Nat)
  | noAddress
  | needInput (n : Nat)
  deriving DecidableEq, Repr

/-- Does the SecTAG of the AAD carry an SCI (R677)? -/
def sciPresent (d : Desc) (aad : Bytes) : Bool :=
  if d.opcode = 0x10 ∨ d.opcode = 0x11 then d.aadLen == 28
  else (octet aad 14).getLsbD 5 && decide (28 ≤ d.aadLen)

/-- The lookup that Resolve makes (Table 7-1, R270, R273), given the input octets gathered so far. -/
def lookupOf (l : LinePort) (d : Desc) (input : Bytes) : Lookup :=
  let selector : Lookup :=
    if l.espIndexed then
      if fld d.selector.toNat 24 8 = 0 ∧ fld d.selector.toNat 0 24 < l.coldCount then
        .indexed (fld d.selector.toNat 0 24)
      else .indexed (2 ^ 24)
    else .exact { scope := l.scope, type := 1, id := leBytes 4 d.selector.toNat ++ zeros 4 }
  if d.opcode = 0x31 then
    if d.profile = 2 then .exact { scope := l.scope, type := 2, id := leBytes 8 d.w6.toNat } else selector
  else if (d.opcode = 0x11 ∨ d.opcode = 0x19) ∧ (d.profile = 2 ∨ d.profile = 3) then
    if input.length < min d.aadLen 28 then .needInput (min d.aadLen 28)
    else
      .exact { scope := l.scope, type := 2,
               id := if sciPresent d input then cut input 20 8 else l.defaultSci }
  else if d.opcode = 0x10 ∨ d.opcode = 0x14 then
    if l.prefixSource = 1 then .prefixOf 4 d.selector.toNat
    else
      let have_ := min d.payload 40
      if input.length < d.aadLen + have_ then .needInput (d.aadLen + have_)
      else
        let p (i : Nat) : Byte := octet input (d.aadLen + i)
        let v := (p 0).toNat / 16
        if v = 4 ∧ 20 ≤ d.payload then .prefixOf 4 (beNat (cut input (d.aadLen + 16) 4))
        else if v = 6 ∧ 40 ≤ d.payload then .prefixOf 6 (beNat (cut input (d.aadLen + 24) 16))
        else .noAddress
  else selector

/-- A request ends with DIRECTORY_MISS (R37), counted on its port. -/
def State.miss (s : State) (rid detail : Nat) (q : Req) : State :=
  let s1 := (s.onReq rid (fun r => { r.endOuter (ends .directoryMiss detail) with ord := .null })).onLinePort
    q.d.linePort (fun l => { l with misses := l.misses + 1 })
  if detail = 2 then { s1 with dir := { s1.dir with prefixMisses := s1.dir.prefixMisses + 1 } } else s1

/-- A request resolved to a hot handle goes to the gate; a KEY_ERASE does not accept one (R243). -/
def State.resolvedHot (s : State) (rid : Nat) (h : BitVec 32) (q : Req) : State :=
  if q.d.opcode = 0x31 then
    s.onReq rid (fun r => { r.endOuter (ends .requestInvalid 0x05) with ord := .null })
  else s.onReq rid (fun r => { r with handle := h, ord := .slot (hSlot h), stage := .gate })

/-- A request resolved to blob index `i`: the blob is read (R272). -/
def State.resolvedCold (s : State) (rid i : Nat) (h : BitVec 32) (q : Req) : State :=
  let l := s.linePort q.d.linePort
  let addr := (l.coldBase.toNat + 96 * i) % 2 ^ 64
  let s1 := s.onReq rid (fun r =>
    { r with handle := h, entry := some i, ord := .entry i, blobAddr := BitVec.ofNat 64 addr, stage := .blobRead })
  match s1.issue { chan := q.chan, kind := .blob, cls := classOf q.owner, owner := q.owner, req := rid,
                   pair := pairKey q.owner q.ring, write := false, addr := addr, len := 96, off := 0,
                   data := [] } with
  | (true, s2) => s2
  | (false, s2) => s2.onReq rid (fun r =>
      { r.endOuter (ends .accessFault 0x07) with faultAddr := BitVec.ofNat 64 addr })

/-- The hit commit of R278: TICK_NOW into the copies of the key that are found; none may be left (R299). -/
def State.hitCommit (s : State) (k : ExactKey) : State :=
  match s.dir.find k with
  | some n => { s with dir := s.dir.put n { s.dir.at_ n with lastHit := s.dir.tickNow } }
  | none => s

/-- A request resolved to an exact entry: its target. -/
def State.resolvedTo (s : State) (rid : Nat) (e : Entry) (q : Req) : State :=
  if e.cold then s.resolvedCold rid (fld e.target.toNat 0 24) noHandle q else s.resolvedHot rid e.target q

/-- The hit commit that is due for a request, after which it goes on with the target that its lookup read (R299). -/
def State.commitFound (s : State) (rid : Nat) (q : Req) (e : Entry) : State :=
  ((s.hitCommit e.key).onReq rid (fun r => { r with found := none })).resolvedTo rid e q

/-- Is an earlier DIR_INSERT or DIR_DELETE of the ring still to act or end (R289)? The STAT beat of one that passed is there
before it acts. -/
def dirAhead (s : State) (q : Req) : Bool :=
  (reqsOf s (pairKey q.owner q.ring)).any (fun e =>
    decide (e.2.order < q.order) && (e.2.d.opcode == 0x60 || e.2.d.opcode == 0x61)
      && (e.2.stat.isNone || e.2.stage != .over))

/-- LEARN_PENDING of a port (R291, R292): its candidates in flight; the end of a candidate, whatever it is, releases its
reservation. -/
def learnPending (s : State) (p : Nat) : Nat :=
  (s.reqs.filter (fun e => e.2.learn == .candidate && e.2.d.linePort == p && e.2.stat.isNone)).length

/-- A learn case (R290): what an exact miss of this request becomes (R291). -/
def State.learnCase (s : State) (rid : Nat) (q : Req) (k : ExactKey) : State :=
  let l := s.linePort q.d.linePort
  let isCase :=
    (q.d.opcode == 0x11 || q.d.opcode == 0x19) && q.d.profile == 2 && q.d.nonceHw && sciPresent q.d q.inData
      && l.learn
  if !isCase ∨ l.learnHandle = noHandle then
    let s1 := s.miss rid 0x01 q
    if isCase then s1.onLinePort q.d.linePort (fun x => { x with learnDrops := x.learnDrops + 1 }) else s1
  else if l.learnedCount + learnPending s q.d.linePort < l.learnLimit then
    s.onReq rid (fun r =>
      { r with learn := .candidate, foundKey := k.id, handle := l.learnHandle,
               ord := .slot (hSlot l.learnHandle), stage := .gate })
  else if l.flood then
    (s.onLinePort q.d.linePort (fun x => { x with learnFloods := x.learnFloods + 1 })).onReq rid (fun r =>
      { r with learn := .flooded, foundKey := k.id, handle := l.learnHandle,
               ord := .slot (hSlot l.learnHandle), stage := .gate })
  else
    (s.miss rid 0x01 q).onLinePort q.d.linePort (fun x => { x with learnDrops := x.learnDrops + 1 })

/-- A lookup made (R269, R276, R278, R282). A hit that is to be committed leaves the request at Resolve with the entry it read:
the commit takes the buckets' locks at the next RESOLVE (R278, R299; log entry 86). -/
def State.lookup (s : State) (rid : Nat) (q : Req) (lk : Lookup) : State :=
  let l := s.linePort q.d.linePort
  match lk with
  | .needInput _ => s
  | .noAddress => s.miss rid 0x02 q
  | .indexed i =>
    if i < l.coldCount then
      (s.onLinePort q.d.linePort (fun x => { x with hits := x.hits + 1 })).resolvedCold rid i noHandle q
    else s.miss rid 0x01 q
  | .prefixOf family addr =>
    let s1 := { s with dir := { s.dir with prefixLookups := s.dir.prefixLookups + 1 } }
    match s1.dir.trieFind family l.scope addr with
    | none => s1.miss rid 0x02 q
    | some p =>
      if p.result = noHandle then s1.miss rid 0x02 q
      else
        (s1.onLinePort q.d.linePort (fun x => { x with hits := x.hits + 1 })).resolvedHot rid p.result q
  | .exact k =>
    let s0 := s.readBuckets k
    let s1 := { s0 with dir := { s0.dir with exactLookups := s0.dir.exactLookups + 1 } }
    match s1.dir.find k with
    | some n =>
      let e := s1.dir.at_ n
      let s2 := s1.onLinePort q.d.linePort (fun x => { x with hits := x.hits + 1 })
      let s3 := if e.learned then
          s2.onReq rid (fun r => { r with learn := .hit n e.target, foundKey := k.id })
        else s2
      if e.homePort = q.d.linePort ∧ e.lastHit ≠ s1.dir.tickNow then s3.onReq rid (fun r => { r with found := some e })
      else s3.resolvedTo rid e q
    | none =>
      let s2 := { s1 with dir := { s1.dir with exactMisses := s1.dir.exactMisses + 1 } }
      s2.learnCase rid q k

/-! ## Learn commits and moves (R292, R296) -/

/-- The move test of R296 on the entry at `n` for a request of port `p`. -/
def State.moveTest (s : State) (rid n p : Nat) (q : Req) (sci : Bytes) : State :=
  let e := s.dir.at_ n
  let l := s.linePort p
  if l.moveAllow ∧ l.holdDown ≤ idle s.dir e ∧ l.learnedCount < l.learnLimit then
    let s1 := { s with dir := s.dir.put n { e with homePort := p, lastHit := s.dir.tickNow } }
    let s2 := (s1.addLearned e.homePort (· - 1)).addLearned p (· + 1)
    let s3 := s2.onLinePort p (fun x => { x with moves := x.moves + 1 })
    (s3.exception p 0x04 e.homePort q sci ((s.req rid).getD q).handle n).raise 0x140 p n
  else (s.onLinePort p (fun x => { x with moveConflicts := x.moveConflicts + 1 })).raise 0x141 p n

/-- The learn commit, made when the STAT beat of the request reaches Outer (R292). -/
def State.learnCommit (s : State) (rid : Nat) (q : Req) (good : Bool) : State :=
  let p := q.d.linePort
  let k : ExactKey := { scope := (s.linePort p).scope, type := 2, id := q.foundKey }
  match q.learn with
  | .noMark => s
  | .flooded => if good then s.exception p 0x02 0 q q.foundKey q.handle 0 else s
  | .candidate =>
    if !good then s
    else
      match s.dir.find k with
      | some n =>
        let e := s.dir.at_ n
        if e.homePort = p then s.onLinePort p (fun x => { x with learnDuplicates := x.learnDuplicates + 1 })
        else if e.learned then s.moveTest rid n p q q.foundKey
        else s
      | none =>
        let e : Entry :=
          { scope := k.scope, type := 2, cold := false, learned := true, static := false, homePort := p,
            lastHit := s.dir.tickNow, id := q.foundKey, target := q.handle }
        match s.dir.place e with
        | some (n, d') => (({ s with dir := d' }).addLearned p (· + 1)).exception p 0x01 0 q q.foundKey q.handle n
        | none =>
          ({ s with dir := { s.dir with insertFull := s.dir.insertFull + 1 } }).exception p 0x03 0 q q.foundKey
            q.handle 0
  | .hit _ _ =>
    if !good then s
    else
      match s.dir.find k with
      | some n =>
        let e := s.dir.at_ n
        if e.learned ∧ e.homePort ≠ p then s.moveTest rid n p q q.foundKey else s
      | none => s

/-! ## Aging (R298) -/

/-- TICK: AGE_TICK elapses. -/
def execTick (s : State) : Out := .next { s with dir := { s.dir with tickNow := s.dir.tickNow + 1 } }

/-- May the sweep remove the entry (R298)? -/
def aged (s : State) (e : Entry) : Bool :=
  let lim := (s.linePort e.homePort).ageLimit
  e.type != 0 && !e.static && lim != 0 && decide (lim ≤ idle s.dir e)

/-- The sweep's first reading of a bucket (R298): the entries that are aged are to be read again. -/
def State.sweepRead (s : State) (bucket : Nat) : State :=
  let found := (waysOf bucket).filter (fun n => aged s (s.dir.at_ n) && !(s.dir.sweep.contains n))
  { s with dir := { s.dir with sweep := s.dir.sweep ++ found } }

/-- The second reading of one position under the bucket's lock (R298): the entry goes if it is still aged, and survives if not. -/
def State.sweepAgain (s : State) (n : Nat) : State :=
  if aged s (s.dir.at_ n) then
    let s1 := s.removeEntry n
    { s1 with dir := { s1.dir with agedOut := s1.dir.agedOut + 1 } }
  else if (s.dir.at_ n).type = 0 then s
  else { s with dir := { s.dir with ageSurvived := s.dir.ageSurvived + 1 } }

/-- SWEEP_VISIT (R298, R299): the sweep's first reading of a bucket, or, under its lock, the second reading of the entries that
the first found. Hit commits can come between the two. -/
def execSweepVisit (visit : SweepRead) (s : State) : Out :=
  unit visit.bucket 131072
    (if visit.again then
      let mine := s.dir.sweep.filter (fun n => (waysOf visit.bucket).contains n)
      let s1 := mine.foldl State.sweepAgain s
      { s1 with dir := { s1.dir with sweep := s1.dir.sweep.filter (fun n => !(mine.contains n)) } }
    else s.sweepRead visit.bucket)

/-- LEARNED_RECOUNT (15 R515): LEARNED_COUNT of every port is set to the entries learned and homed there. -/
def execLearnedRecount (s : State) : Out :=
  .next
    (if s.dir.recountDue then
      let count (p : Nat) : Nat :=
        (s.dir.exact.filter (fun e => e.2.type != 0 && e.2.learned && e.2.homePort == p)).length
      let homes := (s.dir.exact.map (fun e => e.2.homePort)) ++ s.dir.ports.map Prod.fst
      let s1 := homes.foldl (fun t p => t.onLinePort p (fun l => { l with learnedCount := count p })) s
      { s1 with
        dir := { s1.dir with recountDue := false }
        memory := { s1.memory with learnRecounts := s1.memory.learnRecounts + 1 } }
    else s)

/-! ## DIR opcodes (R285 to R288) -/

/-- The operand block of a DIR opcode (Table 7-5). -/
structure Operand where
  space : Nat
  family : Nat
  len : Nat
  cold : Bool
  static : Bool
  replace : Bool
  blob : Nat
  id : Bytes
  addr : Nat
  deriving DecidableEq, Repr

/-- The operand block read, or OPERAND_INVALID (R287). The octets of ADDRESS past an IPv4 address are bits beyond PREFIX_LEN;
what the other space's fields hold is not looked at (DEDUCED, log entry 84). -/
def readOperand (l : LinePort) (d : Desc) (bs : Bytes) : Option Operand :=
  let by_ (i : Nat) : Nat := (octet bs i).toNat
  let fam := by_ 1
  let fl := by_ 3
  let addr := if fam = 4 then beNat (cut bs 16 4) else beNat (cut bs 16 16)
  let o : Operand :=
    { space := by_ 0, family := fam, len := by_ 2, cold := bit fl 0, static := bit fl 1, replace := bit fl 2,
      blob := leNat (cut bs 4 4), id := cut bs 8 8, addr := addr }
  let width := if fam = 4 then 32 else 128
  let insert := d.opcode == 0x60
  let lookup := d.opcode == 0x62
  let exactOk :=
    o.space == 1 && (fam == 1 || fam == 2) && o.len == 0 && (fam == 2 || leNat (cut bs 12 4) == 0)
      && (if o.cold then decide (o.blob < l.coldCount) && d.handle == noHandle else o.blob == 0)
      && !(insert && !o.cold && d.handle == noHandle)
  let prefixOk :=
    o.space == 2 && (fam == 4 || fam == 6) && !o.cold && o.blob == 0
      && (lookup || (decide (o.len ≤ width) && addr % 2 ^ (width - o.len) == 0))
      && (fam == 6 || leNat (cut bs 20 12) == 0)
  if fl < 8 ∧ (exactOk ∨ prefixOk) then some o else none

/-- The 32 octets a DIR_LOOKUP writes (R288). -/
def lookupResult (found : Nat) (type len flags target home idleTicks pos : Nat) : Bytes :=
  [BitVec.ofNat 8 found, BitVec.ofNat 8 type, BitVec.ofNat 8 len, BitVec.ofNat 8 flags] ++ leBytes 4 target
    ++ [BitVec.ofNat 8 home, BitVec.ofNat 8 idleTicks, 0, 0] ++ leBytes 4 pos ++ zeros 16

/-- A DIR opcode whose Myeno checks passed acts when its STAT beat reaches Outer (R286): the STAT it completes
with. -/
def State.dirFinish (s : State) (rid detail : Nat) (out : Bytes) : State :=
  s.onReq rid (fun r =>
    { r.putOut out with
      stat := r.stat.map (fun t => { t with ending := ends .ok detail }) })

/-- Has the directory still to act for this DIR opcode: its STAT has arrived with OK and DETAIL 0x00? -/
def dirPending (q : Req) (op : Nat) : Bool :=
  q.d.opcode == op && q.stage == .gather
    && (match q.stat with
        | some t => t.ending.st.good
        | none => false)

/-- DIR_INSERT (R277, R283, R287). -/
def execDirInsert (rid : Nat) (s : State) : Out :=
  .next <|
    match s.req rid with
    | none => s
    | some q =>
      if !(dirPending q 0x60) then s
      else
        let l := s.linePort q.d.linePort
        let close (t : State) (dt : Nat) : State := (t.dirFinish rid dt []).onReq rid (fun r => { r with stage := .over })
        match readOperand l q.d q.side with
        | none => close s 0x1F
        | some o =>
          if o.space = 1 then
            if o.family = 1 ∧ l.espIndexed then close s 0x14
            else
              let k : ExactKey := { scope := l.scope, type := o.family, id := o.id }
              let target := if o.cold then BitVec.ofNat 32 o.blob else q.d.handle
              let s := s.readBuckets k
              match s.dir.find k with
              | some n =>
                if o.replace then
                  let e := s.dir.at_ n
                  let s1 := if e.learned then s.addLearned e.homePort (· - 1) else s
                  close { s1 with
                    dir := s1.dir.put n { e with target := target, cold := o.cold, static := o.static,
                                                 homePort := q.d.linePort, lastHit := s1.dir.tickNow,
                                                 learned := false } } 0x11
                else close s 0x10
              | none =>
                let e : Entry :=
                  { scope := k.scope, type := k.type, cold := o.cold, learned := false, static := o.static,
                    homePort := q.d.linePort, lastHit := s.dir.tickNow, id := k.id, target := target }
                match s.dir.place e with
                | some (_, d') => close { s with dir := d' } 0x00
                | none => close { s with dir := { s.dir with insertFull := s.dir.insertFull + 1 } } 0x12
          else
            let p : Prefix :=
              { family := o.family, scope := l.scope, bits := o.addr, len := o.len, result := q.d.handle }
            match s.dir.prefixes.find? (samePrefix p) with
            | some _ =>
              if o.replace then
                close { s with
                  dir := { s.dir with
                    prefixes := s.dir.prefixes.map (fun x => if samePrefix p x then p else x) } } 0x11
              else close s 0x10
            | none =>
              if 262144 ≤ s.dir.prefixes.length ∨ 5242880 < prefixBytes (s.dir.prefixes ++ [p]) then close s 0x15
              else
                close { s with
                  dir := { s.dir with
                    prefixes := s.dir.prefixes ++ [p], unlinked := s.dir.unlinked.filter (fun n => !((nodesOf p).contains n)) } } 0x00

/-- DIR_DELETE (R287). -/
def execDirDelete (rid : Nat) (s : State) : Out :=
  .next <|
    match s.req rid with
    | none => s
    | some q =>
      if !(dirPending q 0x61) then s
      else
        let l := s.linePort q.d.linePort
        let close (t : State) (dt : Nat) : State := (t.dirFinish rid dt []).onReq rid (fun r => { r with stage := .over })
        match readOperand l q.d q.side with
        | none => close s 0x1F
        | some o =>
          if o.space = 1 then
            if o.family = 1 ∧ l.espIndexed then close s 0x14
            else
              let k : ExactKey := { scope := l.scope, type := o.family, id := o.id }
              let s := s.readBuckets k
              match s.dir.find k with
              | some n => close (s.removeEntry n) 0x00
              | none => close s 0x13
          else
            let p : Prefix := { family := o.family, scope := l.scope, bits := o.addr, len := o.len, result := 0 }
            if s.dir.prefixes.any (samePrefix p) then
              close { s with dir := { s.dir with prefixes := s.dir.prefixes.filter (fun x => !samePrefix p x) } } 0x00
            else close s 0x13

/-- DIR_LOOKUP (R288). -/
def execDirLookup (rid : Nat) (s : State) : Out :=
  .next <|
    match s.req rid with
    | none => s
    | some q =>
      if !(dirPending q 0x62) then s
      else
        let l := s.linePort q.d.linePort
        let close (t : State) (dt : Nat) (out : Bytes) : State :=
          (t.dirFinish rid dt out).onReq rid (fun r => { r with stage := .over })
        let nothing := lookupResult 0 0 0 0 0 0 0 0
        match readOperand l q.d q.side with
        | none => close s 0x1F nothing
        | some o =>
          if o.space = 1 then
            if o.family = 1 ∧ l.espIndexed then close s 0x14 nothing
            else
              let k : ExactKey := { scope := l.scope, type := o.family, id := o.id }
              let s := s.readBuckets k
              match s.dir.find k with
              | some n =>
                let e := s.dir.at_ n
                close s 0x00 (lookupResult 1 e.type 0 (b2n e.cold + 2 * b2n e.static + 4 * b2n e.learned)
                  e.target.toNat e.homePort (idle s.dir e) n)
              | none => close s 0x13 nothing
          else
            match s.dir.trieFind o.family l.scope o.addr with
            | some p => close s 0x00 (lookupResult 1 p.family p.len 0 p.result.toNat 0 0 0)
            | none => close s 0x13 nothing

end Sys2Proof.Machine
end

