-- ==== Sys2Proof/Machine/Myeno.lean ====
section
/-!
DEFINITION. What every station of Myeno shares: wrap keys and chain-state items, the staging count, the contexts a
request holds and how it leaves them, the end of a request in Myeno with its STAT beat, and the decision point
where an ending competes with an abort, a quiesce or a CANCEL (R109).
-/
namespace Sys2Proof.Machine

/-! ## Life cycle (16 Table 16-1) -/

/-- Code of the state, LC_STATE (R519). -/
def LcState.code : LcState → Nat
  | .blank => 1
  | .testLocked _ => 2
  | .testUnlocked _ => 3
  | .develop => 4
  | .mission => 5
  | .retire => 6
  | .scrap => 7
  | .unknown => 0xFF

/-- Root in use: 0 development, 1 production; none in BLANK, SCRAP and with no state. -/
def rootInUse (s : State) : Option Nat :=
  match s.lc.state with
  | .testLocked _ => some 0
  | .testUnlocked _ => some 0
  | .develop => some 0
  | .mission => some 1
  | .retire => some 1
  | _ => none

/-- The secret of root `r`: the first bank whose CRC verifies (R535). -/
def rootOf (s : State) (r : Nat) : Option Bytes :=
  match Tab.get (fun _ => RootBank.blank) s.lc.roots (2 * r), Tab.get (fun _ => RootBank.blank) s.lc.roots (2 * r + 1) with
  | .valid x, _ => some x
  | _, .valid x => some x
  | _, _ => none

/-- The root secret in use; with no valid bank, the secret that the root's banks stood for reads as zeros. -/
def rootSecret (s : State) : Bytes := (((rootInUse s).bind (rootOf s)).getD (zeros 32))

/-- Does the life-cycle state permit key use (R520)? -/
def keyUse (s : State) : Bool :=
  match s.lc.state with
  | .testLocked _ => true
  | .testUnlocked _ => true
  | .develop => true
  | .mission => true
  | _ => false

/-- Is the state DEVELOP? -/
def inDevelop (s : State) : Bool := decide (s.lc.state = .develop)

/-! ## Wrapping under an owner's wrap key (R227 to R230, R95) -/

/-- The wrap key of an owner, from its seed in the vault. -/
def wrapKey (s : State) (o : Nat) : Bytes :=
  let root := rootSecret s
  let label : Bytes := [0x54, 0x39, 0x20, 0x73, 0x6C, 0x69, 0x63, 0x65, 0x20, 0x77, 0x72, 0x61, 0x70]
  octetsOf 32 (Config.kdf root label (leBytes 2 (ownerWord o) ++ Tab.get (fun _ => zeros 32) s.start.vaultSeeds o))

/-- The next 12 octets of WRAP_NONCE, the boot epoch and WRAP_COUNT, and the count advanced (R229). -/
def State.wrapNonce (s : State) : Bytes × State :=
  (leBytes 4 s.start.bootEpoch.toNat ++ leBytes 8 s.keys.wrapCount.toNat,
    s.onKeys (fun k => { k with wrapCount := k.wrapCount + 1 }))

/-- Is the opcode a digest chain's? -/
def chainHash (op : Nat) : Bool := op == 0x20 || op == 0x21

/-- The chain-state BODY (Table 2-11a): for a hash the chaining value and then the length (R348), for a lane the
accumulator, the IV and the lengths. The packing for lanes is the model's (log entry 13). -/
def ChainState.body (alg : Nat) (c : ChainState) : Bytes :=
  if chainHash c.opcode then
    cut (cut c.acc 0 (stateLen alg) ++ leBytes 16 c.textDone) 0 80
  else
    cut c.acc 0 32 ++ cut c.iv 0 16 ++ leBytes 8 c.aadDone ++ leBytes 8 c.textDone ++ [BitVec.ofNat 8 c.acc.length]
      ++ zeros 15

/-- Bytes 0 to 31 of a chain-state item (Table 2-11a). -/
def ChainState.header (c : ChainState) (nonce : Bytes) : Bytes :=
  [0x02, BitVec.ofNat 8 c.opcode, 0, 0] ++ leBytes 4 c.link ++ nonce ++ zeros 12

/-- What the item is bound to. -/
def ChainState.bound (c : ChainState) : ChainBound :=
  { slot := c.slot, gen := c.gen, an := c.an, nonce := c.chainNonce, took := c.took }

/-- What is authenticated with an item (R95): its header, with LINK and the boot epoch, the owner, and what it is bound to.
A chain of plain DIGEST is bound to the owner and the boot epoch only (R99). -/
def chainAad (o op : Nat) (header : Bytes) (b : ChainBound) : Bytes :=
  header ++ leBytes 2 (ownerWord o)
    ++ (if op = 0x20 then [] else leBytes 2 b.slot ++ leBytes 2 (b.gen.toNat + b.an % 4 * 4096) ++ leBytes 8 b.nonce.toNat)

/-- A chain-state item wrapped for its owner (R95): 128 octets. -/
def State.wrapChain (s : State) (o alg : Nat) (c : ChainState) : Bytes × State :=
  let r := s.wrapNonce
  let h := c.header r.1
  let e := gcmSeal (wrapKey s o) r.1 (chainAad o c.opcode h c.bound) (c.body alg)
  (h ++ e.1 ++ e.2, r.2.onKeys (fun k => { k with bound := (s.keys.wrapCount.toNat, c.bound) :: k.bound }))

/-- What the item wrapped at a WRAP_COUNT is bound to. -/
def boundOf (s : State) (count : Nat) : ChainBound :=
  ((s.keys.bound.find? (fun e => e.1 == count)).map Prod.snd).getD { slot := 65536, gen := 0, an := 0, nonce := 0, took := false }

/-- A chain-state item opened for a link of hash algorithm `alg`: none when it does not authenticate or is of another boot
epoch (R99 test 1). -/
def openChain (s : State) (o alg : Nat) (item : Bytes) : Option ChainState :=
  let h := item.take 32
  let by_ (i n : Nat) : Nat := leNat (cut item i n)
  let op := by_ 1 1
  let bd := boundOf s (by_ 12 8)
  if by_ 0 1 ≠ 2 ∨ by_ 8 4 ≠ s.start.bootEpoch.toNat ∨ item.length ≠ 128 then none
  else
    match gcmOpen (wrapKey s o) (cut item 8 12) (chainAad o op h bd) (cut item 32 80) (cut item 112 16) with
    | none => none
    | some b =>
      let base : ChainState :=
        { opcode := op, link := by_ 4 4, slot := bd.slot, gen := bd.gen, an := bd.an,
          epoch := BitVec.ofNat 32 (by_ 8 4), chainNonce := bd.nonce, took := bd.took, iv := [], acc := [],
          aadDone := 0, textDone := 0 }
      if chainHash op then
        some { base with acc := cut b 0 (stateLen alg), textDone := leNat (cut b (stateLen alg) 16) }
      else
        some { base with acc := cut b 0 (leNat (cut b 64 1)), iv := cut b 32 16, aadDone := leNat (cut b 48 8),
                         textDone := leNat (cut b 56 8) }

/-- The chain that a later link's item names, once the item is complete and authenticates. -/
def itemChain (s : State) (q : Req) : Option ChainState := openChain s q.owner q.d.profile q.item

/-! ## Staging (R45, R191, R198) -/

/-- Segments of input that a request holds in staging: those begun and not released. AAD, IV and EXPECT beats belong to the
segment of the payload beat that follows them, or to the last (R39), and take no segment of their own (log entry 59). The
beats that Check consumes before any segment is staged, a KEYBLOB among them, hold none (R44). -/
def Req.stagedSegs (q : Req) : Nat :=
  if q.m.ending.isNone ∧ q.m.beats.any (fun b => b.kind ≠ BeatKind.keyblob.code) then
    segsOf q.m.payload.length - q.m.segPassed
  else 0

/-- STAGING_IN_USE (Table 4-15). -/
def stagingInUse (s : State) : Nat := (s.reqs.map (fun e => e.2.stagedSegs)).sum

/-- STAGING_HELD. -/
def stagingHeld (s : State) : Nat := (s.reqs.map (fun e => e.2.m.heldSegs)).sum

/-! ## Contexts -/

/-- A lane with a context fewer: it goes IDLE, or OFF or OUT_OF_SERVICE when it was draining (R161). The search of R195(2)
goes on from the context after the one that left. -/
def Lane.drop (rid : Nat) (l : Lane) : Lane :=
  let cs := l.ctxs.filter (fun c => c.req != rid)
  let at_ := l.ctxs.findIdx (fun c => c.req == rid)
  let st :=
    if cs.isEmpty then
      match l.state with
      | .draining => if l.cause = 3 then .outOfService else .off
      | .active => .idle
      | x => x
    else l.state
  { l with
    ctxs := cs, current := if l.current = some rid then none else l.current
    next := if at_ < l.next ∧ at_ < l.ctxs.length then l.next - 1 else l.next, state := st }

/-- State of a digest unit or an engine (R341, R344, R391): one that mismatches have taken out of service finishes its
contexts and is OUT_OF_SERVICE until a retest passes, whatever its enable bit does; one whose bit is clear finishes them and
is OFF; else IDLE or ACTIVE. -/
def unitStateOf (enabled failed empty : Bool) : UnitState :=
  if failed then (if empty then .outOfService else .draining)
  else if !enabled then (if empty then .off else .draining)
  else if empty then .idle
  else .active

/-- Have lanes, digest units and engines power: not in Pavane mode or SCRAP (16 R521, 17 R561)? -/
def unitsPowered (s : State) : Bool := s.start.state != .pavane && s.start.state != .scrap

/-- Has a digest unit no computation? -/
def DigestUnit.isEmpty (u : DigestUnit) : Bool := u.ctxs.isEmpty && u.internal.isNone

/-- A digest unit's state brought into line with its contexts, its enable bit and its mismatches. -/
def DigestUnit.settle (enabled : Bool) (u : DigestUnit) : DigestUnit := { u with state := unitStateOf enabled u.failed u.isEmpty }

/-- An engine's state brought into line with its jobs, its enable bit and its mismatches. -/
def Engine.settle (enabled : Bool) (e : Engine) : Engine := { e with state := unitStateOf enabled e.failed e.jobs.isEmpty }

/-- The digest unit with a context gone. The search of R339 goes on from the context after it. -/
def DigestUnit.drop (c : UnitCtx) (enabled : Bool) (u : DigestUnit) : DigestUnit :=
  let i := u.ctxs.findIdx (· == c)
  DigestUnit.settle enabled
    { u with
      ctxs := u.ctxs.filter (· != c)
      current := if u.current = some c then none else u.current
      next := if i < u.next ∧ i < u.ctxs.length then u.next - 1 else u.next }

/-- The lane that holds a request's context. -/
def laneOf (s : State) (rid : Nat) : Option Nat :=
  (List.range 16).find? (fun n => (s.lane n).ctxs.any (fun c => c.req == rid))

/-- Digest unit by number. -/
def State.unitAt (s : State) (u : Nat) : DigestUnit := Tab.get DigestUnit.dflt s.digest.units u

/-- A change of a digest unit. -/
def State.onUnit (s : State) (u : Nat) (f : DigestUnit → DigestUnit) : State :=
  { s with digest := { s.digest with units := Tab.upd DigestUnit.dflt s.digest.units u f } }

/-- The digest unit that holds a request's context. -/
def unitOf (s : State) (rid : Nat) : Option Nat := (List.range 8).find? (fun u => (s.unitAt u).ctxs.contains (.req rid))

/-- Engine by number. -/
def State.engineAt (s : State) (e : Nat) : Engine := Tab.get Engine.dflt s.pke.engines e

/-- A change of an engine. -/
def State.onEngine (s : State) (e : Nat) (f : Engine → Engine) : State :=
  { s with pke := { s.pke with engines := Tab.upd Engine.dflt s.pke.engines e f } }

/-- The engine that holds a request's job. -/
def engineOf (s : State) (rid : Nat) : Option Nat :=
  (List.range 4).find? (fun e => (s.engineAt e).jobs.any (fun j => j.req == rid))

/-- A request leaves its lane or unit: the context is zeroed (R193, R337). -/
def State.leaveContext (s : State) (rid : Nat) : State :=
  match laneOf s rid with
  | some n => s.onLane n (Lane.drop rid)
  | none =>
    match unitOf s rid with
    | some u => s.onUnit u (DigestUnit.drop (.req rid) (s.digest.enable.getLsbD u))
    | none => s

/-! ## Chains (R98 to R103) -/

/-- The chain open on a slot closed. -/
def Slot.closeChain (x : Slot) : Slot := { x with chainOpen := false, chainOp := 0, nextLink := 0, chainTag := 0 }

/-- The chain a request's link belongs to: the one it was dispatched with, or else the one that its chain-state item
names. -/
def linkChain (s : State) (q : Req) : Option ChainState :=
  match q.m.work.chain with
  | some c => some c
  | none => if q.d.later then itemChain s q else none

/-- The hot handle that the directory holds for a KIND 2 request not resolved yet; none on a miss or for a cold entry. -/
def dirHandle (s : State) (q : Req) : Option (BitVec 32) :=
  let l := s.linePort q.d.linePort
  match lookupOf l q.d q.inData with
  | .exact k =>
    match s.dir.find k with
    | some n => if (s.dir.at_ n).cold then none else some (s.dir.at_ n).target
    | none => none
  | .prefixOf f a => (s.dir.trieFind f l.scope a).map Prefix.result
  | _ => none

/-- The handle by which a request names its slot: its own, or the one that the directory holds for it. -/
def linkHandle (s : State) (q : Req) : Option (BitVec 32) :=
  if q.entry.isSome ∨ !(readsHandle q.d) then none
  else if hKind q.handle = 2 then dirHandle s q
  else some q.handle

/-- The slots on which a later link whose item names no chain can have its own (DEDUCED, log entry 29): the slot of its
handle at the handle's generation, or, under KIND 1, either slot of the pair. -/
def linkSlots (s : State) (q : Req) : List Nat :=
  match linkHandle s q with
  | none => []
  | some h =>
    let n := hSlot h
    (if (s.slot n).gen = hGen h ∨ hKind h = 1 then [n] else []) ++ (if hKind h = 1 then [n ^^^ 1] else [])

/-- Is a chain of the request's owner and opcode open on slot `n`? -/
def chainOpenOn (s : State) (q : Req) (n : Nat) : Bool :=
  (s.slot n).chainOpen && (s.slot n).owner == some q.owner && (s.slot n).chainOp == q.d.opcode

/-- The request's chain, when it is the one open on its slot, is closed (R100, R114). A later link whose item has not been
read, or does not authenticate, closes the chain of its opcode that is open on a slot its handle names (DEDUCED, log entry
29). A chain of plain DIGEST has no open-chain record (R99). -/
def State.closeChainOf (s : State) (q : Req) : State :=
  match linkChain s q with
  | some c =>
    let x := s.slot c.slot
    if c.opcode ≠ 0x20 ∧ x.chainOpen ∧ x.chainTag = c.chainNonce ∧ x.gen = c.gen then s.onSlot c.slot Slot.closeChain else s
  | none =>
    if q.d.later then
      match (linkSlots s q).find? (chainOpenOn s q) with
      | some n => s.onSlot n Slot.closeChain
      | none => s
    else s

/-! ## The end of a request in Myeno -/

/-- AN of the key the request used (Table 2-9). -/
def Req.anOf (q : Req) : Nat :=
  match q.m.key with
  | some k => k.an
  | none => 0

/-- The STAT beat of an ending: IN_DONE under R88, NONCE_USED and the flags of Myeno. -/
def Req.statOf (q : Req) (e : Ending) : Stat :=
  let chain := e.st.good && q.d.opens
  { tag := outTag q.m.headTag .stat q.noOut true false 16
    ending := e
    cflags := myenoFlags q.m.retried q.anOf q.m.nonceValid chain q.m.softLimit
    inDone := if e.st.good ∨ e.st = .pkeReject then q.d.inLen
      else if q.d.opcode = 0x40 ∧ q.m.dispatched ∧ (e.st = .aborted ∨ e.st = .quiesced) then q.d.inLen
      else if e.st = .authFail ∧ e.detail < 3 then q.d.inLen else q.inDoneOf
    nonceUsed := BitVec.ofNat 64 q.m.nonceUsed.toNat }

/-- The context overwritten with zeros (R193); which chain the request's link belonged to stays known. -/
def Work.zeroed (w : Work) : Work := { Work.none with chain := w.chain }

/-- Myeno's record of a request that has ended with the STAT beat `t` after `done` octets of input: staging, the held
output, the retry record with its checkpoint, and the captured key are released. -/
def Myeno.close (e : Ending) (t : Stat) (done : Nat) (m : Myeno) : Myeno :=
  { m with
    ending := some e, statSent := some t, inDone := done, key := none, cold := none, beats := [], heldOut := [],
    heldSegs := 0, inLane := [], outReleased := 0, stopAtSegment := none, work := m.work.zeroed, ckpt := m.ckpt.zeroed,
    recovering := false }

/-- A request ends in Myeno (R43, R48, R111): the ending is recorded at the decision point, its context is zeroed
and its STAT beat is issued. An ending recorded first stands. -/
def State.myenoEnd (s : State) (rid : Nat) (e : Ending) : State :=
  match s.req rid with
  | none => s
  | some q =>
    if q.m.ending.isSome then s
    else
      let s1 := (s.leaveContext rid).onReq rid (fun r => { r with m := r.m.close e (r.statOf e) r.inDoneOf })
      if e.st.good then s1 else s1.closeChainOf q

/-- Has the request's own ending been recorded at its decision point (R109)? -/
def Req.ended (q : Req) : Bool := q.m.ending.isSome || q.stat.isSome

/-- A request not yet settled is stopped with `before` when it has not been dispatched, and after its current
segment with `after` otherwise (R41, R110, R111, R467, R468). A request still in Outer ends there; a key-slot opcode
that has acted stands (R678). -/
def State.stopRequest (s : State) (rid : Nat) (before after : Ending) : State :=
  match s.req rid with
  | none => s
  | some q =>
    if q.ended then s
    else if !q.m.headSeen then
      s.onReq rid (fun r => { (r.endOuter before) with seam := [] })
    else if !q.m.dispatched then s.myenoEnd rid before
    else if isKeyOp q.d.opcode ∨ q.m.stopAtSegment.isSome then s
    else if q.m.segIssued = q.m.segPassed ∧ (isLaneOp q.d.opcode ∨ isDigestOp q.d.opcode ∨ q.d.opcode = 0x50) then s.myenoEnd rid after
    else s.onReq rid (fun r => { r with m := { r.m with stopAtSegment := some after } })

/-! ## Requests of one ring -/

/-- Do two requests belong to one ring: the same pair, and grants of the same home apart from requests of the
instance's own ring (03 R144)? -/
def sameRing (a b : Req) : Bool :=
  pairKey a.owner a.ring == pairKey b.owner b.ring && a.homeGrant.map Prod.fst == b.homeGrant.map Prod.fst

/-- The requests of `q`'s ring before it in ring order, still in flight. -/
def before (s : State) (q : Req) : List Req :=
  (s.reqs.filter (fun e => sameRing e.2 q && decide (e.2.order < q.order))).map Prod.snd

end Sys2Proof.Machine
end

