-- ==== Sys2Proof/Machine/Zeroise.lean ====
section
/-!
DEFINITION. Zeroisation (17 R565 to R568, 20 R645): one operation, taken at a tamper alarm and at every occurrence
that zeroises.
-/
namespace Sys2Proof.Machine

/-- A slot zeroed: EMPTY at generation 0, its owner kept (log entry 14). -/
def Slot.zeroed (x : Slot) : Slot := { Slot.dflt 0 with owner := x.owner }

/-- The computation of a digest register block zeroed; its context stays open (09 R363). -/
def DigestPage.abandon (p : DigestPage) : DigestPage :=
  { p with work := HashWork.none, key := none, lastPending := false, overrun := false, tries := 0, excluded := [],
           backlog := [] }

/-- A digest register block whose computation is lost: the context is released. -/
def DigestPage.release (err : Nat) (p : DigestPage) : DigestPage :=
  { p.abandon with isOpen := false, reqId := none, error := if p.isOpen then err else p.error }

/-- The samples that wait in the conditioner gone (R428). -/
def Rng.noInput (r : Rng) : Rng :=
  { r with sources := (List.range 4).foldl (fun t n => Tab.upd Noise.dflt t n (fun x => { x with input := [] })) r.sources }

/-- The random number service stopped for tamper (R565): pool, conditioner, DRBG state and reservoirs zeroed. -/
def Rng.tampered (r : Rng) : Rng :=
  { r.noInput with
    draws := r.draws + 1, state := .stopped, stopCause := 6, pool := [], formed := [], calls := 0, drbgKey := [], drbgV := [],
    seeded := false, reservoirs := [], refills := [], rawMode := false, rawRun := [], rawNext := 0 }

/-- An engine whose contexts are zeroed. -/
def Engine.cleared (enabled : Bool) (e : Engine) : Engine := Engine.settle enabled { e with jobs := [], current := none }

/-- A digest unit whose contexts are zeroed. -/
def DigestUnit.cleared (enabled : Bool) (u : DigestUnit) : DigestUnit :=
  DigestUnit.settle enabled { u with ctxs := [], internal := none, current := none, next := 0, internalTurn := 0, internalLast := false }

/-- Keys zeroed: the slots, the staged values of the key windows, loads and erases in progress, the cold cache. -/
def Keys.zeroed (k : Keys) : Keys :=
  { k with
    slots := k.slots.foldl (fun t e => Tab.set Slot.dflt t e.1 e.2.zeroed) k.slots
    windows := k.windows.foldl (fun t e =>
      Tab.set KeyWindow.dflt t e.1 { e.2 with secret := [], salt := [], busy := false }) k.windows
    loads := [], erases := [], coldCache := [] }

/-- Antifuse bits after an interrupted pulse train: some of the bits that were missing are programmed, and a reading
may be unstable (16 R526); which is a free value. -/
def FuseField.cut (n : Nat) (x : FuseField) : FuseField :=
  { bits := x.bits ||| (Config.free 5 n % 256), unstable := x.unstable || decide (Config.free 6 n % 2 = 1) }

/-- Programming cut short in the place in progress (16 R526, R551, R568). -/
def LifeCycle.cut (n : Nat) (l : LifeCycle) : LifeCycle :=
  match l.programming with
  | none => l
  | some p =>
    let l1 := { l with programming := none, status := 7 }
    match p.todo with
    | [] => l1
    | .bank r b :: _ => { l1 with roots := Tab.set (fun _ => RootBank.blank) l1.roots (2 * r + b) .spoilt }
    | .burn j :: _ => { l1 with burned := Tab.upd FuseField.dflt l1.burned j (FuseField.cut n) }
    | .copy c f :: _ => { l1 with copies := Tab.upd FuseField.dflt l1.copies (64 * c + f) (FuseField.cut n) }

/-- Zeroisation. Requests in Myeno end with PARTIAL, DETAIL 0x04, and fetch stops (R566); an alarm during a start
abandons it (R568). -/
def State.zeroise (s : State) : State :=
  let end1 (t : State) (e : Nat × Req) : State :=
    if e.2.m.headSeen ∧ !e.2.ended then (t.onReq e.1 (fun r => { r with cause := 5 })).myenoEnd e.1 (ends .partialEnd 4)
    else t
  let s1 := ((s.reqs.foldl end1 s).setRecord 3 [0]).setRecord 4 (zeros 4)
  { s1 with
    keys := s1.keys.zeroed
    lanes := { s1.lanes with lanes := s1.lanes.lanes.foldl (fun t e =>
      Tab.set Lane.dflt t e.1 { e.2 with ctxs := [], current := none, next := 0 }) s1.lanes.lanes }
    digest := { s1.digest with
      queue := []
      units := s1.digest.units.foldl (fun t e =>
        Tab.set DigestUnit.dflt t e.1 (e.2.cleared (s1.digest.enable.getLsbD e.1))) s1.digest.units
      pages := s1.digest.pages.foldl (fun t e => Tab.set DigestPage.dflt t e.1 (e.2.release 8)) s1.digest.pages }
    pke := { s1.pke with
      accs := List.replicate 4 0, operands := List.replicate 16 [], areas := List.replicate 16 [], threads := List.replicate 16 []
      engines := s1.pke.engines.foldl (fun t e =>
        Tab.set Engine.dflt t e.1 (e.2.cleared (s1.pke.enable.getLsbD e.1))) s1.pke.engines }
    rng := s1.rng.tampered
    fifos := { s1.fifos with
      rng := s1.fifos.rng.foldl (fun t e => Tab.set (Fifo.dflt 1) t e.1 e.2.emptied) s1.fifos.rng }
    lc := { s1.lc.cut s1.rng.draws with debugRights := 0, debugChecking := false }
    link := { s1.link with transportKeys := [] }
    engine := { s1.engine with fetchStopped := true }
    start := { s1.start with
      alarmPending := true
      tamperAlarms := s1.start.tamperAlarms + 1
      zeroiseTime := BitVec.ofNat 16 (Config.free 1 s1.start.tamperAlarms.toNat % 301)
      erasePending := s1.start.erasePending || s1.start.tamperVaultErase
      failedStarts := match s1.start.state with
        | .lcDecode => s1.start.failedAtStep0
        | .selfTest => s1.start.failedAtStep0
        | .callerLoad => s1.start.failedAtStep0
        | _ => s1.start.failedStarts }
    events := { s1.events with zeroising := s1.events.zeroising + 1 } }

/-- An occurrence of a source that may zeroise (R645): sources 0 to 7 always do, 8 to 0xA while ZEROISE is 1. -/
def State.alarm (s : State) (src arg info : Nat) : State :=
  let s1 := s.raise src arg info
  if src < 8 ∨ (src ≤ 0xA ∧ (s.source src).zeroise) then s1.zeroise else s1

end Sys2Proof.Machine
end

