-- ==== Sys2Proof/Machine/Gather.lean ====
section
/-!
DEFINITION. Resolve's commands, the Seam gate and Gather (chapters 1 to 3): holds and their counting, the reads of
lists, input and side block, the inward stream of R24 with its tags, and how Gather ends a request (R41).
-/
namespace Sys2Proof.Machine

/-! ## The inward stream (R24, R38, R39) -/

/-- Does the request travel with a KEYBLOB? A member reads no blob (18 R602). -/
def Req.keyblobLen (q : Req) : Nat := if q.homeGrant.isNone ∧ (q.d.opcode = 0x30 ∨ q.entry.isSome) then 96 else 0

/-- Octets that travel as IV beats: the IV item, the chain state of a later link, a load-parameter block or a state
record (log entry 15). -/
def ivLen (d : Desc) : Nat :=
  if isDirOp d.opcode then 0
  else if isLaneOp d.opcode ∨ d.opcode = 0x20 ∨ d.opcode = 0x21 then ivItem d + (if d.later then 128 else 0)
  else sideLen d

/-- Those octets, out of the side block read. -/
def Req.ivOctets (q : Req) : Bytes :=
  if isLaneOp q.d.opcode ∨ q.d.opcode = 0x20 ∨ q.d.opcode = 0x21 then
    cut q.side 0 (ivItem q.d) ++ (if q.d.later then cut q.side (ivItem q.d) 128 else [])
  else cut q.side 0 (ivLen q.d)

/-- The expected value, out of the side block read. -/
def Req.expectOctets (q : Req) : Bytes := cut q.side (ivItem q.d + chainItem q.d) (expectItem q.d)

/-- Sum of the LEN fields of a list (R40). -/
def listTotal (l : List (Nat × Nat)) : Nat := (l.map Prod.snd).sum

/-- Input octets that Gather reads, once the list is known: min of IN_LEN and what the fragments supply. -/
def Req.inputTotal (q : Req) : Option Nat :=
  if q.d.opcode = 0x30 ∧ q.homeGrant.isSome then some 0
  else if q.d.fragList then (if q.listDone then some (min q.d.inLen (listTotal q.frags)) else none) else some q.d.inLen

/-- What Myeno finds wrong with the length of the input (R40, R92): 1 short, 2 long. -/
def Req.lengthWrong (q : Req) : Option Nat :=
  if !q.d.fragList then none
  else if listTotal q.frags < q.d.inLen then some 1
  else if q.d.inLen < listTotal q.frags then some 2
  else none

/-- The HEAD beat (Table 1-4). -/
def Req.headOctets (q : Req) : Bytes :=
  [BitVec.ofNat 8 q.d.opcode, BitVec.ofNat 8 q.d.profile] ++ leBytes 2 q.d.flags.toNat ++ leBytes 4 q.handle.toNat
    ++ leBytes 4 q.d.inLen ++ leBytes 2 q.d.aadLen ++ [BitVec.ofNat 8 q.d.icvLen, BitVec.ofNat 8 q.d.linePort]

/-- EPOCH of the access that brought octet `off` of what was read piece by piece (R28). -/
def epochAt : List (Nat × Nat) → Nat → Nat
  | [], _ => 0
  | (n, e) :: t, off => if off < n then e else epochAt t (off - n)

/-- A beat of the request put on the Seam. -/
def Req.putBeat (rid epoch : Nat) (kind : BeatKind) (first last inseg : Bool) (bs : Bytes) (q : Req) : Req :=
  { q with
    seam := q.seam ++
      [{ tag := tagWord (q.tagBase rid) epoch (hGen q.handle).toNat kind first last inseg bs.length, data := bs }] }

/-- Beats of one kind; `last` tells whether they end the stream, `epoch` the epoch under which each octet was read. A beat
whose octets came by two accesses carries the epoch of the one that completed it (log entry 60). -/
def Req.putBeats (rid : Nat) (epoch : Nat → Nat) (kind : BeatKind) (last : Bool) (bs : Bytes) (q : Req) : Req :=
  let cs := blocksOf bs
  (List.range cs.length).foldl (fun r i =>
    let l := last && i + 1 == cs.length
    let c := cs.getD i []
    r.putBeat rid (epoch (16 * i + c.length - 1)) kind false l (!l) c) q

/-- HEAD, once it is known whether anything follows it. -/
def Req.pumpHead (rid : Nat) (q : Req) : Req :=
  if q.headSent then q
  else if isDirOp q.d.opcode ∧ !q.sideDone then q
  else
    let follows := decide (0 < q.keyblobLen ∨ 0 < ivLen q.d ∨ 0 < expectItem q.d)
    match q.inputTotal with
    | none => if follows then { q.putBeat rid q.epochs.desc .head true false true q.headOctets with headSent := true } else q
    | some t =>
      let alone := !follows && t == 0
      { q.putBeat rid q.epochs.desc .head true alone (!alone) q.headOctets with headSent := true }

/-- KEYBLOB beats: the cold blob, or the input of a KEY_LOAD_WRAPPED. -/
def Req.pumpBlob (rid : Nat) (q : Req) : Req :=
  if !q.headSent ∨ q.sidePart ≠ 0 then q
  else if q.keyblobLen = 0 then { q with sidePart := 1 }
  else
    match q.inputTotal with
    | none => q
    | some t =>
      if q.d.opcode = 0x30 then
        let n := min 96 t
        if q.inData.length < n then q
        else { q.putBeats rid (epochAt q.epochs.input) .keyblob (ivLen q.d == 0) (q.inData.take n) with sidePart := 1, sent := n }
      else
        { q.putBeats rid (fun _ => q.epochs.blob) .keyblob (ivLen q.d == 0 && t == 0 && expectItem q.d == 0) (cut q.blob 0 96) with
          sidePart := 1 }

/-- IV beats. -/
def Req.pumpIv (rid : Nat) (q : Req) : Req :=
  if q.sidePart ≠ 1 then q
  else if ivLen q.d = 0 then { q with sidePart := 2 }
  else
    match q.inputTotal with
    | none => q
    | some t =>
      if !q.sideDone then q
      else
        { q.putBeats rid (epochAt q.epochs.side) .iv (expectItem q.d == 0 && (t == 0 || q.d.opcode == 0x30)) q.ivOctets with
          sidePart := 2 }

/-- AAD and DATA beats as their octets arrive: every beat full but the last of each kind. -/
def Req.pumpData (rid t : Nat) : Nat → Req → Req
  | 0, q => q
  | fuel + 1, q =>
    let a := min q.d.aadLen t
    let o := q.sent
    let n := if o < a then min 16 (a - o) else min 16 (t - o)
    if t ≤ o ∨ q.inData.length < o + n then q
    else
      let last := o + n == t && expectItem q.d == 0
      let inseg := !last && !(decide (a ≤ o) && (o + n - a) % 4096 == 0)
      let kind := if o < a then BeatKind.aad else .data
      Req.pumpData rid t fuel
        { q.putBeat rid (epochAt q.epochs.input (o + n - 1)) kind false last inseg (cut q.inData o n) with sent := o + n }

/-- EXPECT beats. -/
def Req.pumpExpect (rid : Nat) (q : Req) : Req :=
  if q.sidePart ≠ 2 then q
  else
    match q.inputTotal with
    | none => q
    | some t =>
      let q1 := if q.d.opcode = 0x30 then q else Req.pumpData rid t (q.inData.length / 16 + 3) q
      if expectItem q.d = 0 then q1
      else if q1.sideDone ∧ t ≤ q1.sent then
        let base := ivItem q1.d + chainItem q1.d
        { q1.putBeats rid (fun i => epochAt q1.epochs.side (base + i)) .expect true q1.expectOctets with sidePart := 3 }
      else q1

/-- Every beat of the inward stream that can go on the Seam now (R24). -/
def Req.pump (rid : Nat) (q : Req) : Req :=
  if q.cancelSent ∨ q.stage ≠ .gather then q
  else (((q.pumpHead rid).pumpBlob rid).pumpIv rid).pumpExpect rid

/-! ## Gather ends a request (R41) -/

/-- Gather ends the request: in Outer while HEAD has not crossed, else by a CANCEL beat, which follows the beats already on
the Seam (R29). No access carries a CANCEL beat: its EPOCH is that of the descriptor's access and its INSEG 0 (DESIGN CHOICE,
log entry 61). `addr` is the address of the access that was denied or lost, for the fault journal. -/
def State.gatherEnd (s : State) (rid : Nat) (e : Ending) (addr : Nat) : State :=
  s.onReq rid (fun q =>
    if q.cancelSent ∨ q.stat.isSome then q
    else
      let q1 := if q.faultAddr = 0 then { q with faultAddr := BitVec.ofNat 64 addr } else q
      if q1.m.headSeen then
        { q1.putBeat rid q1.epochs.desc .cancel false true false
            ([BitVec.ofNat 8 e.st.code, BitVec.ofNat 8 e.detail] ++ zeros 14) with cancelSent := true }
      else { (q1.endOuter e) with seam := [] })

/-! ## Reads (R30, R38, R80 to R83) -/

/-- An access of a request. -/
def Req.ask (rid : Nat) (q : Req) (kind : AccKind) (write : Bool) (addr len off : Nat) (data : Bytes) : Ask :=
  { chan := q.chan, kind := kind, cls := classOf q.owner, owner := q.owner, req := rid, pair := pairKey q.owner q.ring,
    write := write, addr := addr % 2 ^ 64, len := len, off := off, data := data }

/-- Is an access of this kind of the request outstanding, or ended and not yet consumed? -/
def accBusy (s : State) (rid : Nat) (kind : AccKind) : Bool :=
  s.port.outstanding.any (fun a => a.req == rid && decide (a.kind = kind))
    || s.port.ended.any (fun a => a.req == rid && decide (a.kind = kind))

/-- A read issued, or the request ended with ACCESS_FAULT and the DETAIL of the access (R83). -/
def State.gatherRead (s : State) (rid : Nat) (k : Ask) : Bool × State :=
  match s.issue k with
  | (true, s1) => (true, s1)
  | (false, s1) => (false, s1.gatherEnd rid (ends .accessFault k.kind.detail) k.addr)

/-- The side block in pieces of up to 128 octets. -/
def State.readSide (s : State) (rid : Nat) : State :=
  match s.req rid with
  | none => s
  | some q =>
    let n := sideLen q.d
    if n = 0 then s.onReq rid (fun r => { r with sideDone := true })
    else
      ((List.range ((n + 127) / 128)).foldl (fun (t : Bool × State) i =>
        if t.1 then
          t.2.gatherRead rid (q.ask rid .side false (q.d.w6.toNat + 128 * i) (min 128 (n - 128 * i)) (128 * i) [])
        else t) (true, s)).2

/-- Entries of the next read of a list from entry `i` of `total`: to the end of the aligned 128-byte block (R82). -/
def listRead (base i total : Nat) : Nat := min ((128 - (base + 16 * i) % 128) / 16) (total - i)

/-- The next read of the input list, one at a time. -/
def State.readList (s : State) (rid : Nat) : State :=
  match s.req rid with
  | none => s
  | some q =>
    if q.stage ≠ .gather ∨ !q.d.fragList ∨ q.listDone ∨ q.cancelSent ∨ accBusy s rid .fragList then s
    else
      let n := listRead q.d.inAddr.toNat q.fragsRead q.d.fragCount
      (s.gatherRead rid (q.ask rid .fragList false (q.d.inAddr.toNat + 16 * q.fragsRead) (16 * n) q.fragsRead [])).2

/-- The next read of the output list, once HEAD has crossed the Seam (R82). -/
def State.readOutList (s : State) (rid : Nat) : State :=
  match s.req rid with
  | none => s
  | some q =>
    if q.stage ≠ .gather ∨ !q.d.outFragList ∨ q.outListDone ∨ !q.m.headSeen ∨ q.cancelSent ∨ accBusy s rid .outList then s
    else
      let n := listRead q.d.outAddr.toNat q.outListRead 256
      (s.gatherRead rid (q.ask rid .outList false (q.d.outAddr.toNat + 16 * q.outListRead) (16 * n) q.outListRead [])).2

/-- Where octet `off` of a list of regions lies, and how many octets the region still has from there. -/
def regionAt : List (Nat × Nat) → Nat → Option (Nat × Nat)
  | [], _ => none
  | (a, n) :: t, off => if off < n then some (a + off, n - off) else regionAt t (off - n)

/-- The regions of the input. -/
def Req.inRegions (q : Req) : List (Nat × Nat) := if q.d.fragList then q.frags else [(q.d.inAddr.toNat, q.d.inLen)]

/-- Staging segments that the reads of a request have reserved and not released (R30, R198). -/
def Req.reservedSegs (q : Req) : Nat :=
  if q.readOff = 0 ∨ q.stage = .over ∨ q.m.ending.isSome then 0
  else segsOf (q.readOff - q.d.aadLen) - q.m.segPassed

/-- Staging reserved by all requests, held plaintext included. -/
def stagingTaken (s : State) : Nat := (s.reqs.map (fun e => e.2.reservedSegs + e.2.m.heldSegs)).sum

/-- May Gather read on up to input octet `upto`: staging is reserved first (R30), and STAGE_CAP bounds a request (R198) but
for PKE_RUN, whose whole input is staged (10 R383)? -/
def stagingRoom (s : State) (q : Req) (upto : Nat) : Bool :=
  let need := segsOf (upto - q.d.aadLen) - q.m.segPassed
  (q.d.opcode == 0x40 || decide (need ≤ s.lanes.stageCap)) && decide (stagingTaken s + need ≤ 1024 + q.reservedSegs)

/-- Input reads of up to 128 octets, as far as staging and tags allow (R30). -/
def State.readInput : Nat → State → Nat → State
  | 0, s, _ => s
  | fuel + 1, s, rid =>
    match s.req rid with
    | none => s
    | some q =>
      match q.inputTotal with
      | none => s
      | some t =>
        if q.stage ≠ .gather ∨ q.cancelSent ∨ t ≤ q.readOff then s
        else
          match regionAt q.inRegions q.readOff with
          | none => s
          | some (a, left) =>
            let n := min (min 128 left) (t - q.readOff)
            if stagingRoom s q (q.readOff + n) ∧ roomFor s q.chan 2 then
              match s.gatherRead rid (q.ask rid .input false a n q.readOff []) with
              | (true, s1) => State.readInput fuel (s1.onReq rid (fun r => { r with readOff := r.readOff + n })) rid
              | (false, s1) => s1
            else s

/-- Gather goes on: list and input reads that can be issued, and the beats that can cross. At most 64 input reads
are issued by one command (log entry 16). -/
def State.gatherOn (s : State) (rid : Nat) : State :=
  (((s.readList rid).readOutList rid).readInput 64 rid).onReq rid (Req.pump rid)

/-- A request begins in Gather. -/
def State.gatherStart (s : State) (rid : Nat) : State :=
  ((s.onReq rid (fun q => { q with stage := .gather, outListDone := !q.d.outFragList, listDone := !q.d.fragList || q.listDone })).readSide
    rid).gatherOn rid

/-! ## The Seam gate (R123 to R127) -/

/-- Does a request count as fenced (R123, R124)? -/
def Req.fenced (q : Req) : Bool := q.d.fence || q.d.opcode == 0x70

/-- A FENCE or NOP_FENCE holds the request. -/
def fenceHold (s : State) (q : Req) : Bool :=
  let b := before s q
  (q.fenced && !b.isEmpty) || b.any Req.fenced

/-- A key fence holds the request (R125); a PKE_RUN is one for its TARGET (10 R397). -/
def keyFenceHold (s : State) (q : Req) : Bool :=
  (before s q).any (fun e =>
    e.stat.isNone
      && ((isKeyFence e.d.opcode
          && (match e.ord with
              | .unfixed => false
              | .null => false
              | k => decide (k = q.ord)))
        || (e.d.opcode == 0x40 && routineHasTarget e.d.profile && decide (q.ord = .slot (hSlot e.d.selector)))))

/-- Is the request held at the gate? -/
def gateHeld (s : State) (q : Req) : Bool := fenceHold s q || keyFenceHold s q

/-- Do the earlier requests of the ring let it pass in ring order (R36, R126)? -/
def inTurn (s : State) (q : Req) : Bool :=
  (before s q).all (fun e =>
    match e.stage with
    | .descRead => false
    | .resolve => false
    | .blobRead => false
    | .gate => gateHeld s e
    | _ => true)

/-- A held request counted once by each kind of hold (Table 3-4). -/
def State.countHold (s : State) (rid : Nat) (q : Req) : State :=
  let f := fenceHold s q && !q.heldCounted
  let k := keyFenceHold s q && !q.keyHeldCounted
  { s.onReq rid (fun r => { r with heldCounted := r.heldCounted || f, keyHeldCounted := r.keyHeldCounted || k }) with
    order := { s.order with
      fenceHolds := if f then s.order.fenceHolds + 1 else s.order.fenceHolds
      keyFenceHolds := if k then s.order.keyFenceHolds + 1 else s.order.keyFenceHolds } }

/-- The gate tried by a request: NOP_FENCE ends there with OK (R124); a request of a spread ring waits to be
granted (R148); every other begins in Gather. -/
def State.gateTry (s : State) (rid : Nat) : State :=
  match s.req rid with
  | none => s
  | some q =>
    if q.stage ≠ .gate then s
    else if gateHeld s q then s.countHold rid q
    else if !(inTurn s q) then s
    else if q.d.opcode = 0x70 then s.onReq rid (Req.endOuter (ends .ok 0))
    else if q.homeGrant.isNone ∧ (spreadOf s (pairKey q.owner q.ring)).isSome then
      s.onReq rid (fun r => { r with stage := .granted })
    else s.gatherStart rid

/-- SEAM_GATE_PASS (R123). -/
def execSeamGatePass (rid : Nat) (s : State) : Out := .next (s.gateTry rid)

/-- NOP_FENCE (R124). -/
def execNopFence (rid : Nat) (s : State) : Out :=
  .next <|
    match s.req rid with
    | some q => if q.d.opcode = 0x70 then s.gateTry rid else s
    | none => s

/-! ## Resolve -/

/-- RESOLVE (R269), or the hit commit that is due after its lookup (R278): waits for earlier DIR_INSERT and DIR_DELETE of the ring (R289); a lookup on the frame first
reads the octets it needs (R271). -/
def execResolve (rid : Nat) (s : State) : Out :=
  .next <|
    match s.req rid with
    | none => s
    | some q =>
      if q.stage ≠ .resolve ∨ dirAhead s q then s
      else
        match q.found with
        | some e => s.commitFound rid q e
        | none =>
        let lk := lookupOf (s.linePort q.d.linePort) q.d q.inData
        match lk with
        | .needInput n =>
          if q.d.fragList ∧ !q.listDone then
            if accBusy s rid .fragList then s
            else
              let k := listRead q.d.inAddr.toNat q.fragsRead q.d.fragCount
              (s.gatherRead rid (q.ask rid .fragList false (q.d.inAddr.toNat + 16 * q.fragsRead) (16 * k) q.fragsRead
                [])).2
          else
            let t := (q.inputTotal).getD 0
            if min n t ≤ q.inData.length then
              s.lookup rid q (lookupOf (s.linePort q.d.linePort) q.d (q.inData ++ zeros (n - q.inData.length)))
            else if q.readOff ≠ q.inData.length then s
            else
              match regionAt q.inRegions q.readOff with
              | none => s
              | some (a, left) =>
                let k := min (min 128 left) (t - q.readOff)
                if !(stagingRoom s q (q.readOff + k)) ∨ !(roomFor s q.chan 2) then s
                else
                match s.gatherRead rid (q.ask rid .input false a k q.readOff []) with
                | (true, s1) => s1.onReq rid (fun r => { r with readOff := r.readOff + k })
                | (false, s1) => s1
        | x => s.lookup rid q x

/-- BLOB_READ_ARRIVAL (R272). -/
def execBlobReadArrival (rid : Nat) (s : State) : Out :=
  .next <|
    match s.takeEnded (fun a => decide (a.kind = .blob) && a.req == rid) with
    | none => s
    | some (a, s1) =>
      s1.onReq rid (fun q =>
        if q.stage = .blobRead then
          { q with blob := a.data, stage := .gate, epochs := { q.epochs with blob := a.epoch.toNat % 16 } }
        else q)

/-! ## Arrivals -/

/-- A fragment entry of a list (R80): ADDR, LEN and LAST. -/
def fragEntry (bs : Bytes) (i : Nat) : Nat × Nat × Bool :=
  (leNat (cut bs (16 * i) 8), leNat (cut bs (16 * i + 8) 4), (octet bs (16 * i + 12)).getLsbD 0)

/-- Entries of an output list up to and including the first with LAST. -/
def takeLast : List (Nat × Nat × Bool) → List (Nat × Nat) × Bool
  | [] => ([], false)
  | (a, n, l) :: t => if l then ([(a, n)], true) else ((a, n) :: (takeLast t).1, (takeLast t).2)

/-- The required output that the LEN total of an output list must reach (R82): for KEYPAIR and IMPORT that of the key they
name (10 Table 10-8). -/
def listRequired (s : State) (q : Req) : Nat :=
  if q.d.opcode = 0x40 ∧ (q.d.profile = 0x30 ∨ q.d.profile = 0x31) then
    routineOut q.d.profile (s.slot (hSlot q.handle)).transform
  else requiredOutput q.d

/-- FRAGMENT_LIST_ARRIVAL (R81, R82): a read of the input list or of the output list; with none arrived, the next
read that can be issued is. -/
def execFragmentListArrival (rid : Nat) (s : State) : Out :=
  .next <|
    match s.takeEnded (fun a => decide (a.kind = .fragList) && a.req == rid) with
    | some (a, s1) =>
      let es := (List.range (a.len / 16)).map (fragEntry a.data)
      let s2 := s1.onReq rid (fun q =>
        { q with
          frags := q.frags ++ es.map (fun e => (e.1, e.2.1))
          fragsRead := q.fragsRead + es.length
          listDone := decide (q.d.fragCount ≤ q.fragsRead + es.length) })
      s2.gatherOn rid
    | none =>
      match s.takeEnded (fun a => decide (a.kind = .outList) && a.req == rid) with
      | some (a, s1) =>
        let es := (List.range (a.len / 16)).map (fragEntry a.data)
        let tl := takeLast es
        match s1.req rid with
        | none => s1
        | some q =>
          let all := q.outFrags ++ tl.1
          let enough := decide (listRequired s1 q ≤ listTotal all)
          let s2 := s1.putReq rid
            { q with outFrags := all, outListRead := q.outListRead + es.length, outListDone := tl.2 && enough }
          if tl.2 then
            if enough then s2.gatherOn rid else s2.gatherEnd rid (ends .fragmentFault 3) 0
          else if 256 ≤ q.outListRead + es.length then s2.gatherEnd rid (ends .fragmentFault 4) 0
          else s2.gatherOn rid
      | none => s.gatherOn rid

/-- INPUT_DATA_ARRIVAL (R38, R39): the next read of the side block or of the input, in order; then the beats it
makes, and further reads. -/
def execInputDataArrival (rid : Nat) (s : State) : Out :=
  .next <|
    match s.req rid with
    | none => s
    | some q =>
      match s.takeEnded (fun a => decide (a.kind = .side) && a.req == rid && a.off == q.side.length) with
      | some (a, s1) =>
        (s1.onReq rid (fun r =>
          { r with
            side := r.side ++ a.data
            sideDone := decide (sideLen r.d ≤ r.side.length + a.data.length)
            epochs := { r.epochs with side := r.epochs.side ++ [(a.data.length, a.epoch.toNat % 16)] } })).gatherOn rid
      | none =>
        match s.takeEnded (fun a => decide (a.kind = .input) && a.req == rid && a.off == q.inData.length) with
        | some (a, s1) =>
          (s1.onReq rid (fun r =>
            { r with
              inData := r.inData ++ a.data
              epochs := { r.epochs with input := r.epochs.input ++ [(a.data.length, a.epoch.toNat % 16)] } })).gatherOn rid
        | none => s.gatherOn rid

end Sys2Proof.Machine
end

