-- ==== Sys2Proof/Machine/Check.lean ====
section
/-!
DEFINITION. Myeno's Check (R42 to R45, chapter 5 "The checks in full"): the inward beats as they arrive at Myeno, the
checks on the slot, the blob, the chain state, the load parameters and the records, and the end of a request that
fails one.
-/
namespace Sys2Proof.Machine

/-! ## The slot (Table 5-8, Table 5-3) -/

/-- Step 1: the slot is the owner's and lies outside the cold cache (R214). -/
def ownCheck (s : State) (o n : Nat) : Option Ending :=
  if n < 65536 - s.keys.coldCacheSlots ∧ (s.slot n).owner = some o then none else some (ends .keyNotOwned 0x01)

/-- Step 2, the state rows. -/
def stateCheck (x : Slot) : Option Ending :=
  match x.state with
  | .poisoned => some (ends .keyPoisoned 0x00)
  | .empty => some (ends .keyAbsent 0x01)
  | .window => some (ends .keyAbsent 0x01)
  | .erased => some (ends .keyAbsent 0x02)
  | .erasing => some (ends .keyAbsent 0x02)
  | _ => none

/-- Step 2, the generation row. -/
def genCheck (x : Slot) (g : BitVec 12) : Option Ending := if x.gen = g then none else some (ends .keyStale 0x01)

/-- Step 2, the KIND row. -/
def kindRow (x : Slot) (k : Nat) : Option Ending :=
  if (k == 0 && x.kind3) || (k == 3 && !x.kind3) then invalid 0x05 else none

/-- Step 2 for a request that uses the slot; Dispatch repeats it (R238). -/
def useAgain (s : State) (h : BitVec 32) : Option Ending :=
  let x := s.slot (hSlot h)
  firstFail [stateCheck x, genCheck x (hGen h), kindRow x (hKind h)]

/-- Steps 1 and 2 for a request that uses the slot. -/
def useCheck (s : State) (o : Nat) (h : BitVec 32) : Option Ending :=
  firstFail [ownCheck s o (hSlot h), useAgain s h]

/-- Step 2 for a FORM, which treats the named slot as if KIND were 0 (06 R255). -/
def formAgain (s : State) (h : BitVec 32) : Option Ending :=
  let x := s.slot (hSlot h)
  firstFail [stateCheck x, genCheck x (hGen h), kindRow x 0]

/-- Step 2 for a load (Table 5-3, R210). -/
def loadAgain (s : State) (h : BitVec 32) : Option Ending :=
  let x := s.slot (hSlot h)
  firstFail
    [ match x.state with
      | .empty => none
      | .erased => none
      | _ => stateCheck x,
      genCheck x (hGen h) ]

/-- Steps 1 and 2 for a load. -/
def loadCheck (s : State) (o : Nat) (h : BitVec 32) : Option Ending :=
  firstFail [ownCheck s o (hSlot h), loadAgain s h]

/-- Step 2 for an erase (R243): a POISONED slot takes any GEN. -/
def eraseAgain (s : State) (h : BitVec 32) : Option Ending :=
  let x := s.slot (hSlot h)
  if x.state = .poisoned then none else firstFail [stateCheck x, genCheck x (hGen h)]

/-- Steps 1 and 2 for an erase. -/
def eraseCheck (s : State) (o : Nat) (h : BitVec 32) : Option Ending :=
  firstFail [ownCheck s o (hSlot h), eraseAgain s h]

/-- The pairing tests of R256 and R257 for an opcode that uses the key. -/
def pairCheck (s : State) (h : BitVec 32) : Option Ending :=
  let p := (s.slot (hSlot h)).paired
  if (hKind h == 1 && !p) || (hKind h == 0 && p) then invalid 0x05 else none

/-- Is a slot in a state that R218 takes to POISONED? Table 5-3 lists that change for LOADED and EXHAUSTED only, and R219
permits no other (DEDUCED, log entry 69). -/
def Slot.poisonable (x : Slot) : Bool := x.state == .loaded || x.state == .exhausted

/-- A slot poisoned, if its state is one that R218 changes; `gen` says that its generation cannot be read (15 R513). -/
def State.poisonSlot (s : State) (n : Nat) (gen : Bool) : State :=
  s.onSlot n (fun x =>
    { x with state := if x.poisonable then .poisoned else x.state, checkBad := false, genLost := x.genLost || gen })

/-- The damage that a line was found to hold holds on: what the line holds now is noted beside it. -/
def State.holdDamage (s : State) (n line : Nat) : State :=
  { s with
    memory := { s.memory with
      damages := s.memory.damages.map (fun d =>
        if d.store = n ∧ d.line = line ∧ d.found then { d with held := lineData s n line } else d) } }

/-- A line of the key cache read (15 R512): a slot with an uncorrectable word is POISONED, or the slot its window serves;
an entry of the cold cache is invalidated. A line found uncorrectable stays so until a load, an allotment or an erase that
completes has written it whole (15 R508). -/
def State.readSlotLine (s : State) (line : Nat) (scrub : Bool) : State :=
  let n := line / 4
  let stale := s.memory.damages.any (fun d => d.store == 0 && d.line == line && d.found && d.held != lineData s 0 line)
    && (s.slot n).state != .poisoned && (s.slot n).state != .window && (s.slot n).state != .erasing
  if stale then s.dropDamage 0 line
  else
    match s.lineRead 0 line scrub with
    | ([], s1) => s1
    | (lost, s1) =>
      let info := (s1.store 0).lastError.toNat % 2 ^ 36
      if 65536 - s1.keys.coldCacheSlots ≤ n then
        let k := n - (65536 - s1.keys.coldCacheSlots)
        let victim := (s1.keys.coldCache.filter (fun e => e.set == k / 4))[k % 4]?
        ((s1.onKeys (fun x => { x with coldCache := x.coldCache.filter (fun e => decide (some e ≠ victim)) })).dropDamage 0
          line).raise 0xA3 (storeCode 0) info
      else
        let s2 := if (s1.slot n).state = .window then s1.poisonSlot (s1.slot n).serves false
          else s1.poisonSlot n (line % 4 == 2 && lost.contains 6)
        (s2.holdDamage 0 line).raise 0xA2 (storeCode 0) info

/-- A slot's four lines read, and those of its window slot. -/
def State.readSlot (s : State) (n : Nat) : State :=
  if s.memory.damages = [] then s
  else
    let w := if (s.slot n).winEn then [(s.slot n).winSlot] else []
    (n :: w).foldl (fun t m => (List.range 4).foldl (fun u k => u.readSlotLine (4 * m + k) false) t) s

/-- CHECK verified (R217, R218): a slot whose words cannot be read, or whose CHECK fails, enters POISONED; a failure of
CHECK with no memory error raises the alarm. With a slot its window slot is read, whose CHECK is that of its own bytes and
whose failure poisons the slot it serves (15 Table 15-2). -/
def State.verifySlot (s0 : State) (n : Nat) : State :=
  let s := s0.readSlot n
  let x := s.slot n
  let window := x.winEn && (s.slot x.winSlot).checkBad
  if x.checkBad ∨ window then
    let s1 := if window then s.onSlot x.winSlot (fun y => { y with checkBad := false }) else s
    ((s1.poisonSlot n false).onKeys (fun k => { k with checkFails := k.checkFails + 1 })).alarm 0x009 0 (if x.checkBad then n else x.winSlot)
  else s

/-! ## Life cycle (R520, R521) -/

/-- Does the request use keys (R520)? -/
def usesKeys (q : Req) : Bool :=
  isLaneOp q.d.opcode || q.d.opcode == 0x21 || isKeyOp q.d.opcode
    || ((q.d.opcode == 0x22 || q.d.opcode == 0x23) && q.d.handle != noHandle)
    || (q.d.opcode == 0x40 && (q.d.handle != noHandle || routineHasTarget q.d.profile))

/-- Step 3 of R42. -/
def lifeCheck (s : State) (uses : Bool) : Option Ending :=
  if s.lc.state = .scrap then some (ends .notPermitted 0x01)
  else if uses && !keyUse s then some (ends .notPermitted 0x01)
  else none

/-! ## The checks that need the transform (R237 items 4 to 6) -/

/-- Item 4: opcode, profile, ICV_LEN, lengths and blocks, of a lane opcode. -/
def laneTransformCheck (d : Desc) (t : Nat) : Option Ending :=
  let mac := d.opcode == 0x18 || d.opcode == 0x19
  firstFail
    [ if opForTransform t d.opcode then none else invalid 0x01,
      if profileFor d.profile t d.opcode then none else invalid 0x02,
      if tCbc t ∧ d.opcode = 0x14 ∧ d.profile = 1 ∧ d.nonceHw then invalid 0x07 else none,
      if icvFor d.profile t d.icvLen then none else invalid 0x06,
      if mac ∧ tGcm t ∧ d.aadLen ≠ d.inLen then badLength 0x07 else none,
      if (d.opcode = 0x14 ∨ d.opcode = 0x15) ∧ d.payload = 0 then badLength 0x07 else none,
      if tCmac t ∧ d.aadLen ≠ 0 then badLength 0x07 else none,
      if (tCbc t ∨ tEcb t) ∧ d.payload % 16 ≠ 0 then badLength 0x03 else none,
      if tChacha t ∧ d.opens ∧ d.payload % 64 ≠ 0 then badLength 0x03 else none ]

/-- Item 5: ECB and a software nonce outside DEVELOP (R165, R179). -/
def developCheck (s : State) (d : Desc) (t : Nat) : Option Ending :=
  if inDevelop s then none
  else if tEcb t then some (ends .notPermitted 0x02)
  else if isSealing d.opcode ∧ !d.nonceHw ∧ !tCmac t then some (ends .notPermitted 0x03)
  else none

/-- Item 6 on a slot: an earlier epoch, no SEAL (R231, R232). -/
def sealCheck (d : Desc) (x : Slot) : Option Ending :=
  if !isSealing d.opcode then none
  else if x.earlierEpoch then some (ends .keyStale 0x03)
  else if !x.sealing then some (ends .notPermitted 0x05)
  else none

/-- The transform of a digest opcode's slot (R347). -/
def hmacTransformCheck (d : Desc) (t : Nat) : Option Ending :=
  firstFail
    [ if tHmac t then none else invalid 0x01,
      if t = 0x20 + d.profile then none else invalid 0x02 ]

/-- The transform and lengths of a PKE_RUN's slot (R379, R381). -/
def pkeTransformCheck (d : Desc) (t : Nat) : Option Ending :=
  firstFail
    [ if routineKeyOk d.profile t then none else invalid 0x02,
      if d.profile = 0x31 ∧ (importLens t).map Prod.fst ≠ some d.inLen then badLength 0x07 else none,
      if toFifo d ∧ 512 < (routineOut d.profile t + 5) / 6 + 1 then badLength 0x07 else none,
      if d.outCap < routineOut d.profile t then badLength 0x05 else none ]

/-- The PKE_RUN checks on TARGET (R394): steps 1 and 2 of Table 5-8 on a KIND 0 handle, for a load. -/
def targetCheck (s : State) (o : Nat) (d : Desc) : Option Ending :=
  if routineHasTarget d.profile then
    firstFail
      [ loadCheck s o d.selector, kindRow (s.slot (hSlot d.selector)) 0,
        if d.handle ≠ noHandle ∧ hSlot d.handle = hSlot d.selector then invalid 0x05 else none ]
  else none

/-! ## Chain state (R99, R169, R172) -/

/-- The tests of R99 on a chain-state item, in their order. -/
def chainCheck (s : State) (q : Req) : Option Ending :=
  match itemChain s q with
  | none => invalid 0x08
  | some c =>
    if q.d.opcode = 0x20 then (if c.opcode = 0x20 then none else invalid 0x08)
    else
      let x := s.slot c.slot
      let named := hSlot q.handle
      let ours := q.entry.isNone && (decide (c.slot = named) || (hKind q.handle == 1 && decide (c.slot = named ^^^ 1)))
      if c.opcode ≠ 0x20 ∧ c.gen ≠ x.gen then some (ends .keyStale 0x02)
      else if !ours ∨ !x.chainOpen ∨ x.chainTag ≠ c.chainNonce ∨ c.opcode ≠ q.d.opcode ∨ x.chainOp ≠ c.opcode then invalid 0x08
      else if c.link ≠ x.nextLink.toNat then invalid 0x09
      else none

/-- The total payload a chain may reach under transform `t` (R169, R170, R172, R348). -/
def chainLimit (t : Nat) (q : Req) (c : ChainState) : Option Ending :=
  let total := c.textDone + q.d.payload
  let bad :=
    if q.d.opcode = 0x20 ∨ q.d.opcode = 0x21 then decide (2 ^ 61 ≤ total)
    else if tGcm t then decide ((2 ^ 32 - 2) * 16 < total)
    else if tChacha t then decide ((2 ^ 32 - 1) * 64 < total)
    else if tCtr t ∧ q.d.nonceHw then decide ((2 ^ 32 - 1) * 16 < total)
    else false
  if bad then badLength 0x06 else none

/-- Does a request's Check need its chain-state item? -/
def Req.readsChain (q : Req) : Bool := (isLaneOp q.d.opcode || q.d.opcode == 0x20 || q.d.opcode == 0x21) && q.d.later

/-- Items 5 and 6 of R237. -/
def permitChecks (s : State) (d : Desc) (x : Slot) : List (Option Ending) := [developCheck s d x.transform, sealCheck d x]

/-- Is an ASSOC_ROLL a FORM (Table 6-3)? -/
def isForm (d : Desc) : Bool := fld d.inAddr.toNat 0 2 == 1

/-- The checks made when HEAD arrives (R42, R237), for a request whose key, if any, is in a slot. A later link's items 5
and 6 follow R169 of item 4, which needs the chain state. -/
def headChecks (s : State) (q : Req) : Option Ending :=
  let d := q.d
  let h := q.handle
  let x := s.slot (hSlot h)
  let life := lifeCheck s (usesKeys q)
  if isLaneOp d.opcode then
    firstFail ([useCheck s q.owner h, pairCheck s h, life, laneTransformCheck d x.transform]
      ++ (if d.later then [] else permitChecks s d x))
  else if d.opcode = 0x21 ∨ ((d.opcode = 0x22 ∨ d.opcode = 0x23) ∧ h ≠ noHandle) then
    firstFail [useCheck s q.owner h, pairCheck s h, life, hmacTransformCheck d x.transform]
  else if d.opcode = 0x30 ∨ d.opcode = 0x32 then firstFail [loadCheck s q.owner h, life]
  else if d.opcode = 0x31 then firstFail [if q.entry.isSome then none else eraseCheck s q.owner h, life]
  else if d.opcode = 0x33 then firstFail [useCheck s q.owner h, life]
  else if d.opcode = 0x34 then
    firstFail
      (if isForm d then [ownCheck s q.owner (hSlot h), formAgain s h, life]
      else [useCheck s q.owner h, pairCheck s h, life])
  else if d.opcode = 0x40 then
    if h ≠ noHandle then
      firstFail [useCheck s q.owner h, targetCheck s q.owner d, life, pkeTransformCheck d x.transform]
    else firstFail [targetCheck s q.owner d, life]
  else if d.opcode = 0x60 ∧ d.handle ≠ noHandle then firstFail [useCheck s q.owner h, life]
  else life

/-- Slots a request names, whose CHECK its Check verifies. -/
def namedSlots (q : Req) : List Nat :=
  if readsHandle q.d ∧ q.entry.isNone ∧ q.handle ≠ noHandle then
    hSlot q.handle :: (if hKind q.handle = 1 then [hSlot q.handle ^^^ 1] else [])
      ++ (if q.d.opcode = 0x40 ∧ routineHasTarget q.d.profile then [hSlot q.d.selector] else [])
  else if q.d.opcode = 0x40 ∧ routineHasTarget q.d.profile then [hSlot q.d.selector]
  else []

/-! ## Cold blobs (R228, R230, R235) -/

/-- AES blocks that wrap or unwrap `n` octets under GCM: the blocks of the text and J0 (Table 4-9; log entry 67). -/
def wrapBlocks (n : Nat) : Nat := (n + 15) / 16 + 1

/-- Control blocks of the key-handling units outside the lanes, every one compared (08 R305, R307). -/
def State.countControl (s : State) (n : Nat) : State :=
  { s with tango := { s.tango with comparedBlocks := s.tango.comparedBlocks + BitVec.ofNat 64 n } }

/-- A wrapped blob opened for an owner (R230): the key, its SEAL and its epoch, or the status. The BODY of an HMAC key is the
key and zeros, as for BKIND 0x3 (09 R334). -/
def openBlob (s : State) (o bkind : Nat) (b : Bytes) : Except Ending (KeyCopy × Bool × U32) :=
  if leNat (cut b 0 1) ≠ 1 then .error (ends .keyNotOwned 0x02)
  else
    match gcmOpen (wrapKey s o) (cut b 4 12) (cut b 0 16 ++ leBytes 2 (ownerWord o)) (cut b 16 64) (cut b 80 16) with
    | none => .error (ends .keyNotOwned 0x03)
    | some p =>
      let ep := leNat (cut b 4 4)
      if s.start.bootEpoch.toNat < ep ∨ leNat (cut b 1 1) ≠ bkind then .error (ends .keyNotOwned 0x02)
      else
        let t := leNat (cut b 2 1)
        let k : KeyCopy :=
          if bkind = 3 ∨ tHmac t then
            { slot := none, gen := 0, transform := t, secret := cut p 0 64, salt12 := zeros 12, sci := zeros 8,
              ssci := zeros 4, an := 0 }
          else
            { slot := none, gen := 0, transform := t, secret := cut p 0 32, salt12 := cut p 32 12,
              sci := cut p 44 8, ssci := cut p 52 4, an := 0 }
        .ok (k, (octet b 3).getLsbD 0 && !(tHmac t), BitVec.ofNat 32 ep)

/-- The key of a KEY_LOAD_WRAPPED: from its blob, or from the KEYX of its grant (18 R603). -/
def blobKey (s : State) (q : Req) : Except Ending Transfer :=
  match q.keyx with
  | some x => .ok x
  | none =>
    match openBlob s q.owner (if hKind q.handle = 3 then 3 else 0) q.m.keyblob with
    | .error e => .error e
    | .ok (k, sealing, ep) => .ok { key := k, sealing := sealing, earlier := decide (ep < s.start.bootEpoch) }

/-- A blob made for an owner (R228): 96 octets. -/
def State.wrapBlob (s0 : State) (o : Nat) (k : KeyCopy) (kind3 sealing : Bool) : Bytes × State :=
  let s := s0.countControl (wrapBlocks 64)
  let r := s.wrapNonce
  let head : Bytes := [1, if kind3 then 3 else 0, BitVec.ofNat 8 k.transform, BitVec.ofNat 8 (b2n sealing)] ++ r.1
  let body := if kind3 ∨ tHmac k.transform then cut k.secret 0 64
    else cut k.secret 0 32 ++ cut k.salt12 0 12 ++ cut k.sci 0 8 ++ cut k.ssci 0 4 ++ zeros 8
  let e := gcmSeal (wrapKey s o) r.1 (head ++ leBytes 2 (ownerWord o)) body
  (head ++ e.1 ++ e.2, r.2)

/-- Set of the cold cache that a blob belongs to (R235). -/
def coldSet (s : State) (b : Bytes) : Nat := leNat (cut b 8 8) % (s.keys.coldCacheSlots / 4)

/-- Does an entry match the blob? -/
def ColdEntry.hits (e : ColdEntry) (o : Nat) (b : Bytes) : Bool :=
  e.owner == o && e.lead == cut b 0 16 && e.tag == cut b 80 16

/-- An entry made the most recently used of its set, of four ways. -/
def coldInsert (e : ColdEntry) (l : List ColdEntry) : List ColdEntry :=
  let others := l.filter (fun x => !(x.set == e.set && x.owner == e.owner && x.lead == e.lead && x.tag == e.tag))
  let same := others.filter (fun x => x.set == e.set)
  e :: (same.take 3 ++ others.filter (fun x => x.set != e.set))

/-- The key of a cold blob: from the cold cache, or unwrapped (R235). -/
def State.coldKey (s : State) (o : Nat) (b : Bytes) : Except Ending KeyCopy × State :=
  let cached := decide (4 ≤ s.keys.coldCacheSlots)
  let hit := if cached then s.keys.coldCache.find? (fun e => e.hits o b) else none
  match hit with
  | some e =>
    (.ok e.key, s.onKeys (fun k => { k with coldHits := k.coldHits + 1, coldCache := coldInsert e k.coldCache }))
  | none =>
    match openBlob s o 0 b with
    | .error e => (.error e, (s.countControl (wrapBlocks 64)).onKeys (fun k => { k with coldUnwrapFails := k.coldUnwrapFails + 1 }))
    | .ok (key, _, _) =>
      let e : ColdEntry := { set := coldSet s b, owner := o, lead := cut b 0 16, tag := cut b 80 16, key := key }
      (.ok key, (s.countControl (wrapBlocks 64)).onKeys (fun k =>
        { k with
          coldUnwraps := k.coldUnwraps + 1
          coldCache := if cached then coldInsert e k.coldCache else k.coldCache }))

/-- The key of a cold association: from the KEYX of its grant, the cold cache, or its blob. -/
def State.assocKey (s : State) (q : Req) : Except Ending KeyCopy × State :=
  match q.keyx with
  | some x => (.ok x.key, s)
  | none => s.coldKey q.owner q.m.keyblob

/-- Items 5 and 6 of R237 under a cold association of transform `t`, and R184. -/
def coldPermits (s : State) (d : Desc) (t : Nat) : List (Option Ending) :=
  [ developCheck s d t, if isSealing d.opcode then some (ends .notPermitted 0x05) else none,
    if d.nonceHw ∧ (d.profile = 3 ∨ d.profile = 6) then invalid 0x05 else none ]

/-- The checks of a request under a cold association, once its key is known (R184, R234, R237). -/
def coldChecks (s : State) (d : Desc) (t : Nat) : Option Ending :=
  firstFail ([lifeCheck s true, laneTransformCheck d t] ++ (if d.later then [] else coldPermits s d t))

/-- What a later link's Check still tests once its chain-state item is there: the limit of R169, which is part of item 4
of R237, items 5 and 6, and then R99. -/
def laterChecks (s : State) (q : Req) : Option Ending :=
  let x := s.slot (hSlot q.handle)
  let t := match q.m.cold with
    | some k => k.transform
    | none => x.transform
  firstFail
    ([(itemChain s q).bind (chainLimit t q)]
      ++ (if !(isLaneOp q.d.opcode) then [] else if q.entry.isSome then coldPermits s q.d t else permitChecks s q.d x)
      ++ [chainCheck s q])

/-! ## Load parameters (Table 5-5, R223, R224, R246, R250, R261) -/

/-- A load-parameter block. -/
structure Params where
  soft : U64
  hard : U64
  start : U64
  transform : Nat
  sealing : Bool
  winW : Nat
  winEn : Bool
  winSlot : Nat
  sci : Bytes
  ssci : Bytes
  saltGen : Bool
  deriving DecidableEq, Repr

/-- HARD_LIMIT and SOFT_THRESHOLD with the defaults of R250. -/
def hardOf (h : U64) : U64 := if h = 0 then BitVec.allOnes 64 else h
def softOf (so h : U64) : U64 := if so = 0 then hardOf h - hardOf h / 16 else so

/-- The block read. -/
def readParams (b : Bytes) : Params :=
  let w := leNat (cut b 26 2)
  let hd := BitVec.ofNat 64 (leNat (cut b 8 8))
  { soft := softOf (BitVec.ofNat 64 (leNat (cut b 0 8))) hd, hard := hardOf hd,
    start := BitVec.ofNat 64 (leNat (cut b 16 8)), transform := leNat (cut b 24 1), sealing := (octet b 25).getLsbD 0,
    winW := fld w 0 11, winEn := bit w 15, winSlot := leNat (cut b 28 2), sci := cut b 32 8, ssci := cut b 40 4,
    saltGen := (octet b 44).getLsbD 0 }

/-- The KIND 3 transforms (Table 10-4). -/
def kind3Transform (t : Nat) : Bool := decide (0x41 ≤ t ∧ t ≤ 0x4F) && t != 0x46 && t != 0x47

/-- The parameters of a load of slot `n` of owner `o`: `p.transform` is the blob's for a wrapped load. -/
def paramCheck (s : State) (o n kind : Nat) (pke : Bool) (p : Params) : Option Ending :=
  let x := s.slot n
  let known := if kind = 3 then kind3Transform p.transform
    else if pke then (keyBytes p.transform).isSome && decide (p.transform < 0x20)
    else (keyBytes p.transform).isSome
  let w := s.slot p.winSlot
  let free := w.state = .empty ∨ w.state = .erased ∨ (w.state = .window ∧ w.serves = n)
  firstFail
    [ if known then none else invalid 0x02,
      if 1024 < p.winW then invalid 0x02 else none,
      if 1 ≤ p.start.toNat ∧ p.start ≤ p.hard ∧ p.soft ≤ p.hard ∧ p.start ≤ p.soft then none else invalid 0x02,
      if x.paired ∧ (s.slot (n ^^^ 1)).transform ≠ p.transform then invalid 0x02 else none,
      if p.winEn ∧ !(ownCheck s o p.winSlot = none ∧ free ∧ p.winSlot ≠ n) then invalid 0x05 else none ]

/-! ## State records (R351 to R353) and key records (R377) -/

/-- A state record opened: LENGTH and STATE, or nothing when R353 refuses it. -/
def openRecord (s : State) (o alg : Nat) (slot : Option (Nat × BitVec 12)) (b : Bytes) : Option (Nat × Bytes) :=
  let ok (len : Nat) : Bool := len % hashRate alg == 0 && decide (len < 2 ^ 61)
  if leNat (cut b 1 1) ≠ alg then none
  else
    match slot with
    | none =>
      let len := leNat (cut b 8 16)
      if leNat (cut b 0 1) = 0x11 ∧ leNat (cut b 2 6) = 0 ∧ leNat (cut b 24 8) = 0 ∧ leNat (cut b 232 24) = 0
          ∧ ok len then some (len, cut b 32 200)
      else none
    | some (n, g) =>
      if leNat (cut b 0 1) ≠ 0x12 ∨ leNat (cut b 2 2) ≠ 0 ∨ leNat (cut b 4 4) ≠ s.start.bootEpoch.toNat then none
      else
        match gcmOpen (wrapKey s o) (cut b 4 12)
            (cut b 0 16 ++ leBytes 2 (ownerWord o) ++ leBytes 2 n ++ leBytes 2 g.toNat) (cut b 16 224) (cut b 240 16) with
        | none => none
        | some p => let len := leNat (cut p 0 16)
          if ok len ∧ leNat (cut p 216 8) = 0 then some (len, cut p 16 200) else none

/-- A state record made (R351, R352). -/
def State.makeRecord (s : State) (o : Nat) (slot : Option (Nat × BitVec 12)) (alg len : Nat) (st : Bytes) : Bytes × State :=
  match slot with
  | none =>
    ([0x11, BitVec.ofNat 8 alg] ++ zeros 6 ++ leBytes 16 len ++ zeros 8 ++ cut st 0 200 ++ zeros 24, s)
  | some (n, g) =>
    let r := (s.countControl (wrapBlocks 224)).wrapNonce
    let head : Bytes := [0x12, BitVec.ofNat 8 alg, 0, 0] ++ r.1
    let e := gcmSeal (wrapKey s o) r.1 (head ++ leBytes 2 (ownerWord o) ++ leBytes 2 n ++ leBytes 2 g.toNat)
      (leBytes 16 len ++ cut st 0 200 ++ zeros 8)
    (head ++ e.1 ++ e.2, r.2)

/-- Octets of the key record that a routine's input begins with (R376, R377); 0 where its key is direct. -/
def recordLen (code t : Nat) : Nat :=
  if code = 0x30 ∨ code = 0x31 then 0 else ((importLens t).map Prod.snd).getD 0

/-- A key record judged (R377). -/
def keyRecordCheck (t : Nat) (secret b : Bytes) : Option Ending :=
  if leNat (cut b 0 1) ≠ 0x21 ∨ leNat (cut b 1 1) ≠ t then some (ends .keyNotOwned 0x02)
  else
    match gcmOpen (cut secret 0 32) (cut b 4 12) (cut b 0 16) (cut b 16 (b.length - 32)) (cut b (b.length - 16) 16) with
    | none => some (ends .keyNotOwned 0x03)
    | some _ => none

/-! ## What follows HEAD -/

/-- What a request's Check still needs after HEAD, and its verdict when that has arrived: none while octets are
missing. -/
def itemChecks (s : State) (q : Req) : Option (Option Ending) :=
  let d := q.d
  let need := ivLen d - ivItem d
  if q.readsChain then
    if q.item.length < need then none else some (laterChecks s q)
  else if d.opcode = 0x32 then
    if q.item.length < 48 then none
    else some (paramCheck s q.owner (hSlot q.handle) (hKind q.handle) false (readParams q.item))
  else if d.opcode = 0x30 then
    match blobKey s q with
    | .error e => if q.m.keyblob.length < q.keyblobLen then none else some (some e)
    | .ok x =>
      if q.item.length < 48 then none
      else
        some (paramCheck s q.owner (hSlot q.handle) (hKind q.handle) false
          { readParams q.item with transform := x.key.transform })
  else if (d.opcode = 0x22 ∨ d.opcode = 0x23) ∧ need ≠ 0 then
    if q.item.length < 256 then none
    else
      let sl := if q.handle = noHandle then none else some (hSlot q.handle, hGen q.handle)
      some (if (openRecord s q.owner d.profile sl q.item).isSome then none else invalid 0x08)
  else if d.opcode = 0x40 then
    let t := (s.slot (hSlot q.handle)).transform
    let n := if q.handle = noHandle then 0 else recordLen d.profile t
    if routineHasTarget d.profile ∧ q.item.length < 48 then none
    else if q.m.payload.length < n then none
    else
      some (firstFail
        [ if routineHasTarget d.profile then
            paramCheck s q.owner (hSlot d.selector) 0 true (readParams q.item)
          else none,
          if n = 0 then none
          else keyRecordCheck t (s.slot (hSlot q.handle)).secret (q.m.payload.take n) ])
  else some none

/-- A request that fails a check (R43); a state record refused is counted (Table 9-11). -/
def State.checkFail (s : State) (rid : Nat) (e : Ending) : State :=
  let op := ((s.req rid).map (fun q => q.d.opcode)).getD 0
  let s1 := s.myenoEnd rid e
  if (op = 0x22 ∨ op = 0x23) ∧ e = ends .requestInvalid 0x08 then
    { s1 with digest := { s1.digest with refused := s1.digest.refused + 1 } }
  else s1

/-- A DIR opcode whose checks passed: its STAT beat is issued with OK (R286). -/
def State.dirPass (s : State) (rid : Nat) : State := s.myenoEnd rid (ends .ok 0x00)

/-- Is Check over although octets it would read are missing: the stream has ended short, and the length decides (R92)? -/
def Req.cutShort (q : Req) : Bool := q.m.lastSeen && q.m.totalWrong.isSome

/-- Blocks that the key-handling units unwrap for a verdict of `itemChecks`: a chain-state item, the blob of a load, a keyed
state record. -/
def itemBlocks (q : Req) : Nat :=
  if q.readsChain then wrapBlocks 80
  else if q.d.opcode = 0x30 ∧ q.keyx.isNone then wrapBlocks 64
  else if (q.d.opcode = 0x22 ∨ q.d.opcode = 0x23) ∧ q.handle ≠ noHandle ∧ ivLen q.d ≠ 0 then wrapBlocks 224
  else 0

/-- The verdict of `itemChecks` acted on. -/
def State.checkItems (s0 : State) (rid : Nat) (q : Req) : State :=
  let s := if (itemChecks s0 q).isSome then s0.countControl (itemBlocks q) else s0
  let pass := s.onReq rid (fun r => { r with m := { r.m with checked := true } })
  match itemChecks s q with
  | none => if q.cutShort then pass else s
  | some (some e) => s.checkFail rid e
  | some none => if isDirOp q.d.opcode then pass.dirPass rid else pass

/-- Check goes on as octets arrive: the cold blob, then what follows HEAD (R44, R99). The KEYBLOB of a KEY_LOAD_WRAPPED is
judged as soon as its 96 octets are there. -/
def State.checkOn (s : State) (rid : Nat) : State :=
  match s.req rid with
  | none => s
  | some q =>
    if !q.m.headSeen ∨ q.m.checked ∨ q.m.ending.isSome then s
    else if isLaneOp q.d.opcode ∧ q.entry.isSome ∧ !q.m.coldChecked then
      if q.m.keyblob.length < q.keyblobLen then s
      else
        match s.assocKey q with
        | (.error e, s1) => s1.checkFail rid e
        | (.ok k, s1) =>
          match coldChecks s1 q.d k.transform with
          | some e => s1.checkFail rid e
          | none =>
            let q1 := { q with m := { q.m with cold := some k, coldChecked := true } }
            (s1.putReq rid q1).checkItems rid q1
    else if q.d.opcode = 0x31 ∧ q.entry.isSome ∧ q.m.keyblob.length < q.keyblobLen then s
    else s.checkItems rid q

/-! ## Beats as they arrive -/

/-- A beat whose tag disagrees with its HEAD (R26): the alarm, and the request ends with INTERNAL, DETAIL 0x01. -/
def State.seamIntegrity (s : State) (rid : Nat) (q : Req) : State :=
  (s.myenoEnd rid (ends .internal 0x01)).alarm 0x008 (ownerWord q.owner) rid

/-- Owner that a tag word names (Table 1-2). -/
def tagOwner (t : U64) : Nat := if t.getLsbD 25 then mgr else fld t.toNat 16 9

/-- Is a segment complete in staging (R46): its beat with INSEG 0 has arrived? Segment `k` of the stream that ends has its
end at LAST; any other ends with the payload octet 4,096 × (k + 1), which is known to be followed by payload when more of it
has arrived, or when LAST would have come with it (DEDUCED, log entry 63). -/
def Req.segReady (k : Nat) (q : Req) : Bool :=
  let have_ := q.m.payload.length
  if q.m.lastSeen then decide (k < segsOf have_)
  else
    decide (4096 * (k + 1) < q.d.payload)
      && (decide (4096 * (k + 1) < have_) || (decide (4096 * (k + 1) ≤ have_) && expectItem q.d == 0))

/-- The final segment of the stream (R92). -/
def Req.finalSeg (k : Nat) (q : Req) : Bool := q.m.lastSeen && k + 1 == segsOf q.m.payload.length

/-- Does the segment hold a beat marked POISON (R27)? IV, AAD and EXPECT beats go with the first. -/
def Req.segPoison (k : Nat) (q : Req) : Bool :=
  let data := ((q.m.beats.filter (fun b => b.kind == BeatKind.data.code)).map (fun b => b.data.map (fun _ => b.poison))).flatten
  ((data.drop (4096 * k)).take 4096).contains true
    || q.m.beats.any (fun b => b.poison && b.kind != BeatKind.data.code)

/-- Does any beat that staging holds for the request carry POISON (15 Table 15-2)? -/
def Req.anyPoison (q : Req) : Bool := q.m.beats.any (fun b => b.poison)

/-- A request that finds a POISON beat at its station (R27, 15 Table 15-2). -/
def State.poisonEnd (s : State) (rid : Nat) : State :=
  (s.onReq rid (fun r => { r with cause := 1 })).stopRequest rid (ends .partialEnd 0x01) (ends .partialEnd 0x01)

/-- A first segment that has completed in staging takes its place in the order of R117. -/
def State.stageOn (s : State) (rid : Nat) : State :=
  match s.req rid with
  | none => s
  | some q =>
    if q.m.headSeen ∧ q.m.stagedAt.isNone ∧ q.m.ending.isNone ∧ q.segReady 0 then
      { s.putReq rid { q with m := { q.m with stagedAt := some s.lanes.staged } } with
        lanes := { s.lanes with staged := s.lanes.staged + 1 } }
    else s

/-- Does the request run in segments, on a lane or a digest unit? -/
def Req.segmented (q : Req) : Bool := isLaneOp q.d.opcode || isDigestOp q.d.opcode

/-- An input of the wrong length ends its request, once Check has passed and every segment but the final one, which is not
processed, has been run (R92 to R94); a request that runs in no segments ends before its dispatch. -/
def State.lengthEnd (s : State) (rid : Nat) : State :=
  match s.req rid with
  | none => s
  | some q =>
    match q.m.totalWrong with
    | none => s
    | some w =>
      let due :=
        if q.segmented then
          q.m.lastSeen && q.m.segIssued == q.m.segPassed && decide (segsOf q.m.payload.length ≤ q.m.segIssued + 1)
        else !q.m.dispatched
      if q.m.checked ∧ q.m.ending.isNone ∧ due then s.myenoEnd rid (ends .lengthMismatch w) else s

/-- Is the request in the zeroised, SCRAP or PAVANE machine, where Myeno refuses it before every check (R521, R562,
R566)? -/
def refusedOutright (s : State) : Option Ending :=
  if s.start.alarmPending then some (ends .partialEnd 0x04)
  else if s.lc.state = .scrap ∨ s.lc.state = .unknown then some (ends .notPermitted 0x01)
  else if s.start.state = .pavane then some (ends .notPermitted 0x04)
  else none

/-- HEAD_ARRIVAL (R42): Myeno takes a HEAD beat and begins the checks. -/
def execHeadArrival (rid : Nat) (s : State) : Out :=
  .next <|
    match s.req rid with
    | none => s
    | some q =>
      match q.seam with
      | [] => s
      | b :: rest =>
        if b.kind ≠ BeatKind.head.code ∨ q.m.headSeen then s
        else
          let s1 := (namedSlots q).foldl State.verifySlot s
          let exhausted := (namedSlots q).filter (fun n => decide ((s1.slot n).state = .exhausted))
          let s2 := s1.onReq rid (fun r =>
            { r with
              seam := rest
              m := { r.m with
                headSeen := true, headTag := b.tag, lastSeen := b.tag.getLsbD 53, exhaustedAtCheck := exhausted,
                totalWrong := if b.tag.getLsbD 53 then r.lengthWrong else none } })
          let verdict := match refusedOutright s2 with
            | some e => some e
            | none =>
              if s2.start.state == StartState.resetting then some (ends .partialEnd 0x02)
              else if isLaneOp q.d.opcode ∧ q.entry.isSome then none else headChecks s2 q
          match verdict with
          | some e =>
            let s3 :=
              if e.st == Status.partialEnd then s2.onReq rid (fun r => { r with cause := if e.detail = 4 then 5 else 2 })
              else s2
            s3.checkFail rid e
          | none => (((s2.checkOn rid).stageOn rid).lengthEnd rid).readOutList rid

/-- The beat taken: a KEYBLOB beat to be unwrapped, any other into staging, in the order of R23 (R44, R45). -/
def Myeno.take (b : Beat) (m : Myeno) : Myeno := { m with beats := m.beats ++ [b] }

/-- A beat whose REQ_ID has no HEAD on record is discarded with the Seam-integrity event (R26). -/
def State.strayBeat (s : State) (rid : Nat) (tag : U64) : State := s.alarm 0x008 (ownerWord (tagOwner tag)) rid

/-- INWARD_BEAT_ARRIVAL (R26, R45): the beat with this tag word, of the REQ_ID it carries. A tag that no beat waiting on the
Seam carries, POISON apart, is that of no beat, unless it disagrees with HEAD. -/
def execInwardBeatArrival (tag : U64) (s : State) : Out :=
  let rid := fld tag.toNat 0 16
  .next <|
    match s.req rid with
    | none => s.strayBeat rid tag
    | some q =>
      let kind := fld tag.toNat 48 4
      if !q.m.headSeen then (if kind = BeatKind.head.code then s else s.strayBeat rid tag)
      else
        match q.seam with
        | [] => if r26Fields tag ≠ r26Fields q.m.headTag then s.seamIntegrity rid q else s
        | b :: rest =>
          let pop (t : State) : State := t.onReq rid (fun r => { r with seam := rest })
          if b.kind = BeatKind.head.code ∨ b.kind = BeatKind.cancel.code then s
          else if r26Fields tag ≠ r26Fields q.m.headTag then (pop s).seamIntegrity rid q
          else if tag &&& ~~~(0x0800000000000000#64) ≠ b.tag then s
          else
            let s1 := (pop s).onReq rid (fun r =>
              { r with m := { r.m with
                  lastSeen := r.m.lastSeen || tag.getLsbD 53
                  totalWrong := if tag.getLsbD 53 then r.lengthWrong else r.m.totalWrong } })
            if q.m.ending.isSome then s1
            else if tag.getLsbD 59 then s1.poisonEnd rid
            else
              let s2 := s1.onReq rid (fun r => { r with m := r.m.take b })
              ((s2.checkOn rid).stageOn rid).lengthEnd rid

/-- CANCEL (R41): the CANCEL beat arrives at Myeno. -/
def execCancel (rid : Nat) (s : State) : Out :=
  .next <|
    match s.req rid with
    | none => s
    | some q =>
      match q.seam with
      | [] => s
      | b :: rest =>
        if b.kind ≠ BeatKind.cancel.code ∨ !q.m.headSeen then s
        else
          let st := [Status.ok, .okAbortLate, .partialEnd, .lengthMismatch, .fragmentFault, .accessFault, .requestInvalid,
            .keyStale, .keyAbsent, .keyNotOwned, .nonceExhausted, .authFail, .keyPoisoned, .notPermitted,
            .rngUnavailable, .pkeReject, .aborted, .quiesced, .retryImpossible, .directoryMiss].find?
              (fun x => x.code == leNat (cut b.data 0 1))
          let e := ends (st.getD .internal) (leNat (cut b.data 1 1))
          let s1 := s.onReq rid (fun r =>
            { r with seam := rest, m := { r.m with cancel := some e, lastSeen := true } })
          s1.stopRequest rid e e

end Sys2Proof.Machine
end

