-- ==== Sys2Proof/Machine/Keys.lean ====
section
/-!
DEFINITION. Counters, AN pairs and keys (chapters 5 and 6): the take and its thresholds, rolls, loads coming into force,
erases, exports, the key window, allotment and the cold cache; and the key-slot opcodes, which act at Dispatch (R678).
-/
namespace Sys2Proof.Machine

/-! ## The random number service, as Dispatch meets it (R414, R425 to R434) -/

/-- The refusal of a draw: the start failed, the service stopped, raw-sample mode. -/
def rngRefusal (s : State) : Option Ending :=
  match s.rng.state with
  | .startFailed => some (ends .rngUnavailable 0x01)
  | .stopped => some (ends .rngUnavailable 0x02)
  | .rawSample => some (ends .rngUnavailable 0x03)
  | _ => none

/-- Does a draw wait for the service's start? -/
def rngWaits (s : State) : Bool :=
  match s.rng.state with
  | .settling => true
  | .testing => true
  | .filling => true
  | _ => false

/-- Does a draw taken at Dispatch wait: for the service's start, or for a reseed (R410)? -/
def drawWaits (s : State) : Bool := rngWaits s || reseedDue s

/-- An internal draw of `n` octets, counted (Table 11-6). -/
def State.internalDraw (s : State) (n : Nat) : Bytes × State :=
  let r := s.generate n
  (r.1, { r.2 with rng := { r.2.rng with internalBits := r.2.rng.internalBits + BitVec.ofNat 64 (8 * n) } })

/-! ## Counters (R245 to R251) -/

/-- The next generation (R209). -/
def nextGen (g : BitVec 12) : BitVec 12 := if g = 0xFFF then 1 else g + 1

/-- The ROLL rows of Table 6-4, on the slot that would take TX. -/
def rollCheck (y : Slot) : Option Ending :=
  match y.state with
  | .poisoned => some (ends .keyPoisoned 0x00)
  | .erasing => some (ends .keyAbsent 0x02)
  | .exhausted => some (ends .nonceExhausted 0x02)
  | _ =>
    if y.earlierEpoch then some (ends .keyStale 0x03)
    else if !y.sealing then some (ends .notPermitted 0x05)
    else none

/-- TX moves from slot `n` to its partner. -/
def State.roll (s : State) (n : Nat) : State :=
  (s.onSlot n (fun x => { x with tx := false })).onSlot (n ^^^ 1) (fun x => { x with tx := true })

/-- The automatic roll of R260 after a take from TX slot `n` that left COUNTER at or above the soft threshold. -/
def State.autoRoll (s : State) (n : Nat) : State :=
  let x := s.slot n
  if !(x.paired && x.tx && x.autoRoll) then s
  else
    match rollCheck (s.slot (n ^^^ 1)) with
    | none =>
      ((s.roll n).onKeys (fun k => { k with autoRolls := k.autoRolls + 1 })).raise 0x00E (s.slot (n ^^^ 1)).an (n ^^^ 1)
    | some _ =>
      if (s.slot (n ^^^ 1)).notReadyRaised then s
      else
        ((s.onSlot (n ^^^ 1) (fun y => { y with notReadyRaised := true })).onKeys (fun k =>
          { k with rollsNotReady := k.rollsNotReady + 1 })).raise 0x00F 0 n

/-- A slot after a take: COUNTER advanced, or EXHAUSTED at HARD_LIMIT (R245, R249). -/
def Slot.taken (x : Slot) : Slot :=
  if x.counter = x.hard then { x with state := .exhausted } else { x with counter := x.counter + 1 }

/-- One value taken from slot `n` (R245, R248, R249, R260): the value, SOFT_LIMIT, the state after. -/
def State.takeValue (s : State) (n : Nat) : U64 × Bool × State :=
  let x := s.slot n
  let y := x.taken
  let soft := decide (y.soft ≤ y.counter)
  let s1 := (s.onSlot n (fun _ => { y with softRaised := y.softRaised || soft })).onKeys (fun k =>
    { k with
      valuesTaken := k.valuesTaken + 1
      softCrossings := if soft && !x.softRaised then k.softCrossings + 1 else k.softCrossings
      exhaustions := if x.counter = x.hard then k.exhaustions + 1 else k.exhaustions })
  let s2 := if soft && !x.softRaised then s1.raise 0x00C 0 n else s1
  let s3 := if x.counter = x.hard then s2.raise 0x00D 0 n else s2
  (x.counter, soft, if soft then s3.autoRoll n else s3)

/-! ## Captures and holders (R47, R241) -/

/-- The captured copy of a slot. AN is reported for a KIND 1 handle (Table 2-9). -/
def Slot.copy (n : Nat) (pair : Bool) (x : Slot) : KeyCopy :=
  { slot := some n, gen := x.gen, transform := x.transform, secret := x.secret, salt12 := x.salt12, sci := x.sci,
    ssci := x.ssci, an := if pair then x.an else 0 }

/-- Does a request hold a copy of a key of slot `n`, of whatever generation? -/
def Req.holds (n : Nat) (q : Req) : Bool :=
  match q.m.key with
  | some k => decide (k.slot = some n)
  | none => false

/-- Requests that hold a copy of a key of slot `n`. -/
def holders (s : State) (n : Nat) : List Nat := (s.reqs.filter (fun e => e.2.holds n)).map Prod.fst

/-- Does a public-key context, one being zeroed included, hold a copy of the secret of slot `n` (10 R379, R392)? -/
def jobHolds (s : State) (n : Nat) : Bool :=
  (List.range 4).any (fun e => (s.engineAt e).jobs.any (fun j => decide (j.slot = some n)))

/-- Owners whose open register computation holds a copy of a key of slot `n` (09 R361). -/
def pageHolders (s : State) (n : Nat) : List Nat :=
  (s.digest.pages.filter (fun e =>
    match e.2.key with
    | some k => decide (k.slot = some n)
    | none => false)).map Prod.fst

/-! ## The slot as the key cache holds it (R215 to R217, Table 5-2) -/

/-- Doubling in the field of CMAC (SP 800-38B): the subkey after `b`. -/
def cmacDouble (b : Bytes) : Bytes :=
  let v := beNat b
  let w := 2 * v % 2 ^ 128
  beBytes 16 (if v < 2 ^ 127 then w else (w ^^^ 0x87))

/-- Round key `r` of an AES key. -/
def roundKey (key : Bytes) (r : Nat) : Bytes := octetsOf 16 (Config.aesRoundKey key r)

/-- KEY_SCHED: the ends of the AES key schedule, or the key or secret itself and zeros. -/
def Slot.keySched (x : Slot) : Bytes :=
  let t := x.transform
  let k := x.secret
  if x.kind3 ∨ tChacha t ∨ tHmac t then cut k 0 64
  else if k.length = 32 then roundKey k 0 ++ roundKey k 1 ++ roundKey k 13 ++ roundKey k 14
  else roundKey k 0 ++ roundKey k 10 ++ zeros 32

/-- AUX: the powers of H, the subkeys of CMAC, or zeros. -/
def Slot.aux (x : Slot) : Bytes :=
  let t := x.transform
  let k := x.secret
  if x.kind3 then zeros 64
  else if tGcm t then
    let h1 := aesE k (zeros 16)
    let up (b : Bytes) : Bytes := octetsOf 16 (Config.ghash h1 (zeros 16) b)
    h1 ++ up h1 ++ up (up h1) ++ up (up (up h1))
  else if tCmac t then
    let k1 := cmacDouble (aesE k (zeros 16))
    k1 ++ cmacDouble k1 ++ zeros 32
  else zeros 64

/-- State code of Table 5-3. -/
def SlotState.code : SlotState → Nat
  | .empty => 0
  | .erased => 1
  | .loaded => 2
  | .erasing => 3
  | .poisoned => 4
  | .exhausted => 5
  | .window => 6

/-- OWNER and ATTR as words (Table 5-2). -/
def Slot.ownerField (x : Slot) : Nat :=
  match x.owner with
  | some o => ownerWord o + 2 ^ 15
  | none => 0
def Slot.attr (x : Slot) : Nat := b2n x.sealing + 2 * b2n x.fromBlob + 4 * b2n x.earlierEpoch + 8 * b2n x.kind3

/-- PAIR (Table 6-2); in a window slot, the slot that it serves (R216). -/
def Slot.pairField (x : Slot) : Nat :=
  if x.state = .window then x.serves
  else x.an + 4 * b2n x.paired + 8 * b2n x.tx + 16 * b2n x.autoRoll

/-- Bytes 0x00 to 0xEF of a slot (Table 5-2); a slot without a key holds zeros but for OWNER and GEN_STATE, and a window slot
its bitmap in bytes 0x00 to 0x7F (R216). -/
def Slot.image (x : Slot) : Bytes :=
  let keyed := x.state = .loaded ∨ x.state = .exhausted ∨ x.state = .erasing ∨ x.state = .poisoned
  (if keyed then x.keySched ++ x.aux else leBytes 128 x.bitmap.toNat)
    ++ leBytes 8 x.counter.toNat ++ leBytes 8 x.soft.toNat ++ leBytes 8 x.hard.toNat
    ++ cut x.salt12 0 12 ++ cut x.sci 0 8 ++ cut x.ssci 0 4
    ++ leBytes 2 x.ownerField ++ leBytes 2 (x.gen.toNat + 4096 * x.state.code)
    ++ [BitVec.ofNat 8 x.transform, BitVec.ofNat 8 x.attr] ++ leBytes 2 x.pairField ++ leBytes 4 x.loadEpoch.toNat
    ++ leBytes 2 (x.winW + 2 ^ 15 * b2n x.winEn) ++ leBytes 2 x.winSlot
    ++ leBytes 2 (b2n x.chainOpen + 2 ^ 8 * x.chainOp) ++ zeros 2 ++ leBytes 4 x.nextLink.toNat
    ++ leBytes 8 x.chainTag.toNat ++ leBytes 8 x.replayH.toNat ++ zeros 24

/-- CHECK of a slot (R217): the keyed hash of its fifteen lines and a line that holds its number. -/
def slotCheck (s : State) (n : Nat) : Bytes :=
  octetsOf 16 (Config.slotCheck s.keys.checkKeys ((s.slot n).image ++ leBytes 16 n))

/-- The 256 bytes of a slot, which no port reads. A CHECK that does not verify is some other value (log entry 68). -/
def State.slotBytes (s : State) (n : Nat) : Bytes :=
  let c := slotCheck s n
  (s.slot n).image ++ (if (s.slot n).checkBad then c.map (fun b => ~~~b) else c)

/-! ## Order at Dispatch (R118, R125) -/

/-- Has a request been dispatched, or ended? -/
def Req.settled (q : Req) : Bool := q.m.dispatched || q.ended

/-- Have the earlier requests of the ring that share `q`'s ordering key all been dispatched or ended? -/
def earlierSettled (s : State) (q : Req) : Bool :=
  (before s q).all (fun e => e.settled || decide (e.ord ≠ q.ord))

/-- The key fence of a PKE_RUN on its TARGET (R397). -/
def targetSettled (s : State) (q : Req) : Bool :=
  if q.d.opcode = 0x40 ∧ routineHasTarget q.d.profile then
    (before s q).all (fun e => e.settled || decide (e.ord ≠ .slot (hSlot q.d.selector)))
  else true

/-! ## Loads (R224, R226) -/

/-- The slot after a load: PAIR and OWNER stay, every other field is the load's (R226, R261, R186, R239). The slot of an HMAC
key never carries SEAL (09 R334). -/
def Slot.loaded (l : Load) (x : Slot) : Slot :=
  { Slot.dflt 0 with
    owner := x.owner, an := x.an, paired := x.paired, tx := x.tx, autoRoll := x.autoRoll,
    state := .loaded, gen := nextGen x.gen, secret := l.secret, counter := l.start, soft := l.soft, hard := l.hard,
    salt12 := l.salt12, sci := l.sci, ssci := l.ssci, transform := l.transform, sealing := l.sealing && !(tHmac l.transform),
    fromBlob := l.fromBlob, earlierEpoch := l.earlierEpoch, kind3 := l.kind3, loadEpoch := l.epoch, winW := l.winW,
    winEn := l.winEn, winSlot := if l.winEn then l.winSlot else 0 }

/-- A slot zeroed but for OWNER and GEN_STATE: ERASED at the next generation (R241), at 0x001 when its generation cannot be read
(15 R513). -/
def Slot.wiped (x : Slot) : Slot :=
  { Slot.dflt 0 with owner := x.owner, state := .erased, gen := if x.genLost then 1 else nextGen x.gen }

/-- The window slot of a load: WINDOW with bit 0 set, at the next generation unless it served already (R186, R224). -/
def Slot.asWindow (n : Nat) (x : Slot) : Slot :=
  if x.state = .window then { x with bitmap := 1, serves := n }
  else { Slot.dflt 0 with owner := x.owner, state := .window, gen := nextGen x.gen, bitmap := 1, serves := n }

/-- Blocks computed for the load of a key, each compared (08 R305, R307, R316): H, or the block that K1 and K2 come from
(Table 5-6; log entry 67). -/
def loadBlocks (kind3 : Bool) (t : Nat) : Nat := if kind3 then 0 else b2n (tGcm t || tCmac t)

/-- A load comes into force (R226). -/
def State.applyLoad (s0 : State) (l : Load) : State :=
  let s := s0.countControl (loadBlocks l.kind3 l.transform)
  let n := l.slot
  let old := s.slot n
  let s1 := if old.winEn ∧ !(l.winEn ∧ l.winSlot = old.winSlot) then s.onSlot old.winSlot Slot.wiped else s
  let s2 := s1.onSlot n (Slot.loaded l)
  let s3 := if l.winEn then s2.onSlot l.winSlot (Slot.asWindow n) else s2
  s3.onKeys (fun k =>
    match l.source with
    | 0 => { k with windowLoads := k.windowLoads + 1 }
    | 1 => { k with wrappedLoads := k.wrappedLoads + 1 }
    | 2 => { k with keyGens := k.keyGens + 1 }
    | _ => k)

/-- The tests of a load made once more as it comes into force (R210, R238). -/
def loadRefused (s : State) (o : Nat) (l : Load) : Option Ending :=
  let kind := if l.kind3 then 3 else 0
  let p : Params :=
    { soft := l.soft, hard := l.hard, start := l.start, transform := l.transform, sealing := l.sealing, winW := l.winW,
      winEn := l.winEn, winSlot := l.winSlot, sci := l.sci, ssci := l.ssci, saltGen := false }
  firstFail
    [ loadCheck s o (BitVec.ofNat 32 (l.slot + l.gen.toNat * 2 ^ 16)),
      paramCheck s o l.slot kind (l.source == 3) p ]

/-- A load from parameters; the key, SALT12 and provenance are added by each path. -/
def Params.load (p : Params) (h : BitVec 32) (source req page : Nat) (epoch : U32) : Load :=
  { slot := hSlot h, gen := hGen h, source := source, req := req, page := page, secret := [], salt12 := zeros 12,
    sci := p.sci, ssci := p.ssci, transform := p.transform, sealing := p.sealing, fromBlob := false,
    earlierEpoch := false, kind3 := hKind h == 3, epoch := epoch, soft := p.soft, hard := p.hard, start := p.start,
    winW := p.winW, winEn := p.winEn, winSlot := p.winSlot, tries := 0 }

/-- Octets KEY_GEN draws: the key of Table 4-2, or the secret of Table 10-4. -/
def genLen (t : Nat) : Nat :=
  match t with
  | 0x42 => 48
  | 0x4C => 64
  | 0x4D => 64
  | _ => if 0x40 < t then 32 else (keyBytes t).getD 32

/-! ## The key window (R220 to R222) -/

/-- A key window by owner. -/
def State.kw (s : State) (o : Nat) : KeyWindow := Tab.get KeyWindow.dflt s.keys.windows o

/-- A change of a key window. -/
def State.onKw (s : State) (o : Nat) (f : KeyWindow → KeyWindow) : State :=
  s.onKeys (fun k => { k with windows := Tab.upd KeyWindow.dflt k.windows o f })

/-- Does Myeno accept an access to the key window of `o` (R221)? -/
def kwPasidOk (s : State) (b : Bus) (o : Nat) : Bool :=
  if o = mgr then isManager s.keys.mgrPasid b
  else
    match Tab.get (fun _ => none) s.keys.pasids o, b.pasid with
    | some p, some c => p == c
    | _, _ => false

/-- An access to a key window: the port first, then Myeno's own test with its alarm (R221, R653). -/
def State.kwAccess (s : State) (b : Bus) (o : Nat) : Bool × State :=
  match s.htAccess b with
  | (false, s1) => (false, s1)
  | (true, s1) =>
    if mgr < o then (false, s1)
    else if kwPasidOk s1 b o then (true, s1)
    else
      (false,
        (s1.onKeys (fun k => { k with kwPasidDrops := k.kwPasidDrops + 1 })).alarm 0x00A (ownerWord o) (pasidInfo b))

/-- The staged secret and salt zeroed (R222). -/
def KeyWindow.clear (w : KeyWindow) : KeyWindow := { w with secret := [], salt := [] }

/-- KW_COMMIT 2 (Table 5-4): every staged value back at its reset value; what the last commit reported stays. -/
def KeyWindow.clearStaged (w : KeyWindow) : KeyWindow :=
  { KeyWindow.dflt 0 with busy := w.busy, status := w.status, detail := w.detail, newHandle := w.newHandle }

/-- A commit ends: its status, the secrets zeroed, KW_BUSY clear. -/
def KeyWindow.done (e : Ending) (h : BitVec 32) (w : KeyWindow) : KeyWindow :=
  { w.clear with busy := false, status := e.st.code, detail := e.detail, newHandle := h }

/-- The parameters staged in a window. -/
def KeyWindow.params (w : KeyWindow) : Params :=
  { soft := softOf w.soft w.hard, hard := hardOf w.hard, start := w.start, transform := w.transform, sealing := w.sealing,
    winW := w.winW, winEn := w.winEn, winSlot := w.winSlot, sci := leBytes 8 w.sci.toNat, ssci := leBytes 4 w.ssci.toNat,
    saltGen := false }

/-- The octets staged in KW_SECRET and KW_SALT. -/
def KeyWindow.secretBytes (w : KeyWindow) : Bytes :=
  ((List.range 8).map (fun i => leBytes 8 (Tab.get (fun _ => 0) w.secret i).toNat)).flatten
def KeyWindow.saltBytes (w : KeyWindow) : Bytes :=
  (((List.range 2).map (fun i => leBytes 8 (Tab.get (fun _ => 0) w.salt i).toNat)).flatten).take 12

/-- The secret of a slot out of 64 octets: the key octets of the transform, or the secret of Table 10-4; the octets after it are
unused. -/
def secretOf (t : Nat) (b : Bytes) : Bytes := cut b 0 (genLen t)

/-- The secret that KEY_GEN makes of its draw: d by the candidate test for a P-256 or P-384 key (10 R375), else the draw. -/
def genSecret (t : Nat) (drawn : Bytes) : Bytes :=
  match t with
  | 0x41 => p256.candidate drawn
  | 0x42 => p384.candidate drawn
  | _ => drawn

/-- KW_COMMIT_LOAD (R222). -/
def execKwCommitLoad (b : Bus) (owner : Nat) (s : State) : Out :=
  .next <|
    match s.kwAccess b owner with
    | (false, s1) => s1
    | (true, s1) =>
      let w := s1.kw owner
      if w.busy then s1
      else
        let h := w.handle
        let p := w.params
        let s2 := s1.verifySlot (hSlot h)
        let bad := firstFail
          [ refusedOutright s2,
            if hKind h = 0 ∨ hKind h = 3 then none else invalid 0x05,
            loadCheck s2 owner h, lifeCheck s2 true,
            paramCheck s2 owner (hSlot h) (hKind h) false p ]
        match bad with
        | some e => s2.onKw owner (KeyWindow.done e 0)
        | none =>
          let l : Load :=
            { p.load h 0 0 owner s2.start.bootEpoch with
              secret := secretOf p.transform w.secretBytes, salt12 := w.saltBytes }
          (s2.onKw owner (fun x => { x with busy := true })).onKeys (fun k => { k with loads := k.loads ++ [l] })

/-- KW_COMMIT_CLEAR (R222, Table 5-4). -/
def execKwCommitClear (b : Bus) (owner : Nat) (s : State) : Out :=
  .next <|
    match s.kwAccess b owner with
    | (false, s1) => s1
    | (true, s1) => if (s1.kw owner).busy then s1 else s1.onKw owner KeyWindow.clearStaged

/-- LOAD_IN_FORCE (R226): the oldest load waiting for the slot comes into force, or is refused. -/
def execLoadInForce (slot : Nat) (s : State) : Out :=
  unit slot 65536 <|
    match s.keys.loads.find? (fun l => l.slot == slot) with
    | none => s
    | some l =>
      let s1 := s.onKeys (fun k => { k with loads := k.loads.erase l })
      let o := if l.source = 0 then l.page else ((s.req l.req).map Req.owner).getD mgr
      match loadRefused s1 o l with
      | some e => if l.source = 0 then s1.onKw o (KeyWindow.done e 0) else s1.myenoEnd l.req e
      | none =>
        let s2 := s1.applyLoad l
        if l.source = 0 then
          s2.onKw o (KeyWindow.done (ends .ok 0)
            (BitVec.ofNat 32 (slot + (s2.slot slot).gen.toNat * 2 ^ 16 + (if l.kind3 then 3 else 0) * 2 ^ 28)))
        else s2.myenoEnd l.req (ends .ok 0)

/-! ## Erases (R241 to R243, R236) -/

/-- PAIR cleared in a slot (R262). -/
def Slot.unpair (x : Slot) : Slot := { x with an := 0, paired := false, tx := false, autoRoll := false }

/-- PAIR cleared in both slots of a pair. -/
def State.dissolve (s : State) (n : Nat) : State :=
  if (s.slot n).paired then (s.onSlot n Slot.unpair).onSlot (n ^^^ 1) Slot.unpair else s

/-- An erase acts: ERASING, the pair dissolved, the chain closed. -/
def State.beginErase (s : State) (n rid : Nat) : State :=
  let s1 := (s.dissolve n).onSlot n (fun x => { x.closeChain with state := .erasing })
  s1.onKeys (fun k => { k with erases := k.erases ++ [{ slot := n, req := rid, limitHit := false }] })

/-- ERASE_COMPLETE (R241): no copy is held any more; the slot, which is ERASING, and its window slot are zeroed. -/
def execEraseComplete (slot : Nat) (s : State) : Out :=
  unit slot 65536 <|
    match s.keys.erases.find? (fun e => e.slot == slot) with
    | none => s
    | some e =>
      if (s.slot slot).state = .erasing ∧ (holders s slot).isEmpty ∧ (pageHolders s slot).isEmpty ∧ !(jobHolds s slot) then
        let x := s.slot slot
        let s1 := if x.winEn then s.onSlot x.winSlot Slot.wiped else s
        let s2 := (s1.onSlot slot Slot.wiped).onKeys (fun k =>
          { k with erases := k.erases.erase e, erasesDone := k.erasesDone + 1 })
        s2.myenoEnd e.req (ends .ok 0)
      else s

/-- ERASE_LIMIT_EXPIRY (R242): every holder stops at the end of its current segment; the erase's record waits for
theirs. -/
def execEraseLimitExpiry (slot : Nat) (s : State) : Out :=
  unit slot 65536 <|
    match s.keys.erases.find? (fun e => e.slot == slot) with
    | none => s
    | some e =>
      if e.limitHit then s
      else
        let hs := holders s slot
        let s1 := s.onKeys (fun k =>
          { k with
            erases := k.erases.map (fun x => if x = e then { x with limitHit := true } else x)
            eraseLimitHits := k.eraseLimitHits + 1 })
        let s2 := hs.foldl (fun t i =>
          (t.onReq i (fun q => { q with cause := 6 })).stopRequest i (ends .partialEnd 4) (ends .partialEnd 4)) s1
        let s3 := (pageHolders s2 slot).foldl (fun t o =>
          { t with
            digest := { t.digest with
              pages := Tab.upd DigestPage.dflt t.digest.pages o (fun p =>
                { p.abandon with error := 8, kstatus := Status.partialEnd.code, kdetail := 4 }) } }) s2
        s3.onReq e.req (fun q => { q with waitRecords := hs })

/-! ## Opcodes that act at Dispatch (R678) -/

/-- Can a key-slot opcode act: every check passed, its octets arrived, its key fence clear (R125)? -/
def mayAct (s : State) (q : Req) : Bool :=
  isKeyOp q.d.opcode && q.m.headSeen && q.m.checked && !q.m.dispatched && !q.ended && q.m.lastSeen
    && (if q.d.opcode = 0x33 then (q.cls == .unordered || q.cls == .reserved || earlierSettled s q)
        else earlierSettled s q)

/-- The instant of acting recorded. -/
def State.acted (s : State) (rid : Nat) : State :=
  s.onReq rid (fun q => { q with m := { q.m with dispatched := true, posture := s.tango.posture.code } })

/-- The FORM rows of Table 6-4. -/
def formCheck (s : State) (o n : Nat) (w : Nat) : Option Ending :=
  let x := s.slot n
  let y := s.slot (n ^^^ 1)
  firstFail
    [ if x.paired then invalid 0x02 else none,
      ownCheck s o (n ^^^ 1),
      if y.state = .loaded ∨ y.state = .exhausted then none else some (ends .keyAbsent 0x03),
      if y.transform ≠ x.transform ∨ x.kind3 ∨ y.kind3 ∨ x.state = .window ∨ y.state = .window then invalid 0x02 else none,
      if fld w 2 2 = fld w 4 2 then invalid 0x02 else none ]

/-- The slots of a pair as a FORM leaves them (R254). -/
def State.form (s : State) (n w : Nat) : State :=
  let set (m : Nat) (x : Slot) : Slot :=
    { x with an := if m % 2 = 0 then fld w 2 2 else fld w 4 2, paired := true, tx := m == n, autoRoll := bit w 6 }
  (s.onSlot n (set n)).onSlot (n ^^^ 1) (set (n ^^^ 1))

/-- The pair slot that holds TX, of the pair that `n` belongs to. -/
def txSlot (s : State) (n : Nat) : Nat := if (s.slot n).tx then n else n ^^^ 1

/-- The step 2 tests that an ASSOC_ROLL repeats as it acts (R238, R257): FORM treats the named slot as KIND 0 would. -/
def assocAgain (s : State) (q : Req) : Option Ending :=
  if isForm q.d then formAgain s q.handle else firstFail [useAgain s q.handle, pairCheck s q.handle]

/-- An ASSOC_ROLL acts (R255): refused, or done with the AN of the TX slot after it. -/
def State.assocAct (s : State) (rid : Nat) (q : Req) : State :=
  let n := hSlot q.handle
  let w := q.d.inAddr.toNat
  let finish (t : State) (an : Nat) : State :=
    (t.acted rid).onReq rid (fun r =>
      { r with m := { r.m with
          key := some { slot := none, gen := 0, transform := 0, secret := [], salt12 := [], sci := [], ssci := [], an := an } } })
  match assocAgain s q with
  | some e => s.myenoEnd rid e
  | none =>
    match fld w 0 2 with
    | 1 =>
      match formCheck s q.owner n w with
      | some e => s.myenoEnd rid e
      | none => let s1 := s.form n w
        (finish s1 (s1.slot n).an).myenoEnd rid (ends .ok 0)
    | 2 => (finish (s.dissolve n) 0).myenoEnd rid (ends .ok 0)
    | _ =>
      let t := txSlot s n
      match rollCheck (s.slot (t ^^^ 1)) with
      | some e => s.myenoEnd rid e
      | none =>
        let s1 := (s.roll t).onKeys (fun k => { k with manualRolls := k.manualRolls + 1 })
        (finish s1 (s.slot (t ^^^ 1)).an).myenoEnd rid (ends .ok 0)

/-- A load opcode acts: KEY_LOAD_WRAPPED from its blob, KEY_GEN from a draw (R225). -/
def State.loadAct (s : State) (rid : Nat) (q : Req) : State :=
  let h := q.handle
  let kind3 := hKind h == 3
  let p := readParams q.item
  let start (t : State) (l : Load) : State := (t.acted rid).onKeys (fun k => { k with loads := k.loads ++ [l] })
  match loadAgain s h with
  | some e => s.myenoEnd rid e
  | none =>
    if q.d.opcode = 0x30 then
      match blobKey s q with
      | .error e => s.myenoEnd rid e
      | .ok x =>
        let k := x.key
        let ep := if q.keyx.isSome then s.start.bootEpoch else BitVec.ofNat 32 (leNat (cut q.m.keyblob 4 4))
        start s
          { { p with transform := k.transform, sci := k.sci, ssci := k.ssci }.load h 1 rid 0 ep with
            secret := secretOf k.transform k.secret, salt12 := k.salt12
            sealing := p.sealing && x.sealing && !(tCounter k.transform)
            fromBlob := true, earlierEpoch := x.earlier }
    else
      match rngRefusal s with
      | some e => s.myenoEnd rid e
      | none =>
        if drawWaits s then s
        else
          let r := s.internalDraw (genLen p.transform)
          let r2 := if p.saltGen ∧ !kind3 then r.2.internalDraw 12 else (zeros 12, r.2)
          start r2.2 { p.load h 2 rid 0 s.start.bootEpoch with secret := genSecret p.transform r.1, salt12 := r2.1 }

/-- A KEY_ERASE acts (R241, R243, R236). -/
def State.eraseAct (s : State) (rid : Nat) (q : Req) : State :=
  if q.entry.isSome then
    let b := q.m.keyblob
    let s1 := s.onKeys (fun k => { k with coldCache := k.coldCache.filter (fun e => !(e.hits q.owner b)) })
    (s1.acted rid).myenoEnd rid (ends .ok 0)
  else
    match eraseAgain s q.handle with
    | some e => s.myenoEnd rid e
    | none => (s.acted rid).beginErase (hSlot q.handle) rid

/-- A KEY_EXPORT_WRAPPED acts (R233): the blob is made from the capture, and goes out. -/
def State.exportAct (s : State) (rid : Nat) (q : Req) : State :=
  let n := hSlot q.handle
  match useAgain s q.handle with
  | some e => s.myenoEnd rid e
  | none =>
    let x := s.slot n
    let r := s.wrapBlob q.owner (x.copy n false) x.kind3 (x.sealing && !(tCounter x.transform))
    let s1 := (r.2.acted rid).onReq rid (Req.putOut r.1)
    (s1.onKeys (fun k => { k with exports := k.exports + 1 })).myenoEnd rid (ends .ok 0)

/-- A key-slot opcode acts, when it can. -/
def State.keyAct (s0 : State) (rid : Nat) : State :=
  match s0.req rid with
  | none => s0
  | some q =>
    if !(mayAct s0 q) then s0
    else
      let s := (namedSlots q).foldl State.verifySlot s0
      if ((s.req rid).map Req.ended).getD true then s
      else
        match q.d.opcode with
        | 0x31 => s.eraseAct rid q
        | 0x33 => s.exportAct rid q
        | 0x34 => s.assocAct rid q
        | _ => s.loadAct rid q

/-- `keyAct` for a request of opcode `op` that meets `p`. -/
def State.keyOp (s : State) (rid op : Nat) (p : Req → Bool) : State :=
  match s.req rid with
  | none => s
  | some q => if q.d.opcode = op ∧ p q then s.keyAct rid else s

/-- KEY_LOAD_WRAPPED (R226, R230). -/
def execKeyLoadWrapped (rid : Nat) (s : State) : Out := .next (s.keyOp rid 0x30 (fun _ => true))

/-- KEY_ERASE (R241). -/
def execKeyErase (rid : Nat) (s : State) : Out := .next (s.keyOp rid 0x31 (fun _ => true))

/-- KEY_GEN (R225). -/
def execKeyGen (rid : Nat) (s : State) : Out := .next (s.keyOp rid 0x32 (fun _ => true))

/-- KEY_EXPORT_WRAPPED (R233). -/
def execKeyExportWrapped (rid : Nat) (s : State) : Out := .next (s.keyOp rid 0x33 (fun _ => true))

/-- ASSOC_ROLL with ACTION ROLL (R255). -/
def execAssocRollRoll (rid : Nat) (s : State) : Out :=
  .next (s.keyOp rid 0x34 (fun q => fld q.d.inAddr.toNat 0 2 == 0))

/-- ASSOC_ROLL with ACTION FORM (R255). -/
def execAssocRollForm (rid : Nat) (s : State) : Out :=
  .next (s.keyOp rid 0x34 (fun q => fld q.d.inAddr.toNat 0 2 == 1))

/-- ASSOC_ROLL with ACTION DISSOLVE (R262). -/
def execAssocRollDissolve (rid : Nat) (s : State) : Out :=
  .next (s.keyOp rid 0x34 (fun q => fld q.d.inAddr.toNat 0 2 == 2))

/-! ## Allotment (R212, R235) -/

/-- ALLOT_STATUS of a commit. -/
def allotCheck (s : State) : AllotStatus :=
  let b := s.keys.allotBase.toNat
  let c := s.keys.allotCount.toNat
  let slots := s.keys.slots.filter (fun e => decide (b ≤ e.1 ∧ e.1 < b + c))
  if c = 0 ∨ 65536 < b + c then .range
  else if 65536 - s.keys.coldCacheSlots < b + c then .coldRange
  else if slots.any (fun e => e.2.state != .empty && e.2.state != .erased) then .notEmpty
  else .done

/-- ALLOT_COMMIT (R212). -/
def execAllotCommit (s : State) : Out :=
  .next <|
    let st := allotCheck s
    let s1 := s.onKeys (fun k => { k with allotStatus := st })
    if st = .done then
      let o := ownerOf s.keys.allotOwner.toNat
      let b := s.keys.allotBase.toNat
      (List.range s.keys.allotCount.toNat).foldl (fun t i => t.onSlot (b + i) (fun _ => { Slot.dflt 0 with owner := o })) s1
    else s1

/-- COLD_CACHE_SLOTS (R235, R236): 0, or a power of two up to 8,192, while no slot of either range is allotted; the
whole cache is zeroed. -/
def execColdCacheSlots (v : U32) (s : State) : Out :=
  .next <|
    let n := v.toNat
    let legal := n == 0 || [1, 2, 4, 8, 16, 32, 64, 128, 256, 512, 1024, 2048, 4096, 8192].contains n
    let top := 65536 - max n s.keys.coldCacheSlots
    if legal && !(s.keys.slots.any (fun e => decide (top ≤ e.1) && e.2.owner.isSome)) then
      s.onKeys (fun k => { k with coldCacheSlots := n, coldCache := [] })
    else s

end Sys2Proof.Machine
end

