-- ==== Sys2Proof/Machine/Seal.lean ====
section
/-!
DEFINITION. The certified configuration record and the seal (00 R5 to R7).
-/
namespace Sys2Proof.Machine

/-- SHA-384 of the measured image followed by the record (R5). -/
def sealDigestOf (image record : Bytes) : Bytes := (((HashWork.start 2).absorb image).absorb record).finish 48

/-- SEAL_STATE (Table 0-2). -/
def sealStateOf (s : State) (d : Bytes) : SealState :=
  if s.lc.state ≠ .mission then .notApplicable
  else if d = s.ident.sealReference then .certified
  else .changed

/-- The computation of the seal ends: digest, then state, then the event when a field of the record has changed (R7); with
no image measured yet, digest and state stay (Table 0-2; log entry 23). Changes of the record made before the computation ends
share it: one digest, one state and one event (DESIGN CHOICE, log entry 94). -/
def State.sealDone (s : State) : State :=
  let d := sealDigestOf s.ident.fwImage s.ident.sealRecord
  let s1 := { s with ident := { s.ident with recomputing := false, changed := false } }
  let s2 :=
    if s.ident.measured then
      { s1 with
        ident := { s1.ident with sealDigest := d, sealState := sealStateOf s d } }
    else s1
  if s.ident.changed then s2.raise 0x00B 0 (leNat (cut s.ident.sealRecord 0 4)) else s2

/-- SEAL_DIGEST_DONE (R7). -/
def execSealDigestDone (s : State) : Out := .next (if s.ident.recomputing then s.sealDone else s)

end Sys2Proof.Machine
end

