-- ==== Sys2Proof/Machine/Lanes.lean ====
section
/-!
DEFINITION. Cipher lanes (chapter 4): which lanes are available, the choice of a lane, replay windows, the dispatch of a
lane request, turns, the segment each opcode computes, and the close of a request.
-/
namespace Sys2Proof.Machine

/-! ## Availability (R161, R194) -/

/-- Is a lane available to Dispatch (R161)? -/
def laneAvail (s : State) (n : Nat) : Bool :=
  s.lanes.enable.getLsbD n && s.lanes.powered.getLsbD n
    && (match (s.lane n).state with
        | .idle => true
        | .active => true
        | _ => false)

/-- UNAVAILABLE_CAUSE of a lane from its enables (Table 4-15). -/
def laneCause (s : State) (n : Nat) : Nat :=
  if !(s.lanes.enable.getLsbD n) then 1 else if !(s.lanes.powered.getLsbD n) then 2 else 0

/-- A lane brought into line with LANE_ENABLE and the posture (R161). -/
def State.laneSettle (s : State) (n : Nat) : State :=
  let c := laneCause s n
  s.onLane n (fun l =>
    if l.cause = 3 then l
    else if c = 0 then
      { l with cause := 0, state := if l.ctxs.isEmpty then .idle else .active }
    else { l with cause := c, state := if l.ctxs.isEmpty then .off else .draining })

/-- Every lane brought into line. -/
def State.lanesSettle (s : State) : State := (List.range 16).foldl State.laneSettle s

/-- Segments a request in a context has still to run (R194). -/
def Req.remaining (q : Req) : Nat := q.segTotal - q.m.segIssued

/-- REMAINING_SEGMENTS of a lane (Table 4-15). -/
def laneRemaining (s : State) (n : Nat) : Nat :=
  ((s.lane n).ctxs.map (fun c => ((s.req c.req).map Req.remaining).getD 0)).sum

/-- The order in which the pointer scans the lanes (R194). -/
def laneOrder (i : Nat) : Nat := (i + 4) % 16

/-- Has a lane a draw left in its reservoir (Table 11-1)? A request whose lane has none waits (log entry 66). -/
def laneDraw (s : State) (n : Nat) : Bool := decide (4 ≤ (Tab.get (fun _ => []) s.rng.reservoirs n).length)

/-- The lane Dispatch chooses (R194): fewest remaining segments, the first at or after the pointer among equals. -/
def chooseLane (s : State) (inverse : Bool) (excluded : List Nat) : Option Nat :=
  let cands := ((List.range 16).map (fun i => laneOrder (s.lanes.pointer + i))).filter (fun n =>
    laneAvail s n && (!inverse || decide (n < 4)) && decide ((s.lane n).ctxs.length < 8) && !(excluded.contains n))
  cands.foldl (fun best n =>
    match best with
    | none => some n
    | some b => if laneRemaining s n < laneRemaining s b then some n else best) none

/-- A request put into a context of a lane. On an idle lane the context is loaded with its first block (R196). -/
def State.enterLane (s : State) (n rid : Nat) (seq_ : Bool) : State :=
  s.onLane n (fun l =>
    { l with
      ctxs := l.ctxs ++ [{ req := rid, hadTurn := false, sequential := seq_ }]
      current := if l.ctxs.isEmpty then some rid else l.current
      state := match l.state with
        | .idle => .active
        | x => x })

/-! ## Replay windows (R185 to R188, R240) -/

/-- Bit of the bitmap for a packet number. -/
def bitAt (m : BitVec 1024) (p : Nat) : Bool := m.getLsbD (p % 1024)

/-- replay_test of R187: none to pass, else the DETAIL. -/
def replayTest (h w : Nat) (m : BitVec 1024) (p : Nat) : Option Nat :=
  if h < p then none
  else if w ≤ h - p then some 4
  else if bitAt m p then some 3
  else none

/-- The bitmap after replay_commit of R187 passes. -/
def replayMap (h : Nat) (m : BitVec 1024) (p : Nat) : BitVec 1024 :=
  let cleared :=
    if h < p then
      (List.range (min (p - 1) (h + 1024) - h)).foldl (fun a i => a &&& ~~~(BitVec.twoPow 1024 ((h + 1 + i) % 1024))) m
    else m
  cleared ||| BitVec.twoPow 1024 (p % 1024)

/-- The packet number of an XPN frame (R185): `low` are the received 32 bits. -/
def recoverPn (h w : Nat) (winEn : Bool) (low : Nat) : Nat :=
  let b := h + 1 - (if winEn then w else 2 ^ 30)
  let p := b / 2 ^ 32 * 2 ^ 32 + low
  if b ≤ p then p else p + 2 ^ 32

/-- Is the request an opening whose packet number Myeno reads from the frame (Table 4-6)? -/
def readsPn (d : Desc) : Bool :=
  (d.opcode == 0x11 || d.opcode == 0x19) && d.nonceHw && [2, 3, 4, 5].contains d.profile

/-- The packet number of an opening (Table 4-6). -/
def framePn (d : Desc) (x : Slot) (aad : Bytes) : Nat :=
  match d.profile with
  | 2 => beNat (cut aad 16 4)
  | 3 => recoverPn x.replayH.toNat x.winW x.winEn (beNat (cut aad 16 4))
  | _ => if d.aadLen = 12 then beNat (cut aad 4 8) else beNat (cut aad 4 4)

/-- The window bitmap of a slot. -/
def windowOf (s : State) (x : Slot) : BitVec 1024 := (s.slot x.winSlot).bitmap

/-- A failed replay test counted (Table 4-15). -/
def State.countReplay (s : State) (detail : Nat) (lost : Bool) : State :=
  { s with
    lanes := { s.lanes with
      replayDuplicate := if detail = 3 then s.lanes.replayDuplicate + 1 else s.lanes.replayDuplicate
      replayOld := if detail = 4 then s.lanes.replayOld + 1 else s.lanes.replayOld
      replayCommitLost := if lost then s.lanes.replayCommitLost + 1 else s.lanes.replayCommitLost } }

/-- The commit of a request whose tag passed (R185, R187, R240): a DETAIL when it fails. The read of the window slot verifies
its CHECK (R217); a commit whose window cannot be read fails as one whose window no longer exists (DESIGN CHOICE, log entry
70). -/
def State.replayCommit (s0 : State) (q : Req) : Option Nat × State :=
  match q.m.key with
  | none => (none, s0)
  | some k =>
    match k.slot with
    | none => (none, s0)
    | some n =>
      let p := q.m.nonceUsed.toNat
      let s := if (s0.slot n).winEn ∧ q.m.commits then s0.verifySlot n else s0
      let x := s.slot n
      if !q.m.commits then (none, s)
      else if x.gen ≠ k.gen ∨ (x.winEn ∧ x.state = .poisoned ∧ (s0.slot n).state ≠ .poisoned) then (some 4, s)
      else if !x.winEn then
        (none, if x.replayH.toNat < p then s.onSlot n (fun y => { y with replayH := BitVec.ofNat 64 p }) else s)
      else
        let m := windowOf s x
        match replayTest x.replayH.toNat x.winW m p with
        | some dt => (some dt, s)
        | none =>
          let s1 := s.onSlot x.winSlot (fun y => { y with bitmap := replayMap x.replayH.toNat m p })
          (none, s1.onSlot n (fun y => if y.replayH.toNat < p then { y with replayH := BitVec.ofNat 64 p } else y))

/-! ## Dispatch of a lane request (R46, R47, R118, R191, R238, R245 to R251, R256, R257) -/

/-- The slot whose key a request uses (R256). -/
def keySlot (s : State) (q : Req) : Except Ending Nat :=
  let n := hSlot q.handle
  if hKind q.handle ≠ 1 then .ok n
  else if q.d.later then
    .ok (match itemChain s q with
      | some c => c.slot
      | none => n)
  else if isOpening q.d.opcode ∧ (q.d.profile = 2 ∨ q.d.profile = 3) then
    let an := (octet q.m.aad 14).toNat % 4
    if (s.slot n).an = an then .ok n
    else if (s.slot (n ^^^ 1)).an = an then .ok (n ^^^ 1)
    else .error (ends .keyAbsent 0x03)
  else .ok (txSlot s n)

/-- Is the SecTAG of a MAC request too short for the SCI it announces (R677)? -/
def sciShort (q : Req) : Bool :=
  (q.d.opcode == 0x18 || q.d.opcode == 0x19) && (q.d.profile == 2 || q.d.profile == 3)
    && (octet q.m.aad 14).getLsbD 5 && decide (q.d.aadLen < 28)

/-- The tests that Dispatch repeats on the named slot (R238, R257), and R677: those before a key is chosen. -/
def namedAgain (s : State) (q : Req) : Option Ending :=
  firstFail [useAgain s q.handle, pairCheck s q.handle, if sciShort q then badLength 0x07 else none]

/-- The tests made at Dispatch once the packet number can be read, on a request whose key is slot `n` (R187, R247, R251). -/
def valueChecks (s : State) (q : Req) (n : Nat) : Option Ending :=
  let x := s.slot n
  let pn := framePn q.d x q.m.aad
  let takes := takesValue q.d x.transform
  let wire := q.d.profile == 2 || ((q.d.profile == 4 || q.d.profile == 5) && q.d.aadLen == 8)
  firstFail
    [ if readsPn q.d ∧ x.winEn then
        (replayTest x.replayH.toNat x.winW (windowOf s x) pn).map (fun dt => ends .authFail dt)
      else none,
      if takes ∧ x.state = .exhausted then
        some (ends .nonceExhausted (if q.m.exhaustedAtCheck.contains n then 0x02 else 0x01))
      else none,
      if takes ∧ wire ∧ 0xFFFFFFFF < x.counter.toNat then some (ends .nonceExhausted 0x01) else none ]

/-- The packet number of an opening read at Dispatch, which NONCE_USED carries from then on (R90). -/
def State.readPn (s : State) (rid : Nat) (q : Req) (x : Slot) : State :=
  if readsPn q.d then
    s.onReq rid (fun r => { r with m := { r.m with nonceUsed := BitVec.ofNat 64 (framePn q.d x q.m.aad) } })
  else s

/-- A refusal at Dispatch under R187, R247 or R251, with the counters it moves. -/
def State.dispatchRefuse (s : State) (rid : Nat) (q : Req) (n : Nat) (e : Ending) : State :=
  let s1 := if e.st = .authFail then s.countReplay e.detail false else s
  let s2 :=
    if e = ends .nonceExhausted 0x01 ∧ (s.slot n).state ≠ .exhausted then
      s1.onKeys (fun k => { k with wireLimitRefusals := k.wireLimitRefusals + 1 })
    else s1
  (s2.readPn rid q (s.slot n)).myenoEnd rid e

/-- A request that waits for a lane or a reservation, counted once (DISPATCH_WAITS). -/
def State.countWait (s : State) (rid : Nat) (q : Req) : State :=
  if q.m.waitCounted then s
  else
    let s1 := s.onReq rid (fun r => { r with m := { r.m with waitCounted := true } })
    { s1 with lanes := { s1.lanes with dispatchWaits := s1.lanes.dispatchWaits + 1 } }

/-- A request held by R118, counted once (NONCE_ORDER_HOLDS). -/
def State.countOrder (s : State) (rid : Nat) (q : Req) : State :=
  if q.m.orderCounted then s
  else
    let s1 := s.onReq rid (fun r => { r with m := { r.m with orderCounted := true } })
    { s1 with order := { s1.order with nonceOrderHolds := s1.order.nonceOrderHolds + 1 } }

/-- On an UNORDERED ring, requests of one ordering key are dispatched in the order in which their first segments completed in
staging (Table 3-1, R117): does one that completed before `q`'s wait still? -/
def stagedAhead (s : State) (q : Req) : Bool :=
  s.reqs.any (fun e => sameRing e.2 q && decide (e.2.ord = q.ord) && !e.2.settled
    && (match e.2.m.stagedAt, q.m.stagedAt with
        | some a, some b => decide (a < b)
        | _, _ => false))

/-- Does the ring's class order dispatch (Table 3-1), and is the order not yet met (R117, R118)? -/
def orderWaits (s : State) (q : Req) : Bool :=
  if q.cls == .strict || q.cls == .association then !(earlierSettled s q) else stagedAhead s q

/-- Does an AEAD_OPEN run in held mode (R190)? A HOLD_LIMIT of 0 makes every AEAD_OPEN stream, one without payload too
(Table 4-15; DEDUCED, log entry 64). -/
def heldMode (s : State) (d : Desc) : Bool :=
  d.opcode == 0x11 && !d.cont && s.lanes.holdLimit != 0 && decide (d.payload ≤ s.lanes.holdLimit)

/-- Staging segments that held mode reserves (R191). -/
def holdSegs (d : Desc) : Nat := (d.payload + 4095) / 4096

/-- A chain opened on slot `n` by its first link, in place of the one open there (R98): a CONT_FIRST closes the earlier chain
at its own Dispatch, and one that ends before closes none (DESIGN CHOICE, log entry 65). -/
def State.openChainOn (s : State) (n op : Nat) (tag : U64) : State :=
  s.onSlot n (fun x => { x with chainOpen := true, chainOp := op, nextLink := 1, chainTag := tag })

/-- The chain part of a dispatch: for a first link, the new chain; for a later one, the item read. -/
def State.chainStart (s : State) (q : Req) (slot : Option Nat) (gen : BitVec 12) (an : Nat) (tag : U64) (took : Bool) (iv : Bytes) :
    Option ChainState × State :=
  if q.d.later then (itemChain s q, s)
  else if q.d.contFirst then
    let s1 := match slot with
      | some n => s.openChainOn n q.d.opcode tag
      | none => s
    (some { opcode := q.d.opcode, link := 0, slot := slot.getD 65536, gen := gen, an := an, epoch := s.start.bootEpoch,
            chainNonce := tag, took := took, iv := iv, acc := [], aadDone := 0, textDone := 0 }, s1)
  else (none, s)

/-- Capture and take at a dispatch to lane `lane` (R47), of a request whose key is `k`. -/
def State.captureOn (s : State) (rid lane : Nat) (q : Req) (k : KeyCopy) : State :=
  let t := k.transform
  let takes := takesValue q.d t && k.slot.isSome
  let (v, soft, s1) : U64 × Bool × State := if takes then s.takeValue (k.slot.getD 0) else (0, false, s)
  let x := match k.slot with
    | some n => s.slot n
    | none => Slot.dflt 0
  let pn := if readsPn q.d then framePn q.d x q.m.aad else v.toNat
  let (drawn, s2) : Bytes × State :=
    if q.d.profile = 7 ∧ q.d.opcode = 0x14 ∧ q.d.nonceHw then s1.internalDraw 16 else ([], s1)
  let iv := nonceOf q.d k pn q.iv q.m.aad q.m.payload drawn
  let (tag, s3) : U64 × State :=
    if q.d.contFirst ∧ !takes then
      let r := s2.internalDraw 8
      (BitVec.ofNat 64 (leNat r.1), r.2)
    else (v, s2)
  let (chain, s4) := s3.chainStart q k.slot k.gen x.an tag takes iv
  let w : Work :=
    match chain with
    | some c => { iv := c.iv, acc := c.acc, aadDone := c.aadDone, textDone := c.textDone, chain := some c }
    | none => { iv := iv, acc := [], aadDone := 0, textDone := 0, chain := none }
  let held := heldMode s q.d
  let (took, first) : Bool × U64 := match chain with
    | some c => (q.d.later && c.took, c.chainNonce)
    | none => (false, 0)
  let s5 := s4.onReq rid (fun r =>
    { r with
      m := { r.m with
        dispatched := true, key := some k, work := w, ckpt := w, takes := takes, softLimit := soft
        nonceUsed := if readsPn q.d ∨ takes then BitVec.ofNat 64 pn
          else if took then first else 0
        nonceValid := takes || took
        commits := readsPn q.d && k.slot.isSome && (x.winEn || q.d.profile == 3)
        held := held, heldSegs := if held then holdSegs q.d else 0
        posture := s.tango.posture.code, cold := none } })
  let s6 := s5.enterLane lane rid (seqOp t q.d.opcode)
  { s6 with
    lanes := { s6.lanes with
      pointer := (s6.lanes.pointer + 1) % 16
      dispatched := s6.lanes.dispatched + 1
      heldOpens := if held then s6.lanes.heldOpens + 1 else s6.lanes.heldOpens
      streamedOpens := if q.d.opcode = 0x11 ∧ !held then s6.lanes.streamedOpens + 1 else s6.lanes.streamedOpens }
    rng := { s6.rng with
      reservoirs := Tab.upd (fun _ => []) s6.rng.reservoirs lane (List.drop 4)
      internalBits := s6.rng.internalBits + 32 } }

/-- A lane request that passed every test waits for the generator, a reservation or a lane, or is assigned one. -/
def State.assignLane (s : State) (rid : Nat) (q : Req) (k : KeyCopy) : State :=
  match rngRefusal s with
  | some e => (match k.slot with
      | some n => s.readPn rid q (s.slot n)
      | none => s.readPn rid q (Slot.dflt 0)).myenoEnd rid e
  | none =>
    if rngWaits s then s
    else if heldMode s q.d ∧ 1024 < stagingTaken s + holdSegs q.d then s.countWait rid q
    else
      match chooseLane s (needsInverse k.transform q.d.opcode) [] with
      | none => s.countWait rid q
      | some n => if laneDraw s n then s.captureOn rid n q k else s

/-- Is a lane request at Dispatch: checked, its first segment complete, its output list known? -/
def Req.atDispatch (q : Req) : Bool :=
  q.m.headSeen && q.m.checked && !q.m.dispatched && !q.ended && q.outListDone && q.segReady 0

/-- The key a request captures from slot `n`. A chain keeps the AN of its first link (R101). -/
def State.captured (s : State) (q : Req) (n : Nat) : KeyCopy :=
  let k := (s.slot n).copy n (hKind q.handle == 1)
  if hKind q.handle = 1 ∧ q.d.later then
    match itemChain s q with
    | some c => { k with an := c.an }
    | none => k
  else k

/-- DISPATCH of a lane request. Input that the staging memory cannot give back ends it there (15 Table 15-2). -/
def State.laneDispatch (s0 : State) (rid : Nat) : State :=
  match s0.req rid with
  | none => s0
  | some q =>
    if !q.atDispatch then s0
    else if q.anyPoison then s0.poisonEnd rid
    else if orderWaits s0 q then s0.countOrder rid q
    else
      match q.m.cold with
      | some k =>
        if sciShort q then s0.myenoEnd rid (ends .lengthMismatch 0x07) else s0.assignLane rid q k
      | none =>
        let s := (namedSlots q).foldl State.verifySlot s0
        if ((s.req rid).map Req.ended).getD true then s
        else
          match namedAgain s q with
          | some e => s.myenoEnd rid e
          | none =>
            match keySlot s q with
            | .error e => s.myenoEnd rid e
            | .ok n =>
              match stateCheck (s.slot n) with
              | some e => s.myenoEnd rid e
              | none =>
                match valueChecks s q n with
                | some e => s.dispatchRefuse rid q n e
                | none => s.assignLane rid q (s.captured q n)

/-! ## Turns (R195 to R197) -/

/-- Can a request's next segment be issued: complete, no stop recorded, and not the final one of an input of the wrong
length, which is not processed (R92)? -/
def Req.canIssue (q : Req) : Bool :=
  q.m.ending.isNone && q.m.stopAtSegment.isNone && q.segReady q.m.segIssued
    && !(q.m.totalWrong.isSome && q.finalSeg q.m.segIssued)

/-- Can a parallel context take a turn now? -/
def turnReady (s : State) (c : Ctx) : Bool :=
  match s.req c.req with
  | none => false
  | some q => !c.sequential && q.canIssue

/-- The context that takes the next turn (R195, R311): one under recomputation, the earliest assigned that has had none, or
the next after the one whose turn ended. -/
def nextTurn (s : State) (l : Lane) : Option Ctx :=
  let ready := l.ctxs.filter (turnReady s)
  let recovering (c : Ctx) : Bool :=
    !c.hadTurn && ((s.req c.req).map (fun q => q.m.recovering)).getD false
  match ready.find? recovering with
  | some c => some c
  | none =>
    match ready.find? (fun c => !c.hadTurn) with
    | some c => some c
    | none => (l.ctxs.drop l.next ++ l.ctxs.take l.next).find? (turnReady s)

/-- A segment issued. -/
def Req.issued (q : Req) : Req := { q with m := { q.m with segIssued := q.m.segIssued + 1 } }

/-- A segment begun: data from a word marked POISON is no lane input, and ends the request (R27). -/
def State.issueSeg (s : State) (rid : Nat) : State :=
  match s.req rid with
  | none => s
  | some q => if q.segPoison q.m.segIssued then s.poisonEnd rid else s.putReq rid q.issued

/-- LANE_TURN (R195): the lane gives its next turn. -/
def execLaneTurn (lane : Nat) (s : State) : Out :=
  unit lane 16 <|
    let l := s.lane lane
    match nextTurn s l with
    | none => s
    | some c =>
      let moved := decide (l.current ≠ some c.req)
      let s1 := s.onLane lane (fun x =>
        { x with
          current := some c.req
          next := x.ctxs.findIdx (fun y => y.req == c.req) + 1
          ctxs := x.ctxs.map (fun y => if y.req = c.req then { y with hadTurn := true } else y) })
      let s2 :=
        { s1 with
          lanes := { s1.lanes with
            segments := s1.lanes.segments + 1
            contextMoves := if moved then s1.lanes.contextMoves + 1 else s1.lanes.contextMoves } }
      s2.issueSeg c.req

/-! ## One segment (Table 4-9, R167 to R174, R181, R182) -/

/-- Text octets of segment `k`: whole blocks, but for the final one; the explicit IV of an ESP opening is skipped. -/
def segText (q : Req) (k : Nat) : Bytes :=
  let skip := skipOf q.d
  let at_ (i : Nat) : Nat := if i = 0 then skip else skip + (4096 * i - skip) / 16 * 16
  let stop := if q.finalSeg k then q.m.payload.length else at_ (k + 1)
  cut q.m.payload (at_ k) (stop - at_ k)

/-- AAD authenticated by the request (R180, R258). -/
def Req.authAad (k : KeyCopy) (q : Req) : Bytes :=
  if q.d.later then [] else sealAad q.d k (hKind q.handle == 1) q.m.nonceUsed.toNat q.m.aad

/-- Bulk and control blocks of a segment with `len` octets of text (Table 4-9, chapter 8 "What is compared"): a ChaCha20 block
counts as 4. Control blocks are J0 at the close of GCM and GMAC, the counter-0 block at the start of ChaCha20, and the final
block of CMAC, of which an empty message has one. -/
def segBlocks (op t len : Nat) (first closes : Bool) : Nat × Nat :=
  let n := (len + 15) / 16
  if tChacha t then (4 * ((len + 63) / 64), 4 * b2n first)
  else if tCmac t then (if closes then (n - 1, 1) else (n, 0))
  else if op = 0x18 ∨ op = 0x19 then (0, b2n closes)
  else (n, if tGcm t then b2n closes else 0)

/-- Bulk blocks compared, of `n` issued after the lane's `a`-th bulk block, in groups of `g` (R305, R306): the block of a
group is chosen at random. -/
def comparedOf (lane g a n : Nat) : Nat :=
  if g ≤ 1 then n
  else ((List.range n).filter (fun j => (a + j) % g == Config.free 2 (16 * ((a + j) / g) + lane) % g)).length

/-- Bulk group size of a posture code (Table 8-1). -/
def sampleGroup (p : Nat) : Nat := if p = 1 then 16 else if p = 2 then 64 else 1

/-- The lane's block counters after a segment. -/
def State.countBlocks (s : State) (lane posture bulk control : Nat) : State :=
  let l := s.lane lane
  let c := comparedOf lane (sampleGroup posture) l.bulk.toNat bulk
  let s1 := s.onLane lane (fun x =>
    { x with blocks := x.blocks + BitVec.ofNat 64 (bulk + control), bulk := x.bulk + BitVec.ofNat 64 bulk })
  { s1 with
    tango := { s1.tango with
      comparedBlocks := s1.tango.comparedBlocks + BitVec.ofNat 64 (c + control)
      uncomparedBlocks := s1.tango.uncomparedBlocks + BitVec.ofNat 64 (bulk - c) } }

/-- The next segment issued is computed on the lane, after those computed before it: its output waits there for the compare
(R49). A sequential context takes no turn, and its segment is issued here (R197). `op` is the row's opcode. -/
def State.runSegment (s : State) (rid op : Nat) : State :=
  match s.req rid with
  | none => s
  | some q0 =>
    if q0.d.opcode ≠ op ∨ q0.m.ending.isSome then s
    else
      match q0.m.key, laneOf s rid with
      | some k, some lane =>
        let s1 :=
          if seqOp k.transform op ∧ q0.m.segIssued = q0.m.segComputed ∧ q0.canIssue then s.issueSeg rid else s
        match s1.req rid with
        | none => s1
        | some q =>
          if q.m.ending.isSome ∨ q.m.segIssued ≤ q.m.segComputed then s1
          else
            let i := q.m.segComputed
            let text := segText q i
            let aad := if i = 0 then q.authAad k else []
            let r := runText op k.transform k.secret q.m.work aad text
            let lead := if i = 0 ∧ q.d.profile = 7 ∧ q.d.opcode = 0x14 ∧ q.d.nonceHw then q.m.work.iv else []
            let s2 := s1.onReq rid (fun x =>
              { x with m := { x.m with
                  work := r.1, inLane := x.m.inLane ++ [{ out := lead ++ r.2, work := r.1 }]
                  segComputed := x.m.segComputed + 1 } })
            let n := segBlocks op k.transform text.length (i == 0 && !q.d.later) (q.finalSeg i && closesTag q.d)
            s2.countBlocks lane q.m.posture n.1 n.2
      | _, _ => s

/-- AEAD_SEAL (R189). -/
def execAeadSeal (rid : Nat) (s : State) : Out := .next (s.runSegment rid 0x10)
/-- AEAD_OPEN (R190). -/
def execAeadOpen (rid : Nat) (s : State) : Out := .next (s.runSegment rid 0x11)
/-- CIPHER_ENC (R189). -/
def execCipherEnc (rid : Nat) (s : State) : Out := .next (s.runSegment rid 0x14)
/-- CIPHER_DEC (R192). -/
def execCipherDec (rid : Nat) (s : State) : Out := .next (s.runSegment rid 0x15)
/-- MAC_GEN (R174). -/
def execMacGen (rid : Nat) (s : State) : Out := .next (s.runSegment rid 0x18)
/-- MAC_VERIFY (R175). -/
def execMacVerify (rid : Nat) (s : State) : Out := .next (s.runSegment rid 0x19)

/-! ## The close (R93, R95 to R103, R175, R187 to R190) -/

/-- The chain state of a link that completed, and the slot's next LINK. -/
def State.chainWriteOn (s : State) (rid : Nat) (q : Req) : State :=
  match q.m.work.chain with
  | none => s
  | some c =>
    let c' : ChainState :=
      { c with link := c.link + 1, iv := q.m.work.iv, acc := q.m.work.acc, aadDone := q.m.work.aadDone,
               textDone := q.m.work.textDone }
    let r := s.wrapChain q.owner q.d.profile c'
    let s1 := (r.2.countControl (wrapBlocks 80)).onReq rid (fun x => { x with chainWrite := some r.1 })
    let x := s1.slot c.slot
    if q.d.opcode ≠ 0x20 ∧ x.chainOpen ∧ x.chainTag = c.chainNonce ∧ x.gen = c.gen then
      s1.onSlot c.slot (fun y => { y with nextLink := BitVec.ofNat 32 c'.link })
    else s1

/-- The plaintext held goes out (R190). -/
def Req.releaseHeld (q : Req) : Req := { q with outBeats := q.outBeats ++ q.m.heldOut, m := { q.m with heldOut := [] } }

/-- A request that ends OK: its held plaintext, its ICV, the close of its chain. -/
def State.closeGood (s : State) (rid : Nat) (q : Req) (icv : Bytes) : State :=
  let s1 := s.onReq rid (fun x => x.releaseHeld.putIcv icv)
  let s2 := if q.d.opens then s1.chainWriteOn rid q else if q.d.contLast then s1.closeChainOf q else s1
  s2.myenoEnd rid (ends .ok 0)

/-- The close of a lane request after its final segment has passed. -/
def State.laneClose (s : State) (rid : Nat) : State :=
  match s.req rid with
  | none => s
  | some q =>
    match q.m.key with
    | none => s
    | some k =>
      if !(closesTag q.d) then s.closeGood rid q []
      else
        let tag := (closeTag k.transform k.secret q.m.work).take q.d.icvLen
        if q.d.opcode = 0x10 ∨ q.d.opcode = 0x18 then s.closeGood rid q tag
        else if q.m.expect.take q.d.icvLen ≠ tag then
          let s1 := s.myenoEnd rid (ends .authFail 0x01)
          { s1 with lanes := { s1.lanes with tagFails := s1.lanes.tagFails + 1 } }
        else
          match s.replayCommit q with
          | (some dt, s1) => (s1.countReplay dt true).myenoEnd rid (ends .authFail dt)
          | (none, s1) =>
            let s2 := s1.onReq rid (fun x =>
              { x with m := { x.m with nonceValid := x.m.nonceValid || (x.m.commits && (s.slot (k.slot.getD 0)).winEn) } })
            s2.closeGood rid q []

/-- Result octets that have passed their compares: sent across the Seam as OUT beats, or kept in held mode (R51, R190). -/
def Req.release (bs : Bytes) (q : Req) : Req :=
  if q.m.held then { q with m := { q.m with heldOut := q.m.heldOut ++ q.beatsOut .out bs } } else q.putOut bs

/-- Output of the oldest segment in the lane. -/
def Myeno.laneOut (m : Myeno) : Bytes := (m.inLane.head?.map SegOut.out).getD []

/-- The results of the oldest segment in the lane, up to its octet `n`, have passed their compares and go out (R49); what an
earlier computation of the segment released is discarded (R313). -/
def State.releaseTo (s : State) (rid n : Nat) : State :=
  s.onReq rid (fun r =>
    let m := min n r.m.laneOut.length
    let q := r.release ((r.m.laneOut.take m).drop r.m.outReleased)
    { q with m := { q.m with outReleased := max m r.m.outReleased } })

/-- The oldest segment in the lane has passed its compares: the rest of its output goes out, its staging is released and the
next checkpoint is verified (R50). -/
def State.releaseSeg (s : State) (rid : Nat) : State :=
  s.onReq rid (fun r =>
    let q := r.release (r.m.laneOut.drop r.m.outReleased)
    { q with
      m := { q.m with
        ckpt := (r.m.inLane.head?.map SegOut.work).getD r.m.work, inLane := r.m.inLane.drop 1, outReleased := 0
        tries := 0, excluded := [], recovering := false, segPassed := r.m.segPassed + 1 } })

end Sys2Proof.Machine
end

