-- ==== Sys2Proof/Machine/Units.lean ====
section
/-!
DEFINITION. Digest units (chapter 9): which are available, the choice of a unit, mismatches and units out of service.
-/
namespace Sys2Proof.Machine

/-- Timestamps within a window of `ms` milliseconds before `now` (R318). -/
def within (now : BitVec 48) (ms : Nat) (l : List (BitVec 48)) : List (BitVec 48) :=
  l.filter (fun t => decide ((now - t).toNat < ms * 1000000))

/-- RETRY_IMPOSSIBLE (R314, R315). -/
def State.retryImpossible (s : State) (rid detail : Nat) : State :=
  let s1 := s.myenoEnd rid (ends .retryImpossible detail)
  { s1 with
    tango := { s1.tango with
      retryReleased := if detail = 1 then s1.tango.retryReleased + 1 else s1.tango.retryReleased
      retryNoLane := if detail = 2 then s1.tango.retryNoLane + 1 else s1.tango.retryNoLane } }

/-- Is a unit available (R341)? -/
def unitAvail (s : State) (u : Nat) : Bool :=
  s.digest.enable.getLsbD u
    && (match (s.unitAt u).state with
        | .idle => true
        | .active => true
        | _ => false)

/-- A digest register block by owner. -/
def State.page (s : State) (o : Nat) : DigestPage := Tab.get DigestPage.dflt s.digest.pages o

/-- A change of a digest register block. -/
def State.onPage (s : State) (o : Nat) (f : DigestPage → DigestPage) : State :=
  { s with digest := { s.digest with pages := Tab.upd DigestPage.dflt s.digest.pages o f } }

/-! ## Blocks (Table 9-3) -/

/-- Blocks of a finish with `n` octets buffered and `out` octets of output. -/
def finishBlocks (alg n out : Nat) : Nat :=
  let r := hashRate alg
  if alg = 1 then (n + 9 + 63) / 64
  else if alg = 2 ∨ alg = 3 then (n + 17 + 127) / 128
  else (n + 1 + r - 1) / r + (if isShake alg then (out + r - 1) / r - 1 else 0)

/-- Blocks counted on a unit. -/
def State.addBlocks (s : State) (u n : Nat) : State := s.onUnit u (fun x => { x with blocks := x.blocks + BitVec.ofNat 64 n })

/-- Length of the result (Table 9-4). -/
def digestOut (d : Desc) : Nat :=
  if isShake d.profile then d.outCap
  else if (d.opcode = 0x21 ∨ d.opcode = 0x23) ∧ d.icvLen ≠ 0 then d.icvLen
  else hashLen d.profile

/-- Result length of a register-interface computation. -/
def DigestPage.resLen (p : DigestPage) : Nat := if p.outLen = 0 then hashLen p.alg else p.outLen

/-- Blocks that a request in a context has still to run: its input and, but for a DIGEST_SAVE and a link that leaves its chain
open, the finish, with the two blocks of the outer hash. -/
def reqBlocks (q : Req) : Nat :=
  let n := q.m.work.iv.length + (q.d.payload - (4096 * q.m.segPassed + q.m.outReleased))
  if q.d.opcode = 0x22 ∨ q.d.opens then n / max 1 (hashRate q.d.profile)
  else finishBlocks q.d.profile n (digestOut q.d) + 2 * b2n q.m.key.isSome

/-- Blocks that a register-interface computation has still to run for what its buffer holds. -/
def pageBlocks (p : DigestPage) : Nat :=
  if p.lastPending then finishBlocks p.alg p.backlog.length p.resLen + 2 * b2n p.key.isSome
  else p.backlog.length / max 1 (hashRate p.alg)

/-- Blocks a unit has still to run for the computations in its contexts (R338). -/
def unitRemaining (s : State) (u : Nat) : Nat :=
  let x := s.unitAt u
  (x.ctxs.map (fun c =>
      match c with
      | .req i => ((s.req i).map reqBlocks).getD 0
      | .page o => pageBlocks (s.page o))).sum
    + (x.internal.map Internal.blocks).getD 0

/-- The unit chosen among those with room (R338): fewest remaining blocks, the first after the pointer among equals. -/
def chooseUnit (s : State) (room : DigestUnit → Bool) (excluded : List Nat) : Option Nat :=
  let cands := ((List.range 8).map (fun i => (s.digest.pointer + i) % 8)).filter (fun u =>
    unitAvail s u && room (s.unitAt u) && !(excluded.contains u))
  cands.foldl (fun best u =>
    match best with
    | none => some u
    | some b => if unitRemaining s u < unitRemaining s b then some u else best) none

/-- Is a context a request's, or a register block's? -/
def UnitCtx.isReq : UnitCtx → Bool
  | .req _ => true
  | .page _ => false

/-- Has a unit a context free for a request, for a register block, for an internal user (R337)? -/
def roomReq (u : DigestUnit) : Bool := decide ((u.ctxs.filter UnitCtx.isReq).length < 3)
def roomPage (u : DigestUnit) : Bool := decide ((u.ctxs.filter (fun c => !c.isReq)).length < 4)
def roomInternal (u : DigestUnit) : Bool := u.internal.isNone

/-- A unit brought into line with UNIT_ENABLE, its mismatches and its contexts (R341, R344). -/
def State.unitSettle (s : State) (u : Nat) : State := s.onUnit u (DigestUnit.settle (s.digest.enable.getLsbD u && unitsPowered s))

/-- A context assigned on unit `u`. -/
def State.assignCtx (s : State) (u : Nat) (c : UnitCtx) : State :=
  (s.onUnit u (fun x => { x with ctxs := x.ctxs ++ [c] })).unitSettle u

/-- A request's context on unit `u`; the pointer moves on. -/
def State.enterUnit (s : State) (u rid : Nat) : State :=
  let s1 := s.assignCtx u (.req rid)
  { s1 with digest := { s1.digest with pointer := (u + 1) % 8 } }

/-- A register block's context on unit `u`. -/
def State.enterPage (s : State) (u o : Nat) : State := (s.assignCtx u (.page o)).onPage o (fun p => { p with unit := u })

/-- A register block's context gone from its unit. -/
def State.leavePage (s : State) (o : Nat) : State :=
  let u := (s.page o).unit
  s.onUnit u (DigestUnit.drop (.page o) (s.digest.enable.getLsbD u))

/-! ## Internal jobs (R340) -/

/-- An internal job given the reserved context of a unit, or queued until one is free. -/
def State.internalPut (s : State) (j : Internal) : State :=
  match chooseUnit s roomInternal j.excluded with
  | some u => (s.onUnit u (fun x => { x with internal := some j, internalTurn := 0 })).unitSettle u
  | none => { s with digest := { s.digest with queue := s.digest.queue ++ [j] } }

/-- Internal work of `n` blocks begun for a PKE_RUN. -/
def State.internalStart (s : State) (rid n : Nat) : State :=
  if n = 0 then s else s.internalPut { req := some rid, blocks := n, tries := 0, excluded := [] }

/-- Does internal work of a PKE_RUN remain? -/
def internalBusy (s : State) (rid : Nat) : Bool :=
  s.digest.queue.any (fun j => j.req == some rid)
    || (List.range 8).any (fun u => ((s.unitAt u).internal.map (fun j => j.req == some rid)).getD false)

/-- The reserved context of unit `u` is free again: the next internal job waiting takes one. -/
def State.internalFree (s : State) (u : Nat) : State :=
  let s1 := (s.onUnit u (fun x => { x with internal := none, internalTurn := 0, internalLast := true })).unitSettle u
  match s1.digest.queue with
  | [] => s1
  | j :: rest => ({ s1 with digest := { s1.digest with queue := rest } } : State).internalPut j

/-- The internal work of a PKE_RUN dropped with its job. -/
def State.internalDrop (s : State) (rid : Nat) : State :=
  let s1 := { s with digest := { s.digest with queue := s.digest.queue.filter (fun j => j.req != some rid) } }
  (List.range 8).foldl (fun t u =>
    if ((t.unitAt u).internal.map (fun j => j.req == some rid)).getD false then t.internalFree u else t) s1

/-- Internal blocks that one command contains whole, on unit `u`: the check of firmware and of certificates. -/
def State.internalOn (s : State) (u n : Nat) : State :=
  let s1 := s.addBlocks u n
  { s1 with digest := { s1.digest with internalBlocks := s1.digest.internalBlocks + BitVec.ofNat 64 n } }

/-- Internal blocks that one command contains whole, on the unit chosen for them: the derivation of a key. -/
def State.internalRan (s : State) (n : Nat) : State := s.internalOn ((chooseUnit s roomInternal []).getD 0) n

/-- Blocks of the KDF of 05 R227 for `out` octets, with a label and a context of `m` octets together: for each 48 octets an HMAC
whose message is a 4-octet counter, label, a zero octet, context and a 4-octet length (log entry 77). -/
def kdfBlocks (m out : Nat) : Nat := (out + 47) / 48 * (2 + finishBlocks 2 (9 + m) 48 + finishBlocks 2 48 48)

/-- Hash blocks of a pair of signatures, ECDSA P-384 and ML-DSA-87, over `n` octets; those of ML-DSA are a free value (log entry
77). -/
def signatureBlocks (n : Nat) : Nat := finishBlocks 2 n 48 + Config.free 22 n % 2 ^ 16
/-! ## Turns (R339) -/

/-- Has a context a block ready? -/
def ctxReady (s : State) (c : UnitCtx) : Bool :=
  match c with
  | .req i =>
    match s.req i with
    | some q => q.canIssue
    | none => false
  | .page o =>
    let p := s.page o
    p.isOpen && p.work.alg != 0 && !p.overrun && (decide (hashRate p.alg ≤ p.backlog.length) || p.lastPending)

/-- What a unit runs: an internal job, or a context. -/
inductive Turn where
  | internal
  | ctx (c : UnitCtx)
  deriving DecidableEq, Repr

/-- The turn a unit is in or begins next (R339): a turn begun goes on; after a turn a waiting internal job comes first, and
then the next context that has a block ready. -/
def unitTurn (s : State) (u : Nat) : Option Turn :=
  let x := s.unitAt u
  let next := (x.ctxs.drop x.next ++ x.ctxs.take x.next).find? (ctxReady s)
  let pick : Option Turn :=
    if x.internal.isSome ∧ (!x.internalLast ∨ next.isNone) then some .internal else next.map .ctx
  match x.current with
  | some c => if ctxReady s c then some (.ctx c) else pick
  | none => if x.internal.isSome ∧ x.internalTurn ≠ 0 then some .internal else pick

/-- The turn of a context begins, or goes on. -/
def State.turnOn (s : State) (u : Nat) (c : UnitCtx) : State :=
  s.onUnit u (fun x => { x with current := some c, next := x.ctxs.findIdx (· == c) + 1, internalLast := false })

/-- The turn of unit `u`'s context ends. -/
def State.turnOff (s : State) (u : Nat) : State := s.onUnit u (fun x => { x with current := none })

/-- Up to `n` blocks of an internal job's turn, which is at most 64 blocks long. -/
def State.internalRun (s : State) (u n : Nat) : State :=
  match (s.unitAt u).internal with
  | none => s
  | some j =>
    let k := min n (min j.blocks (64 - (s.unitAt u).internalTurn))
    let s1 := s.addBlocks u k
    let s2 := { s1 with digest := { s1.digest with internalBlocks := s1.digest.internalBlocks + BitVec.ofNat 64 k } }
    if j.blocks ≤ k then s2.internalFree u
    else
      let full := decide (64 ≤ (s.unitAt u).internalTurn + k)
      s2.onUnit u (fun x =>
        { x with
          internal := some (if k = 0 then j else { j with blocks := j.blocks - k, tries := 0, excluded := [] })
          current := none, internalLast := full || x.internalLast, internalTurn := if full then 0 else x.internalTurn + k })

/-! ## Mismatches and units out of service (R343, R344) -/

/-- A mismatch counted against a unit (R344). -/
def State.unitMismatch (s : State) (u : Nat) : State :=
  let lim := s.tango.laneFaultLimit
  let old := within s.now s.tango.laneFaultWindow.toNat (s.unitAt u).recent
  let new := old ++ [s.now]
  let s1 := (({ s with digest := { s.digest with mismatches := s.digest.mismatches + 1 } }).onUnit u (fun x =>
    { x with recent := new })).raise (0x080 + u) u 0
  if new.length < lim ∨ (s.unitAt u).failed then s1
  else if !((List.range 8).any (fun v => v != u && unitAvail s v)) then
    (if old.length < lim then s1.raise 0x098 (0x1000 + u) 0 else s1)
  else ((s1.onUnit u (fun x => { x with failed := true })).unitSettle u).raise (0x088 + u) u 0

/-- A block recomputed (R343). -/
def State.countRecomputed (s : State) : State :=
  { s with digest := { s.digest with recomputations := s.digest.recomputations + 1 } }

/-- The hash computation a request's context holds: chaining value in `acc`, octets not absorbed in `iv`, message
octets in `textDone`, the octets of the key block in `aadDone`. -/
def Work.hash (alg : Nat) (w : Work) : HashWork := { alg := alg, st := w.acc, buf := w.iv, total := w.textDone + w.aadDone }

/-- The computation put back. -/
def Work.ofHash (w : Work) (h : HashWork) : Work := { w with acc := h.st, iv := h.buf, textDone := h.total - w.aadDone }

/-- Up to `n` whole blocks of a digest request's segment absorbed on unit `u`, each with its compare passed; the allowance of
R343 begins again with each block. -/
def State.digestRun (s : State) (rid u n : Nat) : State :=
  match s.req rid with
  | none => s
  | some q =>
    let h := q.m.work.hash q.d.profile
    let r := max 1 (hashRate q.d.profile)
    let rest := ((q.m.payload.drop (4096 * q.m.segPassed)).take 4096).drop q.m.outReleased
    let k := min n ((h.buf.length + rest.length) / r)
    if k = 0 then s
    else
      let bytes := rest.take (k * r - h.buf.length)
      let w := q.m.work.ofHash (h.absorb bytes)
      (s.onReq rid (fun x =>
        { x with
          m := { x.m with
            work := w, ckpt := w, outReleased := x.m.outReleased + bytes.length, tries := 0, excluded := [], recovering := false } })).addBlocks
        u k

/-- A block of a digest request mismatched (R343): the context moves to another unit, or the request ends. -/
def State.digestMismatch (s : State) (rid : Nat) (q : Req) : State :=
  match unitOf s rid with
  | none => s
  | some u =>
    let s1 := (s.leaveContext rid).unitMismatch u
    let ex := q.m.excluded ++ [u]
    if 2 ≤ q.m.tries then s1.retryImpossible rid 2
    else
      match chooseUnit s1 roomReq ex with
      | none => s1.retryImpossible rid 2
      | some v =>
        ((s1.enterUnit v rid).onReq rid (fun r =>
          { r with m := { r.m with tries := r.m.tries + 1, excluded := ex, retried := true, recovering := true } })).countRecomputed

/-- A block of an internal job mismatched (R343). A PKE_RUN whose work cannot be recomputed ends with RETRY_IMPOSSIBLE, DETAIL
0x02, at its next yield point (DESIGN CHOICE, log entry 72). -/
def State.internalMismatch (s : State) (u : Nat) (j : Internal) : State :=
  let s1 := s.unitMismatch u
  let j' : Internal := { j with tries := j.tries + 1, excluded := j.excluded ++ [u] }
  if 2 ≤ j.tries ∨ (chooseUnit s1 (fun _ => true) j'.excluded).isNone then
    let s2 := s1.internalFree u
    match j.req with
    | some rid =>
      let s3 := s2.onReq rid (fun r => { r with m := { r.m with stopAtSegment := some (ends .retryImpossible 2) } })
      { s3 with tango := { s3.tango with retryNoLane := s3.tango.retryNoLane + 1 } }
    | none => s2
  else ((s1.internalFree u).internalPut j').countRecomputed

/-- UNIT_RETEST (R344). -/
def execUnitRetest (mask : BitVec 8) (s : State) : Out :=
  .next ((List.range 8).foldl (fun t u =>
    if mask.getLsbD u ∧ (t.unitAt u).state = .outOfService then t.onUnit u (fun x => { x with retesting := true }) else t) s)

/-- UNIT_RETEST_DONE (R344). -/
def execUnitRetestDone (unit_ : Nat) (passed : Bool) (s : State) : Out :=
  unit unit_ 8
    (if !(s.unitAt unit_).retesting then s
    else
      let s1 := { s with digest := { s.digest with
        retestFailed := if passed then s.digest.retestFailed &&& ~~~(BitVec.twoPow 8 unit_)
          else s.digest.retestFailed ||| BitVec.twoPow 8 unit_ } }
      if passed then
        (s1.onUnit unit_ (fun x => { x with retesting := false, recent := [], failed := false })).unitSettle unit_
      else s1.onUnit unit_ (fun x => { x with retesting := false }))

end Sys2Proof.Machine
end

