-- ==== Sys2Proof/Machine/Tango.lean ====
section
/-!
DEFINITION. Tango checking, recomputation, lanes out of service and postures (chapter 8).
-/
namespace Sys2Proof.Machine

/-- TANGO_PASS (R49, R50): the compares of the oldest segment computed and not passed have passed. Its output goes out; a stop
takes effect once every segment issued has passed; the final segment closes the request, and an input of the wrong length
ends it before (R92). -/
def execTangoPass (rid : Nat) (s : State) : Out :=
  .next <|
    match s.req rid with
    | none => s
    | some q =>
      if !(isLaneOp q.d.opcode) ∨ q.m.ending.isSome ∨ q.m.segComputed ≤ q.m.segPassed then s
      else
        let s1 := s.releaseSeg rid
        match q.m.stopAtSegment with
        | some e => if q.m.segIssued = q.m.segPassed + 1 then s1.myenoEnd rid e else s1
        | none => if q.finalSeg q.m.segPassed then s1.laneClose rid else s1.lengthEnd rid

/-! ## Mismatches (R309 to R319, R322) -/

/-- Would no lane among lanes 0 to 3, or no lane at all, be available without lane `n` (R319)? -/
def lastLane (s : State) (n : Nat) : Bool :=
  !((List.range 16).any (fun m => m != n && laneAvail s m))
    || (decide (n < 4) && !((List.range 4).any (fun m => m != n && laneAvail s m)))

/-- A mismatch counted against a lane (R318, R319). -/
def State.laneMismatch (s : State) (n rid : Nat) : State :=
  let lim := s.tango.laneFaultLimit
  let old := within s.now s.tango.laneFaultWindow.toNat (s.lane n).recent
  let new := old ++ [s.now]
  let s1 := (({ s with tango := { s.tango with mismatches := s.tango.mismatches + 1 } }).onLane n (fun l =>
    { l with recent := new })).raise (0x060 + n) n rid
  if new.length < lim ∨ (s.lane n).cause = 3 then s1
  else if lastLane s n then (if old.length < lim then s1.raise 0x098 n 0 else s1)
  else
    (s1.onLane n (fun l =>
      { l with cause := 3, state := if l.ctxs.isEmpty then .outOfService else .draining })).raise (0x070 + n) n 0

/-- The request restarts on a recovery lane at its checkpoint (R309 to R314). A close that failed has processed its segment,
which an ending counts (R315). -/
def State.recover (s : State) (rid : Nat) (q : Req) (k : KeyCopy) (excluded : List Nat) (close : Bool) : State :=
  let stop (detail : Nat) : State := (if close then s.releaseSeg rid else s).retryImpossible rid detail
  if q.m.lost then stop 1
  else if 2 ≤ q.m.tries then stop 2
  else
    match chooseLane s (needsInverse k.transform q.d.opcode) excluded with
    | none => stop 2
    | some n =>
      let s1 := s.onReq rid (fun r =>
        { r with
          m := { r.m with
            tries := r.m.tries + 1, excluded := excluded, retried := true, recovering := true, work := r.m.ckpt
            inLane := [], segComputed := r.m.segPassed, segIssued := r.m.segPassed } })
      let s2 := s1.enterLane n rid (seqOp k.transform q.d.opcode)
      { s2 with
        lanes := { s2.lanes with pointer := (s2.lanes.pointer + 1) % 16 }
        tango := { s2.tango with recomputations := s2.tango.recomputations + 1 } }

/-- A PACE_LATE beat (R322): PACE_MARGIN rises a step, at most to 7 (R323). -/
def State.paceLate (s : State) : State :=
  let m := min 7 (s.tango.paceMargin + 1)
  ({ s with tango := { s.tango with paceMargin := m, paceLate := s.tango.paceLate + 1 } }).raise 0x099 m 0

/-- Octets of the oldest computed segment's output that had passed their compares when one failed (R303): those of the
`passed` result blocks before a block that failed, and every one when an accumulator or the close failed. -/
def passedOctets (q : Req) (t : Nat) (at_ : MismatchAt) (passed : Nat) : Nat :=
  match at_ with
  | .block => passed * (if tChacha t then 64 else 16)
  | .paceLate => passed * (if tChacha t then 64 else 16)
  | _ => q.m.laneOut.length

/-- Does the T9 make the compare at all (Table 8-1)? In the sampled postures the accumulators are compared at the close only,
and a request closes with its final segment. -/
def compareMade (q : Req) (at_ : MismatchAt) : Bool :=
  match at_ with
  | .accumulator => q.finalSeg q.m.segPassed || sampleGroup q.m.posture == 1
  | .close => q.finalSeg q.m.segPassed && closesTag q.d
  | _ => true

/-- Is the compare that failed one of the close, which restarts from the latest verified checkpoint (R309)? The accumulators
at the end of the request's last segment are compared there. -/
def atClose (q : Req) (at_ : MismatchAt) : Bool :=
  match at_ with
  | .accumulator => q.finalSeg q.m.segPassed
  | .close => true
  | _ => false

/-- A compare of the oldest segment in lane `n` has failed (R309): the context is abandoned there, and recomputed elsewhere
unless a sampled posture has released what it would restart from (R310). -/
def State.laneFail (s : State) (rid n : Nat) (q : Req) (k : KeyCopy) (at_ : MismatchAt) (passed : Nat) : State :=
  let s0 := (if at_ = .paceLate then s.paceLate else s).releaseTo rid (passedOctets q k.transform at_ passed)
  let s1 := (s0.leaveContext rid).laneMismatch n rid
  if atClose q at_ ∧ sampleGroup q.m.posture ≠ 1 ∧ q.m.segPassed ≠ 0 then (s1.releaseSeg rid).retryImpossible rid 1
  else s1.recover rid q k (q.m.excluded ++ [n]) (atClose q at_)

/-- A failed compare of Myeno's key-handling units counted (Table 8-4); it counts against no lane (log entry 71). -/
def State.keyMismatch (s : State) (again : Bool) : State :=
  { s with
    tango := { s.tango with
      mismatches := s.tango.mismatches + 1
      recomputations := if again then s.tango.recomputations + 1 else s.tango.recomputations } }

/-- A block of a load that waits to come into force has failed its compare (R316): it is recomputed from the values the load
holds, at most twice; then the slot stays as it is and the load reports RETRY_IMPOSSIBLE, DETAIL 0x02. -/
def State.loadFail (s : State) (l : Load) : State :=
  let again := decide (l.tries < 2)
  let s1 := s.keyMismatch again
  if again then
    let s2 := s1.onKeys (fun k => { k with loads := k.loads.map (fun x => if x = l then { x with tries := x.tries + 1 } else x) })
    if l.source = 0 then s2
    else s2.onReq l.req (fun r => { r with m := { r.m with retried := true, recovering := true } })
  else
    let s2 := s1.onKeys (fun k => { k with loads := k.loads.erase l })
    if l.source = 0 then
      let s3 := s2.onKw l.page (KeyWindow.done (ends .retryImpossible 2) 0)
      { s3 with tango := { s3.tango with retryNoLane := s3.tango.retryNoLane + 1 } }
    else s2.retryImpossible l.req 2

/-- Do Myeno's key-handling units work for the request: an export about to act, or a cold blob unwrapped and not yet
captured? -/
def keyWork (s : State) (q : Req) : Bool :=
  (q.d.opcode == 0x33 && mayAct s q) || (q.m.cold.isSome && !q.m.dispatched && !q.ended)

/-- A compare of the key-handling units has failed in the work of a request (R307, R316): recomputed at most twice. -/
def State.keyFail (s : State) (rid : Nat) (q : Req) : State :=
  match s.keys.loads.find? (fun l => l.source != 0 && l.source != 3 && l.req == rid) with
  | some l => s.loadFail l
  | none =>
    if !(keyWork s q) then s
    else if q.m.tries < 2 then
      (s.keyMismatch true).onReq rid (fun r =>
        { r with m := { r.m with tries := r.m.tries + 1, retried := true, recovering := true } })
    else (s.keyMismatch false).retryImpossible rid 2

/-- A compare of a request has failed, after `passed` of its result blocks: on a lane, in a digest unit (R343) or in the
key-handling units. A PACE_LATE beat is a mismatch, and raises PACE_MARGIN (R322). -/
def State.reqFail (s : State) (rid : Nat) (q : Req) (at_ : MismatchAt) (passed : Nat) : State :=
  if isLaneOp q.d.opcode ∧ q.m.dispatched then
    match q.m.key, laneOf s rid with
    | some k, some n =>
      if q.m.ending.isSome ∨ q.m.segComputed ≤ q.m.segPassed ∨ !(compareMade q at_) then s
      else s.laneFail rid n q k at_ passed
    | _, _ => s
  else
    let s1 := if at_ = .paceLate then s.paceLate else s
    if isDigestOp q.d.opcode then
      match unitOf s rid with
      | some u =>
        let s2 := s1.digestRun rid u passed
        match s2.req rid with
        | some r => s2.digestMismatch rid r
        | none => s2
      | none => s
    else if keyWork s q ∨ s.keys.loads.any (fun l => l.req == rid && (l.source == 1 || l.source == 2)) then s1.keyFail rid q
    else s

/-- TANGO_MISMATCH (R309): a compare has failed; `rid` is the request, where one's did. In QUIET a FILL block can fail too,
which counts against its lane or unit (R318, R329, R344). -/
def execTangoMismatch (rid : Nat) (at_ : MismatchAt) (passed : Nat) (s : State) : Out :=
  match at_ with
  | .fillLane n =>
    unit n 16 (if s.tango.posture = .quiet ∧ s.lanes.powered.getLsbD n then s.laneMismatch n 0 else s)
  | .fillUnit u =>
    unit u 8 (if s.tango.posture = .quiet then s.unitMismatch u else s)
  | .keyWindow o =>
    .next <|
      match s.keys.loads.find? (fun l => l.source == 0 && l.page == o) with
      | some l => s.loadFail l
      | none => s
  | _ =>
    .next <|
      match s.req rid with
      | some q => s.reqFail rid q at_ passed
      | none => s

/-- LANE_RETEST (R320). -/
def execLaneRetest (mask : BitVec 16) (s : State) : Out :=
  .next ((List.range 16).foldl (fun t n =>
    if mask.getLsbD n ∧ (t.lane n).state = .outOfService then t.onLane n (fun l => { l with retesting := true }) else t) s)

/-- LANE_RETEST_DONE (R320). -/
def execLaneRetestDone (lane : Nat) (passed : Bool) (s : State) : Out :=
  unit lane 16
    (if !(s.lane lane).retesting then s
    else if passed then
      (s.onLane lane (fun l => { l with retesting := false, retestFailed := false, recent := [], cause := 0 })).laneSettle lane
    else s.onLane lane (fun l => { l with retesting := false, retestFailed := true }))

/-! ## Postures (R327 to R331, R661, R662) -/

/-- Posture of a code (Table 8-3). -/
def Posture.ofCode (n : Nat) : Option Posture :=
  match n with
  | 0 => some .assured
  | 1 => some .balanced
  | 2 => some .lean
  | 3 => some .quiet
  | _ => none

/-- Does a posture check every block? -/
def Posture.full (p : Posture) : Bool := p == .assured || p == .quiet

/-- A new voltage request (21 R661): VREQ_VALID falls, VREQ changes 20 ns later and VREQ_VALID rises 20 ns after that, which the
cycles of TS_CLK count down from 4. -/
def Pins.request (p : Pins) (mv : Nat) : Pins :=
  { p with vreqValid := false, vreqNext := mv, vreqSteps := 4, supplyReached := false }

/-- A cycle of 10 ns passes for the request. -/
def Pins.requestOn (p : Pins) : Pins :=
  { p with
    vreqSteps := p.vreqSteps - 1
    vreq := if p.vreqSteps = 3 then p.vreqNext else p.vreq
    vreqValid := p.vreqValid || p.vreqSteps == 1 }

/-- A write of POSTURE (R330): the answer says whether it is refused. -/
def State.writePosture (s : State) (code : Nat) : Bool × State :=
  match Posture.ofCode code with
  | none => (false, s)
  | some p =>
    if p = s.tango.posture then (true, s)
    else if s.tango.changing then (false, s)
    else
      let leaving := s.tango.posture == .lean
      let entering := p == .lean
      let s1 :=
        { s with
          tango := { s.tango with
            posture := p, previous := s.tango.posture, changing := true, leaving := leaving, entering := entering
            postureChanges := s.tango.postureChanges + 1 }
          pins := if leaving then s.pins.request 800 else s.pins
          lanes := if entering then { s.lanes with powered := 0x00FF } else s.lanes }
      let s2 := if entering then s1.lanesSettle else s1
      (true, if p.full then s2 else s2.setRecord 1 [2])

/-- POSTURE (R330). -/
def execPosture (code : Nat) (s : State) : Out := .next (s.writePosture code).2

/-- LANES_DRAINED_FOR_LEAN (R330 step 3): lanes 8 to 15 are OFF; 0.72 V is requested and the Seam halved. -/
def execLanesDrainedForLean (s : State) : Out :=
  .next
    (if s.tango.entering ∧ ((List.range 8).all (fun i => (s.lane (8 + i)).ctxs.isEmpty)) then
      { s with
        tango := { s.tango with entering := false, seamHalved := true }
        pins := s.pins.request 720 }
    else s)

/-- Requests dispatched under another posture that remain (R330 step 5). -/
def earlierPosture (s : State) : Bool :=
  s.reqs.any (fun e => e.2.m.dispatched && e.2.m.ending.isNone && e.2.m.posture != s.tango.posture.code)

/-- POSTURE_SETTLED (R330, R331): not before VREQ shows the request (Table 21-15). -/
def execPostureSettled (s : State) : Out :=
  .next
    (if s.tango.changing ∧ !s.tango.leaving ∧ !s.tango.entering ∧ s.pins.vreq = s.pins.vreqNext ∧ !(earlierPosture s) then
      let s1 := { s with tango := { s.tango with changing := false } }
      if s.tango.posture.full then s1.setRecord 1 [1] else s1
    else s)

/-- Lanes 8 to 15 powered, the full Seam restored (R330 step 2, R662). -/
def State.powerLanes (s : State) : State :=
  if s.tango.leaving then
    ({ s with
      tango := { s.tango with leaving := false, seamHalved := false }
      lanes := { s.lanes with powered := 0xFFFF } }).lanesSettle
  else s

/-- SUPPLY_REACHED (R662). -/
def execSupplyReached (s : State) : Out :=
  .next ({ s with pins := { s.pins with supplyReached := true } }).powerLanes

/-- VREQ_LIMIT_EXPIRY (R662): a raised request was not met in time. -/
def execVreqLimitExpiry (s : State) : Out :=
  .next
    (if s.tango.leaving ∧ !s.pins.supplyReached then
      ({ s with pins := { s.pins with vreqTimeouts := s.pins.vreqTimeouts + 1 } }).powerLanes
    else s)

end Sys2Proof.Machine
end

