-- ==== Sys2Proof/Machine/Digest.lean ====
section
/-!
DEFINITION. Digest requests and the digest register interface (chapter 9).
-/
namespace Sys2Proof.Machine

/-! ## Requests -/

/-- Is the request keyed? -/
def keyedDigest (q : Req) : Bool := q.d.opcode == 0x21 || ((q.d.opcode == 0x22 || q.d.opcode == 0x23) && q.handle != noHandle)

/-- The computation a digest request starts from: a chain state, a state record, or afresh. -/
def digestStart (s : State) (q : Req) (key : Option KeyCopy) (chain : Option ChainState) : Work :=
  let alg := q.d.profile
  let pre := match key with
    | some _ => hashRate alg
    | none => 0
  let fresh := match key with
    | some k => HashWork.startKeyed alg k.secret
    | none => HashWork.start alg
  let w0 : Work := { iv := [], acc := fresh.st, aadDone := pre, textDone := 0, chain := chain }
  match chain with
  | some c => if q.d.later then { w0 with acc := c.acc.take (stateLen alg), textDone := c.textDone } else w0
  | none =>
    if q.item.length < 256 then w0
    else
      match openRecord s q.owner alg (key.map (fun k => (k.slot.getD 0, k.gen))) q.item with
      | some (n, st) => { w0 with acc := st.take (stateLen alg), textDone := n }
      | none => w0

/-- A digest request given a context of a unit (R338, R47). -/
def State.enterDigest (s : State) (rid : Nat) (q : Req) (key : Option KeyCopy) : State :=
  match chooseUnit s roomReq [] with
  | none => s.countWait rid q
  | some u =>
    let (tag, s1) : U64 × State :=
      if q.d.opcode = 0x21 ∧ q.d.contFirst then
        let r := s.drawBytes 8
        (BitVec.ofNat 64 (leNat r.1), r.2)
      else (0, s)
    let slot := match key with
      | some k => k.slot
      | none => none
    let (chain, s2) := s1.chainStart q slot ((key.map KeyCopy.gen).getD 0) 0 tag false []
    let w := digestStart s q key chain
    let resumed := (q.d.opcode == 0x22 || q.d.opcode == 0x23) && decide (256 ≤ q.item.length)
    let s3 := (s2.onReq rid (fun r =>
      { r with m := { r.m with dispatched := true, key := key, work := w, ckpt := w, outReleased := 0
                               posture := s.tango.posture.code } })).enterUnit u rid
    let s4 := { s3 with
      digest := { s3.digest with
        requests := s3.digest.requests + 1
        resumed := if resumed then s3.digest.resumed + 1 else s3.digest.resumed } }
    s4.addBlocks u (b2n (key.isSome && !q.d.later && !resumed))

/-- DISPATCH of a digest request. Input that the staging memory cannot give back ends it there (15 Table 15-2). -/
def State.digestDispatch (s0 : State) (rid : Nat) : State :=
  match s0.req rid with
  | none => s0
  | some q =>
    if !q.atDispatch then s0
    else if q.anyPoison then s0.poisonEnd rid
    else if orderWaits s0 q then s0.countOrder rid q
    else if keyedDigest q then
      let s := (namedSlots q).foldl State.verifySlot s0
      if ((s.req rid).map Req.ended).getD true then s
      else
        match firstFail [useAgain s q.handle, pairCheck s q.handle] with
        | some e => s.myenoEnd rid e
        | none => s.enterDigest rid q (some ((s.slot (hSlot q.handle)).copy (hSlot q.handle) false))
    else s0.enterDigest rid q none

/-- The finish of a digest request (R346, R349, R354): a digest or HMAC goes out as ICV beats, a state record as OUT beats
(Table 1-3). -/
def State.digestFinish (s : State) (rid u : Nat) (q : Req) : State :=
  let alg := q.d.profile
  let h := q.m.work.hash alg
  if q.d.opcode = 0x22 then
    let r := s.makeRecord q.owner (q.m.key.map (fun k => (k.slot.getD 0, k.gen))) alg q.m.work.textDone h.st
    let s1 := { r.2 with digest := { r.2.digest with saved := r.2.digest.saved + 1 } }
    (s1.onReq rid (Req.putOut r.1)).myenoEnd rid (ends .ok 0)
  else if q.d.opens then s.closeGood rid q []
  else
    let n := digestOut q.d
    let res := match q.m.key with
      | some k => hmacClose h k.secret n
      | none => h.finish n
    let s0 := s.addBlocks u (finishBlocks alg h.buf.length n + 2 * b2n q.m.key.isSome)
    if q.d.cmp then
      let same := decide (q.m.expect.take n = res)
      let s1 := { s0 with
        digest := { s0.digest with
          equal := if same then s0.digest.equal + 1 else s0.digest.equal
          notEqual := if same then s0.digest.notEqual else s0.digest.notEqual + 1 } }
      if same then s1.closeGood rid q [] else s1.myenoEnd rid (ends .authFail 0x02)
    else s0.closeGood rid q res

/-- A segment of a digest request is done: the turn ends, a stop takes effect, the last one finishes the request. -/
def State.digestSegDone (s : State) (rid u : Nat) : State :=
  match s.req rid with
  | none => s
  | some q =>
    let k := q.m.segPassed
    let h := q.m.work.hash q.d.profile
    let rest := ((q.m.payload.drop (4096 * k)).take 4096).drop q.m.outReleased
    let w := q.m.work.ofHash (h.absorb rest)
    let q1 : Req :=
      { q with
        m := { q.m with
          work := w, ckpt := w, outReleased := 0, tries := 0, excluded := [], recovering := false
          segIssued := k + 1, segComputed := k + 1, segPassed := k + 1 } }
    let s1 := (s.putReq rid q1).turnOff u
    match q.m.stopAtSegment with
    | some e => s1.myenoEnd rid e
    | none => if q.finalSeg k then s1.digestFinish rid u q1 else s1.lengthEnd rid

/-- A turn of a digest request on its unit, when it is the unit's turn (R339): the rest of one segment, with its finish when it
is the last. Data from a word marked POISON is no input (R27). -/
def State.digestTurn (s : State) (rid op : Nat) : State :=
  match s.req rid, unitOf s rid with
  | some q, some u =>
    if q.d.opcode ≠ op ∨ unitTurn s u ≠ some (.ctx (.req rid)) then s
    else if q.segPoison q.m.segPassed then s.poisonEnd rid
    else ((s.turnOn u (.req rid)).digestRun rid u 4096).digestSegDone rid u
  | _, _ => s

/-- DIGEST (R346). -/
def execDigest (rid : Nat) (s : State) : Out := .next (s.digestTurn rid 0x20)
/-- HMAC (R347). -/
def execHmac (rid : Nat) (s : State) : Out := .next (s.digestTurn rid 0x21)
/-- DIGEST_SAVE (R354). -/
def execDigestSave (rid : Nat) (s : State) : Out := .next (s.digestTurn rid 0x22)
/-- DIGEST_RESUME (R354). -/
def execDigestResume (rid : Nat) (s : State) : Out := .next (s.digestTurn rid 0x23)

/-! ## The register interface (R356 to R363) -/

/-- SPACE (R362). -/
def DigestPage.space (p : DigestPage) : Nat := (1024 - p.backlog.length) / 8

/-- Is a configuration refused (Table 9-9, CONFIG)? -/
def configRefused (alg outLen : Nat) (keyed : Bool) : Bool :=
  hashRate alg == 0 || (keyed && isShake alg) || (isShake alg && (outLen == 0 || decide (64 < outLen)))
    || (!(isShake alg) && decide (hashLen alg < outLen)) || (keyed && decide (1 ≤ outLen ∧ outLen ≤ 15))

/-- A context released. -/
def State.closePage (s : State) (o : Nat) : State :=
  if (s.page o).isOpen then (s.leavePage o).onPage o (fun p => { p.abandon with isOpen := false, reqId := none }) else s

/-- A REQ_ID that is free for the beats of a register block (R356): the lowest. Which one is given is the model's (log entry
73). -/
def pageReqId (s : State) : Option Nat :=
  (List.range (s.reqs.length + s.digest.pages.length + s.port.outstanding.length + 1)).find? (fun i => freeIds s [i] 1)

/-- DG_CONFIG written (R357). -/
def State.dgConfig (s : State) (o v : Nat) : State :=
  let s1 := s.closePage o
  let alg := fld v 0 8
  let keyed := bit v 9
  let outLen := fld v 16 7
  let s2 := s1.onPage o (fun p =>
    { p with alg := alg, compare := bit v 8, keyed := keyed, outLen := outLen, done := false, equal := false,
             notEqual := false, error := 0, kstatus := 0, kdetail := 0, result := zeros 64, resultRead := false })
  if alg = 0 then s2
  else if configRefused alg outLen keyed then s2.onPage o (fun p => { p with error := 7 })
  else
    match chooseUnit s2 roomPage [] with
    | none =>
      { s2.onPage o (fun p => { p with error := 1 }) with
        digest := { (s2.onPage o (fun p => { p with error := 1 })).digest with noContext := s2.digest.noContext + 1 } }
    | some u => (s2.enterPage u o).onPage o (fun p => { p with isOpen := true, reqId := pageReqId s2 })

/-- DG_CONFIG (R357). -/
def execDgConfig (b : Bus) (owner : Nat) (v : U64) (s : State) : Out :=
  .next (s.pageWrite b owner (fun t => t.dgConfig owner v.toNat))

/-- The key of a keyed computation checked and captured (R361). -/
def State.pageKey (s0 : State) (o : Nat) : Option KeyCopy × State :=
  let p := s0.page o
  let n := hSlot p.handle
  let s := s0.verifySlot n
  let bad := firstFail
    [ refusedOutright s, if hKind p.handle = 0 then none else invalid 0x05,
      useCheck s o p.handle, pairCheck s p.handle, lifeCheck s true,
      if tHmac (s.slot n).transform then none else invalid 0x01,
      if (s.slot n).transform = 0x20 + p.alg then none else invalid 0x02 ]
  match bad with
  | some e => (none, s.onPage o (fun q => { q with error := 4, kstatus := e.st.code, kdetail := e.detail }))
  | none => (some ((s.slot n).copy n false), s)

/-- Are data writes dropped until DG_CONFIG is written again (R361, R343)? -/
def DigestPage.blocked (p : DigestPage) : Bool := !p.isOpen || p.error == 4 || p.error == 6 || p.overrun

/-- A computation begun (R360, R361): its key captured, the outcome of the one before cleared. `fresh`: it starts with the key
block, which a restored one has absorbed. -/
def State.pageBegin (s : State) (o : Nat) (fresh : Bool) : State :=
  let p := s.page o
  if p.work.alg ≠ 0 then s
  else
    let lost := p.done && !p.resultRead
    let clear (q : DigestPage) : DigestPage :=
      { q with done := false, equal := false, notEqual := false, result := zeros 64, resultRead := false }
    let s1 := { s.onPage o clear with
      digest := { (s.onPage o clear).digest with
        silentRestarts := if lost then s.digest.silentRestarts + 1 else s.digest.silentRestarts } }
    if p.keyed then
      match s1.pageKey o with
      | (some k, s2) =>
        (s2.onPage o (fun q => { q with key := some k, work := HashWork.startKeyed p.alg k.secret })).addBlocks p.unit (b2n fresh)
      | (none, s2) => s2
    else s1.onPage o (fun q => { q with work := HashWork.start p.alg })

/-- Up to `fuel` whole blocks buffered absorbed, each with its compare passed. Nothing is absorbed after an overrun (R362). -/
def State.pageAbsorb (s : State) (o fuel : Nat) : State :=
  let p := s.page o
  let r := max 1 (hashRate p.alg)
  let n := min fuel (p.backlog.length / r)
  if n = 0 ∨ p.overrun then s
  else
    (s.onPage o (fun q =>
      { q with work := q.work.absorb (q.backlog.take (n * r)), backlog := q.backlog.drop (n * r), tries := 0, excluded := [] })).addBlocks
      p.unit n

/-- The context of a register block moved to another unit (R341, R343). -/
def State.movePage (s : State) (o : Nat) (excluded : List Nat) : Option State :=
  let s1 := s.leavePage o
  (chooseUnit s1 roomPage excluded).map (fun u => s1.enterPage u o)

/-- A register-interface context whose unit is no longer available moves at its next turn; with no room elsewhere its unit
finishes it (R341). -/
def State.pageHome (s : State) (o : Nat) : State := if unitAvail s (s.page o).unit then s else (s.movePage o []).getD s

/-- The finish of a register-interface computation (R359). -/
def State.pageFinish (s0 : State) (o : Nat) : State :=
  let s := (s0.pageHome o).pageAbsorb o 64
  let p := s.page o
  let h := p.work.absorb p.backlog
  let n := p.resLen
  let res := match p.key with
    | some k => hmacClose h k.secret n
    | none => h.finish n
  let same := decide (p.expect.take n = res)
  let s1 := ((s.onPage o (fun q =>
    { q with
      work := HashWork.none, key := none, backlog := [], lastPending := false, tries := 0, excluded := [], done := true
      resultRead := false, equal := q.compare && same, notEqual := q.compare && !same
      result := if q.compare then zeros 64 else cut res 0 64 })).addBlocks p.unit
        (finishBlocks p.alg h.buf.length n + 2 * b2n p.key.isSome)).turnOff p.unit
  { s1 with
    digest := { s1.digest with
      direct := s1.digest.direct + 1
      equal := if p.compare && same then s1.digest.equal + 1 else s1.digest.equal
      notEqual := if p.compare && !same then s1.digest.notEqual + 1 else s1.digest.notEqual } }

/-- The data write of `bs`, after a finish still pending has placed its result (R360). -/
def State.pageData (s0 : State) (o : Nat) (bs : Bytes) : State :=
  if (s0.page o).blocked then s0
  else
    let s := if (s0.page o).lastPending then s0.pageFinish o else s0
    let s1 := s.pageBegin o true
    let p := s1.page o
    if p.blocked then s1
    else if p.space = 0 ∧ bs ≠ [] then
      let s2 := s1.onPage o (fun q => { q with error := 2, overrun := true })
      { s2 with digest := { s2.digest with overruns := s2.digest.overruns + 1 } }
    else s1.onPage o (fun q => { q with backlog := q.backlog ++ bs })

/-- DIGEST_DATA (R358). -/
def execDigestData (b : Bus) (owner : Nat) (v : U64) (s : State) : Out :=
  .next (s.pageWrite b owner (fun t => t.pageData owner (leBytes 8 v.toNat)))

/-- DIGEST_LAST (R358). `off` is the offset written, 0x18. -/
def execDigestLast (b : Bus) (owner : Nat) (off : Nat) (v : U64) (s : State) : Out :=
  .next
    (if off ≠ 0x18 then s
    else
      s.pageWrite b owner (fun t =>
        let t1 := t.pageData owner ((leBytes 8 v.toNat).take (fld v.toNat 56 3))
        if (t1.page owner).blocked then t1 else t1.onPage owner (fun p => { p with lastPending := true })))

/-- DIGEST_FINISH_DONE (R359): the turn of the owner's computation, when it is its unit's turn, with its finish. -/
def execDigestFinishDone (owner : Nat) (s : State) : Out :=
  .next
    (let p := s.page owner
    if p.isOpen ∧ p.lastPending ∧ !p.overrun ∧ unitTurn s p.unit = some (.ctx (.page owner)) then s.pageFinish owner else s)

/-- A block of the owner's computation has failed its compare (R343): the context moves to another unit, or the computation
ends with ERROR 0x06. -/
def State.pageMismatch (s : State) (owner : Nat) : State :=
  let p := s.page owner
  let s1 := s.unitMismatch p.unit
  let ex := p.excluded ++ [p.unit]
  let lost := s1.onPage owner (fun q => { q.abandon with error := 6 })
  if 2 ≤ p.tries then lost
  else
    match s1.movePage owner ex with
    | none => lost
    | some s2 => (s2.onPage owner (fun q => { q with tries := q.tries + 1, excluded := ex })).countRecomputed

/-- The turn of unit `u` goes on by up to `n` blocks whose compares pass (R339, R342), and, unless `last` is a pass, by one whose
compare fails (R343). -/
def State.unitRun (s : State) (u n : Nat) (last : BlockEnd) : State :=
  let bad (t : State) : State := if last = .paceLate then t.paceLate else t
  match unitTurn s u with
  | none => s
  | some .internal =>
    let s1 := s.internalRun u n
    if last = .pass then s1
    else
      match (s1.unitAt u).internal with
      | some j => (bad s1).internalMismatch u j
      | none => s1
  | some (.ctx (.req rid)) =>
    let s1 := (s.turnOn u (.req rid)).digestRun rid u n
    if last = .pass then s1
    else
      match s1.req rid with
      | some q => (bad s1).digestMismatch rid q
      | none => s1
  | some (.ctx (.page o)) =>
    if !(unitAvail s u) ∧ (s.movePage o []).isSome then s.pageHome o
    else
      let s1 := (s.turnOn u (.page o)).pageAbsorb o n
      if last = .pass then s1 else (bad s1).pageMismatch o

/-- DIGEST_BLOCK_DONE (R342, R343): unit `u` finishes the blocks of its turn whose compares pass, and then, unless
`done.last` is a pass, one whose compare fails. A unit without a turn runs FILL blocks in QUIET, whose failed compare counts against it. -/
def execDigestBlockDone (u : Nat) (done : BlocksDone) (s : State) : Out :=
  unit u 8
    (if unitTurn s u = none ∧ done.last ≠ .pass ∧ s.tango.posture = .quiet then
      (if done.last = .paceLate then s.paceLate else s).unitMismatch u
    else s.unitRun u done.passed done.last)

/-- Octets of message that a state record counts: the key block is not message (R352). -/
def DigestPage.length (p : DigestPage) : Nat := p.work.total - (if p.keyed then hashRate p.alg else 0)

/-- DG_CMD_SAVE (R363). -/
def execDgCmdSave (b : Bus) (owner : Nat) (s : State) : Out :=
  .next (s.pageWrite b owner (fun t =>
    if (t.page owner).blocked ∨ (t.page owner).lastPending then t
    else
      let t1 := ((t.pageHome owner).pageBegin owner true).pageAbsorb owner 64
      let p := t1.page owner
      if p.blocked then t1
      else if p.backlog ≠ [] then t1.onPage owner (fun q => { q with error := 3 })
      else
        let r := t1.makeRecord owner (p.key.map (fun k => (k.slot.getD 0, k.gen))) p.alg p.length p.work.st
        let t2 := r.2.onPage owner (fun q => { q with stateRec := r.1 })
        { t2 with digest := { t2.digest with saved := t2.digest.saved + 1 } }))

/-- DG_CMD_RESTORE (R363). -/
def execDgCmdRestore (b : Bus) (owner : Nat) (s : State) : Out :=
  .next (s.pageWrite b owner (fun t =>
    if (t.page owner).blocked then t
    else
      let t1 := ((t.onPage owner DigestPage.abandon).pageBegin owner false).countControl (if (t.page owner).keyed then wrapBlocks 224 else 0)
      let p := t1.page owner
      if p.blocked then t1
      else
        let slot := if p.keyed then some (hSlot p.handle, hGen p.handle) else none
        match openRecord t1 owner p.alg slot p.stateRec with
        | none =>
          let t2 := t1.onPage owner (fun q => { q.abandon with error := 5 })
          { t2 with digest := { t2.digest with refused := t2.digest.refused + 1 } }
        | some (n, st) =>
          let t2 := t1.onPage owner (fun q =>
            { q with work := { alg := q.alg, st := st.take (stateLen q.alg), buf := []
                               total := n + (if q.keyed then hashRate q.alg else 0) } })
          { t2 with digest := { t2.digest with resumed := t2.digest.resumed + 1 } }))

/-- DG_CMD_ABANDON (R363). -/
def execDgCmdAbandon (b : Bus) (owner : Nat) (s : State) : Out :=
  .next (s.pageWrite b owner (fun t =>
    if (t.page owner).isOpen then
      t.onPage owner (fun p => { p.abandon with error := if p.overrun then 0 else p.error })
    else t))

end Sys2Proof.Machine
end

