-- ==== Sys2Proof/Machine/Engine.lean ====
section
/-!
DEFINITION. What an engine computes (Table 10-1): its five commands over the accumulator, the operand memory of one context and
that context's area of Caller data memory. Which commands a routine issues, the specification leaves to the Caller's firmware: they
are free values of what R386 lets them depend on.
-/
namespace Sys2Proof.Machine

/-- A command of an engine; addresses count 64-bit words. MAC_WIDE: operand A of `n` words at `a`, word `w`, offset `j`. ACC_STORE:
64 words from word `j`, or bits [s+63:s] of each lane. -/
inductive EngineCmd where
  | macWide (a n w j : Nat)
  | macLanes (a b : Nat)
  | accZero
  | accSet (a : Nat)
  | accStore (j a : Nat)
  | accStoreLanes (s a : Nat)
  | moveIn (area a : Nat)
  | moveOut (a area : Nat)
  deriving DecidableEq, Repr

/-- What the commands of one context see: the accumulator, the operand memory and the area of data memory. -/
structure EngineView where
  acc : BitVec 8320
  mem : Tab U64
  area : Tab U64
  deriving DecidableEq, Repr

/-- A word of a memory; `n` words from `a`, the first the least significant. -/
def wordAt (m : Tab U64) (a : Nat) : U64 := Tab.get (fun _ => 0) m a
def wordsAt (m : Tab U64) (a n : Nat) : List U64 := (List.range n).map (fun i => wordAt m (a + i))

/-- Words written from `a` on. -/
def putWords (m : Tab U64) (a : Nat) : List U64 → Tab U64
  | [] => m
  | w :: t => putWords (Tab.set (fun _ => 0) m a w) (a + 1) t

/-- The number that words spell. -/
def wordsNat : List U64 → Nat
  | [] => 0
  | w :: t => w.toNat + 2 ^ 64 * wordsNat t

/-- Words of operand memory of a context: 16 KiB. -/
def contextWords : Nat := 2048

/-- Bits [130i+129:130i] of the accumulator: lane sum F_i. -/
def laneSum (acc : BitVec 8320) (i : Nat) : Nat := fld acc.toNat (130 * i) 130

/-- The effect of a command (Table 10-1). `held` gives the words that the Caller's thread holds in the area. -/
def EngineView.run (c : EngineCmd) (held : Nat → U64) (v : EngineView) : EngineView :=
  match c with
  | .macWide a n w j =>
    { v with acc := v.acc + BitVec.ofNat 8320 (wordsNat (wordsAt v.mem a n) * (wordAt v.mem w).toNat * 2 ^ (64 * j)) }
  | .macLanes a b =>
    let f (i : Nat) : Nat := (laneSum v.acc i + (wordAt v.mem (a + i)).toNat * (wordAt v.mem (b + i)).toNat) % 2 ^ 130
    { v with acc := BitVec.ofNat 8320 (((List.range 64).map (fun i => f i * 2 ^ (130 * i))).sum) }
  | .accZero => { v with acc := 0 }
  | .accSet a => { v with acc := BitVec.ofNat 8320 (wordsNat (wordsAt v.mem a 130)) }
  | .accStore j a =>
    { v with mem := putWords v.mem a ((List.range 64).map (fun i => BitVec.ofNat 64 (fld v.acc.toNat (64 * (j + i)) 64))) }
  | .accStoreLanes s a =>
    { v with mem := putWords v.mem a ((List.range 64).map (fun i => BitVec.ofNat 64 (laneSum v.acc i / 2 ^ s))) }
  | .moveIn area a =>
    let ws := (List.range 64).map held
    { v with area := putWords v.area area ws, mem := putWords v.mem a ws }
  | .moveOut a area => { v with area := putWords v.area area (wordsAt v.mem a 64) }

/-- The command that the fields of a free value spell, within the context's memory and Table 10-1's ranges. -/
def EngineCmd.ofFields (f : Nat → Nat) : EngineCmd :=
  let at_ (k room : Nat) : Nat := f k % (contextWords - room)
  match f 0 % 8 with
  | 0 => let n := f 1 % 64 + 1; .macWide (at_ 2 64) n (at_ 3 0) (f 4 % 66)
  | 1 => .macLanes (at_ 1 64) (at_ 2 64)
  | 2 => .accZero
  | 3 => .accSet (at_ 1 130)
  | 4 => .accStore (f 1 % 67) (at_ 2 64)
  | 5 => .accStoreLanes (f 1 % 67) (at_ 2 64)
  | 6 => .moveIn (at_ 1 64) (at_ 2 64)
  | _ => .moveOut (at_ 1 64) (at_ 2 64)

/-- `n` steps of a job from step `k` on. -/
def EngineView.steps (cmd : Nat → EngineCmd) (held : Nat → Nat → U64) : Nat → Nat → EngineView → EngineView
  | 0, _, v => v
  | n + 1, k, v => EngineView.steps cmd held n (k + 1) (v.run (cmd k) (held k))

/-- Octets of thread registers held (log entry 76). -/
def threadOctets : Nat := 128

/-- The steps `k` to `k + n` of job `j` of engine `e` run: the accumulator, the operand memory and the area of its context, and the
registers of its thread (R365, R367, R369). -/
def State.engineRun (s : State) (e n : Nat) (q : Req) (j : Job) : State :=
  let x := 4 * e + j.ctx
  let key := (q.m.key.map KeyCopy.secret).getD []
  let oct (k i : Nat) : Byte := Config.callerOctet q.d.profile key q.m.payload j.drawn k i
  let held (k i : Nat) : U64 := BitVec.ofNat 64 (leNat (octetsOf 8 (fun b => oct k (threadOctets + 8 * i + b))))
  let v := EngineView.steps (fun k => EngineCmd.ofFields (Config.engineCmd q.d.profile q.d.inLen j.iters k)) held n j.steps
    { acc := s.pke.accs.getD e 0, mem := s.pke.operands.getD x [], area := s.pke.areas.getD x [] }
  { s with
    pke := { s.pke with
      accs := s.pke.accs.set e v.acc, operands := s.pke.operands.set x v.mem, areas := s.pke.areas.set x v.area
      threads := s.pke.threads.set x (octetsOf threadOctets (oct (j.steps + n))) } }

/-- Context `c` of engine `e` zeroed (R392): its operand memory, its area of data memory, the registers of its thread. -/
def State.zeroContext (s : State) (e c : Nat) : State :=
  let x := 4 * e + c
  { s with
    pke := { s.pke with
      operands := s.pke.operands.set x [], areas := s.pke.areas.set x [], threads := s.pke.threads.set x [] } }

/-- The instruction memory of the Caller, and its data memory as loaded (R369, R371): both hold the image until a reset (R373). -/
def State.instructionMemory (s : State) : Bytes := s.ident.fwImage.take s.pke.instrLen
def State.initialData (s : State) : Bytes := s.ident.fwImage.drop s.pke.instrLen

end Sys2Proof.Machine
end

