-- ==== Sys2Proof/Machine/Pke.lean ====
section
/-!
DEFINITION. The public-key engines and the Caller (chapter 10): dispatch of a job, yield points, its end with the
release of its result or its target load, mismatches, lockstep faults.
-/
namespace Sys2Proof.Machine

/-! ## Step counts (Table 10-7) -/

/-- Steps of a routine; `t` is the slot's transform for KEYPAIR and IMPORT, `i` the signing iterations of ML-DSA. -/
def routineSteps (code t i : Nat) : Nat :=
  let pick (l : List Nat) (k : Nat) : Nat := l.getD k 0
  if code ≤ 0x03 then pick [0, 28672, 61440, 143360] code
  else if code ≤ 0x06 then pick [57344, 122880, 286720] (code - 4)
  else if code ≤ 0x0C then pick [24576, 53248, 124928, 18432, 19456, 38912] (code - 7)
  else if code ≤ 0x1B then
    pick [83968, 283648, 671744, 5120, 11264, 20480, 83968, 283648, 671744, 5120, 11264, 20480] (code - 0x10)
  else if code ≤ 0x23 then pick [10240, 14336, 13312, 18432] (code - 0x20)
  else if code = 0x24 then 6144 + 12288 * i
  else if code = 0x25 then 8192 + 16384 * i
  else if code ≤ 0x27 then pick [14336, 20480] (code - 0x26)
  else if code = 0x30 then
    pick [24576, 53248, 124928, 18432, 17408] (t - 0x41)
      + (if 0x4C ≤ t then pick [8192, 12288, 11264, 16384] (t - 0x4C) else 0)
  else if code = 0x31 then (if t = 0x43 then 124928 else pick [89088, 294912, 692224] (t - 0x48))
  else pick [26624, 47104, 31744] (code - 0x38)

/-- Does a routine draw at dispatch (R382)? -/
def routineDraws (code : Nat) : Bool := !(([0x04, 0x05, 0x06, 0x0C, 0x13, 0x14, 0x15, 0x26, 0x27] : List Nat).contains code)

/-- Is a routine a hedged ML-DSA signature, which runs iterations (R386)? -/
def iterates (code : Nat) : Bool := code == 0x24 || code == 0x25

/-- Steps before the first iteration of an ML-DSA signature, and steps of an iteration (Table 10-7). -/
def iterBase (code : Nat) : Nat := if code = 0x24 then 6144 else 8192
def iterSteps (code : Nat) : Nat := if code = 0x24 then 12288 else 16384

/-- Iterations completed in `n` steps. -/
def itersDone (code n : Nat) : Nat := if iterates code then (n - iterBase code) / iterSteps code else 0

/-- Octets of the message that a routine hashes (R385); none for a routine other than Ed25519 and ML-DSA. -/
def messageLen (code : Nat) (b : Bytes) : Option Nat :=
  let after (n : Nat) : Nat := b.length - n - 1 - leNat (cut b n 1)
  match code with
  | 0x0B => some b.length
  | 0x0C => some (b.length - 96)
  | 0x24 => some (after 0)
  | 0x25 => some (after 0)
  | 0x26 => some (after 5261)
  | 0x27 => some (after 7219)
  | _ => none

/-- Is the message within the 32,768 octets of Table 10-8, where the length of ctx, which only the input shows, decides (R381)? -/
def messageFits (code : Nat) (b : Bytes) : Bool :=
  let at_ (n : Nat) : Bool :=
    let l := leNat (cut b n 1)
    decide (n + 1 + l ≤ b.length ∧ b.length ≤ n + 1 + l + 32768)
  match code with
  | 0x24 => at_ 0
  | 0x25 => at_ 0
  | 0x26 => at_ 5261
  | 0x27 => at_ 7219
  | _ => true

/-- Blocks of the message's digest beyond those of a message of 64 octets (R385): SHA-512 for Ed25519, SHAKE256 for ML-DSA. -/
def messageBlocks (code : Nat) (b : Bytes) : Nat :=
  let count (n : Nat) : Nat := if code < 0x10 then finishBlocks 3 n 64 else finishBlocks 9 n 64
  match messageLen code b with
  | some n => count n - count 64
  | none => 0

/-! ## Engines -/

/-- Is an engine available (R383)? -/
def engineAvail (s : State) (e : Nat) : Bool :=
  s.pke.enable.getLsbD e
    && (match (s.engineAt e).state with
        | .idle => true
        | .active => true
        | _ => false)

/-- Steps a job has still to run. -/
def Job.left (j : Job) : Nat := if j.zeroing then 0 else j.total - j.steps

/-- REMAINING_STEPS (Table 10-13). -/
def Engine.left (e : Engine) : Nat := (e.jobs.map Job.left).sum

/-- The engine chosen for a job (R383). -/
def chooseEngine (s : State) (excluded : List Nat) : Option Nat :=
  let cands := ((List.range 4).map (fun i => (s.pke.pointer + i) % 4)).filter (fun e =>
    engineAvail s e && decide ((s.engineAt e).jobs.length < 4) && !(excluded.contains e))
  cands.foldl (fun best e =>
    match best with
    | none => some e
    | some b => if (s.engineAt e).left < (s.engineAt b).left then some e else best) none

/-- An engine brought into line with ENGINE_ENABLE, its mismatches and its jobs (R383, R391). -/
def State.engineSettle (s : State) (e : Nat) : State := s.onEngine e (Engine.settle (s.pke.enable.getLsbD e && unitsPowered s))

/-- The lowest context of an engine that no job has (DESIGN CHOICE, log entry 76). -/
def Engine.freeContext (x : Engine) : Nat :=
  ((List.range 4).find? (fun c => !(x.jobs.any (fun j => j.ctx == c)))).getD 0

/-- The ready job with the fewest remaining steps; the earliest in its context among equals. -/
def fewest : List Job → Option Job
  | [] => none
  | j :: t =>
    match fewest t with
    | none => some j
    | some k => if k.left < j.left then some k else some j

/-- The jobs of an engine that are ready: not those whose context is being zeroed, nor those that wait for the digest of their
message (R385). -/
def readyJobs (s : State) (e : Nat) : List Job :=
  (s.engineAt e).jobs.filter (fun j => !j.zeroing && !(internalBusy s j.req))

/-- The job that holds an engine: its current one, or, when none is, the ready job with the fewest remaining steps. -/
def holderOf (s : State) (e : Nat) : Option Job :=
  match (s.engineAt e).current with
  | some r => (s.engineAt e).jobs.find? (fun j => j.req == r && !j.zeroing)
  | none => fewest (readyJobs s e)

/-- The choice at a yield point (R384): the job, and whether it was made under STARVE_LIMIT. `h` is the job that holds the engine and
may keep it, if one does. -/
def chooseJob (limit : Nat) (ready : List Job) (h : Option Job) : Option (Job × Bool) :=
  let isHolder (j : Job) : Bool := (h.map Job.req) == some j.req
  match (ready.filter (fun j => !(isHolder j))).find? (fun j => decide (limit ≤ j.passes)) with
  | some j => some (j, true)
  | none =>
    match fewest ready, h with
    | some j, some k => some (if j.left < k.left then j else k, false)
    | some j, none => some (j, false)
    | none, k => k.map (fun j => (j, false))

/-- A yield point of engine `e` (R384): the next job is chosen, and every ready job that is not has been passed over. -/
def State.yield (s : State) (e : Nat) (h : Option Job) : State :=
  let ready := readyJobs s e
  let c := chooseJob s.pke.starveLimit ready h
  let next := c.map (fun x => x.1.req)
  let pass (j : Job) : Job :=
    if next = some j.req ∧ !j.zeroing then { j with passes := 0 }
    else if ready.contains j then { j with passes := j.passes + 1 }
    else j
  let s1 := s.onEngine e (fun x => { x with current := next, jobs := x.jobs.map pass })
  { s1 with
    pke := { s1.pke with
      yields := if h.isSome ∧ next ≠ h.map Job.req then s1.pke.yields + 1 else s1.pke.yields
      starveGrants := if (c.map Prod.snd).getD false then s1.pke.starveGrants + 1 else s1.pke.starveGrants } }

/-- A job put on an engine. -/
def State.enterEngine (s : State) (e : Nat) (j : Job) : State :=
  let s1 := (s.onEngine e (fun x => { x with jobs := x.jobs ++ [{ j with ctx := x.freeContext }] })).engineSettle e
  { s1 with pke := { s1.pke with pointer := (e + 1) % 4 } }

/-- A job leaves the engine: its context is being zeroed (R392), and what remained of its message's digest is dropped. An engine that it
held goes on with the choice of a yield point, when it left at one, or else with the ready job with the fewest remaining steps. -/
def State.leaveEngine (s : State) (e rid : Nat) (atYield : Bool) : State :=
  let held := decide ((s.engineAt e).current = some rid)
  let s1 := (s.internalDrop rid).onEngine e (fun x =>
    { x with
      current := if x.current = some rid then none else x.current
      jobs := x.jobs.map (fun j => if j.req = rid then { j with zeroing := true } else j) })
  if held ∧ atYield then s1.yield e none
  else if held then
    let next := fewest (readyJobs s1 e)
    s1.onEngine e (fun x =>
      { x with
        current := next.map Job.req
        jobs := x.jobs.map (fun j => if next.map Job.req = some j.req ∧ !j.zeroing then { j with passes := 0 } else j) })
  else s1

/-- Entries of the result FIFO that an output of `n` octets needs (R399). -/
def fifoEntries (n : Nat) : Nat := (n + 5) / 6 + 1

/-- A result FIFO's reservation released (R399). -/
def State.releaseFifo (s : State) (q : Req) : State :=
  if toFifo q.d then
    let n := fifoEntries (routineOut q.d.profile ((q.m.key.map KeyCopy.transform).getD 0))
    s.putFifo 0 q.owner { s.fifo 0 q.owner with reserved := (s.fifo 0 q.owner).reserved - n }
  else s

/-- The job of a request ends without output (R388, R393), at a yield point of its engine or, with the Caller's threads stopped,
anywhere. -/
def State.jobEnd (s : State) (e rid : Nat) (q : Req) (en : Ending) (atYield : Bool) : State :=
  ((s.leaveEngine e rid atYield).releaseFifo q).myenoEnd rid en

/-! ## Dispatch (R382, R383) -/

/-- A job waits, counted once (PKE_WAITS). -/
def State.pkeWait (s : State) (rid : Nat) (q : Req) : State :=
  if q.m.waitCounted then s
  else
    let s1 := s.onReq rid (fun r => { r with m := { r.m with waitCounted := true } })
    { s1 with pke := { s1.pke with waits := s1.pke.waits + 1 } }

/-- Octets of the draw of a job: what its routine uses of it comes first (log entry 75). -/
def pkeDraw : Nat := 64

/-- The job assigned to engine `e` with its draw. -/
def State.startJob (s : State) (rid e : Nat) (q : Req) (key : Option KeyCopy) : State :=
  let code := q.d.profile
  let t := (key.map KeyCopy.transform).getD 0
  let (drawn, s1) : Bytes × State := if routineDraws code then s.internalDraw pkeDraw else ([], s)
  let it := if iterates code then 1 + Config.mldsaIters code ((key.map KeyCopy.secret).getD []) q.m.payload % 256 else 0
  let slot := match key with
    | some k => k.slot
    | none => none
  let j : Job :=
    { req := rid, ctx := 0, slot := slot, steps := 0, total := routineSteps code t it, passes := 0, zeroing := false, iters := it
      drawn := drawn }
  let entries := if toFifo q.d then fifoEntries (routineOut code t) else 0
  let s2 := (s1.onReq rid (fun r =>
    { r with m := { r.m with dispatched := true, key := key, posture := s.tango.posture.code } })).enterEngine e j
  let s3 := if entries = 0 then s2
    else s2.putFifo 0 q.owner { s2.fifo 0 q.owner with reserved := (s2.fifo 0 q.owner).reserved + entries }
  ({ s3 with pke := { s3.pke with jobs := s3.pke.jobs + 1 } }).internalStart rid (messageBlocks code q.m.payload)

/-- A job that passed its tests waits for the Caller, the draw, its FIFO entries or an engine, or is assigned one. -/
def State.assignEngine (s : State) (rid : Nat) (q : Req) (key : Option KeyCopy) : State :=
  let code := q.d.profile
  let t := (key.map KeyCopy.transform).getD 0
  match s.pke.caller with
  | .faulted => s.myenoEnd rid (ends .internal 0x02)
  | .ready =>
    match (if routineDraws code then rngRefusal s else none) with
    | some e => s.myenoEnd rid e
    | none =>
      if routineDraws code ∧ drawWaits s then s
      else if toFifo q.d ∧ (s.fifo 0 q.owner).space 512 < fifoEntries (routineOut code t) then s.pkeWait rid q
      else
        match chooseEngine s [] with
        | none => s.pkeWait rid q
        | some e => s.startJob rid e q key
  | _ => s.pkeWait rid q

/-- DISPATCH of a PKE_RUN. -/
def State.pkeDispatch (s0 : State) (rid : Nat) : State :=
  match s0.req rid with
  | none => s0
  | some q =>
    if !q.atDispatch ∨ !q.m.lastSeen then s0
    else if q.anyPoison then s0.poisonEnd rid
    else if orderWaits s0 q then s0.countOrder rid q
    else if !(targetSettled s0 q) then s0
    else
      match q.m.totalWrong with
      | some w => s0.myenoEnd rid (ends .lengthMismatch w)
      | none =>
        if !(messageFits q.d.profile q.m.payload) then s0.myenoEnd rid (ends .lengthMismatch 0x07)
        else if q.handle = noHandle then s0.assignEngine rid q none
        else
          let s := (namedSlots q).foldl State.verifySlot s0
          if ((s.req rid).map Req.ended).getD true then s
          else
            match useAgain s q.handle with
            | some e => s.myenoEnd rid e
            | none => s.assignEngine rid q (some ((s.slot (hSlot q.handle)).copy (hSlot q.handle) false))

/-- PKE_RUN (R380): the job is dispatched. -/
def execPkeRun (rid : Nat) (s : State) : Out :=
  .next <|
    match s.req rid with
    | none => s
    | some q => if q.d.opcode = 0x40 then s.pkeDispatch rid else s

/-! ## Yield points (R384, R393) -/

/-- Job `h` of engine `e` has run `n` steps more. -/
def State.jobSteps (s : State) (e n : Nat) (q : Req) (h : Job) : State :=
  let s1 := (s.engineRun e n q h).onEngine e (fun x =>
    { x with
      current := some h.req, steps := x.steps + BitVec.ofNat 64 n
      jobs := x.jobs.map (fun j => if j.req = h.req ∧ !j.zeroing then { j with steps := h.steps + n } else j) })
  let done := itersDone q.d.profile (h.steps + n) - itersDone q.d.profile h.steps
  { s1 with pke := { s1.pke with mldsaIterations := s1.pke.mldsaIterations + BitVec.ofNat 64 done } }

/-- YIELD_POINT (R384): the holder has run its next 1,024 steps. -/
def execYieldPoint (engine : Nat) (s : State) : Out :=
  unit engine 4 <|
    match holderOf s engine with
    | none => s
    | some h =>
      match s.req h.req with
      | none => s
      | some q =>
        if h.total ≤ h.steps + 1024 then s
        else
          let s1 := s.jobSteps engine 1024 q h
          match q.m.stopAtSegment with
          | some en => s1.jobEnd engine h.req q en true
          | none => s1.yield engine (some { h with steps := h.steps + 1024 })

/-! ## The end of a job (R388, R395 to R400) -/

/-- A key record made (R376): the body sealed under the record key. -/
def State.keyRecord (s : State) (t : Nat) (secret body : Bytes) : Bytes × State :=
  let r := s.wrapNonce
  let head : Bytes := [0x21, BitVec.ofNat 8 t, 0, 0] ++ r.1
  let e := gcmSeal (cut secret 0 32) r.1 head body
  (head ++ e.1 ++ e.2, r.2)

/-- The private key that a job uses: the slot's secret, or the body of the key record under it (R376, R377). -/
def jobKey (q : Req) : Bytes :=
  let k := (q.m.key.map KeyCopy.secret).getD []
  let n := recordLen q.d.profile ((q.m.key.map KeyCopy.transform).getD 0)
  let b := q.m.payload.take n
  if n = 0 then k else (gcmOpen (cut k 0 32) (cut b 4 12) (cut b 0 16) (cut b 16 (n - 32)) (cut b (n - 16) 16)).getD []

/-- A job's input after its key record. -/
def jobInput (q : Req) : Bytes := q.m.payload.drop (recordLen q.d.profile ((q.m.key.map KeyCopy.transform).getD 0))

/-- `n` octets of a primitive of a published standard, named by the routine that computes it alone; `off` past 65,535 for what the
routine keeps inside the T9. -/
def prim (code off n : Nat) (key input drawn : Bytes) : Bytes := octetsOf n (fun i => Config.pkeResult code key input drawn (off + i))

/-- `n` octets of the public key of a private key of transform `t` (Table 10-4). -/
def keyPub (t n : Nat) (secret : Bytes) : Bytes := prim (0x3000 + t) 0 n secret [] []

/-- X25519 of a scalar and a point, and the point of a scalar (RFC 7748). -/
def x25519 (k u : Bytes) : Bytes := prim 0x0A 65536 32 k u []
def x25519Public (k : Bytes) : Bytes := x25519 k (leBytes 32 9)

/-- The key K and the ciphertext of ML-KEM encapsulation with `m`, and the key of decapsulation, of routines 0x20 to 0x23. -/
def kemCipher (code : Nat) (ek m : Bytes) : Bytes := prim code 0 (routineOut code 0) [] ek m
def kemKey (code : Nat) (ek m : Bytes) : Bytes := prim code 65536 32 [] ek m
def kemOpen (code : Nat) (dz c : Bytes) : Bytes := prim code 65536 32 dz c []

/-- What the seed of a hybrid key expands to: the X25519 scalar, and ML-KEM's d and z (R380). -/
def hybridKeys (seed : Bytes) : Bytes × Bytes :=
  let x := ((HashWork.start 9).absorb (cut seed 0 32)).finish 96
  (cut x 0 32, cut x 32 64)

/-- Does a routine's output depend on its draw? Of the others the draw blinds the computation only. -/
def outputDrawn (code : Nat) : Bool :=
  ([0x01, 0x02, 0x03, 0x10, 0x11, 0x12, 0x19, 0x1A, 0x1B, 0x20, 0x21, 0x24, 0x25] : List Nat).contains code

/-- Public output of a routine (Table 10-8). -/
def State.pkeOutput (s : State) (q : Req) (j : Job) : Bytes × State :=
  let code := q.d.profile
  let t := (q.m.key.map KeyCopy.transform).getD 0
  let k := (q.m.key.map KeyCopy.secret).getD []
  let x := jobInput q
  if code = 0x31 then s.keyRecord t k (if t = 0x43 then x ++ keyPub 0x43 132 x else x)
  else if code = 0x30 ∧ t = 0x43 then
    let d := p521.candidate (prim code 65536 66 [] [] j.drawn)
    let r := s.keyRecord t k (d ++ keyPub 0x43 132 d)
    (r.1 ++ keyPub 0x43 132 d, r.2)
  else if code = 0x30 then (if t = 0x44 then x25519Public (cut k 0 32) else keyPub t (routineOut code t) k, s)
  else if code = 0x16 ∨ code = 0x17 ∨ code = 0x18 then
    let n := leNat (prim code 65536 2 (jobKey q) x []) % (routineOut code t + 1)
    (prim code 0 n (jobKey q) x [], s)
  else if code = 0x38 then
    let h := hybridKeys k
    (x25519Public h.1 ++ keyPub 0x4C 1184 h.2, s)
  else if code = 0x39 then (x25519Public (cut j.drawn 0 32) ++ kemCipher 0x20 (cut x 32 1184) (cut j.drawn 32 32), s)
  else (prim code 0 (routineOut code t) (jobKey q) x (if outputDrawn code then j.drawn else []), s)

/-- Octets of input before CONTEXT, after a key record (R381). -/
def contextAt (code : Nat) : Nat :=
  match code with
  | 0x09 => 132
  | _ => ((routines.find? (fun r => r.code == code)).map Routine.minIn).getD 0

/-- The shared secret Z of a routine (R395). -/
def sharedSecret (q : Req) (j : Job) : Bytes :=
  let x := jobInput q
  match q.d.profile with
  | 0x07 => prim 0x07 65536 32 (jobKey q) (x.take 64) []
  | 0x08 => prim 0x08 65536 48 (jobKey q) (x.take 96) []
  | 0x09 => prim 0x09 65536 66 (jobKey q) (x.take 132) []
  | 0x0A => x25519 (jobKey q) (x.take 32)
  | 0x20 => kemKey 0x20 (x.take 1184) (cut j.drawn 0 32)
  | 0x21 => kemKey 0x21 (x.take 1568) (cut j.drawn 0 32)
  | 0x22 => kemOpen 0x22 (jobKey q) (x.take 1088)
  | 0x23 => kemOpen 0x23 (jobKey q) (x.take 1568)
  | 0x39 => kemKey 0x20 (cut x 32 1184) (cut j.drawn 32 32) ++ x25519 (cut j.drawn 0 32) (x.take 32)
  | 0x3A =>
    let h := hybridKeys (jobKey q)
    kemOpen 0x22 h.2 (cut x 32 1088) ++ x25519 h.1 (x.take 32)
  | _ => []

/-- The transcript hash T (R395). -/
def transcript (q : Req) (out : Bytes) : Bytes :=
  let code := q.d.profile
  let x := jobInput q
  let sha3 (b : Bytes) : Bytes := ((HashWork.start 5).absorb b).finish 32
  if code = 0x20 ∨ code = 0x21 then sha3 out
  else if code = 0x22 then sha3 (cut x 0 1088)
  else if code = 0x23 then sha3 (cut x 0 1568)
  else if code = 0x39 then sha3 (cut x 0 32 ++ out)
  else if code = 0x3A then sha3 (x25519Public (hybridKeys (jobKey q)).1 ++ cut x 0 1120)
  else []

/-- The load of TARGET with the derived key (R394 to R396). -/
def targetLoad (s : State) (rid : Nat) (q : Req) (j : Job) (out : Bytes) : Load :=
  let code := q.d.profile
  let p := readParams q.item
  let n := (keyBytes p.transform).getD 32
  let label : Bytes := [0x54, 0x39, 0x20, 0x70, 0x6B, 0x65, 0x20, 0x64, 0x65, 0x72, 0x69, 0x76, 0x65]
  let ctx := [BitVec.ofNat 8 code] ++ (jobInput q).drop (contextAt code) ++ transcript q out
  let km := octetsOf (n + 12) (Config.kdf (sharedSecret q j) label ctx)
  { p.load q.d.selector 3 rid 0 s.start.bootEpoch with secret := km.take n, salt12 := km.drop n }

/-! ## Rejections (R388, Table 10-9) -/

/-- The curve of a routine or of a key. -/
def routineCurve (code : Nat) : Curve :=
  match code % 3 with
  | 1 => p256
  | 2 => p384
  | _ => p521
def keyCurve (t : Nat) : Option Curve :=
  match t with
  | 0x41 => some p256
  | 0x42 => some p384
  | 0x43 => some p521
  | _ => none

/-- Octets of the RSA modulus of a routine, or of a key transform. -/
def rsaBytes (code : Nat) : Nat :=
  match (code - 0x10) % 3 with
  | 0 => 256
  | 1 => 384
  | _ => 512
def rsaKeyBytes (t : Nat) : Nat := 256 + 128 * (t - 0x48)

/-- Is a number a modulus of `k` octets: its top bit set? -/
def fullSize (k n : Nat) : Bool := decide (2 ^ (8 * k - 1) ≤ n)

/-- The modulus check of FIPS 203 on an encapsulation key whose vector has `n` octets: every 12-bit coefficient below 3,329. -/
def kemKeyOk (n : Nat) (ek : Bytes) : Bool :=
  (List.range (n / 3)).all (fun i =>
    let v := leNat (cut ek (3 * i) 3)
    decide (v % 4096 < 3329 ∧ v / 4096 < 3329))

/-- The order of the group of Ed25519. -/
def ed25519L : Nat := 2 ^ 252 + 27742317777372353535851937790883648493

/-- Does Table 10-9 reject what a job computes with, as far as it is arithmetic on the key and the input? -/
def inputRejected (q : Req) (j : Job) : Bool :=
  let code := q.d.profile
  let t := (q.m.key.map KeyCopy.transform).getD 0
  let k := jobKey q
  let x := jobInput q
  let rc := routineCurve code
  let secretOk (c : Curve) (b : Bytes) : Bool := c.scalar (beNat (cut b 0 c.size))
  let num (off len : Nat) : Nat := beNat (cut x off len)
  if code ≤ 0x03 then !(secretOk rc k)
  else if code ≤ 0x06 then
    let h := 16 * ((code - 4) + 2)
    !(rc.point x) || !(rc.scalar (num (2 * rc.size + h) rc.size)) || !(rc.scalar (num (3 * rc.size + h) rc.size))
  else if code ≤ 0x09 then !(secretOk rc k) || !(rc.point x)
  else if code = 0x0A then sharedSecret q j == zeros 32
  else if code = 0x0C then decide (ed25519L ≤ leNat (cut x 64 32))
  else if 0x10 ≤ code ∧ code ≤ 0x12 then !(fullSize (rsaBytes code) (beNat (cut k 0 (rsaBytes code))))
  else if 0x16 ≤ code ∧ code ≤ 0x18 then
    let n := beNat (cut k 0 (rsaBytes code))
    let c := num 0 (rsaBytes code)
    !(fullSize (rsaBytes code) n) || c == 0 || decide (n ≤ c)
  else if 0x13 ≤ code ∧ code ≤ 0x1B then
    let b := rsaBytes code
    let n := num 0 b
    let e := num b 4
    let sig := beNat (x.drop (x.length - b))
    n % 2 == 0 || !(fullSize b n) || e % 2 == 0 || decide (e < 65537) || (code ≤ 0x15 && (sig == 0 || decide (n ≤ sig)))
  else if code = 0x20 then !(kemKeyOk 1152 x)
  else if code = 0x21 then !(kemKeyOk 1536 x)
  else if code = 0x24 ∨ code = 0x25 then j.iters == 256
  else if code = 0x30 then
    match keyCurve t with
    | some c => t != 0x43 && !(secretOk c k)
    | none => false
  else if code = 0x31 then
    if t = 0x43 then !(secretOk p521 x)
    else
      let b := rsaKeyBytes t
      let n := num 0 b
      let e := num b 4
      let part (i : Nat) : Nat := num (b + 4 + i * (b / 2)) (b / 2)
      n != part 0 * part 1 || e * part 2 % (part 0 - 1) != 1 || e * part 3 % (part 1 - 1) != 1 || part 4 * part 1 % part 0 != 1
  else if code = 0x39 then !(kemKeyOk 1152 (cut x 32 1184)) || x25519 (cut j.drawn 0 32) (x.take 32) == zeros 32
  else if code = 0x3A then x25519 (hybridKeys k).1 (x.take 32) == zeros 32
  else false

/-- Does a routine sample lattice polynomials (R387)? -/
def lattice (code t : Nat) : Bool := decide (0x20 ≤ code ∧ code ≤ 0x27) || decide (0x38 ≤ code) || (code == 0x30 && decide (0x4C ≤ t))

/-- Does Table 10-9 give a routine a condition that its standard decides: a signature, an encoding, a decoding? -/
def standardRejects (code : Nat) : Bool :=
  ([0x04, 0x05, 0x06, 0x0C, 0x13, 0x14, 0x15, 0x16, 0x17, 0x18, 0x26, 0x27] : List Nat).contains code

/-- Is a job rejected (R387, R388)? -/
def jobRejected (q : Req) (j : Job) : Bool :=
  inputRejected q j || (standardRejects q.d.profile && Config.pkeRejects q.d.profile (jobKey q) (jobInput q))
    || (lattice q.d.profile ((q.m.key.map KeyCopy.transform).getD 0)
        && Config.samplerShort q.d.profile (jobKey q) (jobInput q) j.drawn)

/-- A packet pushed into the result FIFO (R400). -/
def State.pushPacket (s : State) (q : Req) (out : Bytes) : State :=
  let len := BitVec.ofNat 48 (out.length + q.pos % 2 ^ (s.ring (pairKey q.owner q.ring)).rqLog2 * 2 ^ 16 + q.ring % 8 * 2 ^ 32)
  let words := (List.range ((out.length + 5) / 6)).map (fun i => BitVec.ofNat 48 (leNat (cut out (6 * i) 6)))
  s.onFifo 0 q.owner (fun f => (words.foldl (fun g w => g.push .data w) f.openPacket).close len)

/-- The output of a job goes out: to the result FIFO, or over the Seam. -/
def State.jobRelease (s : State) (rid : Nat) (q : Req) (out : Bytes) : State :=
  if !(toFifo q.d) then s.onReq rid (Req.putOut out)
  else if out.isEmpty then s
  else (s.pushPacket q out).onReq rid (fun x => { x with finalOutDone := out.length })

/-- A job that ended well: its output released, its target loaded. -/
def State.jobGood (s : State) (e rid : Nat) (q : Req) (j : Job) : State :=
  let r := s.pkeOutput q j
  let out := r.1
  let s1 := (r.2.leaveEngine e rid true).releaseFifo q
  if routineHasTarget q.d.profile then
    let l := targetLoad s1 rid q j out
    match loadRefused s1 q.owner l with
    | some en =>
      let s2 := s1.myenoEnd rid en
      if en.st = .keyStale then { s2 with pke := { s2.pke with targetStale := s2.pke.targetStale + 1 } } else s2
    | none =>
      let s2 := s1.applyLoad l
      let s3 := { s2 with pke := { s2.pke with targetLoads := s2.pke.targetLoads + 1 } }
      (s3.jobRelease rid q out).myenoEnd rid (ends .ok 0)
  else (s1.jobRelease rid q out).myenoEnd rid (ends .ok 0)

/-- What a job that has run its last step leaves on the counters: the further blocks of samplers that ran short on a public seed (R387),
and the internal digest work that its steps included (R340, R385; how many blocks is a free value, log entry 77). -/
def State.jobCounts (s : State) (q : Req) (j : Job) : State :=
  let code := q.d.profile
  let t := (q.m.key.map KeyCopy.transform).getD 0
  let extra := if lattice code t then Config.samplerExtra code (jobKey q) (jobInput q) j.drawn else 0
  ({ s with pke := { s.pke with samplerExtensions := s.pke.samplerExtensions + BitVec.ofNat 32 extra } }).internalRan
    (Config.free 21 (code * 256 + t) % 2 ^ 16 + extra)

/-- PKE_JOB_END (R388): the holder has run its last step, which is a yield point too. -/
def execPkeJobEnd (engine : Nat) (invariantsHold : Bool) (s : State) : Out :=
  unit engine 4 <|
    match holderOf s engine with
    | none => s
    | some j =>
      match s.req j.req with
      | none => s
      | some q =>
        if j.steps + 1024 < j.total then s
        else
          let s1 := (s.jobSteps engine (j.total - j.steps) q j).jobCounts q j
          match q.m.stopAtSegment with
          | some en => s1.jobEnd engine j.req q en true
          | none =>
            if jobRejected q j then s1.jobEnd engine j.req q (ends .pkeReject 0) true
            else if !invariantsHold then
              let s2 := ({ s1 with pke := { s1.pke with invariantFails := s1.pke.invariantFails + 1 } }).raise 0x211 engine q.d.profile
              s2.jobEnd engine j.req q (ends .pkeReject 0) true
            else s1.jobGood engine j.req q j

/-- PKE_CONTEXT_ZEROED (R392): the context can be used again. -/
def execPkeContextZeroed (engine rid : Nat) (s : State) : Out :=
  unit engine 4
    (match (s.engineAt engine).jobs.find? (fun j => j.req == rid && j.zeroing) with
    | none => s
    | some j =>
      ((s.zeroContext engine j.ctx).onEngine engine (fun x =>
        { x with jobs := x.jobs.filter (fun y => !(y.ctx == j.ctx && y.zeroing)) })).engineSettle engine)

/-! ## Mismatches (R390, R391) -/

/-- A mismatch counted against an engine. -/
def State.engineMismatch (s : State) (e : Nat) : State :=
  let lim := s.tango.laneFaultLimit
  let old := within s.now s.tango.laneFaultWindow.toNat (s.engineAt e).recent
  let new := old ++ [s.now]
  let s1 := (s.onEngine e (fun x => { x with recent := new })).raise (0x090 + e) e 0
  if new.length < lim ∨ (s.engineAt e).failed then s1
  else if !((List.range 4).any (fun f => f != e && engineAvail s f)) then
    (if old.length < lim then s1.raise 0x098 (0x2000 + e) 0 else s1)
  else ((s1.onEngine e (fun x => { x with failed := true })).engineSettle e).raise (0x094 + e) e 0

/-- A job restarts, on an engine other than the one that failed when one did, or ends when it may not or none is left (R390). -/
def State.restartJob (s : State) (j : Job) (failing : Option Nat) : State :=
  match s.req j.req with
  | none => s
  | some q =>
    let stop := (s.releaseFifo q).retryImpossible j.req 2
    if 2 ≤ q.m.tries then stop
    else
      match chooseEngine s failing.toList with
      | none => stop
      | some f =>
        let s1 := (s.enterEngine f { j with steps := 0, passes := 0 }).onReq j.req (fun r =>
          { r with m := { r.m with tries := r.m.tries + 1, retried := true, recovering := true } })
        ({ s1 with pke := { s1.pke with restarts := s1.pke.restarts + 1 } }).internalStart j.req
          (messageBlocks q.d.profile q.m.payload)

/-- ENGINE_MISMATCH (R390): a step mismatched: the holder's, or, on an engine that none holds, a FILL command's (R368, R391). -/
def execEngineMismatch (engine : Nat) (s : State) : Out :=
  unit engine 4 <|
    match holderOf s engine with
    | none => if s.tango.posture = .quiet ∧ unitsPowered s then s.engineMismatch engine else s
    | some j => ((s.leaveEngine engine j.req false).engineMismatch engine).restartJob j (some engine)

/-- ENGINE_RETEST (R391). -/
def execEngineRetest (mask : BitVec 4) (s : State) : Out :=
  .next ((List.range 4).foldl (fun t e =>
    if mask.getLsbD e ∧ (t.engineAt e).state = .outOfService then t.onEngine e (fun x => { x with retesting := true }) else t) s)

/-- ENGINE_RETEST_DONE (R391). -/
def execEngineRetestDone (engine : Nat) (passed : Bool) (s : State) : Out :=
  unit engine 4
    (if !(s.engineAt engine).retesting then s
    else
      let s1 := { s with pke := { s.pke with
        retestFailed := if passed then s.pke.retestFailed &&& ~~~(BitVec.twoPow 4 engine)
          else s.pke.retestFailed ||| BitVec.twoPow 4 engine } }
      if passed then
        (s1.onEngine engine (fun x => { x with retesting := false, recent := [], failed := false })).engineSettle engine
      else s1.onEngine engine (fun x => { x with retesting := false }))

/-! ## The Caller (R370, R374) -/

/-- Every job in flight ends with INTERNAL, DETAIL 0x02, its thread stopped where it is. -/
def State.endAllJobs (s : State) : State :=
  (List.range 4).foldl (fun t e =>
    (((t.engineAt e).jobs.filter (fun j => !j.zeroing))).foldl (fun u j =>
      match u.req j.req with
      | some q => u.jobEnd e j.req q (ends .internal 0x02) false
      | none => u.leaveEngine e j.req false) t) s

/-- Have LOCKSTEP_LIMIT faults occurred within one second (R370)? -/
def lockstepOut (p : Pke) : Bool := decide (p.lockstepLimit ≤ p.lockstepRecent.length)

/-- The Caller faulted: until a reset (Table 10-3). -/
def State.callerFaulted (s : State) : State := ({ s with pke := { s.pke with caller := .faulted } }).raise 0x212 0 0

/-- A lockstep fault of a Caller that runs (R370): every job ends and the fault is on record. A ready Caller recovers; one that
recovers already is faulted at the limit; Table 10-3 gives the others no move. -/
def State.lockstepFault (s : State) : State :=
  if s.pke.caller = .off ∨ s.pke.caller = .faulted then s
  else
    let s1 := s.endAllJobs
    let s2 :=
      { s1 with
        pke := { s1.pke with
          caller := if s1.pke.caller = CallerState.ready then .recovering else s1.pke.caller
          lockstepFaults := s1.pke.lockstepFaults + 1
          lockstepRecent := (within s.now 1000 s.pke.lockstepRecent) ++ [s.now] } }
    let s3 := s2.raise 0x210 s2.pke.lockstepFaults.toNat 0
    if s.pke.caller = .recovering ∧ lockstepOut s3.pke then s3.callerFaulted else s3

/-- LOCKSTEP_FAULT (R370). -/
def execLockstepFault (s : State) : Out := .next s.lockstepFault

/-- CALLER_RECOVERED (R370): the digest recomputed over both memories matches, or not; at the limit the Caller is faulted even so
(DEDUCED, log entry 78). -/
def execCallerRecovered (matches_ : Bool) (s : State) : Out :=
  .next
    (if s.pke.caller ≠ .recovering then s
    else if matches_ ∧ !(lockstepOut s.pke) then { s with pke := { s.pke with caller := .ready } }
    else s.callerFaulted)

end Sys2Proof.Machine
end

