-- ==== Sys2Proof/Machine/Starting.lean ====
section
/-!
DEFINITION. The start sequence as every station of it meets it (chapter 17): how a step ends or fails, START_HALT and
Pavane mode.
-/
namespace Sys2Proof.Machine

/-! ## Power of lanes, units and engines in Pavane mode and in SCRAP (R521, R561) -/

/-- Every lane, digest unit and engine off. -/
def State.unpower (s : State) : State :=
  let s1 := { s with
    lanes := { s.lanes with powered := 0 }
    rng := { s.rng with refills := [] } }
  let s2 := (List.range 16).foldl (fun t n => t.onLane n (fun l => { l with state := .off })) s1
  let s3 := (List.range 8).foldl (fun t u => t.onUnit u (fun x => { x with state := .off })) s2
  (List.range 4).foldl (fun t e => t.onEngine e (fun x => { x with state := .off })) s3

/-! ## Failed starts (R560, Table 17-4) -/

/-- The failure recorded: BOOT_FAIL_REASON, BOOT_FAIL_DETAIL, and BOOT_FAIL_HISTORY shifted. -/
def State.recordFailure (s : State) (reason detail : Nat) : State :=
  { s with
    start := { s.start with
      failReason := reason, failDetail := BitVec.ofNat 32 detail
      failHistory := BitVec.ofNat 32 ((s.start.failHistory.toNat * 256 + reason) % 2 ^ 24) } }

/-- Pavane mode (R561): the steps of this start that passed are on record, and steps 3 and 4 run when they have not. -/
def State.pavane (s : State) : State :=
  let s1 := s.unpower
  let n := s1.start.step
  { s1 with
    start := { s1.start with
      state := .pavane, retryArmed := false, testsRunning := ([3, 4] : List Nat).filter (fun k => decide (n < k))
      testsPassed := (([1, 2, 3, 4] : List Nat).map (fun k => b2n (decide (k < n)) * 2 ^ (k + 8))).sum }
    pke := { s1.pke with caller := .off } }

/-- Pavane mode entered at once upon a failure (R560). -/
def State.enterPavane (s : State) (reason detail : Nat) : State :=
  (s.recordFailure reason detail).pavane.raise 0x23A reason detail

/-- Is a start in progress that a failed step ends? -/
def starting (s : State) : Bool :=
  !s.start.alarmPending && (s.start.state == .selfTest || s.start.state == .callerLoad)

/-- A step fails (R560): the third failed start in a row enters Pavane mode, an earlier one halts. -/
def State.startFail (s : State) (reason detail : Nat) : State :=
  if !(starting s) then s
  else if 3 ≤ s.start.failedStarts then s.enterPavane reason detail
  else
    let s1 := s.recordFailure reason detail
    ({ s1 with
      start := { s1.start with state := .startHalt, retryArmed := decide (s1.start.retryTime ≠ 0) } }).raise 0x239 reason
      detail

/-! ## Steps (R554) -/

/-- A step of Pavane mode recorded in PAVANE_TESTS (R561, R562). -/
def State.pavaneTest (s : State) (n : Nat) (passed : Bool) : State :=
  { s with
    start := { s.start with
      testsRunning := s.start.testsRunning.filter (· != n)
      testsPassed := if passed then s.start.testsPassed ||| 2 ^ (n + 8)
        else s.start.testsPassed &&& (2 ^ 16 - 1 - 2 ^ (n + 8)) } }

/-- Step 3 passes once the service runs and steps 1 and 2 have ended. -/
def State.stepThree (s : State) : State :=
  if s.start.step = 3 ∧ s.rng.state = .running then { s with start := { s.start with step := 4 } } else s

/-- Step `n` of the start ends well. -/
def State.stepDone (s : State) (n : Nat) : State :=
  if starting s ∧ s.start.step = n then
    ({ s with
      start := { s.start with
        step := n + 1, state := if n = 4 then .callerLoad else s.start.state } }).stepThree
  else s

/-! ## Reading an image (R557, R562) -/

/-- A service-class read of a piece of the image on channel 0. -/
def State.readPiece (s : State) (addr off len : Nat) : State :=
  let r := s.issue
    { chan := 0, kind := .callerImage, cls := .service, owner := mgr, req := 0, pair := 0, write := false
      addr := addr % 2 ^ 64, len := len, off := off, data := [] }
  if r.1 then r.2 else { r.2 with start := { r.2.start with imageDenied := true } }

/-- The image whose turn it is: the recovery image in Pavane mode. -/
def imageAddr (s : State) : Nat :=
  if s.start.state = .pavane then s.start.recoveryImageAddr.toNat else s.pke.callerImageAddr.toNat

/-- The image load begins with its manifest, once the channel's clock runs (21 R648). -/
def State.readImage (s : State) : State :=
  let s1 :=
    { s with
      pke := { s.pke with caller := .verifying }
      port := { s.port with ended := s.port.ended.filter (fun a => a.kind != .callerImage) }
      start := { s.start with imageDenied := false, imageDue := !(roomFor s 0 2) } }
  if s1.start.imageDue then s1 else s1.readPiece (imageAddr s) 0 256

/-- Step 5 begins (R557): an address of zero fails it. In Pavane mode the Caller stays OFF without an image (R562). -/
def State.beginImage (s : State) : State :=
  if imageAddr s ≠ 0 then s.readImage
  else if s.start.state = .pavane then s
  else s.startFail 0x09 1

end Sys2Proof.Machine
end

