-- ==== Sys2Proof/Machine/Rng.lean ====
section
/-!
DEFINITION. The random number service (chapter 11): sources and their tests, start-up, the pool and the DRBG, the
consumers and their turns, the software port, RNG_FILL and raw-sample mode. The samples come from outside; the DRBG's
output is computed from its Key and V (Ops.lean).
-/
namespace Sys2Proof.Machine

/-- A change of the service. -/
def State.onRng (s : State) (f : Rng → Rng) : State := { s with rng := f s.rng }

/-- A source by number. -/
def State.noise (s : State) (n : Nat) : Noise := Tab.get Noise.dflt s.rng.sources n

/-- A change of a source. -/
def State.onNoise (s : State) (n : Nat) (f : Noise → Noise) : State :=
  s.onRng (fun r => { r with sources := Tab.upd Noise.dflt r.sources n f })


/-! ## Stopping (R424, R428) -/

/-- RNG_FILL requests at Dispatch or in progress end with RNG_UNAVAILABLE. -/
def State.fillsEnd (s : State) (detail : Nat) : State :=
  (s.rng.fills.foldl (fun t rid => t.myenoEnd rid (ends .rngUnavailable detail)) s).onRng (fun r => { r with fills := [] })

/-- Pool, conditioner, DRBG state and reservoirs zeroed; every RNG port emptied (R428, R435). -/
def State.rngZero (s : State) : State :=
  { s.onRng (fun r =>
      { r.noInput with
        pool := [], formed := [], calls := 0, drbgKey := [], drbgV := [], seeded := false, reservoirs := [], refills := []
        blockTries := 0 }) with
    fifos := { s.fifos with rng := s.fifos.rng.foldl (fun t e => Tab.set (Fifo.dflt 1) t e.1 e.2.emptied) s.fifos.rng } }

/-- The service stops (R428): `source` is the failing source, or 0xF. During a start, the start fails. -/
def State.rngStop (s : State) (cause source : Nat) : State :=
  let s1 := (s.fillsEnd 0x02).rngZero.onRng (fun r => { r with state := .stopped, stopCause := cause })
  let s2 := s1.raise 0x040 cause source
  if starting s2 ∧ s2.start.step ≤ 3 then s2.startFail 0x05 (if source < 4 then 2 ^ source else 0) else s2

/-! ## Health tests (R404) -/

/-- What a sample does to a source: the source after it, and whether the repetition-count and the adaptive-proportion
test failed. -/
def Noise.sample (v testing : Bool) (n : Noise) : Noise × Bool × Bool :=
  let run := if n.lastSample = some v then n.run + 1 else 1
  let first := if n.windowPos = 0 then v else n.windowFirst
  let hit := v == first
  let count := if n.windowPos = 0 then 1 else n.windowCount + b2n hit
  let rct := run == 41
  let apt := hit && count == 793
  let inTest := testing && decide (n.startCount < 1024)
  ({ n with
      lastSample := some v, run := run, windowFirst := first, windowCount := count
      windowPos := (n.windowPos + 1) % 1024
      longestRun := min 255 (max n.longestRun run), aptMax := max n.aptMax count, samples := n.samples + 1
      rctFails := n.rctFails + (if rct then 1 else 0), aptFails := n.aptFails + (if apt then 1 else 0)
      startCount := if inTest then n.startCount + 1 else n.startCount
      startFailed := n.startFailed || (inTest && (rct || apt))
      role := if rct || apt then .failed else n.role },
    rct, apt)

/-- The source that replaces a failed one in T7-compatible behaviour (R432). -/
def replacement (s : State) : Option Nat :=
  (List.range 4).find? (fun n => (s.noise n).role == .spare && (s.noise n).passed)

/-- Does the conditioner run? -/
def conditioning (s : State) : Bool := s.rng.state == .filling || s.rng.state == .running

/-- Source `m` takes the place of source `n` in the conditioner, from its next input on; the blocks formed or forming that hold samples
of `n` from its present proportion window, or a later one, are discarded (R432). -/
def State.switchSource (s : State) (n m : Nat) : State :=
  let lo := ((s.noise n).samples.toNat - 1) / 1024 * 1024
  let s1 := (List.range 4).foldl (fun t i => t.onNoise i (fun x => { x with input := [] })) s
  (s1.onNoise m (fun x => { x with role := .inUse })).onRng (fun r =>
    { r with
      order := r.order.map (fun i => if i = n then m else i)
      formed := r.formed.filter (fun b => !(b.parts.any (fun p => p.1 == n && decide (lo ≤ p.2.2))))
      sourceSwitches := r.sourceSwitches + 1 })

/-- A source that has failed a test, with the role it had (R428, R431, R432, R437). -/
def State.noiseFailed (s : State) (n : Nat) (was : SourceRole) (cause : Nat) : State :=
  match s.rng.state with
  | .rawSample => s.raise 0x044 n 0
  | .testing => s
  | _ =>
    match was with
    | .failed => s
    | .spare => s.raise 0x042 n 0
    | .inUse =>
      if !(conditioning s) then s
      else if !s.rng.compat then s.rngStop cause n
      else
        match replacement s with
        | none => s.rngStop cause n
        | some m => (s.switchSource n m).raise 0x043 n m

/-- Bits as octets, the first bit the least significant of the first octet. -/
def bitsToOctets (l : List Bool) : Bytes :=
  (List.range (l.length / 8)).map (fun i =>
    BitVec.ofNat 8 (((List.range 8).map (fun k => b2n (l.getD (8 * i + k) false) * 2 ^ k)).sum))

/-- The conditioned block of 256 samples of each source, taken alternately (R407): CBC-MAC with AES-256 under the fixed key. -/
def conditionedBlock (a b : List Bool) : Bytes :=
  drbgBcc (octetsOf 32 Config.conditionerKey)
    (bitsToOctets (((List.range 256).map (fun i => [a.getD i false, b.getD i false])).flatten))

/-- A sample of a source in use goes to the conditioner, which forms a block once it has 256 of each (R407). -/
def State.condition (s : State) (n : Nat) (v : Bool) : State :=
  if !(conditioning s && s.rng.order.contains n) then s
  else
    let s1 := s.onNoise n (fun x => { x with input := x.input ++ [v] })
    match s1.rng.order with
    | [i, j] =>
      let a := s1.noise i
      let b := s1.noise j
      if a.input.length < 256 ∨ b.input.length < 256 then s1
      else
        let span (x : Noise) : Nat × Nat := (x.samples.toNat - x.input.length, x.samples.toNat - x.input.length + 255)
        let c : Conditioned :=
          { block := conditionedBlock a.input b.input, parts := [(i, span a), (j, span b)] }
        ((s1.onNoise i (fun x => { x with input := x.input.drop 256 })).onNoise j (fun x =>
          { x with input := x.input.drop 256 })).onRng (fun r => { r with formed := r.formed ++ [c] })
    | _ => s1

/-- Have the proportion windows of a block's last samples closed (R408)? -/
def blockCleared (s : State) (c : Conditioned) : Bool :=
  c.parts.all (fun p => decide ((p.2.2 / 1024 + 1) * 1024 ≤ (s.noise p.1).samples.toNat))

/-- NOISE_SAMPLE (R404): the tests run on every sample of every source, from the end of the settling time on. -/
def execNoiseSample (source : Nat) (v : Bool) (s : State) : Out :=
  unit source 4
    (if !s.rng.settled ∨ s.start.inReset then s
    else
      let x := s.noise source
      let r := x.sample v (s.rng.state == .testing)
      let s1 := s.onNoise source (fun _ => r.1)
      let s2 := if r.2.1 || r.2.2 then s1.noiseFailed source x.role (if r.2.1 then 1 else 2) else s1
      if (s2.noise source).role = .inUse then s2.condition source v else s2)

/-! ## Start-up (R425 to R427) -/

/-- The start-up test begins on all four sources; the runs and the windows of R404 go on. -/
def State.testSources (s : State) : State :=
  ((List.range 4).foldl (fun t n => t.onNoise n (fun x => { x with startCount := 0, startFailed := false })) s).onRng
    (fun r => { r with state := .testing })

/-- Start-up fails (R427). -/
def State.rngStartFail (s : State) (cause detail : Nat) : State :=
  let s1 := ((s.fillsEnd 0x01).onRng (fun r => { r with state := .startFailed, stopCause := cause })).raise 0x041 cause
    detail
  if s1.start.state = .pavane then s1.pavaneTest 3 false
  else s1.startFail (if cause = 5 then 0x06 else 0x05) detail

/-- SETTLING_END (R425): the continuous tests run from here on; `katOk` tells whether the DRBG's known-answer tests passed. In
raw-sample mode the start-up test waits for its end (R437). -/
def execSettlingEnd (katOk : Bool) (s : State) : Out :=
  .next
    (if s.rng.settled ∨ s.start.inReset ∨ s.start.state = .scrap ∨ s.start.alarmPending then s
    else
      let s1 := s.onRng (fun r => { r with settled := true })
      match s1.rng.state with
      | .settling => if katOk then s1.testSources else s1.rngStartFail 5 0
      | .rawSample =>
        if katOk then s1 else (s1.rngStartFail 5 0).onRng (fun r => { r with state := .rawSample, rawReturn := .startFailed })
      | _ => s1)

/-- STARTUP_TEST_DONE (R406): the sources in use are chosen. -/
def execStartupTestDone (s : State) : Out :=
  .next
    (if s.rng.state ≠ .testing ∨ !((List.range 4).all (fun n => decide (1024 ≤ (s.noise n).startCount))) then s
    else
      let pass (n : Nat) : Bool := !(s.noise n).startFailed && (s.noise n).role != .failed
      let passed := (List.range 4).filter pass
      let ok := if s.rng.compat then decide (2 ≤ passed.length) else pass 0 && pass 1
      let use := if s.rng.compat then passed.take 2 else [0, 1]
      let s1 := (List.range 4).foldl (fun t n =>
        t.onNoise n (fun x =>
          { x with
            passed := pass n
            role := if !(pass n) then .failed else if use.contains n then .inUse else .spare })) s
      let s2 := (List.range 4).foldl (fun t n =>
        if (s.noise n).startFailed ∧ !(use.contains n) then t.raise 0x042 n 0 else t) s1
      if ok then s2.onRng (fun r => { r with state := .filling, order := use, formed := [] })
      else s2.rngStartFail 3 (((List.range 4).map (fun n => b2n (!(pass n)) * 2 ^ n)).sum))

/-- POOL_ENTRY (R408): the oldest block whose windows have closed enters the pool, which holds at most 16; with the pool full, it is
discarded. -/
def execPoolEntry (s : State) : Out :=
  .next
    (match s.rng.formed.find? (blockCleared s) with
    | some c =>
      if conditioning s then s.onRng (fun r => { r with formed := r.formed.erase c, pool := (r.pool ++ [c.block]).take 16 }) else s
    | none => s)

/-! ## Ports that want a refill (R419) -/

/-- Does an RNG port's page exist? -/
def pageExists (s : State) (o : Nat) : Bool := o == mgr || (s.slice o).state != .absent

/-- Outer requests a refill of a port that holds 32 words or fewer. -/
def State.wantRefill (s : State) (o : Nat) : State :=
  if s.rng.state = .running ∧ s.start.state ≠ .pavane ∧ pageExists s o ∧ (s.fifo 1 o).count ≤ 32
      ∧ !(s.rng.refills.contains o) then
    s.onRng (fun r => { r with refills := r.refills ++ [o] })
  else s

/-- Refills requested by every port, the manager's first. -/
def State.wantRefills (s : State) : State :=
  (s.slices.tab.map Prod.fst).foldl State.wantRefill (s.wantRefill mgr)

/-- The RNG port of a slice emptied (R419). -/
def State.emptyPort (s : State) (o : Nat) : State :=
  (s.putFifo 1 o (s.fifo 1 o).emptied).onRng (fun r => { r with refills := r.refills.filter (· != o) })

/-- DRBG_INSTANTIATE (R409, R426): three pool blocks and the personalisation string; the reset-time keys are drawn once, before every
other draw: the cache's two keys, and the directory's seeds, which are the last eight octets (R217, R275). -/
def execDrbgInstantiate (s : State) : Out :=
  .next
    (if s.rng.state ≠ .filling ∨ s.rng.pool.length < 3 then s
    else
      let seed := (s.rng.pool.take 3).flatten ++ octetsOf 32 (Config.personal (rootSecret s) s.start.bootEpoch.toNat)
      let s1 := s.onRng (fun r =>
        { ({ r with drbgKey := zeros 32, drbgV := zeros 16 } : Rng).seed seed with
          state := .running, stopCause := 0, pool := r.pool.drop 3
          firstRelease := if r.started then r.firstRelease else BitVec.ofNat 32 (s.now - s.start.startBegan).toNat })
      let s2 :=
        if s.rng.started then s1
        else
          let d := s1.internalDraw 80
          { d.2.onRng (fun r => { r with started := true }) with
            keys := { d.2.keys with checkKeys := d.1.take 72 }
            dir := { d.2.dir with seed0 := cut d.1 72 4, seed1 := cut d.1 76 4 } }
      let s3 := s2.wantRefills
      if s3.start.state = .pavane then s3.pavaneTest 3 true else s3.stepThree)

/-- RESEED (R410). -/
def execReseed (s : State) : Out :=
  .next
    (if s.rng.state = .running ∧ reseedDue s ∧ 2 ≤ s.rng.pool.length then
      s.onRng (fun r => { r.seed (r.pool.take 2).flatten with pool := r.pool.drop 2, reseeds := r.reseeds + 1 })
    else s)

/-! ## Generate calls (R414 to R416, R422, R423) -/

/-- A refill of port `o`: one call of 12 blocks gives 32 words. -/
def State.servePort (s : State) (o : Nat) : State :=
  let r := s.generate 192
  let f := (List.range 32).foldl (fun f i => Fifo.push .data (BitVec.ofNat 48 (leNat (cut r.1 (6 * i) 6))) f) (r.2.fifo 1 o)
  ((r.2.putFifo 1 o f).onRng (fun g =>
    { g with portWords := g.portWords + 32, refills := g.refills.filter (· != o), fillTurn := true })).wantRefill o

/-- A generate call of an RNG_FILL: 4 KiB, or what is left. The first dispatches the request. -/
def State.serveFill (s : State) (rid : Nat) (q : Req) : State :=
  let off := 4096 * q.m.segPassed
  let n := min 4096 (q.d.outCap - off)
  let r := s.generate n
  let s1 := r.2.onReq rid (fun x =>
    { x.putOut r.1 with
      m := { x.m with
             dispatched := true, posture := if x.m.dispatched then x.m.posture else s.tango.posture.code, segIssued := x.m.segIssued + 1, segComputed := x.m.segComputed + 1,
                      segPassed := x.m.segPassed + 1 } })
  let last := decide (q.d.outCap ≤ off + n)
  let s2 := s1.onRng (fun g =>
    { g with
      fillBytes := g.fillBytes + BitVec.ofNat 64 n, fillTurn := false
      fills := if last then g.fills.filter (· != rid) else g.fills })
  if last then s2.myenoEnd rid (ends .ok 0) else s2

/-- An RNG_FILL still to be served. -/
def fillLive (s : State) (rid : Nat) : Bool :=
  match s.req rid with
  | some q => q.d.opcode == 0x50 && !q.ended
  | none => false

/-- The fill whose turn it is, when the software share turns to RNG_FILL: the earliest dispatched. -/
def nextFill (s : State) : Option Nat := s.rng.fills.find? (fillLive s)

/-- Whom the next turn of the software share serves (R416): true and a REQ_ID, or false and a port. An empty queue
forfeits its turn. -/
def softwareTurn (s : State) : Option (Bool × Nat) :=
  match s.rng.fillTurn, nextFill s, s.rng.refills with
  | true, some r, _ => some (true, r)
  | true, none, o :: _ => some (false, o)
  | false, _, o :: _ => some (false, o)
  | false, some r, [] => some (true, r)
  | _, none, [] => none

/-- The software share served, when a block may be generated (R410). -/
def State.serveSoftware (s : State) : State :=
  if s.rng.state ≠ .running ∨ reseedDue s then s
  else
    match softwareTurn s with
    | some (true, rid) =>
      match s.req rid with
      | some q => s.serveFill rid q
      | none => s
    | some (false, o) => s.servePort o
    | none => s

/-- GENERATE_CALL (R416): a lane's reservoir at half or below is refilled by 64 blocks; the filler of QUIET draws its
key and data; the software share takes a turn. -/
def execGenerateCall (c : Draw) (s : State) : Out :=
  match c with
  | .reservoir lane =>
    unit lane 16
      (if s.rng.state = .running ∧ !(reseedDue s) ∧ (Tab.get (fun _ => []) s.rng.reservoirs lane).length ≤ 1024 then
        let d := s.generate 1024
        d.2.onRng (fun r => { r with reservoirs := Tab.upd (fun _ => []) r.reservoirs lane (fun v => v ++ d.1) })
      else s)
  | .filler =>
    .next
      (if s.rng.state = .running ∧ !(reseedDue s) ∧ s.tango.posture = .quiet ∧ s.tango.fillLeft = 0 then
        let d := (s.internalDraw 48).2
        { d with tango := { d.tango with fillLeft := 4096 } }
      else s)
  | .software => .next s.serveSoftware

/-- PORT_REFILL (R419): the refill of a port, when it is next in its queue and the turn is the ports'. -/
def execPortRefill (owner : Nat) (s : State) : Out :=
  unit owner 513
    (match softwareTurn s with
    | some (false, o) => if o = owner then s.serveSoftware else s
    | _ => s)

/-- DISPATCH of an RNG_FILL: it joins the queue, from which its first generate call dispatches it (R422). -/
def State.fillDispatch (s : State) (rid : Nat) : State :=
  match s.req rid with
  | none => s
  | some q =>
    if q.d.opcode ≠ 0x50 ∨ !q.m.headSeen ∨ !q.m.checked ∨ q.ended ∨ !q.outListDone ∨ s.rng.fills.contains rid
        ∨ q.m.dispatched then s
    else
      match rngRefusal s with
      | some e => s.myenoEnd rid e
      | none => if rngWaits s then s else s.onRng (fun r => { r with fills := r.fills ++ [rid] })

/-- RNG_FILL (R422): the request reaches Dispatch, and takes the generate call when the turn is its own. -/
def execRngFill (rid : Nat) (s : State) : Out :=
  let s1 := s.fillDispatch rid
  .next
    (match softwareTurn s1 with
    | some (true, r) => if r = rid then s1.serveSoftware else s1
    | _ => s1)

/-- DRBG_MISMATCH (R411): the third on one block stops the service. -/
def execDrbgMismatch (s : State) : Out :=
  .next
    (if !(conditioning s) then s
    else
      let s1 := s.onRng (fun r => { r with drbgMismatches := r.drbgMismatches + 1, blockTries := r.blockTries + 1 })
      if 3 ≤ s1.rng.blockTries then s1.rngStop 4 0xF else s1)

/-- RNG_FAIL_MODE (R433). -/
def execRngFailMode (compat : Bool) (s : State) : Out :=
  .next ((s.onRng (fun r => { r with compat := compat })).setRecord 2 [if compat then 1 else 0])

/-! ## Raw-sample mode (R434 to R437) -/

/-- May RAW_MODE be 1 (R434)? -/
def rawPermitted (s : State) : Bool :=
  (match s.lc.state with
    | .testLocked _ => true
    | .testUnlocked _ => true
    | _ => false)
  || s.lc.debugRights.getLsbD 0

/-- Words of a raw run: 48 samples each. -/
def rawWords : Nat := 21846

/-- The words of the run written into the manager's port as space allows (R436, R447). -/
def State.rawFeed : Nat → State → State
  | 0, s => s
  | n + 1, s =>
    let f := s.fifo 1 mgr
    if s.rng.rawRun = [] ∨ rawWords ≤ s.rng.rawNext ∨ f.space (fifoDepth 1) = 0 then s
    else
      let w := BitVec.ofNat 48 (leNat (cut s.rng.rawRun (6 * s.rng.rawNext) 6))
      State.rawFeed n ((s.putFifo 1 mgr { Fifo.push .data w f with streamLeft := f.streamLeft - 1 }).onRng (fun r =>
        { r with rawNext := r.rawNext + 1 }))

/-- After a read of the manager's port: more words, or the run is read out and the next begins from RAW_SOURCE. -/
def State.rawOn (s : State) : State :=
  if s.rng.rawRun = [] then s
  else if rawWords ≤ s.rng.rawNext ∧ (s.fifo 1 mgr).count = 0 then
    s.onRng (fun r =>
      { r with rawRun := [], rawNext := 0, rawRunSource := r.rawSource, rawRuns := r.rawRuns + 1 })
  else s.rawFeed 64

/-- RAW_MODE entered (R435). -/
def State.rawEnter (s : State) : State :=
  let back := match s.rng.state with
    | .stopped => RngState.stopped
    | .startFailed => RngState.startFailed
    | _ => RngState.settling
  ((s.fillsEnd 0x03).rngZero.onRng (fun r =>
    { r with state := .rawSample, rawMode := true, rawReturn := back, rawRun := [], rawNext := 0,
             rawRunSource := r.rawSource })).setRecord 3 [1]

/-- RAW_MODE left (R437). -/
def State.rawExit (s : State) : State :=
  let s1 := (s.setRecord 3 [0]).onRng (fun r => { r with rawMode := false, rawRun := [], rawNext := 0 })
  match s1.rng.rawReturn with
  | .stopped => s1.onRng (fun r => { r with state := .stopped })
  | .startFailed => s1.onRng (fun r => { r with state := .startFailed })
  | _ => if s1.rng.settled then s1.testSources else s1.onRng (fun r => { r with state := .settling })

/-- A write of RAW_MODE: the answer says whether it is accepted (R434). -/
def State.writeRawMode (s : State) (on : Bool) : Bool × State :=
  if on then (if s.rng.rawMode then (rawPermitted s, s) else if rawPermitted s then (true, s.rawEnter) else (false, s))
  else (true, if s.rng.rawMode then s.rawExit else s)

/-- Raw-sample mode left when the right to it has lapsed (R434). -/
def State.rawLapse (s : State) : State := if s.rng.rawMode ∧ !(rawPermitted s) then s.rawExit else s

/-- RAW_MODE_ENTER (R435). -/
def execRawModeEnter (s : State) : Out := .next (s.writeRawMode true).2

/-- RAW_MODE_EXIT (R437). -/
def execRawModeExit (s : State) : Out := .next (s.writeRawMode false).2

/-- RAW_RUN_CAPTURED (R436): a run of 1,048,576 samples, once the previous one has been read out. -/
def execRawRunCaptured (run : Bytes) (s : State) : Out :=
  .next
    (if s.rng.state ≠ .rawSample ∨ s.rng.rawRun ≠ [] ∨ run.length ≠ 131072 then s
    else
      let f := s.fifo 1 mgr
      let len : BitVec 48 := BitVec.ofNat 48 (0x100000 + s.rng.rawRunSource % 8 * 2 ^ 24)
      if f.space (fifoDepth 1) = 0 then s
      else
        ((s.putFifo 1 mgr { Fifo.push .length len f with streamLeft := rawWords }).onRng (fun r =>
          { r with rawRun := run, rawNext := 0 })).rawFeed 64)

/-! ## The port (R418, R420) -/

/-- RNG_WORD (R418). -/
def execRngWord (b : Bus) (owner : Nat) (s : State) : Out :=
  unit owner 513
    (s.pageRead b owner (fun t =>
      let r := t.readFifo 1 owner
      (r.1, if owner = mgr then r.2.rawOn.wantRefill owner else r.2.wantRefill owner)))

end Sys2Proof.Machine
end

