-- ==== Sys2Proof/Machine/Station.lean ====
section
/-!
DEFINITION. DISPATCH (01 R47), by the class of the opcode; and ABORT, as the ring engine settles it and as it meets the
target's decision point (02 R107 to R114).
-/
namespace Sys2Proof.Machine

/-- DISPATCH (R47): a lane opcode, a digest opcode, a key-slot opcode, PKE_RUN and RNG_FILL each at their station. -/
def execDispatch (rid : Nat) (s : State) : Out :=
  .next <|
    match s.req rid with
    | none => s
    | some q =>
      if isLaneOp q.d.opcode then s.laneDispatch rid
      else if isDigestOp q.d.opcode then s.digestDispatch rid
      else if isKeyOp q.d.opcode then s.keyAct rid
      else if q.d.opcode = 0x40 then s.pkeDispatch rid
      else s.fillDispatch rid

/-! ## ABORT -/

/-- TARGET_RING and TARGET_POS of an ABORT (R107). -/
def abortRing (d : Desc) : Nat := fld d.inAddr.toNat 32 3
def abortPos (d : Desc) : Nat := fld d.inAddr.toNat 0 17

/-- The request that an ABORT names, while its REQ_ID is assigned. Where a completion ring deeper than the request ring has
let two requests in flight share the ring pointer, the one with the lowest REQ_ID is taken (DESIGN CHOICE, log entry 58). -/
def abortTarget (s : State) (q : Req) : Option (Nat × Req) :=
  s.reqs.find? (fun e =>
    e.2.owner == q.owner && e.2.ring == abortRing q.d && e.2.pos == abortPos q.d && e.2.homeGrant == q.homeGrant)

/-- ABORT (R108): the settlement at the ring engine; an abort that goes to the decision point waits there. -/
def execAbort (rid : Nat) (s : State) : Out :=
  .next <|
    match s.req rid with
    | none => s
    | some q =>
      if q.d.opcode ≠ 0x71 ∨ q.stage ≠ .abortWait then s
      else
        let key := pairKey q.owner (abortRing q.d)
        let r := s.ring key
        if r.state ≠ .enabled ∧ r.state ≠ .draining then s.onReq rid (Req.endOuter (ends .requestInvalid 0x0B))
        else
          match abortTarget s q with
          | some (t, x) =>
            if x.abortWaiting.contains rid then s
            else if x.stage ≠ .descRead ∧ (x.d.opcode = 0x70 ∨ x.d.opcode = 0x71) then s.settleAbort rid 0x05
            else s.onReq t (fun y => { y with abortWaiting := y.abortWaiting ++ [rid] })
          | none =>
            let k := r.rqLog2
            if 2 ^ (k + 1) ≤ abortPos q.d ∨ ptrSub (abortPos q.d) r.rqHead k < 2 ^ k then s.settleAbort rid 0x03
            else s.settleAbort rid 0x04

/-- Was the abort or quiesce just recorded the first at the decision point: has it ended the request, or will it at
the end of the current segment? -/
def stopped (before after : Req) : Bool :=
  !before.ended && before.m.stopAtSegment.isNone && (after.ended || after.m.stopAtSegment.isSome)

/-! ## SPREAD_CTL, as the home sends it (18 R600; the layout is the model's, log entry 12) -/

/-- What a SPREAD_CTL says: byte 0. -/
def scConfig : Nat := 1
def scRelease : Nat := 2
def scConfigResult : Nat := 3
def scAbort : Nat := 4
def scAbortResult : Nat := 5
def scQuiesce : Nat := 6

/-- The body of a SPREAD_CTL: what, spread index, two octets, SSEQ or CREDITS, four octets. -/
def ctlBody (what nn a b n c : Nat) : Bytes :=
  [BitVec.ofNat 8 what, BitVec.ofNat 8 nn] ++ leBytes 2 a ++ leBytes 2 b ++ zeros 2 ++ leBytes 4 n ++ leBytes 4 c

/-- Instance of member `i` of a spread entry. -/
def Spread.instOf (e : Spread) (i : Nat) : Nat := (octet e.members i).toNat

/-- An abort of a request granted to another instance is forwarded once (03 R149). -/
def State.forwardAbort (s : State) (rid : Nat) (q : Req) : State :=
  match spreadOf s (pairKey q.owner q.ring) with
  | none => s
  | some (nn, e) =>
    if q.abortSent then s
    else
      (s.onReq rid (fun r => { r with abortSent := true })).sendMsg kSpreadCtl (e.instOf q.member)
        (ctlBody scAbort nn 0 0 q.sseq 0)

/-- ABORT_AT_DECISION_POINT (R109 to R112): the oldest abort that reached the target `rid` is recorded there. The first
recorded wins; an abort that loses to a recorded ending marks ABORT_LATE, unless the record is already issued. An abort of a
target at another instance is forwarded and settled there (03 R149). -/
def execAbortAtDecisionPoint (rid : Nat) (s : State) : Out :=
  .next <|
    match s.req rid with
    | none => s
    | some q =>
      match q.abortWaiting with
      | [] => s
      | a :: rest =>
        if q.stage = .descRead then s
        else if q.stage = .granted ∧ q.member ≠ 0 ∧ q.stat.isNone then s.forwardAbort rid q
        else
          let s1 := s.onReq rid (fun r => { r with abortWaiting := rest })
          let s2 := s1.stopRequest rid (ends .aborted 0x01) (ends .aborted 0x02)
          let won := match s2.req rid with
            | some q2 => stopped q q2
            | none => false
          if won then s2.settleAbort a 0x01
          else
            (s2.onReq rid (fun r => if r.recordIssued then r else { r with abortLate := true })).settleAbort a 0x02

end Sys2Proof.Machine
end

