-- ==== Sys2Proof/Machine/Port.lean ====
section
/-!
DEFINITION. The system port as responses come back (21 R651, R652): parts, accesses, errors and what each kind of
access does when it ends (17 R569).
-/
namespace Sys2Proof.Machine

/-! ## Ends of accesses by kind -/

/-- The output write at `off` has ended. -/
def endPiece (off : Nat) (ok : Bool) (ps : List Piece) : List Piece :=
  ps.map (fun p => if p.off = off ∧ !p.ended then { p with acked := ok, ended := true } else p)

/-- Deliver records an error or a denial of an output write; the first recorded stands (R52). -/
def Req.outFail (e : Ending) (cause addr : Nat) (q : Req) : Req :=
  match q.outEnd with
  | some _ => q
  | none =>
    { q with outEnd := some e, cause := if q.cause = 0 then cause else q.cause
             faultAddr := if q.faultAddr = 0 then BitVec.ofNat 64 addr else q.faultAddr }

/-- A Promenade log is lost (13 R483). -/
def State.promLost (s : State) (o : Nat) : State :=
  if (s.slice o).prom.enable ∧ (s.slice o).prom.state ≠ .lost then
    (s.onSlice o (fun sl => { sl with prom := { sl.prom with state := .lost, waiting := [] } })).raise 0x193 o 0
  else s

/-- A record write that did not go well: the ring is faulted with CQ_ACCESS, the record discarded and its REQ_ID
released (02 R69, R34). `ord` numbers the entry from ENABLE on. -/
def State.recordDiscard (s : State) (key rid ord : Nat) : State :=
  (s.ringFault key cqAccess (ord % 2 ^ ((s.ring key).cqLog2 + 1))).releaseReq rid

/-- An access that a later command consumes. -/
def State.keepEnded (s : State) (a : Acc) : State :=
  { s with port := { s.port with ended := s.port.ended ++ [a] } }

/-- The manifest of a Caller image has come: its body is read, in accesses of up to 1,024 bytes (17 R557). -/
def State.imageBody (s : State) (a : Acc) : State :=
  let il := leNat (cut a.data 12 4)
  let dl := leNat (cut a.data 16 4)
  if a.err ∨ 262144 < il ∨ 131072 < dl then s
  else
    let n := il + dl + 4723
    (List.range ((n + 1023) / 1024)).foldl (fun t k =>
      if t.start.imageDenied then t else t.readPiece (a.addr + 256 + 1024 * k) (256 + 1024 * k) (min 1024 (n - 1024 * k))) s

/-- A write has ended. -/
def State.writeDone (s : State) (a : Acc) : State :=
  let bad (q : Req) : Req := if a.err then q.outFail (ends .partialEnd 0x02) 3 a.addr else q
  match a.kind with
  | .output => s.onReq a.req (fun q => bad { q with pieces := endPiece a.off (!a.err) q.pieces })
  | .chainState => s.onReq a.req (fun q => bad { q with chainWrite := none })
  | .journal =>
    let s1 := s.onReq a.req (fun q => { q with journal := if a.err then .lost else .acked })
    if a.err then { s1 with start := { s1.start with journalLost := s1.start.journalLost + 1 } } else s1
  | .record => if a.err then s.recordDiscard a.pair a.req a.off else s.keepEnded a
  | .tailWord =>
    if a.err then
      (s.onRing a.pair (fun r => { r.uncover with tailInFlight := 0 })).ringFault a.pair cqAccess (s.ring a.pair).cqTail
    else s.keepEnded a
  | .exceptionEntry => s.keepEnded a
  | .promWrite => if a.err then s.promLost a.owner else s.keepEnded a
  | _ => s

/-- Does the request still want what its reads bring? -/
def readsOn (s : State) (rid : Nat) : Bool :=
  match s.req rid with
  | some q => !q.cancelSent && q.stat.isNone
  | none => false

/-- A read has ended. -/
def State.readDone (s : State) (a : Acc) : State :=
  match a.kind with
  | .descriptor =>
    if a.err then
      let r := s.ring a.pair
      if r.reread.isEmpty then s.descReadLost a.pair (inOrder s (reading s a.pair))
      else s.descDenied a.pair r.reread
    else s.keepEnded a
  | .promRead => if a.err then s.promLost a.owner else s.keepEnded a
  | .callerImage => if a.off = 0 then (s.keepEnded a).imageBody a else s.keepEnded a
  | _ =>
    if !(readsOn s a.req) then s
    else if a.err then
      (s.onReq a.req (fun q => { q with cause := 3 })).gatherEnd a.req (ends .partialEnd 0x02) a.addr
    else s.keepEnded a

/-- An access has ended: an error is counted and raises its event (R569). -/
def State.accDone (s : State) (a : Acc) : State :=
  let b := { a with data := if a.write then a.data else (a.parts.map Part.data).flatten }
  let s1 :=
    if a.err then
      ({ s with port := { s.port with portErrors := s.port.portErrors + 1 } }).raise (0x170 + a.chan)
        (ownerWord a.owner) a.addr
    else s
  if a.write then s1.writeDone b else s1.readDone b

/-! ## Responses -/

/-- The outstanding access of a channel that holds a tag. -/
def accWith (s : State) (chan tag : Nat) : Option Acc :=
  s.port.outstanding.find? (fun a => a.chan == chan && a.parts.any (fun p => p.tag == tag && !p.done))

/-- An access with the part on `tag` changed; when its last part is done, the access ends. -/
def State.onPart (s : State) (a : Acc) (tag : Nat) (err : Bool) (f : Part → Part) : State :=
  let b := { a with
    parts := a.parts.map (fun p : Part => if p.tag = tag ∧ !p.done then f p else p), err := a.err || err }
  if b.parts.all Part.done then
    ({ s with port := { s.port with outstanding := s.port.outstanding.filter (fun x => x.id != a.id) } }).accDone b
  else
    { s with port := { s.port with
        outstanding := s.port.outstanding.map (fun x => if x.id = a.id then b else x) } }

/-- A response with a tag that was retired is discarded and counted; with the end of the late access the tag is free
again (R652). -/
def State.lateResponse (s : State) (chan tag : Nat) (last : Bool) : State :=
  if s.port.late.contains (chan, tag) then
    { s with port := { s.port with
        lateResponses := s.port.lateResponses + 1
        late := if last then s.port.late.filter (fun e => e != (chan, tag)) else s.port.late } }
  else s

/-- WRITE_RESPONSE (R651). -/
def execWriteResponse (chan tag : Nat) (err : Bool) (s : State) : Out :=
  unit chan 4
    (match accWith s chan tag with
    | some a => if a.write then s.onPart a tag err (fun p => { p with done := true }) else s
    | none => s.lateResponse chan tag true)

/-- What a beat of an aligned 128-byte window brings to a part: the lanes inside the access (R651). -/
def Part.takeBeat (beat : Bytes) (p : Part) : Part :=
  let at_ := p.addr + p.data.length
  let n := min (128 - at_ % 128) (p.len - p.data.length)
  { p with data := p.data ++ cut beat (at_ % 128) n }

/-- READ_DATA_BEAT (R651). -/
def execReadDataBeat (chan tag : Nat) (data : Bytes) (last err : Bool) (s : State) : Out :=
  unit chan 4
    (match accWith s chan tag with
    | some a => if a.write then s else s.onPart a tag err (fun p => { p.takeBeat data with done := last })
    | none => s.lateResponse chan tag last)

/-- SP_RESPONSE_TIMEOUT (R652): the part counts as ended in error and its tag is retired. -/
def execSpResponseTimeout (chan tag : Nat) (s : State) : Out :=
  unit chan 4
    (match accWith s chan tag with
    | some a =>
      ({ s with port := { s.port with
          timeouts := s.port.timeouts + 1, late := s.port.late ++ [(chan, tag)] } }).onPart a tag true
        (fun p => { p with done := true })
    | none => s)

end Sys2Proof.Machine
end

