-- ==== Sys2Proof/Machine/Deliver.lean ====
section
/-!
DEFINITION. Deliver (chapters 1, 2, 3 and 17): the STAT beat, output writes, the fault journal, completion records, tail
words and notifications.
-/
namespace Sys2Proof.Machine

/-! ## STAT_ARRIVAL (R25, R43, R292) -/

/-- Has Myeno's STAT beat left: it waits for LAST when the request failed at Check (R43)? -/
def Req.statReady (q : Req) : Bool := q.m.statSent.isSome && (q.m.checked || q.m.lastSeen || q.m.cancel.isSome)

/-- STAT_ARRIVAL (R25): the outward stream is complete, and the learn commit is made. A DIR opcode that Myeno passed has
still to act. -/
def execStatArrival (rid : Nat) (s : State) : Out :=
  .next <|
    match s.req rid with
    | none => s
    | some q =>
      match q.m.statSent with
      | none => s
      | some t =>
        if q.stat.isSome ∨ !q.statReady then s
        else
          let good := t.ending.st.good
          let s1 := s.onReq rid (fun r =>
            { r with
              stat := some t
              stage := if isDirOp r.d.opcode && good then .gather else .over
              outerEnded := !r.m.dispatched && r.m.cancel.isSome && r.m.cancel == some t.ending })
          s1.learnCommit rid q good

/-! ## Output (R51, R52, R78, R181, R182, R572) -/

/-- All output octets that have crossed, in order: OUT beats, then ICV beats. -/
def Req.out (q : Req) : Bytes := ((q.outBeats ++ q.icvBeats).map Beat.data).flatten

/-- Has the last output beat arrived? -/
def Req.outComplete (q : Req) : Bool := q.stat.isSome && q.stage == .over

/-- Where output octet `off` is written, and how many octets can follow it in one write. -/
def Req.outAt (q : Req) (off : Nat) : Option (Nat × Nat) :=
  if q.d.inPlace then
    let lead := if q.d.opcode = 0x14 ∧ q.d.profile = 7 ∧ q.d.nonceHw then 16 else 0
    let text := q.d.payload - skipOf q.d
    if off < lead then some (q.d.outAddr.toNat + off, lead - off)
    else if off - lead < text then
      (regionAt q.inRegions (q.d.aadLen + skipOf q.d + (off - lead))).map (fun x => (x.1, min x.2 (text - (off - lead))))
    else some (q.d.outAddr.toNat + (off - lead - text), 128)
  else if q.d.outFragList then regionAt q.outFrags off
  else some (q.d.outAddr.toNat + off, 128)

/-- Output writes still outstanding. -/
def Req.outPending (q : Req) : Nat := (q.pieces.filter (fun p => !p.ended)).length

/-- Octets of the next output write: up to a 128-octet boundary of the output, or the rest once all has arrived. -/
def Req.nextOut (q : Req) : Nat :=
  let full := 128 - q.outOff % 128
  let avail := q.out.length - q.outOff
  if full ≤ avail then full else if q.outComplete then avail else 0

/-- The write of chain state, after the output (R95, Table 14-4). -/
def State.writeChain (s : State) (rid : Nat) (q : Req) : State :=
  match q.chainWrite with
  | none => s
  | some bs =>
    if q.chainWriteOut ∨ !q.outComplete ∨ q.outOff ≠ q.out.length ∨ !(roomFor s q.chan 2) then s
    else
      match s.issue (q.ask rid .chainState true (chainAddr q.d) 128 0 bs) with
      | (true, s1) => s1.onReq rid (fun r => { r with chainWriteOut := true })
      | (false, s1) =>
        s1.onReq rid (fun r => { (r.outFail (ends .accessFault 0x06) 0 (chainAddr q.d)) with chainWrite := none })

/-- OUTPUT_WRITE_ISSUE (R51): the next write of the request's output, at most 64 outstanding (R572); after a denial or
an error none is issued (R52, R569). -/
def execOutputWriteIssue (rid : Nat) (s : State) : Out :=
  .next <|
    match s.req rid with
    | none => s
    | some q =>
      if q.outEnd.isSome ∨ q.recordIssued then s
      else if q.nextOut = 0 then s.writeChain rid q
      else if 64 ≤ q.outPending ∨ !(roomFor s q.chan 2) then s
      else
        match q.outAt q.outOff with
        | none => s
        | some (addr, room) =>
          let n := min q.nextOut room
          match s.issue (q.ask rid .output true addr n q.outOff (cut q.out q.outOff n)) with
          | (true, s1) =>
            s1.onReq rid (fun r =>
              { r with
                outOff := r.outOff + n
                pieces := r.pieces ++ [{ off := r.outOff, len := n, acked := false, ended := false }] })
          | (false, s1) => s1.onReq rid (Req.outFail (ends .accessFault 0x05) 0 addr)

/-! ## Content of a record (R84 to R91, R112, R516) -/

/-- Octets acknowledged. -/
def Req.acked (q : Req) : Nat := ((q.pieces.filter Piece.acked).map Piece.len).sum

/-- OUT_DONE (R88, R89): acknowledged octets; those of a FIFO packet; those a member reported. -/
def Req.outDone (q : Req) : Nat := if q.outerEnded then 0 else if toFifo q.d ∨ q.member ≠ 0 then q.finalOutDone else q.acked

/-- The content of a request whose STAT content is lost (R516). -/
def poisonStat : Stat := { tag := 0, ending := ends .partialEnd 0x01, cflags := 0, inDone := 0, nonceUsed := 0 }

/-- The STAT content that the record is made of, with the ending that Deliver recorded (R52, R569). -/
def Req.content (q : Req) : Option Stat :=
  match q.stat with
  | none => none
  | some t =>
    if q.m.poisoned ∨ q.tableLost then some poisonStat
    else
      match q.outEnd with
      | some e => some { t with ending := e, cflags := t.cflags &&& ~~~0x0040#16 }
      | none =>
        some (if q.abortLate ∧ t.ending.st = .ok then { t with ending := { t.ending with st := .okAbortLate } } else t)

/-- Is everything the record waits for done: output, chain state, the target's settlement (R53, R113)? The request's inward
beats have left the Seam by then: Myeno discards what comes after an ending (R29, log entry 62). -/
def Req.contentDone (q : Req) : Bool :=
  q.outComplete && q.seam.isEmpty && q.pieces.all Piece.ended && !(q.chainWriteOut && q.chainWrite.isSome)
    && (q.outEnd.isSome || (q.outOff == q.out.length && q.chainWrite.isNone))

/-- RING_POS: the index of the descriptor in its request ring. -/
def ringPos (s : State) (q : Req) : Nat := q.pos % 2 ^ (s.ring (pairKey q.owner q.ring)).rqLog2

/-- SEQ and COOKIE, unknown when the request-table entry is lost. -/
def Req.seqOf (q : Req) : Nat := if q.tableLost then 0 else q.d.seq
def Req.cookieOf (q : Req) : Nat := if q.tableLost then 0 else q.d.cookie.toNat

/-- CFLAGS of the record: JOURNAL when its journal entry was acknowledged, and always under R516. -/
def Req.cflagsOf (q : Req) (t : Stat) : BitVec 16 :=
  recordFlags t.cflags t.ending.st q.outDone q.abortLate (q.journal == .acked || q.m.poisoned || q.tableLost) q.outerEnded

/-- The 32 octets of the record (Table 2-8). -/
def recordBytes (s : State) (q : Req) (t : Stat) : Bytes :=
  leBytes 8 (t.ending.st.code + t.ending.detail % 256 * 2 ^ 8 + (q.cflagsOf t).toNat * 2 ^ 16 + ringPos s q % 2 ^ 16 * 2 ^ 32
      + q.seqOf % 2 ^ 16 * 2 ^ 48)
    ++ leBytes 8 ((if q.outerEnded then 0 else t.inDone) % 2 ^ 32 + q.outDone % 2 ^ 32 * 2 ^ 32)
    ++ leBytes 8 t.nonceUsed.toNat ++ leBytes 8 q.cookieOf

/-! ## The fault journal (R570 to R572) -/

/-- Is piece `i` of 128 octets from `base` on acknowledged? -/
def Req.pieceAcked (q : Req) (base i : Nat) : Bool :=
  let lo := base + 128 * i
  let ps := q.pieces.filter (fun p => decide (lo ≤ p.off ∧ p.off < lo + 128))
  !ps.isEmpty && ps.all Piece.acked

/-- OUT_PREFIX: octets from octet 0 that are all acknowledged. -/
def outPrefix (ps : List Piece) : Nat :=
  match ps with
  | [] => 0
  | p :: t => if p.acked then p.len + outPrefix t else 0

/-- CFLAGS as the STAT beat carried them. -/
def Req.statFlags (q : Req) : Nat := (q.stat.map (fun t => t.cflags.toNat)).getD 0

/-- The octets of a journal entry (Table 17-5). -/
def journalEntry (s : State) (q : Req) (t : Stat) : Bytes :=
  let pre := outPrefix q.pieces
  let inDone := if q.m.poisoned ∨ q.tableLost then q.m.inDone else t.inDone
  leBytes 8 (ringPos s q % 2 ^ 16 + q.seqOf % 2 ^ 16 * 2 ^ 16 + t.ending.st.code * 2 ^ 32 + t.ending.detail % 256 * 2 ^ 40
      + q.cause % 256 * 2 ^ 48 + fld q.statFlags 3 2 * 2 ^ 56 + b2n q.m.nonceValid * 2 ^ 58)
    ++ leBytes 8 q.m.nonceUsed.toNat ++ leBytes 8 (inDone % 2 ^ 32 + q.m.segPassed % 2 ^ 16 * 2 ^ 32 + q.segTotal % 2 ^ 16 * 2 ^ 48)
    ++ leBytes 8 (q.outDone % 2 ^ 32 + pre % 2 ^ 32 * 2 ^ 32) ++ leBytes 8 (q.outOff % 2 ^ 32)
    ++ leBytes 8 (((List.range 64).map (fun i => b2n (q.pieceAcked pre i) * 2 ^ i)).sum)
    ++ leBytes 8 q.faultAddr.toNat ++ leBytes 8 s.now.toNat

/-- A journal entry lost (R571). -/
def State.journalLose (s : State) (rid : Nat) : State :=
  { s.onReq rid (fun q => { q with journal := .lost }) with
    start := { s.start with journalLost := s.start.journalLost + 1 } }

/-- JOURNAL_WRITE (R571): the entry of a request that ends PARTIAL, after every output write has ended. -/
def execJournalWrite (rid : Nat) (s : State) : Out :=
  .next <|
    match s.req rid with
    | none => s
    | some q =>
      match q.content with
      | none => s
      | some t =>
        if t.ending.st ≠ .partialEnd ∨ q.journal ≠ .notDue ∨ !q.contentDone ∨ q.homeGrant.isSome then s
        else
          let key := pairKey q.owner q.ring
          let r := s.ring key
          if r.journalLog2 = 0 then s.journalLose rid
          else if !(roomFor s q.chan 2) then s
          else
            let addr := r.journalBase.toNat + 64 * (r.journalNext % 2 ^ r.journalLog2)
            match s.issue (q.ask rid .journal true addr 64 0 (journalEntry s q t)) with
            | (true, s1) =>
              (s1.onReq rid (fun x => { x with journal := .written })).onRing key (fun x =>
                { x with journalNext := (x.journalNext + 1) % 2 ^ x.journalLog2 })
            | (false, s1) => s1.journalLose rid

/-! ## Completion records (R53, R55, R117, R121) -/

/-- May the record of `q` be issued in its ring's order (R117)? -/
def recordTurn (s : State) (q : Req) : Bool :=
  let b := (before s q).filter (fun e => !e.recordIssued)
  match q.cls with
  | .unordered => true
  | .association => b.all (fun e => decide (e.ord ≠ q.ord ∧ e.ord ≠ .unfixed))
  | _ => b.isEmpty

/-- Counters that a record's status moves (Tables 5-9, 6-8, 8-4, 10-13, 11-6); those of a request granted to another
instance moved there. -/
def State.countRecord (s : State) (q : Req) (t : Stat) : State :=
  let st := t.ending.st
  let one (c : Bool) (v : U64) : U64 := if c ∧ q.member = 0 then v + 1 else v
  { s with
    keys := { s.keys with
      valuesBurned := one (q.m.takes && q.m.dispatched && !st.good) s.keys.valuesBurned
      stale := one (st == .keyStale) s.keys.stale
      notOwned := one (st == .keyNotOwned) s.keys.notOwned
      absent := one (st == .keyAbsent) s.keys.absent
      poisonedRequests := one (st == .keyPoisoned) s.keys.poisonedRequests
      exhaustedRequests := one (st == .nonceExhausted) s.keys.exhaustedRequests }
    tango := { s.tango with recomputedOk := one (q.m.retried && st.good) s.tango.recomputedOk }
    pke := { s.pke with rejects := one (st == .pkeReject) s.pke.rejects }
    rng := { s.rng with unavailable := one (st == .rngUnavailable) s.rng.unavailable } }

/-- The body of TOKEN (Table 18-5): spread index, SSEQ and the 32 octets of the record (03 R146). -/
def tokenBody (nn sseq : Nat) (record : Bytes) : Bytes := leBytes 4 sseq ++ [BitVec.ofNat 8 nn] ++ zeros 3 ++ record

/-- A chain whose link did not end OK is closed (R100); an ending in Myeno has closed it already. -/
def State.chainEnd (s : State) (q : Req) (t : Stat) : State :=
  if t.ending.st.good ∨ !q.d.cont ∨ (q.m.ending.map (fun e => !e.st.good)).getD false then s else s.closeChainOf q

/-- The record of a request at its home, issued or discarded (R69). -/
def State.recordWrite (s : State) (rid : Nat) (q : Req) (t : Stat) : State :=
  let key := pairKey q.owner q.ring
  let r := s.ring key
  if r.recordsLost then s.releaseReq rid
  else
    let ord := r.completed.toNat + r.cq.length
    let ptr := (r.cqTail + r.cq.length) % 2 ^ r.cqLog2
    match s.issue { q.ask rid .record true (r.cqBase.toNat + 32 * ptr) 32 ord (recordBytes s q t) with pair := key } with
    | (true, s1) =>
      (s1.onReq rid (fun x => { x with recordIssued := true })).onRing key (fun x =>
        { x with cq := x.cq ++ [{ acked := false, notify := q.d.notify, chan := q.chan }] })
    | (false, s1) => s1.recordDiscard key rid ord

/-- A record held behind a request under recomputation is counted once (RETRY_HOLDS): on an ASSOCIATION ring, one of its own
ordering key. -/
def State.countRetryHold (s : State) (rid : Nat) (q : Req) : State :=
  if q.retryHeld ∨ !((before s q).any (fun e =>
      !e.recordIssued && e.m.recovering && (q.cls != .association || decide (e.ord = q.ord)))) then s
  else
    { s.onReq rid (fun x => { x with retryHeld := true }) with
      order := { s.order with retryHolds := s.order.retryHolds + 1 } }

/-- COMPLETION_RECORD_ISSUE (R53): after every output write and the journal entry, in the order of the ring's class. A
granted request sends a completion token to its home instead (R146). -/
def execCompletionRecordIssue (rid : Nat) (s : State) : Out :=
  .next <|
    match s.req rid with
    | none => s
    | some q =>
      match q.content with
      | none => s
      | some t =>
        let held := q.waitRecords.any (fun i => ((s.req i).map (fun x => !x.recordIssued)).getD false)
        let journalled := t.ending.st ≠ .partialEnd || q.homeGrant.isSome || q.journal == .acked || q.journal == .lost
        if q.recordIssued ∨ !q.contentDone ∨ held ∨ !journalled then s
        else
          match q.homeGrant with
          | some (home, nn) =>
            ((((s.countRecord q t).chainEnd q t).sendMsg kToken home (tokenBody nn q.sseq (recordBytes s q t)))).releaseReq rid
          | none =>
            if !(recordTurn s q) then s.countRetryHold rid q
            else if !(roomFor s q.chan 2) then s
            else ((s.countRecord q t).chainEnd q t).recordWrite rid q t

/-- The entry numbered `ord` from ENABLE on is acknowledged. -/
def Ring.ackEntry (ord : Nat) (r : Ring) : Ring :=
  { r with cq := r.cq.modify (ord - r.completed.toNat) (fun e => { e with acked := true }) }

/-- COMPLETION_RECORD_ACK (R34): the entry is acknowledged and the REQ_ID released. -/
def execCompletionRecordAck (rid : Nat) (s : State) : Out :=
  .next <|
    match s.takeEnded (fun a => decide (a.kind = .record) && a.req == rid) with
    | none => s
    | some (a, s1) => (s1.onRing a.pair (Ring.ackEntry a.off)).releaseReq rid

/-! ## Tail words and notifications (R66, R104 to R106, R122) -/

/-- The tail word (R66). -/
def tailWord (tail head : Nat) : Nat := tail % 2 ^ 17 + head % 2 ^ 17 * 2 ^ 32

/-- Channel of the tail word that covers the first `k` entries: that of the request whose record is the last of them (R53; with
requests of several channels DESIGN CHOICE, log entry 74). -/
def Ring.coverChan (k : Nat) (r : Ring) : Nat := ((r.cq.take k).getLast?.map CqEntry.chan).getD 0

/-- TAIL_WRITE_ISSUE (R122): the records acknowledged are covered, those acknowledged before records began to be discarded too.
A denied tail word publishes none of them (R69). -/
def execTailWriteIssue (owner n : Nat) (s : State) : Out :=
  let key := pairKey owner n
  let r := s.ring key
  let k := ackedRun r.cq
  let chan := r.coverChan k
  unit n 8
    (if r.tailInFlight ≠ 0 ∨ k = 0 ∨ !(roomFor s chan 2) then s
    else
      match s.issue { chan := chan, kind := .tailWord, cls := classOf owner, owner := owner, req := 0, pair := key,
                      write := true, addr := r.tailWordAddr.toNat, len := 8, off := 0,
                      data := leBytes 8 (tailWord (ptrAdd r.cqTail k r.cqLog2) r.rqHead) } with
      | (true, s1) => s1.onRing key (fun x => { x with tailInFlight := k, tailChan := chan })
      | (false, s1) => (s1.onRing key Ring.uncover).ringFault key cqAccess r.cqTail)

/-- A notification of a pair (R104), after which no record is pending. -/
def State.notifyPair (s : State) (owner n : Nat) : State :=
  let key := pairKey owner n
  let r := s.ring key
  let s1 := s.onRing key (fun x => { x with pendingNotes := 0 })
  match s1.issue { chan := r.tailChan, kind := .notification, cls := .service, owner := owner, req := 0, pair := key,
                   write := true, addr := r.notifyAddr.toNat, len := 4, off := 0, data := leBytes 4 r.notifyData.toNat } with
  | (true, s2) => s2
  | (false, s2) => s2.raise 0x24A (ringArg key) 0

/-- TAIL_WRITE_ACK (R122): the records covered are published, and a notification follows when one is due (R105). -/
def execTailWriteAck (owner n : Nat) (s : State) : Out :=
  let key := pairKey owner n
  unit n 8
    (match s.takeEnded (fun a => decide (a.kind = .tailWord) && a.pair == key) with
    | none => s
    | some (_, s1) =>
      let s2 := s1.onRing key (fun r =>
        let k := r.tailInFlight
        let notes := ((r.cq.take k).filter CqEntry.notify).length
        { r with
          cqTail := ptrAdd r.cqTail k r.cqLog2, completed := r.completed + BitVec.ofNat 64 k, cq := r.cq.drop k
          tailInFlight := 0, pendingNotes := if r.notifyAddr = 0 then 0 else r.pendingNotes + notes })
      if noteDue (s2.ring key) then s2.notifyPair owner n else s2)

/-- COAL_TIME_EXPIRY (R105). -/
def execCoalTimeExpiry (owner n : Nat) (s : State) : Out :=
  let r := s.ring (pairKey owner n)
  unit n 8 (if r.notifyAddr ≠ 0 ∧ 0 < r.pendingNotes then s.notifyPair owner n else s)

end Sys2Proof.Machine
end

