-- ==== Sys2Proof/Machine/Spread.lean ====
section
/-!
DEFINITION. Spread rings over the cascade (03 R139 to R151, 18 R600 to R603): granting at the home, grants and keys at a
member, completion tokens, the control messages, the transport keys, and the loss of a member.
-/
namespace Sys2Proof.Machine

/-! ## Transport keys (R601) -/

/-- The transport key shared with an instance. -/
def transportKey (s : State) (i : Nat) : Option Bytes :=
  if Tab.has s.link.transportKeys i then some (Tab.get (fun _ => []) s.link.transportKeys i) else none

/-- What a side sends in its KEYX_SETUP fragments: DEVICE_ID_PUB, ALIAS_CERT, its share and the alias key's signatures
over the share (log entry 12). -/
def setupMessage (s : State) (secret : Bytes) : Bytes :=
  let share := octetsOf 1216 (Config.pkeResult 0x40 secret [] [])
  let alias_ := cut s.lc.aliasCert 64 2688
  cut s.lc.deviceIdPub 0 2688 ++ cut s.lc.aliasCert 0 7475 ++ share ++ octetsOf 4723 (Config.sign 1 alias_ share)

/-- Octets of such a message. -/
def setupLen : Nat := 2688 + 7475 + 1216 + 4723

/-- Fragments of 112 octets, each with its offset and the total length. -/
def fragments (bs : Bytes) : List Bytes :=
  (List.range ((bs.length + 111) / 112)).map (fun i => leBytes 4 (112 * i) ++ leBytes 4 bs.length ++ cut bs (112 * i) 112)

/-- This instance's side of an exchange sent to a peer: a share is drawn when there is none under way. -/
def State.sendSetup (s : State) (i : Nat) : State :=
  match rngRefusal s with
  | some _ => s
  | none =>
    let r := if (s.peer i).share = [] then s.internalDraw 64 else ((s.peer i).share, s)
    let s1 := r.2.onPeer i (fun p => { p with share := r.1 })
    (fragments (setupMessage s r.1)).foldl (fun t f => t.sendMsg kKeyxSetup i f) s1

/-- Does this side accept what the peer sent (R601)? -/
def setupAccepted (s : State) (b : Bytes) : Bool :=
  let pub := cut b 0 2688
  let cert := cut b 2688 7475
  let dev := ((HashWork.start 2).absorb pub).finish 48
  let listed := (List.range 64).any (fun i => Tab.get (fun _ => zeros 48) s.link.peerIds i == dev)
  !s.link.peerIds.isEmpty && listed
    && Config.sigVerifies pub (cut cert 0 2752) (cut cert 2752 4723)
    && Config.sigVerifies (cut cert 64 2688) (cut b 10163 1216) (cut b 11379 4723)
    && leNat (cut cert 1 1) == s.lc.state.code
    && (s.lc.state != .mission || leNat (cut cert 4 4) != 0)

/-- The transport key under the hybrid secret, with the two DEVICE_IDs in order of instance number. -/
def makeTransportKey (s : State) (i : Nat) (secret b : Bytes) : Bytes :=
  let hybrid := octetsOf 64 (Config.pkeResult 0x41 secret (cut b 10163 1216) [])
  let theirs := ((HashWork.start 2).absorb (cut b 0 2688)).finish 48
  let label : Bytes := [0x54, 0x39, 0x20, 0x6C, 0x69, 0x6E, 0x6B, 0x20, 0x74, 0x72, 0x61, 0x6E, 0x73, 0x70, 0x6F, 0x72, 0x74]
  octetsOf 32 (Config.kdf hybrid label
    (if s.link.instanceNo < i then s.lc.deviceId ++ theirs else theirs ++ s.lc.deviceId))

/-! ## The spread entries at their home (Table 3-4) -/

/-- A spread entry by number. -/
def State.spreadAt (s : State) (nn : Nat) : Spread := Tab.get Spread.dflt s.spread nn

/-- A change of a spread entry. -/
def State.onSpread (s : State) (nn : Nat) (f : Spread → Spread) : State :=
  { s with spread := Tab.upd Spread.dflt s.spread nn f }

/-- The pair a spread entry names. -/
def Spread.key (e : Spread) : Nat := pairKey (if e.mgrRing then mgr else e.slice) e.ring

/-- The numbers of its members at other instances. -/
def Spread.remote (e : Spread) : List Nat := (List.range (min e.memberCount 8)).filter (· != 0)

/-- SPREAD_STATE becomes ACTIVE once every transport key is there (R601). -/
def State.spreadSettle (s : State) (nn : Nat) : State :=
  let e := s.spreadAt nn
  if e.enable ∧ e.state = .disabled ∧ e.remote.all (fun i => (transportKey s (e.instOf i)).isSome) then
    s.onSpread nn (fun x => { x with state := .active })
  else s

/-- The configuration of a member (R600). -/
def State.sendConfig (s : State) (nn i : Nat) : State :=
  let e := s.spreadAt nn
  let cls := (s.ring e.key).orderClass.code
  s.sendMsg kSpreadCtl (e.instOf i)
    (ctlBody scConfig nn (ownerWord (pairOwner e.key)) (e.ring % 8 + cls % 4 * 8 + e.memberCount % 16 * 32 + i % 16 * 512)
      e.credits 0)

/-- SPREAD_ENABLE set or cleared. Setting it forgets the members declared lost (DESIGN CHOICE, log entry 80). -/
def State.writeSpreadEnable (s : State) (nn : Nat) (on : Bool) : State :=
  let e := s.spreadAt nn
  if on then
    let s1 := s.onSpread nn (fun x => { x with enable := true, state := .disabled, grantsSent := 0, lost := 0, refused := 0 })
    let s2 := e.remote.foldl (fun t i =>
      let inst := e.instOf i
      let t1 := if (transportKey t inst).isSome then t else t.sendSetup inst
      t1.sendConfig nn i) s1
    s2.spreadSettle nn
  else
    let s1 := e.remote.foldl (fun t i => if e.enable then t.sendMsg kSpreadCtl (e.instOf i) (ctlBody scRelease nn 0 0 0 0) else t) s
    s1.onSpread nn (fun x => { x with enable := false, state := .disabled })

/-! ## Granting (R139 to R143, R150, R602) -/

/-- Grants of a spread ring that a member holds. -/
def creditsUsed (s : State) (key i : Nat) : Nat :=
  ((reqsOf s key).filter (fun e =>
    e.2.homeGrant.isNone && e.2.member == i && e.2.stat.isNone
      && (if i = 0 then e.2.stage == .gather else e.2.stage == .granted))).length

/-- The member with the most free credits, the lowest number among equals. The credits of a member declared lost count like any other's
(DESIGN CHOICE, log entry 81): a request routed to it ends under R151. -/
def mostFree (s : State) (e : Spread) : Nat :=
  (List.range e.memberCount).foldl (fun b i => if creditsUsed s e.key i < creditsUsed s e.key b then i else b) 0

/-- The member a request is routed to (R140). -/
def routeOf (s : State) (e : Spread) (q : Req) : Nat :=
  let g := if e.memberCount = 0 then 1 else e.memberCount
  match q.ord with
  | .slot n => n % g
  | .entry n => n % g
  | _ => mostFree s e

/-- A request ends at the home before it was granted, or with the loss of its member: no part of it ran here. -/
def Req.endHome (e : Ending) (r : Req) : Req :=
  if r.stat.isSome then r
  else { r with stage := .over, outerEnded := false, stat := some { tag := 0, ending := e, cflags := 0, inDone := 0, nonceUsed := 0 } }

/-- A request that is granted to a lost member, or routes to one (R151): PARTIAL, DETAIL 0x03, with JOURNAL set. -/
def Req.endLost (i : Nat) (r : Req) : Req :=
  if r.stat.isSome then r else { (r.endHome (ends .partialEnd 0x03)) with cause := 4, member := i }

/-- The GRANT body (Table 18-8): its KEY_HANDLE is the one the home resolved; for a cold association, which resolves to no handle, it is
the descriptor's (DEDUCED, log entry 79). -/
def grantBody (nn mseq : Nat) (keyx : Bool) (q : Req) : Bytes :=
  let w := q.d.bytes
  leBytes 4 q.sseq ++ leBytes 4 mseq ++ [BitVec.ofNat 8 (nn % 16 + 16 * b2n keyx)] ++ cut w 0 6
    ++ leBytes 4 (if q.entry.isSome then q.d.handle else q.handle).toNat ++ leBytes 8 q.d.inAddr.toNat ++ cut w 24 8 ++ leBytes 8 q.d.outAddr.toNat
    ++ leBytes 4 q.d.outCap ++ [BitVec.ofNat 8 q.d.icvLen] ++ leBytes 8 q.d.w6.toNat

/-- Does a granted request need a key out of a blob: 1 a cold association, 2 KEY_LOAD_WRAPPED (R602)? -/
def Req.keyUse (q : Req) : Nat := if q.d.opcode = 0x30 then 2 else if isLaneOp q.d.opcode ∧ q.entry.isSome then 1 else 0

/-- The blob of such a request. -/
def Req.grantBlob (q : Req) : Bytes := if q.d.opcode = 0x30 then cut q.inData 0 96 else cut q.blob 0 96

/-- The key of the blob, opened at the home. -/
def State.grantKey (s : State) (q : Req) : Except Ending KeyCopy × State :=
  if q.d.opcode = 0x30 then
    match openBlob s q.owner (if hKind q.handle = 3 then 3 else 0) q.grantBlob with
    | .error e => (.error e, s)
    | .ok x => (.ok x.1, s)
  else s.coldKey q.owner q.grantBlob

/-- The authenticated data of a KEYX (Table 18-9). -/
def keyxAad (b : Bytes) (src dest : Nat) : Bytes :=
  cut b 0 16 ++ cut b 96 8 ++ [BitVec.ofNat 8 src, BitVec.ofNat 8 dest]

/-- KEYX sent ahead of a grant (R602). -/
def State.sendKeyx (s : State) (nn inst : Nat) (q : Req) (k : KeyCopy) (tk : Bytes) : State :=
  let b := q.grantBlob
  let kind3 := octet b 1 == 3
  let count := Tab.get (fun _ => 0) s.link.keyxCounts inst
  let earlier := decide (leNat (cut b 4 4) < s.start.bootEpoch.toNat)
  let head : Bytes := [3, octet b 1, BitVec.ofNat 8 k.transform, BitVec.ofNat 8 (b2n ((octet b 3).getLsbD 0) + 2 * b2n earlier),
    BitVec.ofNat 8 s.link.instanceNo] ++ leBytes 11 count
  let tail : Bytes := leBytes 4 q.sseq ++ leBytes 2 (ownerWord q.owner) ++ [BitVec.ofNat 8 nn, BitVec.ofNat 8 q.keyUse]
  let body := if kind3 then cut k.secret 0 64
    else cut k.secret 0 32 ++ cut k.salt12 0 12 ++ cut k.sci 0 8 ++ cut k.ssci 0 4 ++ zeros 8
  let e := gcmSeal tk (cut head 4 12) (keyxAad (head ++ zeros 80 ++ tail) s.link.instanceNo inst) body
  (s.onLink (fun l => { l with keyxCounts := Tab.set (fun _ => 0) l.keyxCounts inst (count + 1), keyxSent := l.keyxSent + 1 })).sendMsg
    kKeyx inst (head ++ e.1 ++ e.2 ++ tail ++ zeros 16)

/-- GRANT sent to member `i`, in MSEQ order; the first after ENABLE follows a configuration (R143, R600). -/
def State.sendGrant (s : State) (nn i rid : Nat) (q : Req) (keyx : Bool) : State :=
  let e := s.spreadAt nn
  let mseq := Tab.get (fun _ => 0) e.perMember i
  let s1 := (s.onReq rid (fun r => { r with member := i })).onSpread nn (fun x =>
    { x with perMember := Tab.set (fun _ => 0) x.perMember i (mseq + 1), grantsSent := x.grantsSent + 1 })
  s1.sendMsg kGrant (e.instOf i) (grantBody nn mseq keyx q)

/-- The request granted to a member at another instance, with its key where it needs one. -/
def State.grantRemote (s : State) (nn i rid : Nat) (q : Req) : State :=
  let e := s.spreadAt nn
  let inst := e.instOf i
  let s0 := if Tab.get (fun _ => 0) e.perMember i = 0 then s.sendConfig nn i else s
  if q.keyUse = 0 then
    let s1 :=
      if q.d.opcode = 0x31 ∧ q.entry.isSome then
        s0.onKeys (fun k => { k with coldCache := k.coldCache.filter (fun x => !(x.hits q.owner (cut q.blob 0 96))) })
      else s0
    s1.sendGrant nn i rid q false
  else if q.keyUse = 2 ∧ q.inData.length < 96 then
    if accBusy s rid .input ∨ !(roomFor s q.chan 2) then s
    else (s.gatherRead rid (q.ask rid .input false q.d.inAddr.toNat 96 0 [])).2
  else
    match s0.grantKey q with
    | (.error x, s1) => s1.onReq rid (Req.endHome x)
    | (.ok k, s1) =>
      match transportKey s1 inst with
      | none => s
      | some tk => (s1.sendKeyx nn inst q k tk).sendGrant nn i rid q true

/-- SPREAD_GRANT (R140): a request past the gate of its spread ring is routed, in ring order, as credits allow (R150). A request that the
home runs itself, as member 0, counts as a grant sent (DESIGN CHOICE, log entry 82). -/
def execSpreadGrant (rid : Nat) (s : State) : Out :=
  .next <|
    match s.req rid with
    | none => s
    | some q =>
      let earlier := (before s q).any (fun x => x.stage == .granted && x.member == 0 && x.stat.isNone)
      if q.stage ≠ .granted ∨ q.member ≠ 0 ∨ q.stat.isSome ∨ earlier ∨ !(mayFetch s q.owner) then s
      else
        match spreadOf s (pairKey q.owner q.ring) with
        | none => s.gatherStart rid
        | some (nn, e) =>
          let i := routeOf s e q
          if e.lost.getLsbD i then s.onReq rid (Req.endLost i)
          else if e.credits ≤ creditsUsed s e.key i then s
          else if i = 0 then (s.onSpread nn (fun x => { x with grantsSent := x.grantsSent + 1 })).gatherStart rid
          else s.grantRemote nn i rid q

/-- MEMBER_LOST (R151). -/
def execMemberLost (nn i : Nat) (s : State) : Out :=
  let e := s.spreadAt nn
  unit nn 16
    (if !e.enable ∨ !(e.remote.contains i) ∨ inMap s (e.instOf i) ∨ e.lost.getLsbD i then s
    else
      let s1 := s.onSpread nn (fun x => { x with lost := x.lost ||| BitVec.ofNat 8 (2 ^ i), state := .degraded })
      (reqsOf s e.key).foldl (fun t x =>
        if x.2.homeGrant.isNone ∧ x.2.stage = .granted ∧ x.2.member = i then t.onReq x.1 (Req.endLost i) else t) s1)

/-! ## Tokens (R146, R147) -/

/-- STATUS of a code. -/
def Status.ofCode (n : Nat) : Status :=
  (([Status.ok, .okAbortLate, .partialEnd, .lengthMismatch, .fragmentFault, .accessFault, .requestInvalid, .keyStale,
    .keyAbsent, .keyNotOwned, .nonceExhausted, .authFail, .keyPoisoned, .notPermitted, .rngUnavailable, .pkeReject,
    .aborted, .quiesced, .retryImpossible, .directoryMiss].find? (fun x => x.code == n))).getD .internal

/-- The content of a record taken from its 32 octets. CFLAGS keep what Myeno set; Deliver sets the others anew. -/
def Req.withToken (b : Bytes) (q : Req) : Req :=
  let w := leNat (cut b 0 8)
  let e := ends (Status.ofCode (fld w 0 8)) (fld w 8 8)
  let flags := BitVec.ofNat 16 (fld w 16 16)
  let nonce := BitVec.ofNat 64 (leNat (cut b 16 8))
  { q with
    stage := .over, outerEnded := flags.getLsbD 9, finalOutDone := leNat (cut b 12 4)
    abortLate := q.abortLate || flags.getLsbD 1
    stat := some { tag := 0, ending := e, cflags := flags &&& ~~~0x0303#16, inDone := leNat (cut b 8 4), nonceUsed := nonce }
    m := { q.m with nonceUsed := nonce, nonceValid := flags.getLsbD 5 }
    cause := if e.st = .partialEnd ∧ q.cause = 0 then 4 else q.cause }

/-- TOKEN (R147): the content comes home; one from a member declared lost is discarded (R151). -/
def execToken (m : Msg) (s : State) : Out :=
  .next <|
    match s.deliverMsg m kToken with
    | none => s.undelivered m kToken
    | some s1 =>
      let nn := leNat (cut m.body 4 1)
      let sseq := leNat (cut m.body 0 4)
      let e := s1.spreadAt nn
      if e.remote.any (fun i => e.instOf i == m.src && e.lost.getLsbD i) then s1.raise 0x108 m.src sseq
      else
        match (reqsOf s1 e.key).find? (fun x =>
            x.2.homeGrant.isNone && x.2.stage == .granted && x.2.member != 0 && x.2.sseq == sseq && x.2.stat.isNone
              && e.instOf x.2.member == m.src) with
        | none => s1
        | some (rid, q) =>
          let q1 := q.withToken (cut m.body 8 32)
          (s1.putReq rid q1).learnCommit rid q (((q1.stat.map (fun t => t.ending.st.good))).getD false)

/-! ## A member (R143, R144, R603) -/

/-- The lowest REQ_ID that no request and no access uses. -/
def freeReqId (s : State) : Option Nat :=
  let used := s.reqs.map Prod.fst ++ (s.port.outstanding.filter (fun a => a.kind.ofReq)).map Acc.req
  match freeTag used with
  | some i => if i < 65536 then some i else none
  | none => none

/-- The descriptor a GRANT carries. -/
def grantDesc (b : Bytes) : Desc :=
  parseDesc (cut b 9 6 ++ zeros 2 ++ cut b 15 4 ++ zeros 4 ++ cut b 19 8 ++ cut b 27 8 ++ cut b 35 8 ++ cut b 43 5 ++ zeros 3
    ++ cut b 48 8 ++ zeros 8)

/-- The key of a KEYX that matches a grant, opened under the transport key (R603). -/
def openKeyx (s : State) (home nn sseq owner : Nat) : Option Transfer :=
  match s.link.keyxHeld.find? (fun x =>
      x.src == home && leNat (cut x.body 96 4) == sseq && leNat (cut x.body 102 1) == nn), transportKey s home with
  | some x, some tk =>
    let b := x.body
    if leNat (cut b 0 1) ≠ 3 ∨ leNat (cut b 100 2) ≠ ownerWord owner then none
    else
      match gcmOpen tk (cut b 4 12) (keyxAad b home s.link.instanceNo) (cut b 16 64) (cut b 80 16) with
      | none => none
      | some p =>
        let base : KeyCopy :=
          { slot := none, gen := 0, transform := leNat (cut b 2 1), secret := cut p 0 64, salt12 := zeros 12, sci := zeros 8,
            ssci := zeros 4, an := 0 }
        some
          { key := if leNat (cut b 1 1) = 3 then base
              else { base with secret := cut p 0 32, salt12 := cut p 32 12, sci := cut p 44 8, ssci := cut p 52 4 }
            sealing := (octet b 3).getLsbD 0, earlier := (octet b 3).getLsbD 1 }
  | _, _ => none

/-- Ordering key of a granted request (R116, R144). A grant carries no index of a directory entry: the cold associations of one line port
share a key at the member (DESIGN CHOICE, log entry 79). -/
def grantKeyOf (d : Desc) : OrdKey :=
  if readsHandle d ∧ hKind d.handle = 2 then .entry (hSlot d.handle) else fetchKey d

/-- A grant taken in its turn: a request of the spread ring at this instance, past Fetch and Resolve. -/
def State.takeGrant (s : State) (r : MemberRing) (m : Msg) : State :=
  match freeReqId s with
  | none => s
  | some rid =>
    let d := grantDesc m.body
    let sseq := leNat (cut m.body 0 4)
    let keyx := bit (leNat (cut m.body 8 1)) 4
    let cold := decide (readsHandle d = true ∧ hKind d.handle = 2)
    let base := Req.fresh r.owner r.ring 0 r.taken (pickChannel s) sseq r.cls
    let q : Req :=
      { base with
        d := d, handle := d.handle, ord := grantKeyOf d, stage := .gate
        entry := if cold then some (hSlot d.handle) else none
        homeGrant := some (r.home, r.nn)
        keyx := if keyx then openKeyx s r.home r.nn sseq r.owner else none }
    let s1 := s.onLink (fun l =>
      { l with keyxHeld := l.keyxHeld.filter (fun x => !(x.src == r.home && leNat (cut x.body 96 4) == sseq
        && leNat (cut x.body 102 1) == r.nn)) })
    if keyx ∧ q.keyx.isNone then
      ((s1.putReq rid (q.endHome (ends .keyNotOwned 0x03))).onLink (fun l => { l with keyxRefused := l.keyxRefused + 1 })).raise
        0x10A r.home sseq
    else s1.putReq rid q

/-- The configuration of a spread ring of another home. -/
def memberRing (s : State) (home nn : Nat) : Option MemberRing :=
  s.link.memberRings.find? (fun r => r.home == home && r.nn == nn)

/-- A change of such a configuration. -/
def State.onMemberRing (s : State) (home nn : Nat) (f : MemberRing → MemberRing) : State :=
  s.onLink (fun l => { l with memberRings := l.memberRings.map (fun r => if r.home = home ∧ r.nn = nn then f r else r) })

/-- Grants held are taken as long as the next MSEQ is among them (R143). -/
def State.takeGrants : Nat → State → Nat → Nat → State
  | 0, s, _, _ => s
  | fuel + 1, s, home, nn =>
    match memberRing s home nn with
    | none => s
    | some r =>
      match r.early.find? (fun m => leNat (cut m.body 4 4) == r.taken % 2 ^ 32), freeReqId s with
      | some m, some _ =>
        State.takeGrants fuel
          ((s.takeGrant r m).onMemberRing home nn (fun x =>
            { x with taken := x.taken + 1, early := x.early.erase m })) home nn
      | _, _ => s

/-- GRANT (R143). -/
def execGrant (m : Msg) (s : State) : Out :=
  .next <|
    match s.deliverMsg m kGrant with
    | none => s.undelivered m kGrant
    | some s1 =>
      let nn := leNat (cut m.body 8 1) % 16
      match memberRing s1 m.src nn with
      | none => s1
      | some r => (s1.onMemberRing m.src nn (fun x => { x with early := x.early ++ [m] })).takeGrants (r.early.length + 1) m.src nn

/-- KEYX (R603): held until its grant is taken. -/
def execKeyx (m : Msg) (s : State) : Out :=
  .next <|
    match s.deliverMsg m kKeyx with
    | none => s.undelivered m kKeyx
    | some s1 => s1.onLink (fun l => { l with keyxHeld := l.keyxHeld ++ [m] })

/-- Every spread entry that waits for its transport keys is looked at again. -/
def State.settleSpreads (s : State) : State := (List.range 16).foldl State.spreadSettle s

/-- KEYX_SETUP (R601): a fragment; with the last one the exchange is accepted, and this side answers when it has not sent
its share yet. -/
def execKeyxSetup (m : Msg) (s : State) : Out :=
  .next <|
    match s.deliverMsg m kKeyxSetup with
    | none => s.undelivered m kKeyxSetup
    | some s1 =>
      let off := leNat (cut m.body 0 4)
      let have_ := (s1.peer m.src).setup
      if off ≠ have_.length ∨ leNat (cut m.body 4 4) ≠ setupLen then s1.onPeer m.src (fun p => { p with setup := [] })
      else
        let b := (have_ ++ cut m.body 8 112).take setupLen
        if b.length < setupLen then s1.onPeer m.src (fun p => { p with setup := b })
        else
          let s2 := s1.onPeer m.src (fun p => { p with setup := [] })
          if !(setupAccepted s2 b) then s2
          else
            let s3 := if (s2.peer m.src).share = [] then s2.sendSetup m.src else s2
            let secret := (s3.peer m.src).share
            if secret = [] then s3
            else
              ((s3.onPeer m.src (fun p => { p with share := [] })).onLink (fun l =>
                { l with
                  transportKeys := Tab.ins l.transportKeys m.src (makeTransportKey s3 m.src secret b)
                  keyxCounts := Tab.del l.keyxCounts m.src })).settleSpreads

/-! ## SPREAD_CTL (R149, R469, R600) -/

/-- The request that a home granted to this instance under an SSEQ. -/
def grantedReq (s : State) (home nn sseq : Nat) : Option (Nat × Req) :=
  s.reqs.find? (fun e => decide (e.2.homeGrant = some (home, nn)) && e.2.sseq == sseq)

/-- A configuration taken: at most 64 (R600); one for a ring known already replaces it. -/
def State.takeConfig (s : State) (m : Msg) (nn : Nat) : State :=
  let b := leNat (cut m.body 4 2)
  let r : MemberRing :=
    { home := m.src, nn := nn, owner := (ownerOf (leNat (cut m.body 2 2))).getD mgr, ring := fld b 0 3
      cls := OrderClass.ofCode (fld b 3 2), members := fld b 5 4, index := fld b 9 4, credits := leNat (cut m.body 8 4)
      taken := 0, early := [] }
  let others := s.link.memberRings.filter (fun x => !(x.home == m.src && x.nn == nn))
  let ok := decide (others.length < 64)
  (if ok then s.onLink (fun l => { l with memberRings := others ++ [r] }) else s).sendMsg kSpreadCtl m.src
    (ctlBody scConfigResult nn (b2n (!ok)) (fld b 9 4) 0 0)

/-- An abort that came from the home (R149): the decision point is here, and the outcome goes back. -/
def State.takeAbort (s : State) (m : Msg) (nn : Nat) : State :=
  let sseq := leNat (cut m.body 8 4)
  let reply (t : State) (d : Nat) : State := t.sendMsg kSpreadCtl m.src (ctlBody scAbortResult nn d 0 sseq 0)
  match grantedReq s m.src nn sseq with
  | none => reply s 0x02
  | some (rid, q) =>
    let s1 := s.stopRequest rid (ends .aborted 0x01) (ends .aborted 0x02)
    let won := match s1.req rid with
      | some q1 => stopped q q1
      | none => false
    if won then reply s1 0x01 else reply (s1.onReq rid (fun r => { r with abortLate := true })) 0x02

/-- A quiesce that came from the home (R469): `cancel` tells whether dispatched requests stop too (R468). -/
def State.takeQuiesce (s : State) (m : Msg) (nn : Nat) (cancel : Bool) : State :=
  s.reqs.foldl (fun t e =>
    if e.2.homeGrant = some (m.src, nn) ∧ (cancel ∨ !e.2.m.dispatched) then
      t.stopRequest e.1 (ends .quiesced 0x01) (ends .quiesced 0x02)
    else t) s

/-- The outcome of a forwarded abort, at the home (R113, R149). -/
def State.abortOutcome (s : State) (m : Msg) (nn d : Nat) : State :=
  let sseq := leNat (cut m.body 8 4)
  let e := s.spreadAt nn
  match (reqsOf s e.key).find? (fun x => x.2.homeGrant.isNone && x.2.sseq == sseq && x.2.abortSent) with
  | none => s
  | some (rid, q) =>
    match q.abortWaiting with
    | [] => s
    | a :: rest =>
      (s.onReq rid (fun r =>
        { r with abortWaiting := rest, abortLate := r.abortLate || (d == 2 && !r.recordIssued) })).settleAbort a d

/-- SPREAD_CTL (R600). -/
def execSpreadCtl (m : Msg) (s : State) : Out :=
  .next <|
    match s.deliverMsg m kSpreadCtl with
    | none => s.undelivered m kSpreadCtl
    | some s1 =>
      let what := leNat (cut m.body 0 1)
      let nn := leNat (cut m.body 1 1) % 16
      let a := leNat (cut m.body 2 2)
      if what = scConfig then s1.takeConfig m nn
      else if what = scRelease then
        s1.onLink (fun l => { l with memberRings := l.memberRings.filter (fun r => !(r.home == m.src && r.nn == nn)) })
      else if what = scConfigResult then
        if a = 0 then s1
        else
          let e := s1.spreadAt nn
          let i := leNat (cut m.body 4 2)
          let s2 := s1.onSpread nn (fun x => { x with refused := x.refused ||| BitVec.ofNat 8 (2 ^ i) })
          if (s2.ring e.key).state = .enabled ∧ e.enable then s2.ringFault e.key badConfig 0 else s2
      else if what = scAbort then s1.takeAbort m nn
      else if what = scAbortResult then s1.abortOutcome m nn a
      else if what = scQuiesce then s1.takeQuiesce m nn (a == 1)
      else s1

end Sys2Proof.Machine
end

