-- ==== Sys2Proof/Machine/Slices.lean ====
section
/-!
DEFINITION. Slices (chapter 13): CREATE, QUIESCE, RESUME, RESET and REMOVE, and the Promenade log.
-/
namespace Sys2Proof.Machine

/-! ## Commands (R463, Table 13-6) -/

/-- Existing slices, by number. -/
def present (s : State) : List (Nat × Slice) := s.slices.tab.filter (fun e => e.1 < 512 && e.2.state != .absent)

/-- Does a slice hold this PASID, or is one being created with it (R464)? -/
def pasidTaken (s : State) (n : Nat) (pasid : U32) : Bool :=
  s.slices.mgrPasid.toNat == pasid.toNat
    || s.slices.tab.any (fun e => e.1 != n && (e.2.state != .absent || e.2.cmdStatus == .busy) && e.2.pasid == pasid)

/-- Why CREATE is refused (R464). -/
def createRefusal (s : State) (n : Nat) : Option CmdStatus :=
  let sl := s.slice n
  if sl.state ≠ .absent then some .wrongState
  else if 0xFFFFF#32 < sl.pasid then some .pasidInvalid
  else if pasidTaken s n sl.pasid then some .pasidInUse
  else if s.rng.state ≠ .running then some .noRng
  else if !s.start.vaultValid then some .vault
  else none

/-- A command that is refused shows why; the answer says so. -/
def State.cmdRefused (s : State) (n : Nat) (c : CmdStatus) : Option CmdStatus × State :=
  (some c, s.onSlice n (fun sl => { sl with cmdStatus := c }))

/-- CREATE accepted: BUSY until Myeno has recorded the slice. -/
def State.sliceCreate (s : State) (n : Nat) : Option CmdStatus × State :=
  if (s.slice n).cmdStatus = .busy then (some .busy, s)
  else
    match createRefusal s n with
    | some c => s.cmdRefused n c
    | none => (none, s.onSlice n (fun sl => { sl with cmdStatus := .busy, creations := sl.creations + 1 }))

/-- The spread entries whose pair a slice owns. -/
def spreadsOf (s : State) (n : Nat) : List (Nat × Spread) :=
  s.spread.filter (fun e => e.2.enable && !e.2.mgrRing && e.2.slice == n)

/-- The quiesce forwarded to each member that holds a grant (R469). -/
def State.forwardQuiesce (s : State) (n : Nat) (cancel : Bool) : State :=
  (spreadsOf s n).foldl (fun t x =>
    x.2.remote.foldl (fun u i =>
      if creditsUsed u x.2.key i = 0 ∨ x.2.lost.getLsbD i then u
      else u.sendMsg kSpreadCtl (x.2.instOf i) (ctlBody scQuiesce x.1 (b2n cancel) 0 0 0)) t) s

/-- A quiesce meets a request of the slice (R467, R468): none that is granted elsewhere, nor an ABORT that waits for its
settlement (DEDUCED, log entry 88), nor one whose descriptor is still being read, which ends when it arrives. -/
def quiesceMeets (n : Nat) (cancel : Bool) (q : Req) : Bool :=
  q.owner == n && q.homeGrant.isNone && q.stage != .descRead && q.stage != .abortWait
    && !(q.stage == .granted && q.member != 0) && (cancel || !q.m.dispatched)

/-- Requests stopped by a quiesce. -/
def State.quiesceRequests (s : State) (n : Nat) (cancel : Bool) : State :=
  s.reqs.foldl (fun t e =>
    if quiesceMeets n cancel e.2 then t.stopRequest e.1 (ends .quiesced 0x01) (ends .quiesced 0x02) else t) s

/-- The digest computation of a page is abandoned and its context released (09 R363). -/
def State.releasePage (s : State) (o : Nat) : State :=
  if (s.page o).isOpen then (s.leavePage o).onPage o (fun p => p.release p.error) else s

/-- QUIESCE (R466 to R470). -/
def State.sliceQuiesce (s : State) (n : Nat) : Option CmdStatus × State :=
  let sl := s.slice n
  if sl.cmdStatus = .busy then (some .busy, s)
  else
    match sl.state with
    | .quiesced => (none, s.onSlice n (fun x => { x with cmdStatus := .done }))
    | .active =>
      let s1 := s.onSlice n (fun x =>
        { x with state := .quiescing, cmdStatus := .busy, pending := true, cancelling := x.cancelMode })
      (none, ((s1.quiesceRequests n sl.cancelMode).forwardQuiesce n sl.cancelMode).releasePage n)
    | _ => s.cmdRefused n .wrongState

/-- RESUME (R471). -/
def State.sliceResume (s : State) (n : Nat) : Option CmdStatus × State :=
  let sl := s.slice n
  if sl.cmdStatus = .busy then (some .busy, s)
  else if sl.state ≠ .quiesced then s.cmdRefused n .wrongState
  else (none, s.onSlice n (fun x => { x with state := .active, cmdStatus := .done, pending := false }))

/-- RESET or REMOVE (R473) accepted: the page closes until the end. -/
def State.sliceReset (s : State) (n : Nat) (into : SliceState) : Option CmdStatus × State :=
  let sl := s.slice n
  if sl.cmdStatus = .busy then (some .busy, s)
  else if sl.state ≠ .quiesced then s.cmdRefused n .wrongState
  else (none, s.onSlice n (fun x => { x with state := into, cmdStatus := .busy, pending := false }))

/-- CREATE (R464). -/
def execCreate (slice : Nat) (s : State) : Out := unit slice 512 (s.sliceCreate slice).2

/-- QUIESCE (R466). -/
def execQuiesce (slice : Nat) (s : State) : Out := unit slice 512 (s.sliceQuiesce slice).2

/-- RESUME (R471). -/
def execResume (slice : Nat) (s : State) : Out := unit slice 512 (s.sliceResume slice).2

/-- RESET (R473). -/
def execReset (slice : Nat) (s : State) : Out := unit slice 512 (s.sliceReset slice .resetting).2

/-- REMOVE (R473). -/
def execRemove (slice : Nat) (s : State) : Out := unit slice 512 (s.sliceReset slice .removing).2

/-! ## What follows a command -/

/-- The page of a slice as a reset leaves it: registers, ring pairs, exception ring, key window, digest block, and every
FIFO emptied (R445, Table 13-7). -/
def State.clearPage (s : State) (n : Nat) : State :=
  let s1 := (s.releasePage n).emptyPort n
  let f2 := (s1.fifo 2 n).emptied
  { s1.putFifo 2 n f2 with
    engine := { s1.engine with pairs := s1.engine.pairs.filter (fun e => !(e.1 / 8 == n + 1)) }
    keys := { s1.keys with
      windows := Tab.del s1.keys.windows n
      loads := s1.keys.loads.filter (fun l => !(l.source == 0 && l.page == n)) }
    digest := { s1.digest with pages := Tab.del s1.digest.pages n }
    fifos := { (s1.putFifo 2 n f2).fifos with
      pke := Tab.del s1.fifos.pke n, rng := Tab.del s1.fifos.rng n, toSlice := Tab.del s1.fifos.toSlice n }
    dir := { s1.dir with xrings := Tab.del s1.dir.xrings n }
    slices := { s1.slices with
      tab := Tab.upd Slice.dflt s1.slices.tab n (fun x => { x with mbAddr := 0, mbData := 0 }) } }

/-- Blocks of the derivation of a wrap key (05 R227): when its seed is drawn, and at each start for the seeds held (DEDUCED, log
entry 77). -/
def wrapKdf : Nat := kdfBlocks 48 32

/-- CREATE_COMPLETE (R464): PASID recorded, the wrap seed drawn, the page at its reset values, ACTIVE. -/
def execCreateComplete (slice : Nat) (s : State) : Out :=
  unit slice 512
    (let sl := s.slice slice
    if sl.state ≠ .absent ∨ sl.cmdStatus ≠ .busy then s
    else
      let r := s.internalDraw 32
      let s1 := r.2.clearPage slice
      let s2 := { s1 with
        keys := { s1.keys with
          pasids := Tab.set (fun _ => none) s1.keys.pasids slice (some (sl.pasid.truncate 20)) }
        start := { s1.start with vaultSeeds := Tab.ins s1.start.vaultSeeds slice r.1 } }
      ((s2.internalRan wrapKdf).onSlice slice (fun x =>
        { x with
          state := .active, cmdStatus := .done, pageDrops := 0, escalations := 0, pending := false, cancelling := false
          prom := { x.prom with outside := 0, bitsSet := 0 } })).wantRefill slice)

/-- QUIESCE_DONE (R136, R466). -/
def execQuiesceDone (slice : Nat) (s : State) : Out :=
  unit slice 512
    (if (s.slice slice).state = .quiescing ∧ (List.range 8).all (fun n => pairQuiet s (pairKey slice n)) then
      (s.onSlice slice (fun x => { x with state := .quiesced, cmdStatus := .done, cancelling := false })).raise 0x191 slice 0
    else s)

/-- QUIESCE_LIMIT_EXPIRY (R468): a drain goes on as CANCEL. -/
def execQuiesceLimitExpiry (slice : Nat) (s : State) : Out :=
  unit slice 512
    (let sl := s.slice slice
    if sl.state ≠ .quiescing ∨ sl.cancelling then s
    else
      ((s.onSlice slice (fun x => { x with cancelling := true, escalations := x.escalations + 1 })).quiesceRequests slice
        true).forwardQuiesce slice true)

/-- Slots allotted to an owner. -/
def slotsOf (s : State) (o : Nat) : List Nat := (s.keys.slots.filter (fun e => decide (e.2.owner = some o))).map Prod.fst

/-- The scopes whose ports an owner owns (07 R268). -/
def scopesOf (s : State) (o : Nat) : List Nat :=
  (s.dir.ports.filter (fun e => decide (e.2.owner = some o))).map (fun e => e.2.scope)

/-- Exact entries and prefixes of the scopes whose ports a slice owns, removed (07 R268). -/
def State.removeScopes (s : State) (n : Nat) : State :=
  let sc := scopesOf s n
  let ps := (s.dir.exact.filter (fun e => e.2.type != 0 && sc.contains e.2.scope)).map Prod.fst
  let s1 := ps.foldl State.removeEntry s
  { s1 with
    dir := { s1.dir with
      prefixes := s1.dir.prefixes.filter (fun p => !(sc.contains p.scope))
      unlinked := s1.dir.unlinked.filter (fun n => !(sc.contains n.2.1)) } }

/-- SLICE_RESET_COMPLETE (R473, Table 13-7): once no copy of a key of the slice is held. -/
def execSliceResetComplete (slice : Nat) (s : State) : Out :=
  unit slice 512
    (let sl := s.slice slice
    let gone := sl.state == .removing
    let own := slotsOf s slice
    let held := own.any (fun n => !(holders s n).isEmpty || jobHolds s n)
    if (sl.state ≠ .resetting ∧ sl.state ≠ .removing) ∨ held then s
    else
      let s1 := (s.clearPage slice).removeScopes slice
      let s2 := own.foldl (fun t n => t.onSlot n (fun x => if gone then Slot.dflt 0 else x.zeroed)) s1
      let s3 := { s2 with
        keys := { s2.keys with
          coldCache := s2.keys.coldCache.filter (fun e => e.owner != slice)
          loads := s2.keys.loads.filter (fun l => !(own.contains l.slot))
          erases := s2.keys.erases.filter (fun e => !(own.contains e.slot))
          pasids := if gone then Tab.del s2.keys.pasids slice else s2.keys.pasids }
        start := { s2.start with
          vaultSeeds := if gone then Tab.del s2.start.vaultSeeds slice else s2.start.vaultSeeds } }
      (s3.onSlice slice (fun x =>
        { x with
          state := if gone then .absent else .active, cmdStatus := .done
          prom := if gone then { x.prom with enable := false, state := .off, waiting := [], filter := [] } else x.prom })).wantRefill
        slice)

/-! ## The Promenade log (R479 to R483) -/

/-- A write of PROM_ENABLE (R483): A is active when it is set. -/
def State.writePromEnable (s : State) (n : Nat) (on : Bool) : State :=
  s.onSlice n (fun x =>
    { x with
      prom :=
        if !on then { x.prom with enable := false, state := .off, waiting := [], filter := [], beforeSwap := [] }
        else if x.prom.enable then x.prom
        else
          { x.prom with
            enable := true, state := .logging, activeB := false, swapDone := false, waiting := [], filter := []
            beforeSwap := [] } })

/-- PROM_ENABLE (R483). -/
def execPromEnable (slice : Nat) (on : Bool) (s : State) : Out := unit slice 512 (s.writePromEnable slice on)

/-- Is an access one of a slice's log? `PAIR` of the access tells the bitmap. -/
def Acc.ofProm (n : Nat) (a : Acc) : Bool := (a.kind == .promRead || a.kind == .promWrite) && a.owner == n

/-- An access of a slice's log: a service access (R483, Table 14-1). -/
def promAsk (n chan : Nat) (write : Bool) (base i which : Nat) (data : Bytes) : Ask :=
  { chan := chan, kind := if write then .promWrite else .promRead, cls := .service, owner := n, req := 0, pair := which,
    write := write, addr := (base + 8 * (i / 64)) % 2 ^ 64, len := 8, off := i, data := data }

/-- Base of a bitmap. -/
def Prom.base (p : Prom) (b : Bool) : Nat := if b then p.baseB.toNat else p.baseA.toNat

/-- The next read of a log: the first page waiting whose word is not in flight (R480). -/
def State.promNext (s : State) (n chan : Nat) : State :=
  let p := (s.slice n).prom
  let busy (x : Nat × Bool) : Bool :=
    (s.port.outstanding ++ s.port.ended).any (fun a =>
      a.ofProm n && a.addr == (p.base x.2 + 8 * (x.1 / 64)) % 2 ^ 64)
  match p.waiting.find? (fun x => !(busy x)) with
  | none => s
  | some x =>
    if !(roomFor s chan 1) then s
    else
      let s1 := s.onSlice n (fun q => { q with prom := { q.prom with waiting := q.prom.waiting.erase x } })
      match s1.issue (promAsk n chan false (p.base x.2) x.1 (b2n x.2) []) with
      | (true, s2) => s2.onSlice n (fun q => { q with prom := { q.prom with bitsSet := q.prom.bitsSet + 1 } })
      | (false, s2) => s2.promLost n

/-- PROM_LOG_WRITE (R480): the write that has ended is let go, else the word read is written back with its bit set, else
the next read is issued. -/
def execPromLogWrite (slice chan : Nat) (s : State) : Out :=
  if 512 ≤ slice then .fault .noSuchUnit
  else
    unit chan 4
      (match s.takeEnded (fun a => a.kind == .promWrite && a.owner == slice) with
      | some (_, s1) => s1
      | none =>
        match s.takeEnded (fun a => a.kind == .promRead && a.owner == slice) with
        | some (a, s1) =>
          let p := (s1.slice slice).prom
          if !p.enable ∨ p.state = .lost then s1
          else if !(roomFor s chan 1) then s
          else
            let w := leNat (cut a.data 0 8) ||| 2 ^ (a.off % 64)
            match s1.issue (promAsk slice chan true (p.base (a.pair == 1)) a.off a.pair (leBytes 8 w)) with
            | (true, s2) => s2
            | (false, s2) => s2.promLost slice
        | none => s.promNext slice chan)

/-- PROM_SWAP (R482): accepted while LOGGING (log entry 89); the answer says so. -/
def State.promSwap (s : State) (n : Nat) : Bool × State :=
  let p := (s.slice n).prom
  if p.state ≠ .logging then (false, s)
  else
    let writes := (s.port.outstanding.filter (fun a => a.write && a.kind.logged && a.owner == n)).map Acc.id
    (true, s.onSlice n (fun x =>
      { x with prom := { x.prom with
          activeB := !x.prom.activeB, swapDone := false, state := .swapping, filter := [], beforeSwap := writes } }))

/-- PROM_SWAP (R482). -/
def execPromSwap (slice : Nat) (s : State) : Out := unit slice 512 (s.promSwap slice).2

/-- PROM_SWAP_DONE (R482): every data write before the swap and every log write into the old bitmap acknowledged. -/
def execPromSwapDone (slice : Nat) (s : State) : Out :=
  unit slice 512
    (let p := (s.slice slice).prom
    let old := b2n (!p.activeB)
    let writes := s.port.outstanding.any (fun a => p.beforeSwap.contains a.id)
    let logs := p.waiting.any (fun x => b2n x.2 == old)
      || s.port.outstanding.any (fun a => a.ofProm slice && a.pair == old)
      || s.port.ended.any (fun a => a.kind == .promRead && a.owner == slice && a.pair == old)
    if p.state ≠ .swapping ∨ writes ∨ logs then s
    else
      s.onSlice slice (fun x => { x with prom := { x.prom with state := .logging, swapDone := true, beforeSwap := [] } }))

end Sys2Proof.Machine
end

