-- ==== Sys2Proof/Machine/Access.lean ====
section
/-!
DEFINITION. Rule commits and access-rule epochs (chapter 14): validation of the staged copy, the switch, and draining. The
check itself stands in Ops.lean.
-/
namespace Sys2Proof.Machine

/-! ## The checks of R500 -/

/-- Do two ranges of pages cover a common page? A range with BASE above LIMIT covers none. -/
def pagesMeet (b1 l1 b2 l2 : U64) : Bool :=
  decide (max (b1.toNat / 4096) (b2.toNat / 4096) ≤ min (l1.toNat / 4096) (l2.toNat / 4096))

/-- The first pair, in rising order, that meets `p`. -/
def firstPair {α : Type} (p : α → α → Bool) : List (Nat × α) → Option (Nat × Nat)
  | [] => none
  | (i, x) :: t =>
    match t.find? (fun e => p x e.2) with
    | some e => some (i, e.1)
    | none => firstPair p t

/-- Does ATTR hold a reserved value (R492, Table 14-3)? -/
def attrReserved (a : U16) : Bool :=
  let m := fld a.toNat 0 3
  decide (4 < m) || a.getLsbD 7 || fld a.toNat 10 6 != 0 || ((a.getLsbD 5 || a.getLsbD 6) && m != 3 && m != 4)

/-- The enabled rules, and the enabled windows under the numbers 256 to 271. -/
def enabledRules (s : State) : List (Nat × Rule) := s.access.staged.filter (fun e => e.1 < 256 && e.2.enable)
def enabledWindows (s : State) : List (Nat × Window) :=
  ((List.range 16).map (fun w => (w + 256, Tab.get Window.dflt s.access.stagedWin w))).filter (fun e => e.2.enable)

/-- The first check of R500 that fails, with COMMIT_FAULT. -/
def commitCheck (s : State) : Option (CommitStatus × Nat) :=
  let rs := enabledRules s
  let ws := enabledWindows s
  let both : List (Nat × U64 × U64 × U16) :=
    rs.map (fun e => (e.1, e.2.base, e.2.limit, e.2.attr)) ++ ws.map (fun e => (e.1, e.2.base, e.2.limit, e.2.attr))
  let overlap :=
    match firstPair (fun (a b : Rule) => (a.owners &&& b.owners) != 0 && pagesMeet a.base a.limit b.base b.limit) rs with
    | some x => some x
    | none => firstPair (fun (a b : Window) => pagesMeet a.base a.limit b.base b.limit) ws
  match overlap with
  | some (i, j) => some (.overlap, i + j * 2 ^ 16)
  | none =>
    match both.find? (fun e => decide (e.2.2.1.toNat / 4096 < e.2.1.toNat / 4096)) with
    | some e => some (.range, e.1)
    | none =>
      match both.find? (fun e => attrReserved e.2.2.2) with
      | some e => some (.attr, e.1)
      | none =>
        match rs.find? (fun e => e.2.owners == 0) with
        | some e => some (.noOwner, e.1)
        | none => none

/-! ## Steps of a commit (Table 14-5) -/

/-- A change of the access-control objects. -/
def State.onAccess (s : State) (f : Access → Access) : State := { s with access := f s.access }

/-- COMMIT_STATUS code (Table 14-6). -/
def CommitStatus.code : CommitStatus → Nat
  | .done => 0
  | .busy => 1
  | .overlap => 2
  | .range => 3
  | .attr => 4
  | .noOwner => 5

/-- A write of RULE_COMMIT (R499): refused while a commit is in progress. -/
def State.ruleCommit (s : State) : Bool × State :=
  if s.access.commitState ≠ .idle then (false, s)
  else (true, s.onAccess (fun a => { a with commitState := .validating, commitStatus := .busy, validated := false }))

/-- RULE_COMMIT (R499). -/
def execRuleCommit (s : State) : Out := .next s.ruleCommit.2

/-- COMMIT_VALIDATED (R500): the checks end. -/
def execCommitValidated (s : State) : Out :=
  .next
    (if s.access.commitState ≠ .validating ∨ s.access.validated then s
    else
      match commitCheck s with
      | some (c, f) =>
        (s.onAccess (fun a =>
          { a with
            commitState := .idle, commitStatus := c, commitFault := BitVec.ofNat 32 f
            commitsRefused := a.commitsRefused + 1 })).raise 0x16D c.code f
      | none =>
        s.onAccess (fun a =>
          { a with validated := true, commitState := if a.epochDrained then .validating else .waiting }))

/-- Accesses of an earlier epoch that have not completed (R501, R502). -/
def oldOutstanding (s : State) : Nat := (s.port.outstanding.filter (fun a => a.epoch != s.access.epochNow)).length

/-- EPOCH_SWITCH (R501): the staged copy comes into force at one instant. -/
def execEpochSwitch (s : State) : Out :=
  .next
    (if s.access.commitState = .idle ∨ !s.access.validated ∨ !s.access.epochDrained then s
    else
      let now := s.access.epochNow + 1
      let s1 := s.onAccess (fun a =>
        { a with
          inForce := a.staged, winInForce := a.stagedWin, commitState := .idle, commitStatus := .done, validated := false
          epochNow := now, epochDrained := s.port.outstanding.isEmpty, warned := false, commits := a.commits + 1 })
      s1.raise 0x16C 0 now.toNat)

/-- EPOCH_DRAINED (R503): no access of the previous epoch is outstanding. -/
def execEpochDrained (s : State) : Out :=
  .next (if oldOutstanding s = 0 then s.onAccess (fun a => { a with epochDrained := true }) else s)

/-- DRAIN_WARN_EXPIRY (R502): reported once for an epoch. -/
def execDrainWarnExpiry (s : State) : Out :=
  .next
    (if s.access.epochDrained ∨ s.access.warned then s
    else (s.onAccess (fun a => { a with warned := true })).raise 0x16E 0 (oldOutstanding s))

end Sys2Proof.Machine
end

