-- ==== Sys2Proof/Machine/Events.lean ====
section
/-!
DEFINITION. The event logic (chapter 20): accepting an occurrence, its routes, clearing a status, forced
occurrences and the events that arrive at the head.
-/
namespace Sys2Proof.Machine

/-- Severity codes (R632). -/
def Severity.code : Severity → Nat
  | .info => 0
  | .warn => 1
  | .fault => 2
  | .alarm => 3

/-- A change of a source. -/
def State.onSource (s : State) (i : Nat) (f : Source → Source) : State :=
  { s with events := { s.events with sources := Tab.upd Source.dflt s.events.sources i f } }

/-- One occurrence as the queue and an EVENT message carry it. -/
structure Entry3 where
  sev : Nat
  src : Nat
  inst : Nat
  forced : Bool
  time : Nat
  arg : Nat
  info : Nat
  deriving DecidableEq, Repr

/-- The DATA of words A, B and C (Table 20-4). -/
def Entry3.words (e : Entry3) : List (BitVec 48) :=
  [ BitVec.ofNat 48 (fld e.time 32 16 + b2n e.forced * 2 ^ 27 + (e.inst % 64) * 2 ^ 28 + (e.src % 1024) * 2 ^ 34
      + (e.sev % 4) * 2 ^ 44),
    BitVec.ofNat 48 (fld e.time 0 32 + (e.arg % 2 ^ 14) * 2 ^ 32 + 1 * 2 ^ 46),
    BitVec.ofNat 48 (e.info % 2 ^ 46 + 2 * 2 ^ 46) ]

/-- One word into the event queue, which never stalls (12 R452). -/
def State.queueWord (s : State) (w : BitVec 48) : State :=
  let r := s.fifos.events.pushLossy 4096 w
  (s.putFifo 4 mgr r.1).onKind 4 (fun k =>
    { k with marksLost := k.marksLost + BitVec.ofNat 32 r.2.1, lossyDiscards := k.lossyDiscards + BitVec.ofNat 64 r.2.2 })

/-- An entry written as three words in one action (R640). -/
def State.queueEntry (s : State) (e : Entry3) : State := (e.words.foldl State.queueWord s).levelCheck 4 mgr

/-- The body of EVENT (R642). -/
def Entry3.body (e : Entry3) : Bytes :=
  leBytes 6 e.time ++ leBytes 2 (e.src % 1024 + e.sev % 4 * 2 ^ 10 + b2n e.forced * 2 ^ 12)
    ++ leBytes 8 (e.arg % 2 ^ 14 + (e.info % 2 ^ 46) * 2 ^ 14)

/-- Is this instance the head, or standalone (R642)? -/
def isHead (s : State) : Bool := s.link.cascadeSize == 1 || s.pins.htEnabled

/-- The link route: an EVENT to the head, discarded when the head cannot be reached (R642, 18 R599). -/
def State.linkRoute (s : State) (e : Entry3) : State :=
  if isHead s then s
  else if (s.route 0).isNone ∨ s.link.isFixed = false then
    s.onLink (fun l => { l with eventsUnrouted := l.eventsUnrouted + 1 })
  else
    { s.sendMsg kEvent 0 e.body with events := { s.events with sent := s.events.sent + 1 } }

/-- COUNT advanced, saturating (Table 20-6). -/
def satInc (c : U32) : U32 := if c = 0xFFFFFFFF#32 then c else c + 1

/-- An occurrence accepted and delivered (R634, R635). -/
def State.accept (s : State) (o : Occ) : State :=
  match severityOf o.src with
  | none => s
  | some sev =>
    let q := s.source o.src
    let e : Entry3 :=
      { sev := sev.code, src := o.src, inst := s.link.instanceNo, forced := o.forced, time := s.now.toNat,
        arg := o.arg, info := o.info }
    let s1 := s.onSource o.src (fun x =>
      { x with status := true, count := satInc x.count, lastTime := s.now, lastArg := BitVec.ofNat 14 o.arg,
               lastInfo := BitVec.ofNat 46 o.info })
    let s2 :=
      { s1 with
        events := { s1.events with
          accepted := s1.events.accepted + 1
          forcedCount := if o.forced then s1.events.forcedCount + 1 else s1.events.forcedCount } }
    if q.mask then s2
    else
      let s3 := if q.route.getLsbD 8 then s2.queueEntry e else s2
      if q.route.getLsbD 9 then s3.linkRoute e else s3

/-- EVENT_ACCEPTED (R634, R637): the oldest occurrence, once step 0 of the start has ended. -/
def execEventAccepted (s : State) : Out :=
  .next <|
    match s.events.waiting with
    | [] => s
    | o :: rest =>
      if s.start.step0Done then ({ s with events := { s.events with waiting := rest } }).accept o else s

/-- STATUS_CLEAR (R636): bits of EVT_PENDING_w. -/
def execStatusClear (b : Bus) (word : Nat) (v : U64) (s : State) : Out :=
  unit word 10
    (s.pageWrite b mgr (fun t =>
      (List.range 64).foldl (fun u i =>
        if v.getLsbD i then u.onSource (64 * word + i) (fun x => { x with status := false }) else u) t))

/-- A write of 1 to STATUS (R644): a forced occurrence, while EVENT_FORCE is granted; the answer says whether it is
refused. -/
def State.forceEvent (s : State) (i : Nat) : Bool × State :=
  if (severityOf i).isSome ∧ s.lc.debugRights.getLsbD 6 then
    (true, { s with
      events := { s.events with waiting := s.events.waiting ++ [{ src := i, arg := 0, info := 0, forced := true }] } })
  else (false, s)

/-- FORCED_OCCURRENCE (R644). -/
def execForcedOccurrence (source : Nat) (s : State) : Out := unit source 640 (s.forceEvent source).2

/-- REMOTE_PENDING (R643): writing 1 clears a bit. -/
def execRemotePending (b : Bus) (v : U64) (s : State) : Out :=
  .next (s.pageWrite b mgr (fun t =>
    { t with events := { t.events with remotePending := t.events.remotePending &&& ~~~(v.truncate 8) } }))

/-- EVENT (R643): the head routes a received event under REMOTE_ROUTE. -/
def execEvent (m : Msg) (s : State) : Out :=
  .next <|
    match s.rxPort m with
    | none => s
    | some p =>
      match s.takeMsg p m kEvent with
      | none => s
      | some s1 =>
        let h := leNat (cut m.body 6 2)
        let w := leNat (cut m.body 8 8)
        let e : Entry3 :=
          { sev := fld h 10 2, src := fld h 0 10, inst := m.src, forced := bit h 12, time := leNat (cut m.body 0 6),
            arg := fld w 0 14, info := fld w 14 46 }
        let s2 :=
          { s1 with
            events := { s1.events with
              received := s1.events.received + 1
              remotePending := s1.events.remotePending ||| s1.events.remoteRoute.truncate 8 } }
        if s2.events.remoteRoute.getLsbD 8 then s2.queueEntry e else s2

/-- Does class `c` keep line `k` asserted (R639)? Classes by their bounds (Table 20-1). -/
def classOfSource (i : Nat) : Nat :=
  if i < 0x40 then 0 else if i < 0x60 then 1 else if i < 0xA0 then 2 else if i < 0x100 then 3
  else if i < 0x140 then 4 else if i < 0x160 then 5 else if i < 0x190 then 6 else if i < 0x1D0 then 7
  else if i < 0x210 then 8 else if i < 0x228 then 9 else if i < 0x238 then 10 else if i < 0x248 then 11 else 12

/-- Sources that keep line `k` asserted: ROUTE bit, STATUS 1, MASK 0. -/
def State.lineSources (s : State) (k : Nat) : List Nat :=
  (s.events.sources.filter (fun e => e.2.status && !e.2.mask && e.2.route.getLsbD k)).map Prod.fst

/-- Is line `k` asserted by REMOTE_PENDING (R643)? -/
def State.lineRemote (s : State) (k : Nat) : Bool :=
  s.events.remotePending.getLsbD k && s.events.remoteRoute.getLsbD k

/-- EVT_IRQ[k] (R639). -/
def State.evtIrq (s : State) (k : Nat) : Bool := !(s.lineSources k).isEmpty || s.lineRemote k

/-- The line register k (Table 20-5). -/
def State.lineWord (s : State) (k : Nat) : Nat :=
  let srcs := s.lineSources k
  ((List.range 13).map (fun c => b2n (srcs.any (fun i => classOfSource i == c)) * 2 ^ c)).sum
    + b2n (s.lineRemote k) * 2 ^ 13 + b2n (s.evtIrq k) * 2 ^ 63

/-- EVT_PENDING_w (Table 20-5). -/
def State.pendingWord (s : State) (w : Nat) : Nat :=
  ((List.range 64).map (fun i => b2n (s.source (64 * w + i)).status * 2 ^ i)).sum

end Sys2Proof.Machine
end

