-- ==== Sys2Proof/Machine/Memory.lean ====
section
/-!
DEFINITION. Memory integrity (chapter 15): the scrubbers, what an uncorrectable word does in each store, and fault injection.
-/
namespace Sys2Proof.Machine

/-- A choice among `n` that the specification does not fix: which occupant a line of a store holds. -/
def victimOf (s : State) (line n : Nat) : Nat := if n = 0 then 0 else Config.free 8 (s.rng.draws + line) % n

/-- What a word of staging can hold (Table 15-2): a beat of a request's input, its held plaintext, or its retry record and
checkpoint. -/
inductive Staged where
  | input (rid i : Nat)
  | held (rid : Nat)
  | record (rid : Nat)
  deriving DecidableEq, Repr

/-- The beats of a request that staging holds, by their place: none that Check consumed, and none of a segment released. -/
def Req.beatsHeld (q : Req) : List Nat :=
  let isData (b : Beat) : Bool := b.kind == BeatKind.data.code
  let upTo (i : Nat) : Nat := (((q.m.beats.take (i + 1)).filter isData).map (fun b => b.data.length)).sum
  (List.range q.m.beats.length).filter (fun i =>
    match q.m.beats[i]? with
    | some b => b.kind != BeatKind.keyblob.code && (!(isData b) || decide (4096 * q.m.segPassed < upTo i))
    | none => false)

/-- What staging holds of a request. -/
def stagedOf (s : State) (rid : Nat) (q : Req) : List Staged :=
  q.beatsHeld.map (Staged.input rid) ++ (if 0 < q.m.heldSegs then [.held rid] else [])
    ++ (if (laneOf s rid).isSome then [.record rid] else [])

/-- An uncorrectable word of staging (Table 15-2). A beat of input is marked POISON: the request ends with PARTIAL, DETAIL
0x01, at its dispatch or at its lane. Held plaintext is discarded, and the request ends so with OUT_DONE 0. A retry record or
checkpoint is recorded only, and found at a recomputation (R310). -/
def State.stagingLost (s : State) (line : Nat) : State :=
  let all := (s.reqs.map (fun e => stagedOf s e.1 e.2)).flatten
  match all[victimOf s line all.length]? with
  | none => s
  | some (.input rid i) =>
    s.onReq rid (fun q => { q with m := { q.m with beats := q.m.beats.modify i (fun b => { b with tag := b.tag ||| BitVec.twoPow 64 59 }) } })
  | some (.held rid) => s.poisonEnd rid
  | some (.record rid) => s.onReq rid (fun q => { q with m := { q.m with lost := true } })

/-- An uncorrectable word of operand memory, or of a job's area of Caller data memory: the job restarts on any engine, not
counted against the one it left (10 R390, R391). -/
def State.operandLost (s : State) (line : Nat) : State :=
  let jobs := ((List.range 4).map (fun e => ((s.engineAt e).jobs.filter (fun j => !j.zeroing)).map (fun j => (e, j)))).flatten
  match jobs[victimOf s line jobs.length]? with
  | none => s
  | some (e, j) =>
    (s.leaveEngine e j.req false).restartJob j none

/-- An uncorrectable word of the trie (R514): the node is unlinked, with every prefix in or below it; a lookup that comes to it finds
none until an insertion builds it anew (DEDUCED, log entry 87). -/
def State.trieLost (s : State) (line : Nat) : State :=
  let nodes := (s.dir.prefixes.map nodesOf).flatten.dedup
  match nodes[victimOf s line nodes.length]? with
  | none => s
  | some nd =>
    let gone (p : Prefix) : Bool := (nodesOf p).contains nd
    let hit := s.dir.prefixes.filter gone
    let p0 := hit.headD { family := 4, scope := 0, bits := 0, len := 0, result := 0 }
    let depth := 8 * ((nodesOf p0).findIdx (fun x => x == nd) + 1)
    let width := addrBits p0.family
    let range := p0.bits / 2 ^ (width - depth) * 2 ^ (width - depth)
    { s with
      dir := { s.dir with prefixes := s.dir.prefixes.filter (fun p => !gone p), unlinked := nd :: s.dir.unlinked }
      memory := { s.memory with
        trieDamage := BitVec.ofNat 32 (b2n (p0.family == 6) + p0.scope % 256 * 2 ^ 8 + depth % 256 * 2 ^ 16)
        trieDamageAddr := BitVec.ofNat 64 (if width = 32 then range * 2 ^ 32 else range / 2 ^ 64) } }

/-- Uncorrectable words of the request table (R516): SEQ and COOKIE of the requests are lost. -/
def State.tableLost (s : State) (line : Nat) (lost : List Nat) : State :=
  (List.range 4).foldl (fun t w =>
    if lost.contains (2 * w) ∨ lost.contains (2 * w + 1) then t.onReq (4 * line + w) (fun q => { q with tableLost := true }) else t) s

/-- What uncorrectable words do (Table 15-2), for the stores that are only scrubbed here. -/
def State.lostOutcome (s : State) (store line : Nat) (lost : List Nat) : State :=
  let info := (s.store store).lastError.toNat % 2 ^ 36
  let code := storeCode store
  let s1 := s.dropDamage store line
  match store with
  | 1 => (s1.stagingLost line).raise 0xAA code info
  | 2 => (s1.operandLost line).raise 0xB2 code info
  | 3 => (s1.lockstepFault).raise 0xBA code info
  | 4 =>
    if Config.free 9 (s.rng.draws + line) % 2 = 0 then (s1.operandLost line).raise 0xC2 code info
    else s1.lockstepFault.raise 0xC3 code info
  | 6 => (s1.trieLost line).raise 0xD2 code info
  | _ => (s1.tableLost line lost).raise 0xDA code info

/-- A scrub read of a line. -/
def State.scrubLine (s : State) (store line : Nat) : State :=
  match store with
  | 0 => s.readSlotLine line true
  | 5 => s.readBucket line true
  | _ =>
    match s.lineRead store line true with
    | ([], s1) => s1
    | (lost, s1) => s1.lostOutcome store line lost

/-- SCRUB_LINE_READ (R510): the next line of the store in address order; a pass ends with the last. The FIFO kinds, stores 8
to 13, hold no flipped bits here, and their scrub reads find nothing. -/
def execScrubLineRead (store : Nat) (s : State) : Out :=
  unit store 14
    (if 8 ≤ store then s
    else
      let p := (s.store store).position
      let s1 := s.scrubLine store p
      s1.onStore store (fun x =>
        if storeLines store ≤ p + 1 then
          { x with position := 0, scrubPasses := x.scrubPasses + 1, lastPassCorrected := x.passCorrected, passCorrected := [] }
        else { x with position := p + 1 }))

/-! ## Fault injection (R517) -/

/-- May a fault be injected: the life-cycle state, or the right of a certificate in force? -/
def injectAllowed (s : State) : Bool :=
  (match s.lc.state with
    | .testUnlocked _ => true
    | .develop => true
    | _ => false) || s.lc.debugRights.getLsbD 1

/-- A write of 1 to ECC_INJECT: refused, or one injection armed. -/
def State.eccInject (s : State) : Bool × State :=
  if !(injectAllowed s) then (false, s)
  else
    match storeOf s.memory.injectStore with
    | none => (true, s)
    | some n =>
      let line := s.memory.injectLine.toNat
      if storeLines n ≤ line then (true, s)
      else
        let d : Damage :=
          { store := n, line := line, target := s.memory.injectTarget, mask := s.memory.injectMask
            held := lineData s n line, found := false }
        (true, { s with memory := { s.memory with damages := s.memory.damages ++ [d] } })

/-- ECC_INJECT (R517). -/
def execEccInject (s : State) : Out := .next s.eccInject.2

end Sys2Proof.Machine
end

