-- ==== Sys2Proof/Machine/LifeCycle.lean ====
section
/-!
DEFINITION. The life cycle (chapter 16): the copies in antifuse and what they vote, requests and programming, debug
certificates, the identity of the device and attestation.
-/
namespace Sys2Proof.Machine

/-- BLOCK_VERSION (00 R1). -/
def blockVersion : Nat := 0x0201

/-- DICT_REVISION (00 R2). -/
def dictRevision : Nat := 0x0004

/-! ## Copies and votes (R524 to R528) -/

/-- Field `f` of copy `c`. -/
def fuseField (s : State) (c f : Nat) : FuseField := Tab.get FuseField.dflt s.lc.copies (64 * c + f)

/-- Do all eight bits read programmed at both references? -/
def FuseField.full (x : FuseField) : Bool := !x.unstable && x.bits == 255

/-- Do the readings agree on one to seven bits? -/
def FuseField.partly (x : FuseField) : Bool := !x.unstable && x.bits != 0 && x.bits != 255

/-- State on entry of a field (Table 16-2). -/
def stateOfField (f : Nat) : LcState :=
  if f = 0 then .testLocked 0
  else if f ≤ 32 then (if f % 2 = 1 then .testUnlocked ((f + 1) / 2) else .testLocked (f / 2))
  else if f = 33 then .develop
  else if f = 34 then .mission
  else if f = 35 then .retire
  else .scrap

/-- The fields of a copy, the highest first. -/
def fieldsDown : List Nat := (List.range 37).reverse

/-- Does the copy decode: no unstable field, no reserved bit programmed? -/
def copyDecodes (s : State) (c : Nat) : Bool :=
  (List.range 38).all (fun f => !(fuseField s c f).unstable) && (fuseField s c 37).bits == 0

/-- The highest FULL field of a copy. -/
def topFull (s : State) (c : Nat) : Option Nat := fieldsDown.find? (fun f => (fuseField s c f).full)

/-- The highest PARTIAL field above it, which marks the copy partial. -/
def topPartial (s : State) (c : Nat) : Option Nat :=
  if copyDecodes s c then
    fieldsDown.find? (fun f => (fuseField s c f).partly && decide ((topFull s c).all (fun t => decide (t < f))))
  else none

/-- The vote of a copy; none for a copy that decodes to nothing, which votes for SCRAP (R527). -/
def copyVote (s : State) (c : Nat) : Option LcState :=
  if copyDecodes s c then
    some (match topFull s c with
      | some f => stateOfField f
      | none => .blank)
  else none

/-- The state that a copy votes for. -/
def votedState (s : State) (c : Nat) : LcState := (copyVote s c).getD .scrap

/-- The state that at least two copies vote for. -/
def majority (s : State) : Option LcState :=
  let v := votedState s
  if (v 0).code = (v 1).code ∨ (v 0).code = (v 2).code then some (v 0)
  else if (v 1).code = (v 2).code then some (v 1)
  else none

/-- LC_VOTES (Table 16-10). -/
def lcVotes (s : State) : Nat :=
  let v (c : Nat) : Nat := ((copyVote s c).map LcState.code).getD 0xFF
  let p (c : Nat) : Nat := b2n (topPartial s c).isSome
  v 0 + v 1 * 2 ^ 8 + v 2 * 2 ^ 16 + b2n (majority s).isSome * 2 ^ 24 + p 0 * 2 ^ 25 + p 1 * 2 ^ 26 + p 2 * 2 ^ 27

/-- The highest-numbered partial field of the copies (R528). -/
def partialField (s : State) : Option Nat :=
  fieldsDown.find? (fun f => (List.range 3).any (fun c => topPartial s c == some f))

/-- The vote (R525 to R528): the state in force, LC_VOTES, LC_INTERRUPTED and its target, and the events. -/
def State.lcVote (s : State) : State :=
  let v := lcVotes s
  let s1 :=
    { s with
      lc := { s.lc with
        state := (majority s).getD .scrap
        votes := BitVec.ofNat 32 v
        interrupted := (partialField s).isSome
        interruptedTarget := ((partialField s).map (fun f => (stateOfField f).code)).getD 0xFF
        interruptedField := (partialField s).getD 0 } }
  let s2 := if (majority s).isNone then s1.raise 0x228 0 v else s1
  if s2.lc.interrupted then s2.raise 0x229 s2.lc.interruptedTarget v else s2

/-! ## Requests (R529 to R535) -/

/-- A change of the life-cycle controller. -/
def State.onLc (s : State) (f : LifeCycle → LifeCycle) : State := { s with lc := f s.lc }

/-- A bank of a root. -/
def rootBank (s : State) (r b : Nat) : RootBank := Tab.get (fun _ => RootBank.blank) s.lc.roots (2 * r + b)

/-- Is any bit of a token's burn field programmed (R532)? -/
def tokenBurned (s : State) (j : Nat) : Bool :=
  let x := Tab.get FuseField.dflt s.lc.burned j
  x.bits != 0 || x.unstable

/-- The lowest-numbered token not burned. -/
def nextToken (s : State) : Option Nat := ((List.range 16).map (· + 1)).find? (fun j => !(tokenBurned s j))

/-- A field of the three copies, in copy order. -/
def copiesOf (f : Nat) : List FusePlace := [.copy 0 f, .copy 1 f, .copy 2 f]

/-- Programming begun: LC_STATUS becomes BUSY (R530). -/
def State.program (s : State) (target : Nat) (todo : List FusePlace) (root : Bytes) : State :=
  if todo.isEmpty then s.onLc (fun l => { l with status := 2, pending := target })
  else
    s.onLc (fun l => { l with
      status := 1, programming := some { target := target, todo := todo, root := root, scrapWaits := false } })

/-- A request refused: nothing is programmed. -/
def State.lcRefuse (s : State) (status : Nat) : Bool × State := (false, s.onLc (fun l => { l with status := status }))

/-- A transition that needs root `r` programmed first (R535). -/
def State.programRoot (s : State) (r target field : Nat) : Bool × State :=
  if (rootOf s r).isSome then (true, s.program target (copiesOf field) [])
  else
    match [0, 1].find? (fun b => rootBank s r b == RootBank.blank) with
    | none => s.lcRefuse 8
    | some b =>
      if s.rng.state ≠ .running then s.lcRefuse 8
      else
        let d := s.internalDraw 32
        (true, d.2.program target (.bank r b :: copiesOf field) d.1)

/-- An unlock (R532): LC_TOKEN is zeroed after every comparison. With every token burned the refusal is NO_TOKEN, also after
eight mismatches (DESIGN CHOICE, log entry 93). -/
def State.unlock (s : State) : Bool × State :=
  match nextToken s with
  | none => s.lcRefuse 5
  | some j =>
    if 8 ≤ s.lc.tokenFails.toNat then s.lcRefuse 6
    else
      let ok := ((HashWork.start 5).absorb s.lc.token).finish 32 == Tab.get (fun _ => zeros 32) s.lc.tokens j
      let s1 := s.onLc (fun l => { l with token := zeros 16 })
      if ok then (true, s1.program 3 (.burn j :: copiesOf (2 * j - 1)) [])
      else
        (s1.onLc (fun l => { l with tokenFails := if l.tokenFails.toNat < 255 then l.tokenFails + 1 else l.tokenFails })).lcRefuse 4

/-- A transition from the state in force to the state of `code` (Table 16-3). -/
def State.transition (s : State) (code : Nat) : Bool × State :=
  match s.lc.state, code with
  | .scrap, _ => s.lcRefuse 3
  | .unknown, _ => s.lcRefuse 3
  | _, 7 => (true, s.program 7 (copiesOf 36) [])
  | .blank, 2 => s.programRoot 0 2 0
  | .testLocked _, 3 => s.unlock
  | .testLocked _, 4 => (true, s.program 4 (copiesOf 33) [])
  | .testLocked _, 5 => s.programRoot 1 5 34
  | .testUnlocked j, 2 => (true, s.program 2 (copiesOf (2 * j)) [])
  | .testUnlocked _, 4 => (true, s.program 4 (copiesOf 33) [])
  | .testUnlocked _, 5 => s.programRoot 1 5 34
  | .develop, 5 => s.programRoot 1 5 34
  | .mission, 6 => (true, s.program 6 (copiesOf 35) [])
  | _, _ => s.lcRefuse 3

/-- A repair of the interrupted transition (R533): the copies where its field is not FULL. -/
def State.repair (s : State) : State :=
  let f := s.lc.interruptedField
  s.program s.lc.interruptedTarget (((List.range 3).filter (fun c => !(fuseField s c f).full)).map (fun c => .copy c f)) []

/-- Is the code a repair (R533)? -/
def repairs (s : State) (code : Nat) : Bool := s.lc.interrupted && code == s.lc.interruptedTarget

/-- A write of LC_REQUEST (R529 to R534): the answer tells whether it is accepted. -/
def State.lcRequest (s : State) (code : Nat) : Bool × State :=
  let s1 := s.onLc (fun l => { l with request := code })
  match s1.lc.programming with
  | some p =>
    if code = 7 then (true, s1.onLc (fun l => { l with programming := some { p with scrapWaits := true } }))
    else (false, s1)
  | none =>
    if repairs s1 code then (true, s1.repair)
    else if s1.lc.status = 2 ∧ code ≠ 7 then (false, s1)
    else s1.transition code

/-- LC_REQUEST_TRANSITION (R530). -/
def execLcRequestTransition (code : Nat) (s : State) : Out :=
  .next (if s.start.inReset then s else (s.lcRequest code).2)

/-- LC_UNLOCK (R532). -/
def execLcUnlock (s : State) : Out := .next (if s.start.inReset then s else (s.lcRequest 3).2)

/-- LC_REPAIR (R533): a write of LC_INTERRUPTED_TARGET. -/
def execLcRepair (s : State) : Out :=
  .next (if s.start.inReset then s else (s.lcRequest s.lc.interruptedTarget).2)

/-- LC_SCRAP (R534). -/
def execLcScrap (s : State) : Out := .next (if s.start.inReset then s else (s.lcRequest 7).2)

/-! ## An ORDERLY reset begins (17 R549) -/

/-- Fetch stops, START_STATE becomes RESETTING, and work in flight ends with PARTIAL, DETAIL 0x02: what has crossed the Seam
at once or where it stops, the rest at Check; register-interface digest computations are abandoned. -/
def State.orderlyBegin (s : State) : State :=
  let s0 :=
    { s with
      engine := { s.engine with fetchStopped := true }
      start := { s.start with state := .resetting, orderlyWaitsLc := false, drainStarted := true } }
  let s1 := (s0.digest.pages.map Prod.fst).foldl State.releasePage s0
  let stop (t : State) (e : Nat × Req) : State :=
    if e.2.ended ∨ !e.2.m.headSeen then t
    else (t.onReq e.1 (fun r => { r with cause := 2 })).stopRequest e.1 (ends .partialEnd 0x02) (ends .partialEnd 0x02)
  s1.reqs.foldl stop s1

/-- An ORDERLY reset that waited while LC_STATUS was BUSY goes on (17 R551). -/
def State.orderlyOn (s : State) : State :=
  if s.start.orderlyWaitsLc ∧ s.lc.status ≠ 1 then s.orderlyBegin else s

/-! ## Programming (R530, R531, R534) -/

/-- The place in progress programmed completely and verified. -/
def LifeCycle.mark (l : LifeCycle) (p : Programming) : FusePlace → LifeCycle
  | .bank r b => { l with roots := Tab.set (fun _ => RootBank.blank) l.roots (2 * r + b) (.valid p.root) }
  | .burn j => { l with burned := Tab.set FuseField.dflt l.burned j { bits := 255, unstable := false } }
  | .copy c f => { l with copies := Tab.set FuseField.dflt l.copies (64 * c + f) { bits := 255, unstable := false } }

/-- The number of a place, for LC_PROGRAM_FAIL (20 Table 20-2): the field of a copy, or the entry field that the
transition was to program. -/
def fieldNumber (todo : List FusePlace) : Nat :=
  (todo.findSome? (fun x => match x with
    | .copy _ f => some f
    | _ => none)).getD 0

/-- A place verified: the next begins, a waiting SCRAP replaces the rest, or the request reaches PENDING. -/
def State.fieldGood (s : State) (p : Programming) (x : FusePlace) (rest : List FusePlace) : State :=
  let s1 := s.onLc (fun l => l.mark p x)
  if p.scrapWaits then
    s1.onLc (fun l => { l with
      programming := some { target := 7, todo := copiesOf 36, root := [], scrapWaits := false } })
  else if rest.isEmpty then s1.onLc (fun l => { l with programming := none, status := 2, pending := p.target })
  else s1.onLc (fun l => { l with programming := some { p with todo := rest } })

/-- LC_FIELD_VERIFIED (R530, R531): `ok` tells whether every bit verified. Without VPP no bit verifies (21 R666). -/
def execLcFieldVerified (ok : Bool) (s : State) : Out :=
  .next
    (match s.lc.programming with
    | none => s
    | some p =>
      match p.todo with
      | [] => s
      | x :: rest =>
        if s.start.inReset then s
        else if ok ∧ s.pins.vppOk then (s.fieldGood p x rest).orderlyOn
        else ((s.onLc (LifeCycle.cut s.rng.draws)).raise 0x22A p.target (fieldNumber p.todo)).orderlyOn)

/-! ## Debug certificates (R537 to R541) -/

/-- DEBUG_NONCE_REQ (R539). -/
def State.debugNonceReq (s : State) : State :=
  if s.rng.state ≠ .running then
    s.onLc (fun l => { l with debugStatus := 11, debugNonce := zeros 16, nonceValid := false })
  else
    let d := s.internalDraw 16
    d.2.onLc (fun l => { l with debugNonce := d.1, nonceValid := true })

/-- DEBUG_NONCE_REQ (R539). -/
def execDebugNonceReq (s : State) : Out := .next (if s.start.inReset then s else s.debugNonceReq)

/-- A submission (R539): refused while DEBUG_STATUS is BUSY. -/
def State.debugSubmit (s : State) : Bool × State :=
  if s.lc.debugChecking then (false, s)
  else (true, s.onLc (fun l => { l with debugStatus := 1, debugChecking := true }))

/-- DEBUG_SUBMIT (R539). -/
def execDebugSubmit (s : State) : Out := .next (if s.start.inReset then s else s.debugSubmit.2)

/-- Are the octets zero? -/
def allZero (bs : Bytes) : Bool := bs.all (fun b => b == 0)

/-- Does the state accept certificates (Table 16-1)? -/
def acceptsCerts (s : State) : Bool := [2, 4, 5, 6].contains s.lc.state.code

/-- The first check of Table 16-7 that fails, as DEBUG_STATUS; 2 when all pass. -/
def certOutcome (s : State) : Nat :=
  let c := s.lc.debugCert
  let hash (b : Bytes) : Bytes := ((HashWork.start 2).absorb b).finish 48
  let ec := cut c 4851 96
  let lattice := cut c 4947 2592
  if c.length ≠ 7539 ∨ octet c 0 ≠ 0x31 ∨ !(allZero (cut c 2 2)) ∨ !(allZero (cut c 76 52)) then 3
  else if leNat (cut c 4 4) ≥ 2 ^ 7 then 4
  else if !(acceptsCerts s) ∨ !(bit (octet c 1).toNat (s.lc.state.code - 1)) then 5
  else if allZero s.lc.debugAuthHashes ∨ s.lc.debugAuthHashes ≠ hash ec ++ hash lattice then 6
  else if cut c 8 48 ≠ s.lc.deviceId then 7
  else if allZero s.lc.debugNonce ∨ cut c 56 16 ≠ s.lc.debugNonce then 8
  else if leNat (cut c 72 4) < s.lc.debugCounter.toNat then 9
  else if Config.sigVerifies ec (cut c 0 128) (cut c 128 96) ∧ Config.sigVerifies lattice (cut c 0 128) (cut c 224 4627) then 2
  else 10

/-- The rights in force set: a change rewrites bytes 4 to 7 of the certified configuration record (R541), and raw-sample
mode ends when its right is gone (11 R434). -/
def State.setRights (s : State) (r : BitVec 32) : State :=
  if s.lc.debugRights = r then s
  else ((s.onLc (fun l => { l with debugRights := r })).setRecord 4 (leBytes 4 r.toNat)).rawLapse

/-- The checks end (R541): a submission that reaches the signature check consumes the nonce. The hashes of check 4 and the
signatures of check 8 run on digest unit 0 (R539). -/
def State.certDone (s : State) : State :=
  let out := certOutcome s
  let rights := leNat (cut s.lc.debugCert 4 4)
  let blocks := (if 6 ≤ out ∨ out = 2 then finishBlocks 2 96 48 + finishBlocks 2 2592 48 else 0)
    + (if out = 2 ∨ out = 10 then signatureBlocks 128 else 0)
  let s1 := (s.internalOn 0 blocks).onLc (fun l => { l with debugChecking := false, debugStatus := out })
  let s2 := if out = 2 ∨ out = 10 then s1.onLc (fun l => { l with debugNonce := zeros 16, nonceValid := false }) else s1
  if out = 2 then
    ((s2.onLc (fun l => { l with
      certsAccepted := l.certsAccepted + 1, debugCounter := BitVec.ofNat 32 (leNat (cut l.debugCert 72 4)) })).setRights
        (BitVec.ofNat 32 rights)).raise 0x22B 0 rights
  else (s2.onLc (fun l => { l with certsRefused := l.certsRefused + 1 })).raise 0x22C out 0

/-- CERT_CHECK_DONE (R541). -/
def execCertCheckDone (s : State) : Out :=
  .next (if s.lc.debugChecking ∧ !s.start.inReset then s.certDone else s)

/-- DEBUG_END (R541). -/
def execDebugEnd (s : State) : Out := .next (if s.start.inReset then s else s.setRights 0)

/-- The rights lapse and DEBUG_COUNTER goes up by one. -/
def State.debugRevoke (s : State) : State :=
  (s.setRights 0).onLc (fun l => { l with debugCounter := l.debugCounter + 1 })

/-- DEBUG_REVOKE (R541). -/
def execDebugRevoke (s : State) : Out := .next (if s.start.inReset then s else s.debugRevoke)

/-! ## Identity (R542, R543) -/

/-- The ASCII octets of "T9 device id". -/
def labelDevice : Bytes := [0x54, 0x39, 0x20, 0x64, 0x65, 0x76, 0x69, 0x63, 0x65, 0x20, 0x69, 0x64]

/-- The ASCII octets of "T9 alias". -/
def labelAlias : Bytes := [0x54, 0x39, 0x20, 0x61, 0x6C, 0x69, 0x61, 0x73]

/-- The 96 device-key octets. -/
def deviceKey (s : State) : Bytes := octetsOf 96 (Config.kdf (rootSecret s) labelDevice [])

/-- The 96 octets of the alias key. -/
def aliasKey (s : State) : Bytes :=
  octetsOf 96 (Config.kdf (deviceKey s) labelAlias
    (s.pke.imageDigest ++ [BitVec.ofNat 8 s.lc.state.code] ++ leBytes 2 blockVersion))

/-- The ECDSA P-384 secret from bytes 0 to 63 of 96 key octets, by FIPS 186-5 A.2.1. -/
def identityScalar (key : Bytes) : Bytes := beBytes 48 (beNat (cut key 0 64) % (p384.n - 1) + 1)

/-- The two public keys that 96 key octets give (R542): P-384 X ‖ Y, then the ML-DSA-87 key of the seed in bytes 64 to 95. -/
def identityPub (key : Bytes) : Bytes := keyPub 0x42 96 (identityScalar key) ++ keyPub 0x4F 2592 (cut key 64 32)

/-- The device identity (R542), in a state with a root. -/
def State.deriveDevice (s : State) : State :=
  if (rootInUse s).isNone then s
  else
    let p := identityPub (deviceKey s)
    (s.internalRan (kdfBlocks 12 96)).onLc (fun l => { l with deviceIdPub := p, deviceId := ((HashWork.start 2).absorb p).finish 48 })

/-- The alias key and its certificate (R543, Table 16-8). -/
def State.deriveAlias (s : State) : State :=
  if (rootInUse s).isNone then s
  else
    let body := [0x42#8, BitVec.ofNat 8 s.lc.state.code] ++ leBytes 2 blockVersion ++ leBytes 4 s.ident.fwVersion.toNat
      ++ leBytes 4 s.start.bootEpoch.toNat ++ zeros 4 ++ cut s.pke.imageDigest 0 48 ++ identityPub (aliasKey s)
    (s.internalRan (kdfBlocks 59 96 + signatureBlocks 2752)).onLc (fun l => { l with aliasCert := body ++ octetsOf 4723 (Config.sign 0 l.deviceIdPub body) })

/-! ## Attestation (R544 to R546) -/

/-- Code of a slice state (13 Table 13-5). -/
def SliceState.code : SliceState → Nat
  | .absent => 0
  | .active => 1
  | .quiescing => 2
  | .quiesced => 3
  | .resetting => 4
  | .removing => 5

/-- Code of SEAL_STATE (Table 0-2). -/
def SealState.code : SealState → Nat
  | .certified => 0
  | .changed => 1
  | .notApplicable => 2

/-- The slice record of R545. -/
def sliceRecord (s : State) (n : Nat) : Bytes :=
  let x := s.slice n
  leBytes 2 n ++ [BitVec.ofNat 8 x.state.code, BitVec.ofNat 8 x.ringPairs] ++ leBytes 4 x.pasid.toNat
    ++ leBytes 4 (slotsOf s n).length

/-- Slices that are not ABSENT, in increasing number. -/
def presentSlices (s : State) : List Nat := (s.slices.tab.filter (fun e => e.2.state != .absent)).map Prod.fst

/-- Bytes 0 to 255 of a report (Table 16-9). -/
def reportBody (s : State) : Bytes :=
  let ps := presentSlices s
  [0x43#8, BitVec.ofNat 8 s.lc.state.code, BitVec.ofNat 8 s.tango.posture.code, BitVec.ofNat 8 s.ident.sealState.code]
    ++ leBytes 2 blockVersion ++ leBytes 2 dictRevision ++ leBytes 4 s.ident.fwVersion.toNat
    ++ leBytes 4 s.start.bootEpoch.toNat ++ cut s.ident.sealDigest 0 48 ++ cut s.ident.sealRecord 0 16
    ++ cut s.lc.attestChallenge 0 32 ++ leBytes 4 (s.lc.reportCount.toNat + 1) ++ leBytes 2 ps.length
    ++ leBytes 2 s.lc.attestSlice.toNat ++ ((HashWork.start 2).absorb (ps.map (sliceRecord s)).flatten).finish 48
    ++ (if ps.contains s.lc.attestSlice.toNat then sliceRecord s s.lc.attestSlice.toNat else zeros 12) ++ zeros 76

/-- Can a report be signed: a state with a root and the Caller READY? -/
def attestable (s : State) : Bool :=
  s.pke.caller == CallerState.ready && s.lc.state.code != 1 && s.lc.state.code != 7 && !s.start.alarmPending

/-- A request for a report (R546): refused while BUSY, and with ATTEST_STATE FAILED where no report is made. -/
def State.attestRequest (s : State) : Bool × State :=
  if s.lc.attestState = 1 then (false, s)
  else if attestable s then (true, s.onLc (fun l => { l with attestState := 1, attestCaptured := reportBody s }))
  else (false, s.onLc (fun l => { l with attestState := 3 }))

/-- ATTEST_REQUEST (R546). -/
def execAttestRequest (s : State) : Out := .next (if s.start.inReset then s else s.attestRequest.2)

/-- ATTEST_DONE (R546). -/
def execAttestDone (s : State) : Out :=
  .next
    (if s.lc.attestState ≠ 1 ∨ s.start.inReset then s
    else if attestable s then
      (s.internalRan (signatureBlocks 256)).onLc (fun l => { l with
        attestState := 2, reportCount := l.reportCount + 1, attestCaptured := []
        attestReport := l.attestCaptured ++ octetsOf 4723 (Config.sign 1 (cut l.aliasCert 64 2688) l.attestCaptured) })
    else s.onLc (fun l => { l with attestState := 3, attestCaptured := [] }))

end Sys2Proof.Machine
end

