-- ==== Sys2Proof/Machine/Start.lean ====
section
/-!
DEFINITION. Resets, the start sequence, Pavane mode, tamper alarms, the supply and the clocks (chapters 17 and 21).
-/
namespace Sys2Proof.Machine

/-! ## What a reset keeps (R553) -/

/-- The allotments of the slots (R553): owners, and nothing of a slot's contents. -/
def Keys.allotted (k : Keys) : Tab Slot :=
  k.slots.foldl (fun t e => Tab.set Slot.dflt t e.1 { Slot.dflt e.1 with owner := e.2.owner }) []

/-- The slice records that the vault holds (R553): a slice that was REMOVING is ABSENT (13 R474). -/
def Slices.records (x : Slices) : Tab Slice :=
  x.tab.foldl (fun t e =>
    match e.2.state with
    | .absent => t
    | .removing => t
    | _ =>
      Tab.set Slice.dflt t e.1
        { Slice.dflt e.1 with state := .quiesced, pasid := e.2.pasid, ringPairs := e.2.ringPairs }) []

/-- The slices that were REMOVING. -/
def removing (s : State) : List Nat := (s.slices.tab.filter (fun e => e.2.state == .removing)).map Prod.fst

/-- The reset values of the cascade's objects under the straps (21 R649, Table 21-2; 18 R587). -/
def Link.strapped (x : Straps) (l : Link) : Link :=
  let n := if 16 ≤ x.cascadeN ∧ x.cascadeN ≤ 64 then x.cascadeN else 1
  { l with
    cascadeSize := n, linkRate := if x.linkRate = 3 then 0 else x.linkRate, isFixed := x.htEnable || n == 1
    state := if n = 1 then .standalone else .forming }

/-- The state right after a reset: every register and store at its default but for what the antifuse array and the MRAM
vault hold (R553), the levels outside, the commands that wait, and the number of draws made. Programming in progress is
cut short (R551). -/
def State.restart (s : State) (kind : ResetKind) (x : Straps) : State :=
  let r := State.reset
  let lc := s.lc.cut s.rng.draws
  let s1 : State :=
    { r with
      lc := { r.lc with
        copies := lc.copies, tokens := lc.tokens, burned := lc.burned, roots := lc.roots
        debugAuthHashes := lc.debugAuthHashes, debugCounter := lc.debugCounter }
      start := { r.start with
        lastReset := kind, bootEpoch := s.start.bootEpoch, failedStarts := s.start.failedStarts
        vaultRepairs := s.start.vaultRepairs, tamperAlarms := s.start.tamperAlarms
        erasePending := s.start.erasePending, previousRoot := s.start.previousRoot
        vaultSeeds := (removing s).foldl (fun t n => Tab.del t n) s.start.vaultSeeds
        longTermKeys := s.start.longTermKeys, vaultValid := s.start.vaultValid, powerGood := s.start.powerGood }
      pins := { r.pins with
        tap := if kind = .powerOn then Tap.reset else s.pins.tap
        htEnabled := x.htEnable, cascadeStrap := x.cascadeN, rateStrap := x.linkRate
        clocksPresent := s.pins.clocksPresent
        supplyReached := s.pins.supplyReached && decide (s.pins.vreq = 800)
        tamperActive := s.pins.tamperActive, tamperCause := s.pins.tamperCause
        meshOpen := s.pins.meshOpen, meshCross := s.pins.meshCross, iso := s.pins.iso, resetN := s.pins.resetN
        detectorsArmed := s.pins.detectorsArmed && kind != .powerOn, vppOk := s.pins.vppOk }
      keys := { r.keys with
        slots := s.keys.allotted, pasids := (removing s).foldl (fun t n => Tab.del t n) s.keys.pasids }
      slices := { r.slices with tab := s.slices.records }
      pke := { r.pke with vendorKeyHashes := s.pke.vendorKeyHashes }
      rng := { r.rng with draws := s.rng.draws + 1 }
      link := r.link.strapped x
      pending := s.pending }
  ([0, 1].foldl (fun t p => t.onLport p (fun l => { l with phyReady := (s.lport p).phyReady })) s1)

/-- A reset released: the Lovaov ports may leave DOWN (18 R583). -/
def State.released (s : State) : State :=
  let s1 := { s with start := { s.start with inReset := false } }
  [0, 1].foldl State.tryLock s1

/-- A reset that is over at once. -/
def State.reboot (s : State) (kind : ResetKind) (x : Straps) : State := (s.restart kind x).released

/-- A reset that lasts, by PWR_GOOD or ISO: every output is at its inactive value (21 Table 21-8). -/
def State.hold (s : State) (kind : ResetKind) (x : Straps) : State :=
  let s1 := s.restart kind x
  { s1 with start := { s1.start with inReset := true }, pins := { s1.pins with vreqValid := false } }

/-- The straps as last sampled, for a reset that is given no others. -/
def heldStraps (s : State) : Straps :=
  { htEnable := s.pins.htEnabled, cascadeN := s.pins.cascadeStrap, linkRate := s.pins.rateStrap }

/-! ## Reset rows (R548, 21 R663 to R665) -/

/-- POWER_ON (R663): while ISO is high the T9 stays in reset (R664). -/
def execPowerOn (straps : Straps) (s : State) : Out :=
  let s1 := { s with start := { s.start with powerGood := true } }
  .next (if s.pins.iso then s1.hold .powerOn straps else s1.reboot .powerOn straps)

/-- PWR_GOOD_FALL (R663): held in reset, every output inactive, the voltage detectors not armed. -/
def execPwrGoodFall (s : State) : Out :=
  .next ({ s with start := { s.start with powerGood := false } }.hold .powerOn (heldStraps s))

/-- ISO (R664): with PWR_GOOD high the T9 behaves as if RESET_N were held low; a reset held since PWR_GOOD rose keeps its
kind. -/
def execIso (level : Bool) (straps : Straps) (s : State) : Out :=
  let s1 := { s with pins := { s.pins with iso := level } }
  .next
    (if !s.start.powerGood ∨ level = s.pins.iso then s1
    else if level then s1.hold .pin straps
    else s1.reboot s.start.lastReset straps)

/-- PIN (R665): a pulse that is over. -/
def execPin (straps : Straps) (s : State) : Out :=
  .next (if s.start.inReset then s else s.reboot .pin straps)

/-- RESET_REQUEST_IMMEDIATE (R548). -/
def execResetRequestImmediate (straps : Straps) (s : State) : Out :=
  .next (if s.start.inReset then s else s.reboot .immediate straps)

/-! ## ORDERLY (R549 to R551) -/

/-- RESET_REQUEST written 1: it waits while LC_STATUS is BUSY (R551). -/
def State.orderly (s : State) : State :=
  if s.start.inReset ∨ s.start.state = .resetting then s
  else if s.lc.status = 1 then { s with start := { s.start with orderlyWaitsLc := true } }
  else s.orderlyBegin

/-- RESET_REQUEST_ORDERLY (R549). -/
def execResetRequestOrderly (s : State) : Out := .next s.orderly

/-- Has all work ended: no request, no record, tail-word write or notification outstanding on any pair, and no grant
without its token (R550)? -/
def drained (s : State) : Bool :=
  s.reqs.isEmpty && s.engine.pairs.all (fun e => pairQuiet s e.1)

/-- ORDERLY_RESET_TAKES_PLACE (R550). -/
def execOrderlyResetTakesPlace (straps : Straps) (s : State) : Out :=
  .next (if s.start.state = .resetting ∧ drained s then s.reboot .orderly straps else s)

/-- RESET_DRAIN_LIMIT_EXPIRY (R550): records not yet acknowledged are lost. -/
def execResetDrainLimitExpiry (straps : Straps) (s : State) : Out :=
  .next (if s.start.state = .resetting then s.reboot .orderly straps else s)

/-! ## Step 0 (R554, R555) -/

/-- Inputs in force (21 R667): bits 0 to 5 always in MISSION and RETIRE; the voltage detectors only while armed (R663). -/
def tamperMask (s : State) : BitVec 8 :=
  let on : BitVec 8 :=
    match s.lc.state with
    | .mission => s.pins.tamperEnable ||| 0x3F
    | .retire => s.pins.tamperEnable ||| 0x3F
    | _ => s.pins.tamperEnable
  if s.pins.detectorsArmed then on else on &&& 0xF3

/-- The start goes on after step 0, and after TAMPER_WAIT: Pavane mode after three failed starts, or with a counter that cannot
be read, whose failure is on record and raises its event; else step 1. -/
def State.proceed (s : State) : State :=
  if 3 ≤ s.start.failedStarts then
    (if s.start.failReason = 0x08 then s.pavane.raise 0x23A 0x08 0 else s.pavane)
  else
    { s with start := { s.start with failedStarts := s.start.failedStarts + 1, state := .selfTest, step := 1 } }

/-- Step 0: the vote, the record of the certified configuration, and the failed-start counter; a counter that cannot be
read counts as 3. -/
def State.stepZero (s : State) (counterOk : Bool) : State :=
  let s1 := s.lcVote
  let s2 := { s1 with ident := { s1.ident with sealRecord := patch s1.ident.sealRecord 0 [BitVec.ofNat 8 s1.lc.state.code, 1] } }
  let read := if counterOk then s2.start.failedStarts else 3
  let s3 := { s2 with start := { s2.start with step0Done := true, failedStarts := read, failedAtStep0 := read } }
  if s3.lc.state = .scrap then
    let s4 := s3.unpower
    { s4 with start := { s4.start with state := .scrap } }
  else
    let s4 := if counterOk then s3 else s3.recordFailure 0x08 0
    if s4.pins.tamperActive &&& tamperMask s4 ≠ 0 then { s4 with start := { s4.start with state := .tamperWait } }
    else s4.proceed

/-- LC_DECODE (R525 to R528, R555): `counterOk` tells whether the counter's record can be read. -/
def execLcDecode (counterOk : Bool) (s : State) : Out :=
  .next
    (if s.start.state ≠ .lcDecode ∨ s.start.inReset ∨ s.start.alarmPending then s else s.stepZero counterOk)

/-! ## Steps 1 to 4 -/

/-- SELF_TEST_DONE (R554): step 1 or 2 ends; `failure` is the reason and detail of Table 17-4. -/
def execSelfTestDone (step : Nat) (failure : Option (Nat × Nat)) (s : State) : Out :=
  .next
    (if step ≠ 1 ∧ step ≠ 2 then s
    else if s.start.state = .pavane then
      if s.start.testsRunning.contains step then s.pavaneTest step failure.isNone else s
    else if !(starting s) ∨ s.start.step ≠ step then s
    else
      match failure with
      | some (reason, detail) => s.startFail reason detail
      | none => s.stepDone step)

/-- Every slice record gone from the vault: PASIDs, wrap seeds and slot allotments. -/
def State.clearSlices (s : State) : State :=
  { s with
    slices := { s.slices with tab := [] }
    keys := { s.keys with slots := [], pasids := [] }
    start := { s.start with vaultSeeds := [] } }

/-- An erase of the vault completed (R567). -/
def State.eraseVault (s : State) : State :=
  if s.start.erasePending then
    let s1 := s.clearSlices
    { s1 with start := { s1.start with erasePending := false, longTermKeys := [] } }
  else s

/-- The root in use, as the vault remembers it. -/
def rootMark (s : State) : Nat :=
  match rootInUse s with
  | none => 0
  | some r => r + 1

/-- The vault cleared when the root in use has changed (16 R536). -/
def State.rootChange (s : State) : State :=
  if rootMark s = s.start.previousRoot then s
  else
    let s1 := s.clearSlices
    { s1 with
      start := { s1.start with longTermKeys := [], tamperAlarms := 0, previousRoot := rootMark s }
      lc := { s1.lc with debugCounter := 0 } }

/-- The manager's wrap seed drawn when none is held for the root (R556, 05 R227); the DETAIL of MGR_SEED when it cannot be
drawn or stored. -/
def State.managerSeed (s : State) : Except Nat State :=
  if (rootInUse s).isNone ∨ Tab.has s.start.vaultSeeds mgr then .ok s
  else if s.rng.state ≠ .running then .error 1
  else if !s.start.vaultValid then .error 2
  else
    let d := s.internalDraw 32
    .ok { d.2 with start := { d.2.start with vaultSeeds := Tab.ins d.2.start.vaultSeeds mgr d.1 } }

/-- Step 4 after the check of the records (R556), then the device identity (16 R542) and step 5. -/
def State.stepFour (s : State) : State :=
  let s1 := s.rootChange
  if s1.start.bootEpoch = 0xFFFFFFFF#32 then s1.startFail 0x0D 0
  else
    let s2 := { s1 with start := { s1.start with bootEpoch := s1.start.bootEpoch + 1 } }
    match s2.managerSeed with
    | .error n => s2.startFail 0x0E n
    | .ok s3 =>
      (((s3.internalRan (s3.start.vaultSeeds.length * wrapKdf)).deriveDevice).stepDone 4).beginImage

/-- VAULT_CHECK_DONE (R556, R561): `repairs` buffers were rebuilt; `damaged` is a record lost in both. An erase pending is
completed before anything else (R567). -/
def execVaultCheckDone (repairs : Nat) (damaged : Option Nat) (s : State) : Out :=
  let pavane := s.start.state == StartState.pavane && s.start.testsRunning.contains 4
  .next
    (if !(pavane || (starting s && s.start.step == 4)) then s
    else
      let s1 := s.eraseVault
      let s2 := { s1 with start := { s1.start with vaultRepairs := s1.start.vaultRepairs + BitVec.ofNat 32 repairs } }
      match damaged with
      | some n => if pavane then s2.pavaneTest 4 false else s2.startFail 0x07 n
      | none =>
        if pavane then
          let s3 := s2.pavaneTest 4 true
          if s3.pke.caller = .off then s3.beginImage else s3
        else s2.stepFour)

/-! ## Step 5 (R557, R558, 10 R371 and R372) -/

/-- The accesses of the image that have ended, by offset. -/
def imageParts (s : State) : List Acc := s.port.ended.filter (fun a => a.kind == .callerImage)

/-- The bytes of the image as read. -/
def imageBytes (s : State) : Bytes :=
  (((imageParts s).map (fun a => (a.off, a.data))).mergeSort (fun a b => decide (a.1 ≤ b.1))).flatMap Prod.snd

/-- Has every read of the image ended? -/
def imageRead (s : State) : Bool :=
  !s.start.imageDue && s.port.outstanding.all (fun a => a.kind != .callerImage)
    && (s.start.imageDenied || !(imageParts s).isEmpty)

/-- May the Caller run unsigned firmware (Table 16-1)? -/
def unsignedOk (s : State) : Bool := s.lc.state.code == 3 || s.lc.state.code == 4

/-- SHA-384 over the instruction and data bytes. -/
def imageDigest (image : Bytes) : Bytes :=
  ((HashWork.start 2).absorb (cut image 256 (leNat (cut image 12 4) + leNat (cut image 16 4)))).finish 48

/-- Do digest and signatures accept the image (R371)? A vendor key is named by its hash. -/
def imageAccept (s : State) (image : Bytes) : Option (Nat × Nat) :=
  let n := leNat (cut image 12 4) + leNat (cut image 16 4)
  let head := cut image 0 256
  if imageDigest image ≠ cut image 32 48 then some (0x0B, 0)
  else if !(Config.sigVerifies (cut s.pke.vendorKeyHashes 0 48) head (cut image (256 + n) 96)) then some (0x0C, 1)
  else if !(Config.sigVerifies (cut s.pke.vendorKeyHashes 48 48) head (cut image (352 + n) 4627)) then some (0x0C, 2)
  else none

/-- What is wrong with the image as read, before its digest and signatures (Table 17-4). -/
def imageFormat (s : State) (magic : Nat) (image : Bytes) : Option (Nat × Nat) :=
  if s.start.imageDenied then some (0x09, 2)
  else if (imageParts s).any Acc.err then some (0x09, 3)
  else if leNat (cut image 0 4) ≠ magic then some (0x0A, 1)
  else if 262144 < leNat (cut image 12 4) ∨ 131072 < leNat (cut image 16 4) then some (0x0A, 2)
  else if blockVersion < leNat (cut image 8 2) then some (0x0A, 3)
  else none

/-- The image taken into the Caller; `signed` tells whether it was accepted under R371. The measured firmware image of 00 R5 is
its instruction and data octets, as IMAGE_DIGEST measures them, without the manifest (DESIGN CHOICE, log entry 95). -/
def State.takeImage (s : State) (image : Bytes) (signed : Bool) : State :=
  { s with
    ident := { s.ident with
      fwVersion := if signed then BitVec.ofNat 32 (leNat (cut image 4 4)) else 0
      sealReference := if signed then cut image 80 48 else s.ident.sealReference
      fwImage := cut image 256 (leNat (cut image 12 4) + leNat (cut image 16 4)), recomputing := true
      measured := true }
    pke := { s.pke with
      imageSigned := signed, imageDigest := imageDigest image, instrLen := leNat (cut image 12 4), routineSet := BitVec.ofNat 64 (leNat (cut image 24 8)) } }

/-- The start completes (R558): slices that existed read QUIESCE_PENDING (13 R472). -/
def State.startComplete (s : State) : State :=
  let t := BitVec.ofNat 32 (s.now - s.start.startBegan).toNat
  let s1 :=
    { s with
      pke := { s.pke with caller := .ready }
      start := { s.start with failedStarts := 0, state := .running, startTime := t, completed := true, step := 6 } }
  let s2 := (presentSlices s1).foldl (fun u n => u.onSlice n (fun x => { x with pending := true })) s1
  let kind := match s.start.lastReset with
    | .powerOn => 0
    | .pin => 1
    | .immediate => 2
    | .orderly => 3
  s2.levelsAll.raise 0x238 kind t.toNat

/-- The hash work of an image's check on digest unit 0 (10 R371, 09 R340): the body, then the two signatures over the manifest. -/
def State.imageHashed (s : State) (image : Bytes) : State :=
  s.internalOn 0 (finishBlocks 2 (leNat (cut image 12 4) + leNat (cut image 16 4)) 48 + signatureBlocks 256)

/-- Step 5 of a start ends (R557). -/
def State.stepFive (s : State) (image : Bytes) : State :=
  match imageFormat s 0x46433954 image with
  | some (r, d) => s.startFail r d
  | none =>
    let s1 := s.imageHashed image
    match imageAccept s image with
    | none => (s1.takeImage image true).deriveAlias.startComplete
    | some (r, d) => if unsignedOk s then (s1.takeImage image false).deriveAlias.startComplete else s1.startFail r d

/-- The recovery image of Pavane mode (R562), accepted only under every check of R371. -/
def State.recoveryImage (s : State) (image : Bytes) : State :=
  if (imageFormat s 0x52433954 image).isNone ∧ (imageAccept s image).isNone then
    let s1 := s.takeImage image true
    { s1 with pke := { s1.pke with caller := .recoveryImage } }
  else { s with pke := { s.pke with caller := .off } }

/-- The reads of the image forgotten. -/
def State.forgetImage (s : State) : State :=
  { s with port := { s.port with ended := s.port.ended.filter (fun a => a.kind != .callerImage) } }

/-- CALLER_IMAGE_CHECK_DONE (R557): every read of the image has ended, and its checks too. -/
def execCallerImageCheckDone (s : State) : Out :=
  .next
    (if s.pke.caller ≠ .verifying ∨ !(imageRead s) then s
    else if s.start.state = .pavane then (s.recoveryImage (imageBytes s)).forgetImage
    else if starting s ∧ s.start.step = 5 then (s.stepFive (imageBytes s)).forgetImage
    else s)

/-! ## Failed starts and Pavane mode (R560 to R564) -/

/-- START_RETRY_TIME_EXPIRY (R560). -/
def execStartRetryTimeExpiry (straps : Straps) (s : State) : Out :=
  .next (if s.start.state = .startHalt ∧ s.start.retryArmed then s.reboot .immediate straps else s)

/-- A write of PAVANE_TESTS (R562): steps 1 to 4 run again. A service that is STOPPED does not start again (11 R430). -/
def State.rerunTests (s : State) (mask : Nat) : Bool × State :=
  if s.start.state ≠ .pavane then (false, s)
  else
    let ns := ([1, 2, 3, 4] : List Nat).filter (fun n => bit mask n && !(s.start.testsRunning.contains n))
    let s1 := { s with start := { s.start with testsRunning := s.start.testsRunning ++ ns } }
    let s2 :=
      if !(ns.contains 3) then s1
      else if s1.rng.state = .stopped ∨ s1.rng.rawMode then s1.pavaneTest 3 false
      else if s1.rng.state = .settling ∨ s1.rng.state = .testing ∨ s1.rng.state = .filling then s1
      else s1.testSources
    (true, s2)

/-- PAVANE_TESTS (R562). -/
def execPavaneTests (mask : BitVec 8) (s : State) : Out := .next (s.rerunTests mask.toNat).2

/-- A write of 1 to PAVANE_EXIT (R564). -/
def State.pavaneExit (s : State) (x : Straps) : Bool × State :=
  if s.start.failReason = 0x0D ∨ s.start.inReset then (false, s)
  else (true, { s with start := { s.start with failedStarts := 0 } }.reboot .immediate x)

/-- PAVANE_EXIT (R564). -/
def execPavaneExit (straps : Straps) (s : State) : Out := .next (s.pavaneExit straps).2

/-! ## Tamper (R565 to R568, 21 R667 and R668) -/

/-- Input `t` becomes active; enabled, it is an alarm. `lines` are the mesh lines that made it. -/
def State.tamperInput (s : State) (t lines : Nat) : State :=
  let was := s.pins.tamperActive.getLsbD t
  let s1 := { s with pins := { s.pins with tamperActive := s.pins.tamperActive ||| BitVec.ofNat 8 (2 ^ t) } }
  if was ∨ !((tamperMask s).getLsbD t) ∨ !s.start.powerGood then s1
  else
    let s2 := { s1 with
      pins := { s1.pins with
        tamperCause := s1.pins.tamperActive &&& tamperMask s
        meshFaultLine := if t < 2 ∨ t = 6 then BitVec.ofNat 20 lines else s1.pins.meshFaultLine } }
    s2.alarm t t 0

/-- TAMPER_ALARM (R565). -/
def execTamperAlarm (input lines : Nat) (s : State) : Out := unit input 8 (s.tamperInput input lines)

/-- Have the records and tail-word writes of a pair been acknowledged, those that can still be published? -/
def recordsSettled (r : Ring) : Bool := r.tailInFlight == 0 && (if r.recordsLost then ackedRun r.cq == 0 else r.cq.isEmpty)

/-- TAMPER_HOLD (R566): every record and tail write has been acknowledged; an erase pending is done by then. -/
def execTamperHold (s : State) : Out :=
  .next
    (if !s.start.alarmPending ∨ s.start.state = .tamperHold ∨ !(s.reqs.isEmpty)
        ∨ !(s.engine.pairs.all (fun e => recordsSettled e.2)) then s
    else
      let s1 := s.eraseVault
      { s1 with start := { s1.start with state := .tamperHold } })

/-- TAMPER_WAIT_END (R566): no enabled input is active any more. -/
def execTamperWaitEnd (s : State) : Out :=
  let s1 := { s with pins := { s.pins with tamperActive := s.pins.tamperActive &&& ~~~(tamperMask s) } }
  .next (if s.start.state = .tamperWait ∧ !s.start.alarmPending then s1.proceed else s1)

/-- MESH_PATTERN_CHANGE (R668): the lines that mismatch, and those that carry another's sequence, at this change; two
changes running make an open or a short. Lines 0 to 15 are the internal mesh, 16 to 19 the external. -/
def execMeshPatternChange (openLines crossLines : BitVec 20) (s : State) : Out :=
  let opens := openLines &&& s.pins.meshOpen
  let shorts := crossLines &&& s.pins.meshCross
  let s1 := { s with pins := { s.pins with meshOpen := openLines, meshCross := crossLines } }
  let fire (t : Nat) (lines : BitVec 20) (u : State) : State := if lines = 0 then u else u.tamperInput t lines.toNat
  .next
    (if !s.start.powerGood then s
    else
      fire 6 ((opens ||| shorts) &&& 0xF0000) (fire 1 (shorts &&& 0xFFFF) (fire 0 (opens &&& 0xFFFF) s1)))

/-- MESH_RESEED (R668): once the service runs. -/
def execMeshReseed (s : State) : Out :=
  .next
    (if s.rng.state = .running ∧ !(reseedDue s) then
      let d := s.internalDraw 32
      { d.2 with pins := { d.2.pins with meshSeeds := d.2.pins.meshSeeds + 1 } }
    else s)

/-- VOLTAGE_DETECTORS_ARMED (R663). -/
def execVoltageDetectorsArmed (s : State) : Out :=
  .next (if s.start.powerGood then { s with pins := { s.pins with detectorsArmed := true } } else s)

/-! ## Clocks (21 R648) -/

/-- CLOCK_STOPPED (R648). -/
def execClockStopped (clock : Nat) (s : State) : Out :=
  unit clock 9
    { s with pins := { s.pins with clocksPresent := s.pins.clocksPresent &&& ~~~(BitVec.ofNat 9 (2 ^ clock)) } }

/-- CLOCK_RETURNED (R648): work that waited goes on; here, a Caller image to be read. -/
def execClockReturned (clock : Nat) (s : State) : Out :=
  let s1 := { s with pins := { s.pins with clocksPresent := s.pins.clocksPresent ||| BitVec.ofNat 9 (2 ^ clock) } }
  unit clock 9 (if clock = 1 ∧ s1.start.imageDue then s1.readImage else s1)

end Sys2Proof.Machine
end

