-- ==== Sys2Proof/Machine/Pages.lean ====
section
/-!
DEFINITION. The registers of the manager page and the slice pages (chapters 2, 5, 7, 9 to 13, 20): what a read returns and
what a write of a register that has no command of its own does. Offsets count from the start of each block.
-/
namespace Sys2Proof.Machine

/-! ## Ring block (Table 2-3) -/

/-- STATE code of a ring pair (Table 2-1). -/
def RingState.code : RingState → Nat
  | .disabled => 0
  | .enabled => 1
  | .draining => 2
  | .faulted => 3

/-- A register of a ring block as it reads. -/
def Ring.word (r : Ring) (off : Nat) : Nat :=
  match off with
  | 0x00 => r.rqTail
  | 0x08 => r.cqHead
  | 0x10 => r.rqHead
  | 0x18 => r.cqTail
  | 0x20 => b2n r.enable
  | 0x28 => r.state.code + r.faultCode * 2 ^ 8 + r.faultPos * 2 ^ 32
  | 0x30 => r.rqBase.toNat
  | 0x38 => r.cqBase.toNat
  | 0x40 => r.rqLog2 + r.cqLog2 * 2 ^ 8 + r.orderClass.code * 2 ^ 16 + r.fetchWeight % 16 * 2 ^ 24
  | 0x48 => r.tailWordAddr.toNat
  | 0x50 => r.notifyAddr.toNat
  | 0x58 => r.notifyData.toNat + r.coalCount * 2 ^ 32 + r.coalTime * 2 ^ 48
  | _ => 0

/-- A write of a field marked RW* into a pair that is DISABLED. An address keeps its low bits as written: those of NOTIFY_ADDR
[1:0] are no CONFIG cause of R104, and the notification goes to the address written (DESIGN CHOICE, log entry 91). -/
def Ring.write (r : Ring) (off : Nat) (v : U64) : Ring :=
  match off with
  | 0x30 => { r with rqBase := v }
  | 0x38 => { r with cqBase := v }
  | 0x40 =>
    { r with rqLog2 := fld v.toNat 0 5, cqLog2 := fld v.toNat 8 5, orderClass := OrderClass.ofCode (fld v.toNat 16 2),
             fetchWeight := fld v.toNat 24 4 }
  | 0x48 => { r with tailWordAddr := v }
  | 0x50 => { r with notifyAddr := v }
  | 0x58 =>
    { r with notifyData := v.truncate 32, coalCount := fld v.toNat 32 16, coalTime := fld v.toNat 48 16 }
  | _ => r

/-- A write of the ring block of pair `key` (R70). -/
def State.ringSet (s : State) (key off : Nat) (v : U64) : State :=
  if off = 0x00 then s.doorbell key v.toNat
  else if off = 0x08 then s.cqHeadWrite key v.toNat
  else if off = 0x20 then (if bit v.toNat 0 then s.enablePair key else s.disablePair key)
  else if (s.ring key).state = .disabled then s.onRing key (fun r => r.write off v)
  else s

/-! ## Exception ring (Table 7-7) -/

/-- A register of the exception-ring block as it reads. -/
def XRing.word (x : XRing) (off : Nat) : Nat :=
  match off with
  | 0x00 => x.base.toNat
  | 0x08 => x.log2 + b2n x.enable * 2 ^ 8
  | 0x10 => x.tail
  | 0x18 => x.head
  | 0x20 => x.notifyAddr.toNat
  | 0x28 => x.notifyData.toNat + x.lost.toNat * 2 ^ 32
  | _ => 0

/-- A write of the exception-ring block: RW* fields only while XR_ENABLE is 0; XR_HEAD within the entries written. Addresses
and XR_LOG2 are kept as written (DESIGN CHOICE, log entry 91). -/
def XRing.write (x : XRing) (off : Nat) (v : U64) : XRing :=
  match off with
  | 0x00 => if x.enable then x else { x with base := v }
  | 0x08 =>
    let y := if x.enable then x else { x with log2 := fld v.toNat 0 5 }
    if bit v.toNat 8 then { y with enable := true, tail := 0, head := 0 } else { y with enable := false }
  | 0x18 =>
    let n := fld v.toNat 0 17
    if n < 2 ^ (x.log2 + 1) ∧ ptrSub n x.head x.log2 ≤ ptrSub x.tail x.head x.log2 then { x with head := n } else x
  | 0x20 => if x.enable then x else { x with notifyAddr := v }
  | 0x28 => if x.enable then x else { x with notifyData := v.truncate 32 }
  | _ => x

/-! ## Key window (Table 5-4) -/

/-- A register of a key window as it reads; the secret and the salt read zero. -/
def KeyWindow.word (w : KeyWindow) (off : Nat) : Nat :=
  match off with
  | 0x00 => w.handle.toNat
  | 0x08 => w.transform + b2n w.sealing * 2 ^ 8 + w.winW * 2 ^ 16 + b2n w.winEn * 2 ^ 31 + w.winSlot * 2 ^ 32
  | 0x10 => w.soft.toNat
  | 0x18 => w.hard.toNat
  | 0x20 => w.start.toNat
  | 0x28 => w.sci.toNat
  | 0x30 => w.ssci.toNat
  | 0x90 => b2n w.busy + w.status * 2 ^ 8 + w.detail * 2 ^ 16 + w.newHandle.toNat * 2 ^ 32
  | _ => 0

/-- A write of a key window other than KW_COMMIT. -/
def KeyWindow.write (w : KeyWindow) (off : Nat) (v : U64) : KeyWindow :=
  if off = 0x00 then { w with handle := v.truncate 32 }
  else if off = 0x08 then
    { w with transform := fld v.toNat 0 8, sealing := bit v.toNat 8, winW := fld v.toNat 16 11, winEn := bit v.toNat 31,
             winSlot := fld v.toNat 32 16 }
  else if off = 0x10 then { w with soft := v }
  else if off = 0x18 then { w with hard := v }
  else if off = 0x20 then { w with start := v }
  else if off = 0x28 then { w with sci := v }
  else if off = 0x30 then { w with ssci := v.truncate 32 }
  else if 0x38 ≤ off ∧ off < 0x78 then { w with secret := Tab.set (fun _ => 0) w.secret ((off - 0x38) / 8) v }
  else if 0x78 ≤ off ∧ off < 0x88 then { w with salt := Tab.set (fun _ => 0) w.salt ((off - 0x78) / 8) v }
  else w

/-! ## Digest register block (Table 9-8) -/

/-- BUSY: blocks are buffered or a finish is running. -/
def DigestPage.busy (p : DigestPage) : Bool :=
  decide (0 < hashRate p.alg ∧ hashRate p.alg ≤ p.backlog.length) || p.lastPending

/-- A register of a digest block as it reads. -/
def DigestPage.word (p : DigestPage) (off : Nat) : Nat :=
  if off = 0x00 then p.alg + b2n p.compare * 2 ^ 8 + b2n p.keyed * 2 ^ 9 + p.outLen * 2 ^ 16
  else if off = 0x08 then p.handle.toNat
  else if off = 0x20 then
    b2n p.isOpen + b2n p.busy * 2 + b2n p.done * 4 + b2n p.equal * 8 + b2n p.notEqual * 16 + p.error * 2 ^ 8
      + p.space * 2 ^ 16 + p.kstatus * 2 ^ 32 + p.kdetail * 2 ^ 40
  else if 0x80 ≤ off ∧ off < 0xC0 then word64 p.result ((off - 0x80) / 8)
  else if 0x100 ≤ off ∧ off < 0x200 then word64 p.stateRec ((off - 0x100) / 8)
  else 0

/-- What reading a register of the block leaves behind: the result, or the outcome of a compare, counts as read (R360; log
entry 19). -/
def DigestPage.afterRead (p : DigestPage) (off : Nat) : DigestPage :=
  if p.done ∧ ((0x80 ≤ off ∧ off < 0xC0) ∨ (off = 0x20 ∧ p.compare)) then { p with resultRead := true } else p

/-- A write of a register of the block that only stores: DG_HANDLE, DG_EXPECT, DG_STATEREC. -/
def DigestPage.write (p : DigestPage) (off : Nat) (v : U64) : DigestPage :=
  if off = 0x08 then { p with handle := v.truncate 32 }
  else if 0x40 ≤ off ∧ off < 0x80 then { p with expect := patch p.expect (off - 0x40) (leBytes 8 v.toNat) }
  else if 0x100 ≤ off ∧ off < 0x200 then { p with stateRec := patch p.stateRec (off - 0x100) (leBytes 8 v.toNat) }
  else p

/-! ## FIFO blocks (Tables 10-10, 11-3, 12-3, 12-4) -/

/-- A register of a reader block other than FIFO_DATA. -/
def readerWord (s : State) (kind o off : Nat) : Nat :=
  let f := s.fifo kind o
  match off with
  | 0x10 =>
    if kind = 0 then f.kept.length + f.reserved * 2 ^ 16 + b2n f.marked * 2 ^ 32
    else
      f.count + f.reserved * 2 ^ 16 + b2n f.marked * 2 ^ 32 + b2n f.markLost * 2 ^ 33 + b2n (countOnly s) * 2 ^ 34
  | 0x18 => f.level
  | _ => 0

/-- A register of a writer block. -/
def writerWord (s : State) (kind o off : Nat) : Nat :=
  let f := s.fifo kind o
  match off with
  | 0x00 => f.sendReadBack
  | 0x18 => f.space (fifoDepth kind) + b2n f.openAt.isSome * 2 ^ 16 + f.sendDrops.toNat * 2 ^ 32
  | _ => 0

/-- RNG_STATE (Table 11-6). -/
def rngCode (s : State) : Nat :=
  if s.start.inReset || s.start.state == .scrap then 0
  else
    match s.rng.state with
    | .settling => 1
    | .testing => 1
    | .filling => 1
    | .running => 2
    | .stopped => 3
    | .startFailed => 4
    | .rawSample => 5

/-- RNG_COUNT, RNG_STATE, UNAVAIL_STATUS and UNAVAIL_DETAIL of the port of `o` (Table 11-3, R420). -/
def rngPortWord (s : State) (o : Nat) : Nat :=
  let u := match rngRefusal s with
    | some e => if e.detail = 0x03 ∧ o = mgr then 0 else e.st.code * 2 ^ 16 + e.detail * 2 ^ 24
    | none => 0
  (s.fifo 1 o).count + rngCode s * 2 ^ 8 + u

/-! ## Slice status and notification (Tables 13-3, 13-4) -/

/-- The slice status register. -/
def sliceWord (s : State) (n : Nat) : Nat :=
  let x := s.slice n
  n + x.state.code * 2 ^ 16 + b2n x.pending * 2 ^ 24 + b2n x.cancelling * 2 ^ 25 + x.ringPairs * 2 ^ 32

/-! ## A block of a page, read and written -/

/-- A read of a register of the page of `o` that has no command of its own, after the page accepted it. -/
def pageWord (s : State) (o off : Nat) : Nat :=
  if off < 0x400 then (s.ring (pairKey o (off / 0x80))).word (off % 0x80)
  else if 0x800 ≤ off ∧ off < 0x880 then (s.xring o).word (off - 0x800)
  else if 0x2000 ≤ off ∧ off < 0x2200 then (s.page o).word (off - 0x2000)
  else if 0x3000 ≤ off ∧ off < 0x3080 then readerWord s 0 o (off - 0x3000)
  else if off = 0x4008 then rngPortWord s o
  else if o = mgr then 0
  else if 0x5000 ≤ off ∧ off < 0x5040 then writerWord s 2 o (off - 0x5000)
  else if 0x5080 ≤ off ∧ off < 0x5100 then readerWord s 3 o (off - 0x5080)
  else if off = 0x5100 then (s.slice o).mbAddr.toNat
  else if off = 0x5108 then (s.slice o).mbData.toNat
  else if off = 0x6000 then sliceWord s o
  else 0

/-- What that read leaves behind. -/
def State.pageAfterRead (s : State) (o off : Nat) : State :=
  if 0x2000 ≤ off ∧ off < 0x2200 then s.onPage o (fun p => p.afterRead (off - 0x2000)) else s

/-- A write of a register of the page of `o` that has no command of its own, after the page accepted it. -/
def State.pageSet (s : State) (o off : Nat) (v : U64) : State :=
  if off < 0x400 then s.ringSet (pairKey o (off / 0x80)) (off % 0x80) v
  else if 0x800 ≤ off ∧ off < 0x880 then s.onXring o (fun x => x.write (off - 0x800) v)
  else if 0x2000 ≤ off ∧ off < 0x2200 then s.onPage o (fun p => p.write (off - 0x2000) v)
  else if off = 0x3018 then s.writeLevel 0 o (fld v.toNat 0 10)
  else if o = mgr then s
  else if off = 0x5098 then s.writeLevel 3 o (fld v.toNat 0 13)
  else if off = 0x5100 then s.onSlice o (fun x => { x with mbAddr := v })
  else if off = 0x5108 then s.onSlice o (fun x => { x with mbData := v.truncate 32 })
  else s

end Sys2Proof.Machine
end

