-- ==== Sys2Proof/Machine/Objects.lean ====
section
/-!
DEFINITION. Dictionary sub-entries (chapter 19) and the objects of the Outer ranges: what each reads as, what it
accepts, and what a write of it does. Numbers of RESULT codes are those of 19 Table 19-4.
-/
namespace Sys2Proof.Machine

/-! ## A sub-entry -/

/-- A sub-entry as it stands: TYPE, ACCESS and SIZE (R608, R609); the default and the range that DESCRIBE gives (R618); the
octets of its value; which values pass check 9; what an accepted write does, with the code of a refusal by checks 10 and 11
(0 for none, `resets` when the write has reset the T9). -/
structure Sub where
  type : Nat
  access : Nat
  size : Nat
  dflt : Nat
  least : Nat
  most : Nat
  val : Bytes
  ok : Bytes → Bool
  put : Bytes → State → Nat × State

/-- The code with which a `put` tells that it has reset the T9, so that the operation ends without a result (R622). -/
def resets : Nat := 256

/-- Access codes (Table 19-2). -/
def aRO : Nat := 1
def aRW : Nat := 2
def aWO : Nat := 3
def aRWL : Nat := 4
def aWOS : Nat := 5
def aMGR : Nat := 6

/-- A sub-entry that is only read. -/
def Sub.ro (type size dflt : Nat) (v : Bytes) : Option Sub :=
  some { type := type, access := aRO, size := size, dflt := dflt, least := 0, most := 0, val := v,
         ok := fun _ => true, put := fun _ s => (3, s) }

/-- An RO U8 of value `v`, default `d`. -/
def roU8 (v : Nat) (d : Nat := 0) : Option Sub := Sub.ro 1 1 d (leBytes 1 v)
/-- An RO U16. -/
def roU16 (v : Nat) (d : Nat := 0) : Option Sub := Sub.ro 2 2 d (leBytes 2 v)
/-- An RO U32. -/
def roU32 (v : Nat) (d : Nat := 0) : Option Sub := Sub.ro 3 4 d (leBytes 4 v)
/-- An RO U64. -/
def roU64 (v : Nat) (d : Nat := 0) : Option Sub := Sub.ro 4 8 d (leBytes 8 v)
/-- An RO BOOL. -/
def roBool (v : Bool) (d : Nat := 0) : Option Sub := Sub.ro 5 1 d (leBytes 1 (b2n v))
/-- An RO BITS of `n` octets. -/
def roBits (n v : Nat) (d : Nat := 0) : Option Sub := Sub.ro 6 n d (leBytes n v)
/-- An RO ENUM. -/
def roEnum (v : Nat) (d : Nat := 0) : Option Sub := Sub.ro 7 1 d (leBytes 1 v)
/-- An RO OCTETS. -/
def roOctets (v : Bytes) : Option Sub := Sub.ro 8 v.length 0 v
/-- An RO DOMAIN. -/
def roDomain (v : Bytes) : Option Sub := Sub.ro 9 v.length 0 v
/-- A 32-bit counter. -/
def cnt32 (v : U32) : Option Sub := roU32 v.toNat
/-- A 64-bit counter. -/
def cnt64 (v : U64) : Option Sub := roU64 v.toNat

/-- A scalar that is written: access, type, size, default, range, value, and what a value does. -/
def num (acc type size dflt least most v : Nat) (f : Nat → State → Nat × State) : Option Sub :=
  some { type := type, access := acc, size := size, dflt := dflt, least := least, most := most, val := leBytes size v,
         ok := fun b => decide (least ≤ leNat b ∧ leNat b ≤ most), put := fun b s => f (leNat b) s }

/-- A scalar whose values are further limited. -/
def numOk (p : Nat → Bool) (x : Option Sub) : Option Sub := x.map (fun q => { q with ok := fun b => q.ok b && p (leNat b) })

/-- A BITS sub-entry: bits outside `mask` are reserved. -/
def bits (acc size dflt mask v : Nat) (f : Nat → State → Nat × State) : Option Sub :=
  some { type := 6, access := acc, size := size, dflt := dflt, least := 0, most := mask, val := leBytes size v,
         ok := fun b => leNat b ||| mask == mask, put := fun b s => f (leNat b) s }

/-- An OCTETS sub-entry that is written. -/
def octetsSub (acc : Nat) (v : Bytes) (ok : Bytes → Bool) (f : Bytes → State → Nat × State) : Option Sub :=
  some { type := 8, access := acc, size := v.length, dflt := 0, least := 0, most := 0, val := v, ok := ok, put := f }

/-- A write that is always carried out. -/
def sets (f : Nat → State → State) (v : Nat) (s : State) : Nat × State := (0, f v s)

/-- A write accepted only while `c` holds (check 10). -/
def setsIf (c : Bool) (f : Nat → State → State) (v : Nat) (s : State) : Nat × State := if c then (0, f v s) else (6, s)

/-- An action started by writing 1; writing 0 does nothing. -/
def acts (f : State → Nat × State) (v : Nat) (s : State) : Nat × State := if v = 1 then f s else (0, s)

/-- A refusal by check 11 where `r` says so, with the state it leaves. -/
def orRefused (r : Bool × State) : Nat × State := (if r.1 then 0 else 8, r.2)

/-- The state of a meaning that always answers a next state. -/
def nextOf (s : State) : Out → State
  | .next t => t
  | _ => s

/-- A U32 that the manager writes. -/
def mgrU32 (dflt least most v : Nat) (f : Nat → State → State) : Option Sub := num aMGR 3 4 dflt least most v (sets f)
/-- A U8 that the manager writes. -/
def mgrU8 (dflt least most v : Nat) (f : Nat → State → State) : Option Sub := num aMGR 1 1 dflt least most v (sets f)
/-- A U16 that the manager writes. -/
def mgrU16 (dflt least most v : Nat) (f : Nat → State → State) : Option Sub := num aMGR 2 2 dflt least most v (sets f)
/-- A BOOL that the manager writes. -/
def mgrBool (dflt : Nat) (v : Bool) (f : Bool → State → State) : Option Sub :=
  num aMGR 5 1 dflt 0 1 (b2n v) (sets (fun n => f (n == 1)))
/-- An ENUM that the manager writes. -/
def mgrEnum (dflt most v : Nat) (f : Nat → State → State) : Option Sub := num aMGR 7 1 dflt 0 most v (sets f)

/-- The greatest U64. -/
def allOnes : Nat := 0xFFFFFFFFFFFFFFFF

/-! ## Self-description, identity, ports, power (Tables 19-9, 0-2, 19-10, chapter 21) -/

/-- The objects of this model: first and last index of a run of objects, and their highest sub-entry (R607). -/
def objectRuns : List (Nat × Nat × Nat) :=
  [(0x0000, 0x0000, 0x0D), (0x0001, 0x0009, 0x02), (0x1000, 0x1000, 0x0C), (0x1100, 0x1100, 0x09), (0x1101, 0x1101, 0x06),
   (0x1102, 0x1102, 0x05), (0x1200, 0x1200, 0x05), (0x1201, 0x1201, 0x04), (0x2010, 0x2010, 0xB7), (0x2020, 0x2020, 0x04),
   (0x2200, 0x2200, 0x07), (0x2300, 0x230F, 0x0B), (0x2400, 0x25FF, 0xB7), (0x3000, 0x3000, 0x0B), (0x3001, 0x3001, 0x09),
   (0x3002, 0x3002, 0x02), (0x3020, 0x302F, 0x15), (0x3100, 0x31FF, 0x16), (0x4000, 0x4000, 0x08), (0x4001, 0x4001, 0x09),
   (0x4100, 0x41FF, 0x17), (0x5000, 0x5000, 0x0C), (0x5001, 0x5001, 0x0D), (0x5010, 0x504F, 0x05), (0x5100, 0x5101, 0x13),
   (0x6000, 0x600A, 0x08), (0x600B, 0x627F, 0x07)]
  ++
  [(0x7000, 0x7000, 0x0C), (0x7001, 0x7001, 0x0C), (0x7002, 0x7002, 0x09), (0x7100, 0x7100, 0x07), (0x7101, 0x7101, 0x05),
   (0x7102, 0x7102, 0x06), (0x7103, 0x7103, 0x0F), (0x7104, 0x7104, 0x05), (0x7105, 0x7105, 0x0C), (0x7200, 0x7200, 0x07),
   (0x7201, 0x7201, 0x07), (0x7202, 0x7202, 0x0B), (0x7210, 0x7213, 0x07), (0x7300, 0x7300, 0x0B), (0x7301, 0x7301, 0x07),
   (0x7302, 0x7302, 0x0B), (0x7310, 0x7313, 0x05), (0x7400, 0x7400, 0x07), (0x7401, 0x7401, 0x0D), (0x7410, 0x7417, 0x04),
   (0x7500, 0x7500, 0x0B), (0x7501, 0x7501, 0x0C), (0x7510, 0x751F, 0x08), (0x7520, 0x7520, 0x0C), (0x7530, 0x7530, 0x04),
   (0x7600, 0x7600, 0x05), (0x7610, 0x7614, 0x0A), (0x8000, 0x8000, 0x03), (0x8010, 0x8012, 0x0A), (0x8080, 0x8080, 0x05),
   (0x8081, 0x8081, 0x04), (0x8082, 0x8083, 0x08), (0x8084, 0x8084, 0x15), (0x8085, 0x8085, 0x04), (0x9000, 0x9000, 0x05),
   (0x9001, 0x9001, 0x06), (0x9002, 0x9002, 0x03), (0x9003, 0x9003, 0x03), (0x9004, 0x9004, 0x02)]

/-- The highest sub-entry of an object; none where there is no object. -/
def topSub (index : Nat) : Option Nat :=
  (objectRuns.find? (fun r => decide (r.1 ≤ index ∧ index ≤ r.2.1))).map (fun r => r.2.2)

/-- ENUM_NEXT (Table 19-9). -/
def enumNext (cursor : Nat) : Nat :=
  match objectRuns.find? (fun r => decide (cursor ≤ r.2.1)) with
  | some r => max r.1 cursor + r.2.2 * 2 ^ 16
  | none => 0xFFFFFFFF

/-- A reading that the specification does not state, taken at the operation under way (log entry 20). -/
def measured (s : State) (what w : Nat) : Nat := Config.free what s.dict.opsLocal.toNat % 2 ^ w

/-- Object 0x0000 (Table 19-9). -/
def obj0000 (s : State) (sub : Nat) : Option Sub :=
  let d := s.dict
  match sub with
  | 0x01 => roU16 7340 7340
  | 0x02 => roU8 32 32
  | 0x03 => mgrU16 0 0 0xFFFF d.enumCursor.toNat
      (fun v t => { t with dict := { t.dict with enumCursor := BitVec.ofNat 32 v } })
  | 0x04 => roU32 (enumNext d.enumCursor.toNat)
  | 0x05 => mgrU32 2000 100 100000 d.remoteTime.toNat
      (fun v t => { t with dict := { t.dict with remoteTime := BitVec.ofNat 32 v } })
  | 0x06 => cnt64 d.opsLocal
  | 0x07 => cnt64 d.opsRemote
  | 0x08 => cnt64 d.opsRefused
  | 0x09 => roU32 d.sequenceErrors.toNat
  | 0x0A => roU32 d.opsDropped.toNat
  | 0x0B => roU32 d.lateResponses.toNat
  | 0x0C => roU32 d.noResponses.toNat
  | 0x0D => roU32 d.remoteDiscarded.toNat
  | _ => none

/-- TYPE_BYTES of a type (Table 19-1, Table 19-9). -/
def typeBytes (t : Nat) : Nat := ([1, 2, 4, 8, 1, 0, 1, 0, 0] : List Nat).getD (t - 1) 0

/-- Object 0x000t: type code `t` (R629). -/
def objType (t sub : Nat) : Option Sub :=
  match sub with
  | 0x01 => roU8 t t
  | 0x02 => roU16 (typeBytes t) (typeBytes t)
  | _ => none

/-- INSTANCE_NO as it reads: 0xFF while not fixed. -/
def instanceRead (s : State) : Nat := if s.link.isFixed then s.link.instanceNo else 0xFF

/-- Object 0x1000 (Tables 0-2 and 19-10). -/
def obj1000 (s : State) (sub : Nat) : Option Sub :=
  let i := s.ident
  match sub with
  | 0x01 => roU32 0x47494156 0x47494156
  | 0x02 => roU16 0x0009 0x0009
  | 0x03 => roU16 blockVersion blockVersion
  | 0x04 => roU16 dictRevision dictRevision
  | 0x05 => cnt32 i.fwVersion
  | 0x06 => roOctets i.sealDigest
  | 0x07 => roOctets i.sealReference
  | 0x08 => roEnum i.sealState.code 2
  | 0x09 => roOctets i.sealRecord
  | 0x0A => cnt32 i.sealChanges
  | 0x0B => roU8 (instanceRead s)
  | 0x0C => roEnum s.lc.state.code
  | _ => none

/-- Object 0x1100: the ports (chapter 21). -/
def obj1100 (s : State) (sub : Nat) : Option Sub :=
  let p := s.pins
  match sub with
  | 0x01 => roBool p.htEnabled
  | 0x02 => roU8 p.cascadeStrap
  | 0x03 => roEnum p.rateStrap
  | 0x04 => roBits 2 p.clocksPresent.toNat
  | 0x05 => mgrU32 1000 10 1000000 s.port.responseLimit.toNat
      (fun v t => { t with port := { t.port with responseLimit := BitVec.ofNat 32 v } })
  | 0x06 => cnt32 s.port.timeouts
  | 0x07 => cnt32 s.port.lateResponses
  | 0x08 => cnt32 p.htPartialDrops
  | 0x09 => cnt32 p.phycTimeouts
  | _ => none

/-- Object 0x1101: the supply. -/
def obj1101 (s : State) (sub : Nat) : Option Sub :=
  let p := s.pins
  match sub with
  | 0x01 => roU16 p.vreq 800
  | 0x02 => roU16 (measured s 16 16)
  | 0x03 => roBool p.supplyReached
  | 0x04 => mgrU32 1000 100 100000 p.vreqLimit.toNat
      (fun v t => { t with pins := { t.pins with vreqLimit := BitVec.ofNat 32 v } })
  | 0x05 => cnt32 p.vreqTimeouts
  | 0x06 => roU16 (measured s 17 16)
  | _ => none

/-- Object 0x1102: tamper inputs and temperature. -/
def obj1102 (s : State) (sub : Nat) : Option Sub :=
  let p := s.pins
  match sub with
  | 0x01 => bits aRWL 1 0x3F 0xFF p.tamperEnable.toNat
      (sets (fun v t => { t with pins := { t.pins with tamperEnable := BitVec.ofNat 8 v } }))
  | 0x02 => roBits 1 p.tamperActive.toNat
  | 0x03 => roBits 1 p.tamperCause.toNat
  | 0x04 => roU16 (measured s 18 16)
  | 0x05 => roBits 3 p.meshFaultLine.toNat
  | _ => none

/-- Object 0x1200: the posture (Table 8-4). -/
def obj1200 (s : State) (sub : Nat) : Option Sub :=
  let t := s.tango
  match sub with
  | 0x01 => num aMGR 7 1 0 0 3 t.posture.code (fun v u => orRefused (u.writePosture v))
  | 0x02 => roEnum (b2n t.changing)
  | 0x03 => roU8 (sampleGroup t.posture.code) 1
  | 0x04 => roU16 720 720
  | 0x05 => cnt32 t.postureChanges
  | _ => none

/-- DOMAINS_POWERED (R630). -/
def domainsPowered (s : State) : Nat :=
  let links := b2n (s.lport 0).enable * 0x10 + b2n (s.lport 1).enable * 0x20
  match s.start.state with
  | .pavane => 0x40 + links
  | .scrap => links
  | _ => 0x4D + b2n (s.lanes.powered.getLsbD 8) * 2 + links

/-- Object 0x1201: power (Table 19-10). -/
def obj1201 (s : State) (sub : Nat) : Option Sub :=
  match sub with
  | 0x01 => roBits 1 (domainsPowered s) 0x7F
  | 0x02 => roU32 (measured s 14 32)
  | 0x03 => roU64 (measured s 15 64)
  | 0x04 => cnt64 s.ident.idleTime
  | _ => none

/-! ## Ring pairs, slices (Tables 2-12, 13-9, 17-6) -/

/-- A field of a ring pair that is written while DISABLED. -/
def ringField (s : State) (key type size dflt least most v : Nat) (f : Nat → Ring → Ring) : Option Sub :=
  num aRW type size dflt least most v
    (setsIf ((s.ring key).state == .disabled) (fun n t => t.onRing key (f n)))

/-- Sub-entry `f` of a ring pair (Table 2-12). -/
def ringSub (s : State) (key f : Nat) : Option Sub :=
  let r := s.ring key
  match f with
  | 0x0 => ringField s key 4 8 0 0 allOnes r.rqBase.toNat (fun v x => { x with rqBase := BitVec.ofNat 64 v })
  | 0x1 => ringField s key 1 1 4 4 16 r.rqLog2 (fun v x => { x with rqLog2 := v })
  | 0x2 => ringField s key 4 8 0 0 allOnes r.cqBase.toNat (fun v x => { x with cqBase := BitVec.ofNat 64 v })
  | 0x3 => ringField s key 1 1 4 4 16 r.cqLog2 (fun v x => { x with cqLog2 := v })
  | 0x4 => ringField s key 4 8 0 0 allOnes r.tailWordAddr.toNat (fun v x => { x with tailWordAddr := BitVec.ofNat 64 v })
  | 0x5 => ringField s key 7 1 0 0 2 r.orderClass.code (fun v x => { x with orderClass := OrderClass.ofCode v })
  | 0x6 => num aRW 5 1 0 0 1 (b2n r.enable) (sets (fun v t => if v = 1 then t.enablePair key else t.disablePair key))
  | 0x7 => ringField s key 4 8 0 0 allOnes r.notifyAddr.toNat (fun v x => { x with notifyAddr := BitVec.ofNat 64 v })
  | 0x8 => ringField s key 3 4 0 0 0xFFFFFFFF r.notifyData.toNat (fun v x => { x with notifyData := BitVec.ofNat 32 v })
  | 0x9 => ringField s key 2 2 1 0 0xFFFF r.coalCount (fun v x => { x with coalCount := v })
  | 0xA => ringField s key 2 2 0 0 0xFFFF r.coalTime (fun v x => { x with coalTime := v })
  | 0xB => ringField s key 1 1 1 1 16 r.fetchWeight (fun v x => { x with fetchWeight := v })
  | 0xC => roEnum r.state.code
  | 0xD => roU32 (r.faultCode + r.faultPos * 2 ^ 8)
  | 0xE => cnt64 r.completed
  | _ => roU32 (inFlight s key)

/-- The fault journal of a pair (Table 17-6): `f` 0 base, 1 depth, 2 next entry. -/
def journalSub (s : State) (key f : Nat) : Option Sub :=
  let r := s.ring key
  let free := (s.ring key).state == .disabled
  match f with
  | 0 =>
    numOk (fun v => v % 64 == 0) (num aMGR 4 8 0 0 allOnes r.journalBase.toNat
      (setsIf free (fun v t => t.onRing key (fun x => { x with journalBase := BitVec.ofNat 64 v }))))
  | 1 =>
    numOk (fun v => v == 0 || decide (4 ≤ v)) (num aMGR 1 1 0 0 12 r.journalLog2
      (setsIf free (fun v t => t.onRing key (fun x => { x with journalLog2 := v }))))
  | _ => roU16 r.journalNext

/-- The ring pairs and journals of an owner: sub-entries 0x20 to 0x9F and 0xA0 to 0xB7 (R115, R573). -/
def pairSub (s : State) (o sub : Nat) : Option Sub :=
  if 0x20 ≤ sub ∧ sub < 0xA0 then ringSub s (pairKey o (sub / 16 - 2)) (sub % 16)
  else if 0xA0 ≤ sub ∧ sub < 0xB8 then journalSub s (pairKey o (sub % 8)) ((sub - 0xA0) / 8)
  else none

/-- The result of a slice command (R463, R611). -/
def cmdResult (r : Option CmdStatus × State) : Nat × State :=
  match r.1 with
  | none => (0, r.2)
  | some .done => (0, r.2)
  | some .wrongState => (6, r.2)
  | some _ => (8, r.2)

/-- SLICE_CMD (Table 13-6). -/
def sliceCmd (n code : Nat) (s : State) : Nat × State :=
  match code with
  | 1 => cmdResult (s.sliceCreate n)
  | 2 => cmdResult (s.sliceQuiesce n)
  | 3 => cmdResult (s.sliceResume n)
  | 4 => cmdResult (s.sliceReset n .resetting)
  | _ => cmdResult (s.sliceReset n .removing)

/-- CMD_STATUS codes (R463). -/
def CmdStatus.code : CmdStatus → Nat
  | .done => 0
  | .busy => 1
  | .wrongState => 2
  | .pasidInvalid => 3
  | .pasidInUse => 4
  | .noRng => 5
  | .vault => 6

/-- PROM_STATE codes. -/
def PromState.code : PromState → Nat
  | .off => 0
  | .logging => 1
  | .swapping => 2
  | .lost => 3

/-- A field of the Promenade log that is written only while PROM_ENABLE is 0. -/
def promField (s : State) (n type size least most v : Nat) (f : Nat → Prom → Prom) : Option Sub :=
  num aMGR type size 0 least most v
    (setsIf (!(s.slice n).prom.enable) (fun k t => t.onSlice n (fun x => { x with prom := f k x.prom })))

/-- Sub-entries of slice `n` (Table 13-9). -/
def objSlice (s : State) (n sub : Nat) : Option Sub :=
  let x := s.slice n
  let p := x.prom
  let absent := x.state == .absent
  match sub with
  | 0x01 => roEnum x.state.code
  | 0x02 => num aMGR 3 4 0 0 0xFFFFFFFF x.pasid.toNat
      (setsIf absent (fun v t => t.onSlice n (fun y => { y with pasid := BitVec.ofNat 32 v })))
  | 0x03 => num aWO 7 1 0 1 5 0 (sliceCmd n)
  | 0x04 => roEnum x.cmdStatus.code
  | 0x05 => mgrEnum 0 1 (b2n x.cancelMode) (fun v t => t.onSlice n (fun y => { y with cancelMode := v == 1 }))
  | 0x06 => mgrU32 10000 10 10000000 x.quiesceLimit.toNat
      (fun v t => t.onSlice n (fun y => { y with quiesceLimit := BitVec.ofNat 32 v }))
  | 0x07 => num aMGR 1 1 8 0 8 x.ringPairs (setsIf absent (fun v t => t.onSlice n (fun y => { y with ringPairs := v })))
  | 0x08 => roU32 ((s.reqs.filter (fun e => e.2.owner == n && !e.2.recordIssued)).length)
  | 0x09 => cnt32 x.creations
  | 0x0A => cnt32 x.pageDrops
  | 0x0B => cnt32 x.escalations
  | 0x0C => mgrBool 0 p.enable (fun v t => t.writePromEnable n v)
  | 0x0D => numOk (fun v => v % 8 == 0) (promField s n 4 8 0 allOnes p.baseA.toNat (fun v q => { q with baseA := BitVec.ofNat 64 v }))
  | 0x0E => numOk (fun v => v % 8 == 0) (promField s n 4 8 0 allOnes p.baseB.toNat (fun v q => { q with baseB := BitVec.ofNat 64 v }))
  | 0x0F => numOk (fun v => v % 4096 == 0)
      (promField s n 4 8 0 allOnes p.windowBase.toNat (fun v q => { q with windowBase := BitVec.ofNat 64 v }))
  | 0x10 => promField s n 3 4 1 0xFFFFFFFF p.windowPages.toNat (fun v q => { q with windowPages := BitVec.ofNat 32 v })
  | 0x11 => roEnum (b2n p.activeB)
  | 0x12 => num aWO 5 1 0 0 1 0 (acts (fun t => orRefused (t.promSwap n)))
  | 0x13 => roBool p.swapDone
  | 0x14 => roEnum p.state.code
  | 0x15 => cnt64 p.outside
  | 0x16 => cnt64 p.bitsSet
  | _ => pairSub s n sub

/-- Object 0x2020: slice totals (Table 13-9). -/
def obj2020 (s : State) (sub : Nat) : Option Sub :=
  match sub with
  | 0x01 => roU16 512 512
  | 0x02 => num aRWL 3 4 0x100000 0 0x100000 s.slices.mgrPasid.toNat
      (sets (fun v t =>
        { t with
          slices := { t.slices with mgrPasid := BitVec.ofNat 21 v }
          keys := { t.keys with mgrPasid := BitVec.ofNat 21 v } }))
  | 0x03 => roU16 (present s).length
  | 0x04 => cnt32 s.slices.mgrPageDrops
  | _ => none

/-! ## Ordering and spread rings (Table 3-4) -/

/-- Object 0x2200. -/
def obj2200 (s : State) (sub : Nat) : Option Sub :=
  let o := s.order
  match sub with
  | 0x01 => roU32 600 600
  | 0x02 => mgrU32 100 10 100000 o.memberLossTime.toNat
      (fun v t => { t with order := { t.order with memberLossTime := BitVec.ofNat 32 v } })
  | 0x03 => roU16 8 8
  | 0x04 => cnt64 o.fenceHolds
  | 0x05 => cnt64 o.keyFenceHolds
  | 0x06 => cnt64 o.retryHolds
  | 0x07 => cnt64 o.nonceOrderHolds
  | _ => none

/-- SPREAD_STATE codes. -/
def SpreadState.code : SpreadState → Nat
  | .disabled => 0
  | .active => 1
  | .degraded => 2

/-- A field of spread entry `nn`, written while the pair it names is DISABLED (R156). -/
def spreadField (s : State) (nn type size dflt least most v : Nat) (f : Nat → Spread → Spread) : Option Sub :=
  num aRW type size dflt least most v
    (setsIf ((s.ring (s.spreadAt nn).key).state == .disabled) (fun k t => t.onSpread nn (f k)))

/-- Object 0x23nn. -/
def objSpread (s : State) (nn sub : Nat) : Option Sub :=
  let e := s.spreadAt nn
  let free := (s.ring e.key).state == .disabled
  match sub with
  | 0x01 => num aRW 5 1 0 0 1 (b2n e.enable) (setsIf free (fun v t => t.writeSpreadEnable nn (v == 1)))
  | 0x02 => spreadField s nn 2 2 0 0 511 e.slice (fun v x => { x with slice := v })
  | 0x03 => spreadField s nn 5 1 0 0 1 (b2n e.mgrRing) (fun v x => { x with mgrRing := v == 1 })
  | 0x04 => spreadField s nn 1 1 0 0 7 e.ring (fun v x => { x with ring := v })
  | 0x05 => spreadField s nn 1 1 1 1 8 e.memberCount (fun v x => { x with memberCount := v })
  | 0x06 => octetsSub aRW e.members (fun _ => true)
      (fun b t => if free then (0, t.onSpread nn (fun x => { x with members := b })) else (6, t))
  | 0x07 => spreadField s nn 2 2 256 16 4096 e.credits (fun v x => { x with credits := v })
  | 0x08 => roEnum e.state.code
  | 0x09 => cnt32 e.nextSseq
  | 0x0A => roBits 1 e.lost.toNat
  | 0x0B => cnt64 e.grantsSent
  | _ => none

/-! ## Access rules (Table 14-7) -/

/-- COMMIT_STATE codes. -/
def CommitState.code : CommitState → Nat
  | .idle => 0
  | .validating => 1
  | .waiting => 2

/-- Object 0x3000. -/
def obj3000 (s : State) (sub : Nat) : Option Sub :=
  let a := s.access
  match sub with
  | 0x01 => roU16 256 256
  | 0x02 => num aWO 5 1 0 0 1 0 (acts (fun t => orRefused t.ruleCommit))
  | 0x03 => roEnum a.commitState.code
  | 0x04 => roEnum a.commitStatus.code
  | 0x05 => cnt32 a.commitFault
  | 0x06 => cnt32 a.epochNow
  | 0x07 => roBool a.epochDrained 1
  | 0x08 => roU32 (oldOutstanding s)
  | 0x09 => mgrU32 1000 10 10000000 a.drainWarn.toNat
      (fun v t => { t with access := { t.access with drainWarn := BitVec.ofNat 32 v } })
  | 0x0A => cnt32 a.commits
  | 0x0B => cnt32 a.commitsRefused
  | _ => none

/-- Object 0x3001. -/
def obj3001 (s : State) (sub : Nat) : Option Sub :=
  let a := s.access
  match sub with
  | 0x05 => cnt64 a.deniedSlice
  | 0x06 => cnt64 a.deniedManager
  | 0x07 => cnt64 a.deniedService
  | 0x08 => cnt64 a.defaultPermits
  | 0x09 => cnt64 a.splits
  | n => if n ≤ 4 ∧ n ≠ 0 then cnt64 (Tab.get (fun _ => 0#64) a.deniedCh (n - 1)) else none

/-- Object 0x3002. -/
def obj3002 (s : State) (sub : Nat) : Option Sub :=
  match sub with
  | 0x01 => cnt64 s.access.lastDenialAddr
  | 0x02 => cnt64 s.access.lastDenialInfo
  | _ => none

/-- A write of the staged copy (R499). -/
def staged (f : Nat → State → State) (v : Nat) (s : State) : Nat × State :=
  if s.access.commitState = .idle then (0, f v s) else (8, s)

/-- A page address: [11:0] read as zero and are ignored on write (Table 14-2). -/
def pageAddr (v : Nat) : U64 := BitVec.ofNat 64 (v / 4096 * 4096)

/-- The owner set of a rule as 65 octets. -/
def ownerOctets (o : BitVec 513) : Bytes := leBytes 65 o.toNat

/-- Object 0x31rr: rule `r`, staged in 01 to 06 and in force in 11 to 16. -/
def objRule (s : State) (r sub : Nat) : Option Sub :=
  let x := Tab.get Rule.dflt s.access.staged r
  let y := Tab.get Rule.dflt s.access.inForce r
  let on (f : Nat → Rule → Rule) (v : Nat) (t : State) : State :=
    t.onAccess (fun a => { a with staged := Tab.upd Rule.dflt a.staged r (f v) })
  match sub with
  | 0x01 => num aMGR 5 1 0 0 1 (b2n x.enable) (staged (on (fun v z => { z with enable := v == 1 })))
  | 0x02 => num aMGR 4 8 0 0 allOnes x.base.toNat (staged (on (fun v z => { z with base := pageAddr v })))
  | 0x03 => num aMGR 4 8 0 0 allOnes x.limit.toNat (staged (on (fun v z => { z with limit := pageAddr v })))
  | 0x04 => octetsSub aMGR (ownerOctets x.owners) (fun b => decide (leNat b < 2 ^ 513))
      (fun b t => staged (on (fun v z => { z with owners := BitVec.ofNat 513 v })) (leNat b) t)
  | 0x05 => bits aMGR 1 0 3 x.perm.toNat (staged (on (fun v z => { z with perm := BitVec.ofNat 2 v })))
  | 0x06 => num aMGR 2 2 0 0 0xFFFF x.attr.toNat (staged (on (fun v z => { z with attr := BitVec.ofNat 16 v })))
  | 0x11 => roBool y.enable
  | 0x12 => roU64 y.base.toNat
  | 0x13 => roU64 y.limit.toNat
  | 0x14 => roOctets (ownerOctets y.owners)
  | 0x15 => roBits 1 y.perm.toNat
  | 0x16 => roU16 y.attr.toNat
  | _ => none

/-- Object 0x302w: window `w` of the default map, staged in 01 to 05 and in force in 11 to 15. -/
def objWindow (s : State) (w sub : Nat) : Option Sub :=
  let x := Tab.get Window.dflt s.access.stagedWin w
  let y := Tab.get Window.dflt s.access.winInForce w
  let d := Window.dflt w
  let on (f : Nat → Window → Window) (v : Nat) (t : State) : State :=
    t.onAccess (fun a => { a with stagedWin := Tab.upd Window.dflt a.stagedWin w (f v) })
  match sub with
  | 0x01 => num aMGR 5 1 (b2n d.enable) 0 1 (b2n x.enable) (staged (on (fun v z => { z with enable := v == 1 })))
  | 0x02 => num aMGR 4 8 0 0 allOnes x.base.toNat (staged (on (fun v z => { z with base := pageAddr v })))
  | 0x03 => num aMGR 4 8 d.limit.toNat 0 allOnes x.limit.toNat (staged (on (fun v z => { z with limit := pageAddr v })))
  | 0x04 => bits aMGR 1 d.perm.toNat 3 x.perm.toNat (staged (on (fun v z => { z with perm := BitVec.ofNat 2 v })))
  | 0x05 => num aMGR 2 2 d.attr.toNat 0 0xFFFF x.attr.toNat (staged (on (fun v z => { z with attr := BitVec.ofNat 16 v })))
  | 0x11 => roBool y.enable (b2n d.enable)
  | 0x12 => roU64 y.base.toNat
  | 0x13 => roU64 y.limit.toNat d.limit.toNat
  | 0x14 => roBits 1 y.perm.toNat d.perm.toNat
  | 0x15 => roU16 y.attr.toNat d.attr.toNat
  | _ => none

/-! ## Directory and line ports (Tables 7-9, 7-10) -/

/-- Object 0x4000. -/
def obj4000 (s : State) (sub : Nat) : Option Sub :=
  let d := s.dir
  match sub with
  | 0x01 => roU32 524288 524288
  | 0x02 => roU32 262144 262144
  | 0x03 => roU8 64 64
  | 0x04 => mgrU32 1000 100 60000 d.ageTick.toNat
      (fun v t => { t with dir := { t.dir with ageTick := BitVec.ofNat 32 v } })
  | 0x05 => roU8 d.tickNow.toNat
  | 0x06 => roU32 ((d.exact.filter (fun e => e.2.type != 0)).length)
  | 0x07 => roU32 d.prefixes.length
  | 0x08 => roU32 (prefixBytesFree d.prefixes) 5242880
  | _ => none

/-- Object 0x4001. -/
def obj4001 (s : State) (sub : Nat) : Option Sub :=
  let d := s.dir
  match sub with
  | 0x01 => cnt64 d.exactLookups
  | 0x02 => cnt64 d.exactMisses
  | 0x03 => cnt64 d.prefixLookups
  | 0x04 => cnt64 d.prefixMisses
  | 0x05 => cnt32 d.insertFull
  | 0x06 => cnt64 d.relocations
  | 0x07 => cnt64 d.agedOut
  | 0x08 => cnt64 d.ageSurvived
  | 0x09 => cnt32 d.poisonRemoved
  | _ => none

/-- Does a scope hold no exact entry and no prefix (R267)? -/
def scopeEmpty (s : State) (scope : Nat) : Bool :=
  !(s.dir.exact.any (fun e => e.2.type != 0 && e.2.scope == scope)) && !(s.dir.prefixes.any (fun p => p.scope == scope))

/-- Do two ports agree in what ports of one scope must share (R265)? -/
def portsAgree (a b : LinePort) : Bool :=
  decide (a.owner = b.owner ∧ a.espIndexed = b.espIndexed ∧ a.coldBase = b.coldBase ∧ a.coldCount = b.coldCount
    ∧ a.prefixSource = b.prefixSource)

/-- A write of OWNER, SCOPE or a scope-wide object of port `p` (R265, R267). -/
def scopeWide (p : Nat) (f : Nat → LinePort → LinePort) (v : Nat) (s : State) : Nat × State :=
  let old := s.linePort p
  let new := f v old
  if !(scopeEmpty s old.scope) || !(scopeEmpty s new.scope) then (6, s)
  else if (List.range 256).all (fun i =>
      i == p || (s.linePort i).scope != new.scope || portsAgree (s.linePort i) new) then
    (0, s.onLinePort p (f v))
  else (8, s)

/-- A setting of port `p` that its scope does not share. -/
def portSet (p : Nat) (f : Nat → LinePort → LinePort) : Nat → State → Nat × State :=
  sets (fun v t => t.onLinePort p (f v))

/-- Is an owner word one that names no reserved bit (Tables 5-9, 7-10)? -/
def ownerWordOk (v : Nat) : Bool := v == 0xFFFF || decide (v < 0x400)

/-- Object 0x41pp. -/
def objLinePort (s : State) (p sub : Nat) : Option Sub :=
  let l := s.linePort p
  match sub with
  | 0x01 => numOk ownerWordOk (num aMGR 2 2 0xFFFF 0 0xFFFF ((l.owner.map ownerWord).getD 0xFFFF)
      (scopeWide p (fun v x => { x with owner := ownerOf v })))
  | 0x02 => num aMGR 1 1 p 0 255 l.scope (scopeWide p (fun v x => { x with scope := v }))
  | 0x03 => num aMGR 5 1 0 0 1 (b2n l.espIndexed) (scopeWide p (fun v x => { x with espIndexed := v == 1 }))
  | 0x04 => numOk (fun v => v % 32 == 0)
      (num aMGR 4 8 0 0 allOnes l.coldBase.toNat (scopeWide p (fun v x => { x with coldBase := BitVec.ofNat 64 v })))
  | 0x05 => num aMGR 3 4 0 0 16777216 l.coldCount (scopeWide p (fun v x => { x with coldCount := v }))
  | 0x06 => octetsSub aMGR l.defaultSci (fun _ => true) (fun b t => (0, t.onLinePort p (fun x => { x with defaultSci := b })))
  | 0x07 => num aMGR 7 1 0 0 1 l.prefixSource (scopeWide p (fun v x => { x with prefixSource := v }))
  | 0x08 => num aMGR 5 1 0 0 1 (b2n l.learn) (portSet p (fun v x => { x with learn := v == 1 }))
  | 0x09 => numOk (fun v => v == 0xF0000000 || decide (v < 0x20000000))
      (num aMGR 3 4 0xF0000000 0 0xFFFFFFFF l.learnHandle.toNat (portSet p (fun v x => { x with learnHandle := BitVec.ofNat 32 v })))
  | 0x0A => num aMGR 3 4 0 0 524288 l.learnLimit (portSet p (fun v x => { x with learnLimit := v }))
  | 0x0B => num aMGR 7 1 0 0 1 (b2n l.flood) (portSet p (fun v x => { x with flood := v == 1 }))
  | 0x0C => num aMGR 5 1 0 0 1 (b2n l.moveAllow) (portSet p (fun v x => { x with moveAllow := v == 1 }))
  | 0x0D => num aMGR 1 1 4 2 254 l.holdDown (portSet p (fun v x => { x with holdDown := v }))
  | 0x0E => numOk (fun v => v != 1) (num aMGR 1 1 0 0 254 l.ageLimit (portSet p (fun v x => { x with ageLimit := v })))
  | 0x0F => roU32 l.learnedCount
  | 0x10 => roU16 (learnPending s p)
  | 0x11 => cnt64 l.learnDrops
  | 0x12 => cnt64 l.learnFloods
  | 0x13 => cnt64 l.learnDuplicates
  | 0x14 => cnt32 l.moves
  | 0x15 => cnt64 l.moveConflicts
  | 0x16 => cnt64 l.hits
  | 0x17 => cnt64 l.misses
  | _ => none

end Sys2Proof.Machine
end

