-- ==== Sys2Proof/Machine/ObjectsLink.lean ====
section
/-!
DEFINITION. The dictionary objects of the link, the events, the stores, the FIFO kinds and the start: the Outer ranges from
0x5000 (18 Tables 18-12 and 18-13, 20 Table 20-6, 15 Table 15-3, 12 Table 12-6, 17 Table 17-6).
-/
namespace Sys2Proof.Machine

/-! ## Link (Tables 18-12, 18-13) -/

/-- CASCADE_STATE codes. -/
def CascadeState.code : CascadeState → Nat
  | .standalone => 0
  | .forming => 1
  | .ring => 2
  | .wrapped => 3
  | .partitioned => 4

/-- PORT_STATE codes (Table 18-6). -/
def LinkState.code : LinkState → Nat
  | .down => 0
  | .lock => 1
  | .train => 2
  | .align => 3
  | .identify => 4
  | .up => 5
  | .failed => 6

/-- CASCADE_ROLE (R587): 0 STANDALONE, 1 HEAD, 2 MEMBER, 3 NOT_FIXED. -/
def cascadeRole (s : State) : Nat :=
  if s.link.cascadeSize = 1 then 0 else if s.pins.htEnabled then 1 else if s.link.isFixed then 2 else 3

/-- CASCADE_SIZE written (R591): with 1 both ports stay DOWN and the T9 is its own head; with more the ports may leave
DOWN. -/
def State.writeCascadeSize (s : State) (n : Nat) : State :=
  if n = s.link.cascadeSize then s
  else
    let s1 := s.onLink (fun l =>
      { l with cascadeSize := n, isFixed := s.pins.htEnabled || n == 1, instanceNo := 0
               state := if n = 1 then .standalone else .forming })
    if n = 1 then
      ([0, 1] : List Nat).foldl (fun t p =>
        t.onLport p (fun l => if l.state = .down ∨ l.state = .failed then l else { l.lose with relockDue := false })) s1
    else (s1.tryLock 0).tryLock 1

/-- PEER_IDS as octets. -/
def peerIdOctets (s : State) : Bytes :=
  ((List.range 64).map (fun i => cut (Tab.get (fun _ => zeros 48) s.link.peerIds i) 0 48)).flatten

/-- PEER_IDS from octets. -/
def peerIdTab (b : Bytes) : Tab Bytes :=
  (List.range 64).foldl (fun t i => Tab.set (fun _ => zeros 48) t i (cut b (48 * i) 48)) []

/-- Are three octets coefficients (R584): pre 0 to 8, post 0 to 16, main 32 less both? -/
def tapsOk (b : Bytes) : Bool :=
  let by_ (i : Nat) : Nat := (octet b i).toNat
  decide (by_ 0 ≤ 8 ∧ by_ 2 ≤ 16 ∧ by_ 0 + by_ 1 + by_ 2 = 32)

/-- Object 0x5000. -/
def obj5000 (s : State) (sub : Nat) : Option Sub :=
  let l := s.link
  match sub with
  | 0x01 => numOk (fun v => v == 1 || decide (16 ≤ v)) (num aRWL 1 1 1 1 64 l.cascadeSize (sets (fun v t => t.writeCascadeSize v)))
  | 0x02 => num aRWL 7 1 0 0 2 l.linkRate (sets (fun v t => t.onLink (fun x => { x with linkRate := v })))
  | 0x03 => octetsSub aRWL (peerIdOctets s) (fun _ => true) (fun b t => (0, t.onLink (fun x => { x with peerIds := peerIdTab b })))
  | 0x04 => roU8 (instanceRead s)
  | 0x05 => roEnum (cascadeRole s)
  | 0x06 => roEnum l.state.code
  | 0x07 => roBool l.roleSwapped
  | 0x08 => mgrU32 20 5 1000 l.e2eTime.toNat (fun v t => t.onLink (fun x => { x with e2eTime := BitVec.ofNat 32 v }))
  | 0x09 => mgrEnum 0 2 l.trainMode (fun v t => t.onLink (fun x => { x with trainMode := v }))
  | 0x0A => mgrU8 64 0 255 l.eyeMin (fun v t => t.onLink (fun x => { x with eyeMin := v }))
  | 0x0B => octetsSub aMGR l.txFixed tapsOk (fun b t => (0, t.onLink (fun x => { x with txFixed := b })))
  | 0x0C => roBits 8 (((List.range 64).map (fun i => b2n (Tab.has l.transportKeys i) * 2 ^ i)).sum)
  | _ => none

/-- Object 0x5001. -/
def obj5001 (s : State) (sub : Nat) : Option Sub :=
  let l := s.link
  match sub with
  | 0x01 => cnt64 l.msgTx
  | 0x02 => cnt64 l.msgRx
  | 0x03 => cnt64 l.forwarded
  | 0x04 => cnt64 l.e2eResends
  | 0x05 => cnt64 l.duplicatesDropped
  | 0x06 => cnt32 l.hopLimitDrops
  | 0x07 => cnt32 l.unknownKind
  | 0x08 => cnt64 l.eventsUnrouted
  | 0x09 => cnt64 l.doorbellsForwarded
  | 0x0A => cnt32 l.doorbellDrops
  | 0x0B => cnt32 l.restarts
  | 0x0C => cnt64 l.keyxSent
  | 0x0D => cnt32 l.keyxRefused
  | _ => none

/-- Object 0x5010 + i: what the cascade map holds for instance `i`; this instance's own identity is its own. -/
def objMap (s : State) (i sub : Nat) : Option Sub :=
  let x := s.peer i
  match sub with
  | 0x01 => roOctets (if i = s.link.instanceNo ∧ s.link.cascadeSize ≠ 1 then s.lc.deviceId else x.deviceId)
  | 0x02 => roEnum x.reach.toNat
  | 0x03 => roU8 x.hopsEast
  | 0x04 => roU8 x.hopsWest
  | 0x05 => roU16 x.pending.length
  | _ => none

/-- Object 0x510p. -/
def objLink (s : State) (p sub : Nat) : Option Sub :=
  let l := s.lport p
  match sub with
  | 0x01 => mgrBool 1 l.enable (fun v t => t.writePortEnable p v)
  | 0x02 => roEnum l.state.code
  | 0x03 => roEnum l.failCause
  | 0x04 => roEnum l.role p
  | 0x05 => roU8 l.peerInstance 0xFF
  | 0x06 => roEnum l.peerPort 0xFF
  | 0x07 => roU8 l.width
  | 0x08 => roEnum l.laneSet
  | 0x09 => roU32 (((List.range 8).map (fun i => l.laneStatus.getD i 0 % 16 * 2 ^ (4 * i))).sum)
  | 0x0A => roBits 1 l.polarity.toNat
  | 0x0B => roBool l.reversed
  | 0x0C => roOctets l.txCoeff
  | 0x0D => roOctets l.eye
  | 0x0E => roU16 l.hopDelay.toNat
  | 0x0F => cnt64 l.crcErrors
  | 0x10 => cnt64 l.replays
  | 0x11 => cnt64 l.framesTx
  | 0x12 => cnt64 l.framesRx
  | 0x13 => cnt32 l.downCount
  | _ => none

/-! ## Events (Table 20-6) -/

/-- Object 0x6000 + i: source `i`; a reserved source takes no MASK and no ROUTE (R631). -/
def objSource (s : State) (i sub : Nat) : Option Sub :=
  let x := s.source i
  let named := (severityOf i).isSome
  let on (f : Nat → Source → Source) (v : Nat) (t : State) : Nat × State :=
    (0, if named then t.onSource i (f v) else t)
  match sub with
  | 0x01 => num aRW 5 1 0 0 1 (b2n x.status) (fun v t =>
      if v = 1 then orRefused (t.forceEvent i) else (0, t.onSource i (fun y => { y with status := false })))
  | 0x02 => num aMGR 5 1 0 0 1 (b2n x.mask) (on (fun v y => { y with mask := v == 1 }))
  | 0x03 => roEnum ((severityOf i).map Severity.code |>.getD 0) ((severityOf i).map Severity.code |>.getD 0)
  | 0x04 => bits aMGR 2 (defaultRoute i).toNat 0x3FF x.route.toNat (on (fun v y => { y with route := BitVec.ofNat 10 v }))
  | 0x05 => cnt32 x.count
  | 0x06 => roU64 x.lastTime.toNat
  | 0x07 => roU64 (x.lastArg.toNat + x.lastInfo.toNat * 2 ^ 14)
  | 0x08 =>
    if i < 8 then roBool x.zeroise 1
    else if i < 0x0B then num aRWL 5 1 0 0 1 (b2n x.zeroise) (sets (fun v t => t.onSource i (fun y => { y with zeroise := v == 1 })))
    else none
  | _ => none

/-! ## Memory integrity (Table 15-3) -/

/-- ARRAY_BYTES of a store (Table 15-1): its lines of 64 data octets. -/
def arrayBytes (n : Nat) : Nat := 64 * storeLines n

/-- The objects of store `n` (R517, Table 15-3). -/
def objStore (s : State) (n sub : Nat) : Option Sub :=
  let x := s.store n
  let d := (Store.dflt n).scrubPeriod.toNat
  match sub with
  | 0x01 => roU32 (arrayBytes n) (arrayBytes n)
  | 0x02 =>
    if n = 0 then roU32 x.scrubPeriod.toNat d
    else mgrU32 d 100 60000 x.scrubPeriod.toNat (fun v t => t.onStore n (fun y => { y with scrubPeriod := BitVec.ofNat 32 v }))
  | 0x03 => cnt64 x.scrubPasses
  | 0x04 => cnt64 x.corrected
  | 0x05 => cnt64 x.rebuilt
  | 0x06 => cnt32 x.miscorrections
  | 0x07 => cnt32 x.uncorrectable
  | 0x08 => mgrU32 1000 0 0xFFFFFFFF x.correctedLevel.toNat
      (fun v t => t.onStore n (fun y => { y with correctedLevel := BitVec.ofNat 32 v }))
  | 0x09 => cnt64 x.lastError
  | 0x0A => cnt32 x.repeats
  | _ => none

/-- Object 0x8000. -/
def obj8000 (s : State) (sub : Nat) : Option Sub :=
  match sub with
  | 0x01 => cnt32 s.memory.trieDamage
  | 0x02 => cnt64 s.memory.trieDamageAddr
  | 0x03 => cnt32 s.memory.learnRecounts
  | _ => none

/-! ## FIFO kinds (Table 12-6) -/

/-- INSTANCES of a kind (Table 12-5); kind 5 has 24 in all. -/
def fifoInstances (k : Nat) : Nat := ([513, 513, 512, 512, 1, 24] : List Nat).getD k 0

/-- DEPTH of a kind; the instances of kind 5 differ, and the specification does not say which depth it reports (log entry
20). -/
def fifoDepthOf (k : Nat) : Nat := if k < 5 then fifoDepth k else Config.free 19 0 % 65536

/-- LEVEL_PENDING of a kind (R449): bit by owner. -/
def levelPending (s : State) (k : Nat) : Bytes :=
  let up (t : Tab Fifo) : Nat := ((t.filter (fun e => e.2.aboveLevel)).map (fun e => 2 ^ e.1)).sum
  leBytes 65
    (match k with
    | 0 => up s.fifos.pke
    | 2 => up s.fifos.toManager
    | 3 => up s.fifos.toSlice
    | _ => b2n s.fifos.events.aboveLevel * 2 ^ 512)

/-- Object 0x8080 + k; the event logic's own sub-entries stand in kind 4 (Table 20-6). -/
def objFifo (s : State) (k sub : Nat) : Option Sub :=
  let x := Tab.get FifoKind.dflt s.fifos.kinds k
  let e := s.events
  match sub with
  | 0x01 => roU16 (fifoInstances k) (fifoInstances k)
  | 0x02 => roU16 (fifoDepthOf k) (fifoDepthOf k)
  | 0x03 => cnt64 x.corrected
  | 0x04 => cnt64 x.uncorrectable
  | 0x05 => if k = 1 ∨ k = 5 then none else roOctets (levelPending s k)
  | 0x06 => if k = 4 then cnt32 x.marksLost else none
  | 0x07 => if k = 4 then cnt64 x.lossyDiscards else none
  | 0x08 => if k = 2 ∨ k = 3 then cnt64 x.sendDropsTotal else none
  | 0x10 => if k = 4 then cnt64 e.accepted else none
  | 0x11 => if k = 4 then cnt32 e.forcedCount else none
  | 0x12 => if k = 4 then cnt64 e.sent else none
  | 0x13 => if k = 4 then cnt64 e.received else none
  | 0x14 =>
    if k = 4 then
      bits aMGR 2 0x100 0x1FF e.remoteRoute.toNat
        (sets (fun v t => { t with events := { t.events with remoteRoute := BitVec.ofNat 9 v } }))
    else none
  | 0x15 => if k = 4 then cnt32 e.zeroising else none
  | _ => none

/-! ## Start and recovery (Table 17-6) -/

/-- START_STATE codes. -/
def StartState.code : StartState → Nat
  | .lcDecode => 0
  | .selfTest => 1
  | .callerLoad => 2
  | .running => 3
  | .startHalt => 4
  | .pavane => 5
  | .tamperHold => 6
  | .tamperWait => 7
  | .scrap => 8
  | .resetting => 9

/-- LAST_RESET_KIND codes. -/
def ResetKind.code : ResetKind → Nat
  | .powerOn => 0
  | .pin => 1
  | .immediate => 2
  | .orderly => 3

/-- A change of the start's own objects. -/
def State.onStart (s : State) (f : Start → Start) : State := { s with start := f s.start }

/-- Object 0x9000. The straps of a reset that the dictionary starts are as the last release sampled them (log entry 21). -/
def obj9000 (s : State) (sub : Nat) : Option Sub :=
  let x := s.start
  match sub with
  | 0x01 => num aMGR 7 1 0 1 2 (b2n (x.state == .resetting || x.orderlyWaitsLc)) (fun v t =>
      if v = 1 then (0, t.orderly) else (resets, t.reboot .immediate (heldStraps t)))
  | 0x02 => mgrU32 10000 10 10000000 x.drainLimit.toNat (fun v t => t.onStart (fun y => { y with drainLimit := BitVec.ofNat 32 v }))
  | 0x03 => roEnum x.state.code
  | 0x04 => roEnum x.lastReset.code
  | 0x05 => cnt32 x.startTime
  | _ => none

/-- Object 0x9001. -/
def obj9001 (s : State) (sub : Nat) : Option Sub :=
  let x := s.start
  match sub with
  | 0x01 => roU8 x.failedStarts
  | 0x02 => roEnum x.failReason
  | 0x03 => cnt32 x.failDetail
  | 0x04 => cnt32 x.failHistory
  | 0x05 => num aRWL 3 4 100 0 60000 x.retryTime.toNat (sets (fun v t => t.onStart (fun y => { y with retryTime := BitVec.ofNat 32 v })))
  | 0x06 => cnt32 x.vaultRepairs
  | _ => none

/-- Object 0x9002. -/
def obj9002 (s : State) (sub : Nat) : Option Sub :=
  let x := s.start
  match sub with
  | 0x01 => num aRWL 4 8 0 0 allOnes x.recoveryImageAddr.toNat
      (sets (fun v t => t.onStart (fun y => { y with recoveryImageAddr := BitVec.ofNat 64 v })))
  | 0x02 => bits aRW 2 0 0x1E x.testsPassed (fun v t => ((if (t.rerunTests v).1 then 0 else 6), (t.rerunTests v).2))
  | 0x03 => num aWO 5 1 0 0 1 0 (acts (fun t =>
      if (t.pavaneExit (heldStraps t)).1 then (resets, (t.pavaneExit (heldStraps t)).2) else (8, t)))
  | _ => none

/-- Object 0x9003. -/
def obj9003 (s : State) (sub : Nat) : Option Sub :=
  let x := s.start
  match sub with
  | 0x01 => num aRWL 5 1 0 0 1 (b2n x.tamperVaultErase) (sets (fun v t => t.onStart (fun y => { y with tamperVaultErase := v == 1 })))
  | 0x02 => cnt32 x.tamperAlarms
  | 0x03 => roU16 x.zeroiseTime.toNat
  | _ => none

/-- Object 0x9004. -/
def obj9004 (s : State) (sub : Nat) : Option Sub :=
  match sub with
  | 0x01 => cnt64 s.start.journalLost
  | 0x02 => cnt64 s.port.portErrors
  | _ => none

end Sys2Proof.Machine
end

