-- ==== Sys2Proof/Machine/ObjectsMyeno.lean ====
section
/-!
DEFINITION. The dictionary objects of the Myeno ranges, 0x7000 to 0x76FF (chapters 4 to 6, 8 to 11, 15 and 16).
-/
namespace Sys2Proof.Machine

/-! ## Life cycle, debug, identity (Tables 16-4, 16-8, 16-10) -/

/-- DEV_ROOT_BANK and PROD_ROOT_BANK: 0 none, 1 bank A, 2 bank B, 3 both spoilt. -/
def rootBankCode (s : State) (r : Nat) : Nat :=
  match rootBank s r 0, rootBank s r 1 with
  | .valid _, _ => 1
  | _, .valid _ => 2
  | .spoilt, .spoilt => 3
  | _, _ => 0

/-- LC_REQUEST written (R529, R611): WRONG_STATE for a transition that the state does not permit, else REFUSED. -/
def lcWrite (code : Nat) (s : State) : Nat × State :=
  let r := s.lcRequest code
  (if r.1 then 0 else if r.2.lc.status = 3 then 6 else 8, r.2)

/-- Object 0x7000. -/
def obj7000 (s : State) (sub : Nat) : Option Sub :=
  let l := s.lc
  match sub with
  | 0x01 => roEnum l.state.code
  | 0x02 => num aMGR 7 1 0 1 7 l.request lcWrite
  | 0x03 => roEnum l.status
  | 0x04 => roEnum l.pending 0xFF
  | 0x05 => roBool l.interrupted
  | 0x06 => roEnum l.interruptedTarget 0xFF
  | 0x07 => cnt32 l.votes
  | 0x08 => octetsSub aWOS (zeros 16) (fun _ => true) (fun b t => (0, t.onLc (fun x => { x with token := b })))
  | 0x09 => roBits 2 (((List.range 16).map (fun i => b2n (tokenBurned s (i + 1)) * 2 ^ i)).sum)
  | 0x0A => roU8 (min 255 l.tokenFails.toNat)
  | 0x0B => roEnum (rootBankCode s 0)
  | 0x0C => roEnum (rootBankCode s 1)
  | _ => none

/-- Object 0x7001. DEBUG_CERT is not readable: its access reads as MGR and a READ of it ends with WRITE_ONLY (log entry 22). -/
def obj7001 (s : State) (sub : Nat) : Option Sub :=
  let l := s.lc
  match sub with
  | 0x01 => mgrBool 0 false (fun v t => if v then t.debugNonceReq else t)
  | 0x02 => roOctets l.debugNonce
  | 0x03 => some
      { type := 9, access := aMGR, size := l.debugCert.length, dflt := 0, least := 0, most := 0, val := []
        ok := fun _ => true, put := fun b t => (0, t.onLc (fun x => { x with debugCert := b })) }
  | 0x04 => num aWO 5 1 0 0 1 0 (acts (fun t => orRefused t.debugSubmit))
  | 0x05 => roEnum l.debugStatus
  | 0x06 => roBits 4 l.debugRights.toNat
  | 0x07 => num aWO 5 1 0 0 1 0 (acts (fun t => (0, t.setRights 0)))
  | 0x08 => cnt32 l.debugCounter
  | 0x09 => num aWO 5 1 0 0 1 0 (acts (fun t => (0, t.debugRevoke)))
  | 0x0A => octetsSub aRWL l.debugAuthHashes (fun _ => true) (fun b t =>
      if t.lc.debugAuthHashes = zeros 96 then (0, t.onLc (fun x => { x with debugAuthHashes := b })) else (8, t))
  | 0x0B => cnt32 l.certsAccepted
  | 0x0C => cnt32 l.certsRefused
  | _ => none

/-- Object 0x7002. -/
def obj7002 (s : State) (sub : Nat) : Option Sub :=
  let l := s.lc
  match sub with
  | 0x01 => roOctets l.deviceId
  | 0x02 => roDomain l.deviceIdPub
  | 0x03 => roDomain l.aliasCert
  | 0x04 => octetsSub aMGR l.attestChallenge (fun _ => true) (fun b t => (0, t.onLc (fun x => { x with attestChallenge := b })))
  | 0x05 => mgrU16 0xFFFF 0 0xFFFF l.attestSlice.toNat (fun v t => t.onLc (fun x => { x with attestSlice := BitVec.ofNat 16 v }))
  | 0x06 => num aWO 5 1 0 0 1 0 (acts (fun t => orRefused t.attestRequest))
  | 0x07 => roEnum l.attestState
  | 0x08 => roDomain l.attestReport
  | 0x09 => cnt32 l.reportCount
  | _ => none

/-! ## Keys (Tables 5-9, 6-8) -/

/-- ALLOT_STATUS codes. -/
def AllotStatus.code : AllotStatus → Nat
  | .done => 0
  | .busy => 1
  | .range => 2
  | .notEmpty => 3
  | .coldRange => 4

/-- QUERY_RESULT (Table 5-9); a POISONED slot shows its state alone (15 R513). -/
def queryResult (x : Slot) : Nat :=
  if x.state = .poisoned then 4
  else x.state.code + x.gen.toNat * 2 ^ 4 + x.ownerField * 2 ^ 16 + x.transform * 2 ^ 32 + x.attr * 2 ^ 40

/-- Slots in the states that `p` accepts. -/
def slotsIn (s : State) (p : SlotState → Bool) : Nat := (s.keys.slots.filter (fun e => p e.2.state)).length

/-- Object 0x7100. -/
def obj7100 (s : State) (sub : Nat) : Option Sub :=
  let k := s.keys
  match sub with
  | 0x01 => roU32 65536 65536
  | 0x02 => roU16 256 256
  | 0x03 => cnt32 s.start.bootEpoch
  | 0x04 => cnt64 k.wrapCount
  | 0x05 => roBits 2 2 2
  | 0x06 =>
    numOk (fun v => v == 0 || (List.range 14).any (fun i => v == 2 ^ i))
      (num aMGR 3 4 0 0 8192 k.coldCacheSlots (fun v t =>
        let t1 := nextOf t (execColdCacheSlots (BitVec.ofNat 32 v) t)
        if t1.keys.coldCacheSlots = v then (0, t1) else (6, t)))
  | 0x07 => mgrU32 10000 100 100000 k.eraseLimit.toNat (fun v t => t.onKeys (fun x => { x with eraseLimit := BitVec.ofNat 32 v }))
  | _ => none

/-- Object 0x7101. -/
def obj7101 (s : State) (sub : Nat) : Option Sub :=
  let k := s.keys
  match sub with
  | 0x01 => numOk ownerWordOk
      (mgrU16 0xFFFF 0 0xFFFF k.allotOwner.toNat (fun v t => t.onKeys (fun x => { x with allotOwner := BitVec.ofNat 16 v })))
  | 0x02 => mgrU16 0 0 0xFFFF k.allotBase.toNat (fun v t => t.onKeys (fun x => { x with allotBase := BitVec.ofNat 16 v }))
  | 0x03 => mgrU32 0 1 65536 k.allotCount.toNat (fun v t => t.onKeys (fun x => { x with allotCount := BitVec.ofNat 32 v }))
  | 0x04 => num aWO 5 1 0 0 1 0 (acts (fun t =>
      let t1 := nextOf t (execAllotCommit t)
      (if t1.keys.allotStatus = .done then 0 else 8, t1)))
  | 0x05 => roEnum k.allotStatus.code
  | _ => none

/-- Do the QUERY entries of Table 6-8 read zero for the slot (R264)? -/
def queryZero (x : Slot) : Bool := x.state == .empty || x.state == .erased || x.state == .window

/-- Object 0x7102: the slot that QUERY_SLOT names. -/
def obj7102 (s : State) (sub : Nat) : Option Sub :=
  let x := s.slot s.keys.querySlot.toNat
  let y := if queryZero x then Slot.dflt 0 else x
  match sub with
  | 0x01 => mgrU16 0 0 0xFFFF s.keys.querySlot.toNat (fun v t => t.onKeys (fun k => { k with querySlot := BitVec.ofNat 16 v }))
  | 0x02 => roU64 (queryResult x)
  | 0x03 => cnt64 y.counter
  | 0x04 => cnt64 y.soft
  | 0x05 => cnt64 y.hard
  | 0x06 => roU16 y.pairField
  | _ => none

/-- Object 0x7103. -/
def obj7103 (s : State) (sub : Nat) : Option Sub :=
  let k := s.keys
  match sub with
  | 0x01 => cnt64 k.windowLoads
  | 0x02 => cnt64 k.wrappedLoads
  | 0x03 => cnt64 k.keyGens
  | 0x04 => cnt64 k.exports
  | 0x05 => cnt64 k.erasesDone
  | 0x06 => cnt64 k.eraseLimitHits
  | 0x07 => cnt64 k.stale
  | 0x08 => cnt64 k.notOwned
  | 0x09 => cnt64 k.absent
  | 0x0A => cnt64 k.poisonedRequests
  | 0x0B => cnt32 k.checkFails
  | 0x0C => cnt32 k.kwPasidDrops
  | 0x0D => cnt64 k.coldHits
  | 0x0E => cnt64 k.coldUnwraps
  | 0x0F => cnt64 k.coldUnwrapFails
  | _ => none

/-- Object 0x7104. -/
def obj7104 (s : State) (sub : Nat) : Option Sub :=
  match sub with
  | 0x01 => roU32 (slotsIn s (fun x => x == .loaded || x == .exhausted))
  | 0x02 => roU32 (slotsIn s (· == .erasing))
  | 0x03 => roU32 (slotsIn s (· == .poisoned))
  | 0x04 => roU32 (slotsIn s (· == .window))
  | 0x05 => roU32 (65536 - s.keys.coldCacheSlots - (s.keys.slots.filter (fun e => e.2.owner.isSome)).length) 65536
  | _ => none

/-- Object 0x7105. -/
def obj7105 (s : State) (sub : Nat) : Option Sub :=
  let k := s.keys
  match sub with
  | 0x01 => roU64 allOnes allOnes
  | 0x02 => roU8 16 16
  | 0x03 => cnt64 k.valuesTaken
  | 0x04 => cnt64 k.valuesBurned
  | 0x05 => cnt32 k.softCrossings
  | 0x06 => cnt32 k.exhaustions
  | 0x07 => cnt64 k.exhaustedRequests
  | 0x08 => cnt64 k.wireLimitRefusals
  | 0x09 => cnt32 k.manualRolls
  | 0x0A => cnt32 k.autoRolls
  | 0x0B => cnt32 k.rollsNotReady
  | 0x0C => roU16 ((k.slots.filter (fun e => e.2.paired)).length / 2)
  | _ => none

/-! ## Random number service (Table 11-6) -/

/-- SOURCE_ROLE codes. -/
def SourceRole.code : SourceRole → Nat
  | .inUse => 0
  | .spare => 1
  | .failed => 2

/-- Object 0x7200. -/
def obj7200 (s : State) (sub : Nat) : Option Sub :=
  let r := s.rng
  match sub with
  | 0x01 => roEnum (rngCode s)
  | 0x02 => roEnum r.stopCause
  | 0x03 => mgrEnum 0 1 (b2n r.compat) (fun v t => nextOf t (execRngFailMode (v == 1) t))
  | 0x04 => num aMGR 5 1 0 0 1 (b2n r.rawMode) (fun v t => orRefused (t.writeRawMode (v == 1)))
  | 0x05 => mgrU8 0 0 3 r.rawSource (fun v t => t.onRng (fun x => { x with rawSource := v }))
  | 0x06 => num aRWL 2 2 64 1 1024 r.reseedInterval (sets (fun v t => t.onRng (fun x => { x with reseedInterval := v })))
  | 0x07 => cnt32 r.firstRelease
  | _ => none

/-- Object 0x7201. -/
def obj7201 (sub : Nat) : Option Sub :=
  match sub with
  | 0x01 => roU16 500 500
  | 0x02 => roU8 41 41
  | 0x03 => roU16 1024 1024
  | 0x04 => roU16 793 793
  | 0x05 => roU16 250 250
  | 0x06 => roU16 20 20
  | 0x07 => roU8 64 64
  | _ => none

/-- Object 0x7202. -/
def obj7202 (s : State) (sub : Nat) : Option Sub :=
  let r := s.rng
  match sub with
  | 0x01 => cnt64 r.blocks
  | 0x02 => cnt64 r.generateCalls
  | 0x03 => cnt64 r.reseeds
  | 0x04 => cnt64 r.reseedWaits
  | 0x05 => cnt64 r.internalBits
  | 0x06 => cnt64 r.portWords
  | 0x07 => cnt64 r.fillBytes
  | 0x08 => cnt64 r.unavailable
  | 0x09 => cnt32 r.sourceSwitches
  | 0x0A => cnt32 r.drbgMismatches
  | 0x0B => cnt32 r.rawRuns
  | _ => none

/-- Object 0x7210 + n: noise source `n`. -/
def objNoise (s : State) (n sub : Nat) : Option Sub :=
  let x := s.noise n
  match sub with
  | 0x01 => roEnum x.role.code (if n < 2 then 0 else 1)
  | 0x02 => roBool x.passed
  | 0x03 => cnt32 x.rctFails
  | 0x04 => cnt32 x.aptFails
  | 0x05 => roU8 (min 255 x.longestRun)
  | 0x06 => roU16 x.aptMax
  | 0x07 => cnt64 x.samples
  | _ => none

/-! ## Public-key engines and digest units (Tables 10-13, 9-11) -/

/-- State codes of units and engines. -/
def UnitState.code : UnitState → Nat
  | .off => 0
  | .idle => 1
  | .active => 2
  | .draining => 3
  | .outOfService => 4

/-- CALLER_STATE codes (Table 10-3). -/
def CallerState.code : CallerState → Nat
  | .off => 0
  | .verifying => 1
  | .ready => 2
  | .recovering => 3
  | .faulted => 4
  | .recoveryImage => 5

/-- Mismatches of a unit in the current window (LANE_FAULT_WINDOW). -/
def mismatches (s : State) (l : List (BitVec 48)) : Nat := (within s.now s.tango.laneFaultWindow.toNat l).length

/-- Object 0x7300. -/
def obj7300 (s : State) (sub : Nat) : Option Sub :=
  let p := s.pke
  match sub with
  | 0x01 => roU8 4 4
  | 0x02 => roU8 4 4
  | 0x03 => roU32 65536 65536
  | 0x04 => bits aMGR 1 0xF 0xF p.enable.toNat (fun v t =>
      if v = 0 then (8, t)
      else (0, (List.range 4).foldl State.engineSettle { t with pke := { t.pke with enable := BitVec.ofNat 4 v } }))
  | 0x05 => bits aWO 1 0 0xF 0 (sets (fun v t => nextOf t (execEngineRetest (BitVec.ofNat 4 v) t)))
  | 0x06 => roBits 1 p.retestFailed.toNat
  | 0x07 => mgrU8 16 1 255 p.starveLimit (fun v t => { t with pke := { t.pke with starveLimit := v } })
  | 0x08 => roU16 1024 1024
  | 0x09 => roU16 (measured s 13 16)
  | 0x0A => roU16 512 512
  | 0x0B => roU16 256 256
  | _ => none

/-- Object 0x7301. -/
def obj7301 (s : State) (sub : Nat) : Option Sub :=
  let p := s.pke
  match sub with
  | 0x01 => roEnum p.caller.code
  | 0x02 => num aRWL 4 8 0 0 allOnes p.callerImageAddr.toNat
      (sets (fun v t => { t with pke := { t.pke with callerImageAddr := BitVec.ofNat 64 v } }))
  | 0x03 => cnt64 p.routineSet
  | 0x04 => roBool p.imageSigned
  | 0x05 => roOctets p.vendorKeyHashes
  | 0x06 => cnt32 p.lockstepFaults
  | 0x07 => mgrU8 3 1 15 p.lockstepLimit (fun v t => { t with pke := { t.pke with lockstepLimit := v } })
  | _ => none

/-- Object 0x7302. -/
def obj7302 (s : State) (sub : Nat) : Option Sub :=
  let p := s.pke
  match sub with
  | 0x01 => cnt64 p.jobs
  | 0x02 => cnt64 p.rejects
  | 0x03 => cnt32 p.invariantFails
  | 0x04 => cnt64 p.yields
  | 0x05 => cnt64 p.starveGrants
  | 0x06 => cnt64 p.restarts
  | 0x07 => cnt64 p.waits
  | 0x08 => cnt64 p.targetLoads
  | 0x09 => cnt32 p.targetStale
  | 0x0A => cnt64 p.mldsaIterations
  | 0x0B => cnt32 p.samplerExtensions
  | _ => none

/-- Object 0x7310 + e. -/
def objEngine (s : State) (e sub : Nat) : Option Sub :=
  let x := s.engineAt e
  match sub with
  | 0x01 => roEnum x.state.code 1
  | 0x02 => roU8 x.jobs.length
  | 0x03 => roU32 x.left
  | 0x04 => cnt64 x.steps
  | 0x05 => roU32 (mismatches s x.recent)
  | _ => none

/-- Object 0x7400. -/
def obj7400 (s : State) (sub : Nat) : Option Sub :=
  let d := s.digest
  match sub with
  | 0x01 => roU8 8 8
  | 0x02 => roBits 2 0x03EE 0x03EE
  | 0x03 => roU8 32 32
  | 0x04 => roU32 65536 65536
  | 0x05 => bits aMGR 1 0xFF 0xFF d.enable.toNat (fun v t =>
      if v = 0 then (8, t)
      else (0, (List.range 8).foldl State.unitSettle { t with digest := { t.digest with enable := BitVec.ofNat 8 v } }))
  | 0x06 => bits aWO 1 0 0xFF 0 (sets (fun v t => nextOf t (execUnitRetest (BitVec.ofNat 8 v) t)))
  | 0x07 => roBits 1 d.retestFailed.toNat
  | _ => none

/-- Object 0x7401. -/
def obj7401 (s : State) (sub : Nat) : Option Sub :=
  let d := s.digest
  match sub with
  | 0x01 => cnt64 d.requests
  | 0x02 => cnt64 d.direct
  | 0x03 => cnt64 d.internalBlocks
  | 0x04 => cnt64 d.equal
  | 0x05 => cnt64 d.notEqual
  | 0x06 => cnt64 d.silentRestarts
  | 0x07 => cnt32 d.overruns
  | 0x08 => cnt32 d.noContext
  | 0x09 => cnt64 d.saved
  | 0x0A => cnt64 d.resumed
  | 0x0B => cnt32 d.refused
  | 0x0C => cnt64 d.mismatches
  | 0x0D => cnt64 d.recomputations
  | _ => none

/-- Object 0x7410 + u. -/
def objUnit (s : State) (u sub : Nat) : Option Sub :=
  let x := s.unitAt u
  match sub with
  | 0x01 => roEnum x.state.code 1
  | 0x02 => roU8 (x.ctxs.length + b2n x.internal.isSome)
  | 0x03 => cnt64 x.blocks
  | 0x04 => roU32 (mismatches s x.recent)
  | _ => none

/-! ## Lanes, Tango, pacing (Tables 4-15, 8-4) -/

/-- LANE_STATE codes. -/
def LaneState.code : LaneState → Nat
  | .off => 0
  | .idle => 1
  | .active => 2
  | .draining => 3
  | .outOfService => 4

/-- Object 0x7500. -/
def obj7500 (s : State) (sub : Nat) : Option Sub :=
  let l := s.lanes
  match sub with
  | 0x01 => roBits 2 0xFFFF 0xFFFF
  | 0x02 => roBits 2 0x000F 0x000F
  | 0x03 => numOk (fun v => v % 16 != 0) (bits aMGR 2 0xFFFF 0xFFFF l.enable.toNat
      (sets (fun v t => ({ t with lanes := { t.lanes with enable := BitVec.ofNat 16 v } } : State).lanesSettle)))
  | 0x04 => roBits 2 l.powered.toNat 0xFFFF
  | 0x05 => roU8 8 8
  | 0x06 => roU32 4096 4096
  | 0x07 => mgrU16 16 2 256 l.stageCap (fun v t => { t with lanes := { t.lanes with stageCap := v } })
  | 0x08 => numOk (fun v => v % 4096 == 0)
      (mgrU32 16384 0 65536 l.holdLimit (fun v t => { t with lanes := { t.lanes with holdLimit := v } }))
  | 0x09 => roBits 2 0x0FFE 0x0FFE
  | 0x0A => roBits 2 0xFE 0xFE
  | 0x0B => roBool (inDevelop s)
  | _ => none

/-- Object 0x7501. -/
def obj7501 (s : State) (sub : Nat) : Option Sub :=
  let l := s.lanes
  match sub with
  | 0x01 => cnt64 l.dispatched
  | 0x02 => cnt64 l.segments
  | 0x03 => cnt64 l.contextMoves
  | 0x04 => cnt64 l.dispatchWaits
  | 0x05 => cnt64 l.heldOpens
  | 0x06 => cnt64 l.streamedOpens
  | 0x07 => cnt64 l.tagFails
  | 0x08 => cnt64 l.replayDuplicate
  | 0x09 => cnt64 l.replayOld
  | 0x0A => cnt64 l.replayCommitLost
  | 0x0B => roU16 (stagingInUse s)
  | 0x0C => roU16 (stagingHeld s)
  | _ => none

/-- Object 0x7510 + n. -/
def objLane (s : State) (n sub : Nat) : Option Sub :=
  let x := s.lane n
  match sub with
  | 0x01 => roEnum x.state.code 1
  | 0x02 => roBits 1 (if n < 4 then 7 else 5) (if n < 4 then 7 else 5)
  | 0x03 => roU8 x.ctxs.length
  | 0x04 => roU32 (laneRemaining s n)
  | 0x05 => cnt64 x.blocks
  | 0x06 => cnt64 x.activeTime
  | 0x07 => roEnum x.cause
  | 0x08 => roU32 (mismatches s x.recent)
  | _ => none

/-- Object 0x7520. -/
def obj7520 (s : State) (sub : Nat) : Option Sub :=
  let t := s.tango
  match sub with
  | 0x01 => cnt64 t.mismatches
  | 0x02 => cnt64 t.recomputations
  | 0x03 => cnt64 t.recomputedOk
  | 0x04 => cnt64 t.retryReleased
  | 0x05 => cnt64 t.retryNoLane
  | 0x06 => mgrU8 3 1 255 t.laneFaultLimit (fun v u => { u with tango := { u.tango with laneFaultLimit := v } })
  | 0x07 => mgrU32 1000 1 3600000 t.laneFaultWindow.toNat
      (fun v u => { u with tango := { u.tango with laneFaultWindow := BitVec.ofNat 32 v } })
  | 0x08 => bits aWO 2 0 0xFFFF 0 (sets (fun v u => nextOf u (execLaneRetest (BitVec.ofNat 16 v) u)))
  | 0x09 => roBits 2 (((List.range 16).map (fun n => b2n (s.lane n).retestFailed * 2 ^ n)).sum)
  | 0x0A => cnt64 t.comparedBlocks
  | 0x0B => cnt64 t.uncomparedBlocks
  | 0x0C => cnt64 t.fillBlocks
  | _ => none

/-- Object 0x7530. -/
def obj7530 (s : State) (sub : Nat) : Option Sub :=
  match sub with
  | 0x01 => roU16 (measured s 11 16)
  | 0x02 => roU16 (measured s 12 16)
  | 0x03 => roU8 s.tango.paceMargin
  | 0x04 => cnt64 s.tango.paceLate
  | _ => none

/-! ## Injection (Table 15-3) -/

/-- Object 0x7600. ECC_INJECT reads 1 while an injection is armed and has not been made (log entry 22). -/
def obj7600 (s : State) (sub : Nat) : Option Sub :=
  let m := s.memory
  match sub with
  | 0x01 => num aMGR 5 1 0 0 1 (b2n (m.damages.any (fun d => !d.landed s))) (acts (fun t => orRefused t.eccInject))
  | 0x02 => numOk (fun v => (storeOf v).isSome)
      (mgrU8 0 0 0x12 m.injectStore (fun v t => { t with memory := { t.memory with injectStore := v } }))
  | 0x03 => mgrU32 0 0 0xFFFFFFFF m.injectLine.toNat
      (fun v t => { t with memory := { t.memory with injectLine := BitVec.ofNat 32 v } })
  | 0x04 => mgrU8 0 0 8 m.injectTarget (fun v t => { t with memory := { t.memory with injectTarget := v } })
  | 0x05 => octetsSub aMGR (leBytes 9 m.injectMask.toNat) (fun _ => true)
      (fun b t => (0, { t with memory := { t.memory with injectMask := BitVec.ofNat 72 (leNat b) } }))
  | _ => none

end Sys2Proof.Machine
end

