-- ==== Sys2Proof/Machine/Dictionary.lean ====
section
/-!
DEFINITION. The object dictionary (chapter 19): finding a sub-entry, the checks of Table 19-4, the segment transfers, the
dictionary window and the dictionary messages.
-/
namespace Sys2Proof.Machine

/-! ## Finding a sub-entry (Table 19-3, R607) -/

/-- The sub-entries of the Outer objects other than sub-entry 0. -/
def lookupOuter (s : State) (index sub : Nat) : Option Sub :=
  if index = 0x0000 then obj0000 s sub
  else if index < 0x1000 then objType index sub
  else if index = 0x1000 then obj1000 s sub
  else if index = 0x1100 then obj1100 s sub
  else if index = 0x1101 then obj1101 s sub
  else if index = 0x1102 then obj1102 s sub
  else if index = 0x1200 then obj1200 s sub
  else if index = 0x1201 then obj1201 s sub
  else if index = 0x2010 then pairSub s mgr sub
  else if index = 0x2020 then obj2020 s sub
  else if index = 0x2200 then obj2200 s sub
  else if index < 0x2400 then objSpread s (index - 0x2300) sub
  else if index < 0x3000 then objSlice s (index - 0x2400) sub
  else if index = 0x3000 then obj3000 s sub
  else if index = 0x3001 then obj3001 s sub
  else if index = 0x3002 then obj3002 s sub
  else if index < 0x3100 then objWindow s (index - 0x3020) sub
  else if index < 0x4000 then objRule s (index - 0x3100) sub
  else if index = 0x4000 then obj4000 s sub
  else if index = 0x4001 then obj4001 s sub
  else if index < 0x5000 then objLinePort s (index - 0x4100) sub
  else if index = 0x5000 then obj5000 s sub
  else if index = 0x5001 then obj5001 s sub
  else if index < 0x5100 then objMap s (index - 0x5010) sub
  else if index < 0x6000 then objLink s (index - 0x5100) sub
  else if index < 0x7000 then objSource s (index - 0x6000) sub
  else if index = 0x8000 then obj8000 s sub
  else if index < 0x8080 then objStore s (5 + (index - 0x8010)) sub
  else if index < 0x9000 then objFifo s (index - 0x8080) sub
  else if index = 0x9000 then obj9000 s sub
  else if index = 0x9001 then obj9001 s sub
  else if index = 0x9002 then obj9002 s sub
  else if index = 0x9003 then obj9003 s sub
  else if index = 0x9004 then obj9004 s sub
  else none

/-- The sub-entries of the Myeno objects other than sub-entry 0. -/
def lookupMyeno (s : State) (index sub : Nat) : Option Sub :=
  if index = 0x7000 then obj7000 s sub
  else if index = 0x7001 then obj7001 s sub
  else if index = 0x7002 then obj7002 s sub
  else if index = 0x7100 then obj7100 s sub
  else if index = 0x7101 then obj7101 s sub
  else if index = 0x7102 then obj7102 s sub
  else if index = 0x7103 then obj7103 s sub
  else if index = 0x7104 then obj7104 s sub
  else if index = 0x7105 then obj7105 s sub
  else if index = 0x7200 then obj7200 s sub
  else if index = 0x7201 then obj7201 sub
  else if index = 0x7202 then obj7202 s sub
  else if index < 0x7300 then objNoise s (index - 0x7210) sub
  else if index = 0x7300 then obj7300 s sub
  else if index = 0x7301 then obj7301 s sub
  else if index = 0x7302 then obj7302 s sub
  else if index < 0x7400 then objEngine s (index - 0x7310) sub
  else if index = 0x7400 then obj7400 s sub
  else if index = 0x7401 then obj7401 s sub
  else if index < 0x7500 then objUnit s (index - 0x7410) sub
  else if index = 0x7500 then obj7500 s sub
  else if index = 0x7501 then obj7501 s sub
  else if index < 0x7520 then objLane s (index - 0x7510) sub
  else if index = 0x7520 then obj7520 s sub
  else if index = 0x7530 then obj7530 s sub
  else if index = 0x7600 then obj7600 s sub
  else objStore s (index - 0x7610) sub

/-- Does the index lie in a Myeno range (Table 19-3)? -/
def inMyeno (index : Nat) : Bool := decide (0x7000 ≤ index ∧ index < 0x7700)

/-- The sub-entry `index`.`sub` of this instance; the error where there is none (checks 2 and 3 of Table 19-4). -/
def subEntry (s : State) (index sub : Nat) : Except Nat Sub :=
  match topSub index with
  | none => .error 0x01
  | some top =>
    match (if sub = 0 then roU8 top top else if inMyeno index then lookupMyeno s index sub else lookupOuter s index sub) with
    | none => .error 0x02
    | some q => .ok q

/-! ## Who may write what (R522, R523) -/

/-- Do RWL sub-entries accept writes? -/
def rwlOpen (s : State) : Bool := [1, 2, 3, 4].contains s.lc.state.code || s.lc.debugRights.getLsbD 4

/-- Does R523 permit an operation on the vendor test range? A DESCRIBE counts as a read (R615). -/
def vendorOpen (s : State) (op : Nat) : Bool :=
  s.lc.state.code == 1 || s.lc.state.code == 3 || (op != 2 && s.lc.debugRights.getLsbD 3)

/-! ## An operation (R615 to R618) -/

/-- INDEX.SUB as one number. -/
def DictOp.address (o : DictOp) : Nat := o.index * 256 + o.sub

/-- An outcome without a value. -/
def DictResult.refusal (code : Nat) : DictResult := { result := code, type := 0, access := 0, size := 0, count := 0, data := [] }

/-- An outcome of an operation that found its sub-entry (R613). -/
def Sub.outcome (q : Sub) (code : Nat) (count : Nat) (data : Bytes) : DictResult :=
  { result := code, type := q.type, access := q.access, size := q.size % 65536, count := count, data := data }

/-- OCTETS and DOMAIN are carried in segments. -/
def Sub.isString (q : Sub) : Bool := decide (8 ≤ q.type)

/-- DESCRIBE (R618). -/
def Sub.describe (q : Sub) : DictResult :=
  let w (n : Nat) : Bytes := leBytes 8 n
  q.outcome 0 0
    (if q.isString then zeros 32
    else if q.access = aRO then w q.dflt ++ zeros 24
    else w q.dflt ++ w q.least ++ w q.most ++ zeros 8)

/-- READ (R616). `src` is 0 for the window and 1 for the head's messages. -/
def State.dictRead (s : State) (o : DictOp) (src : Nat) (q : Sub) : DictResult × State :=
  if q.access = aWO ∨ q.access = aWOS then (q.outcome 0x04 0 [], s)
  else if o.offset % 32 ≠ 0 ∨ (o.offset ≠ 0 ∧ !q.isString) then (q.outcome 0x09 0 [], s)
  else if !q.isString then (q.outcome 0 q.size (q.val.take q.size), s)
  else
    let held := Tab.get noTransfer s.dict.snapshot src
    if o.offset ≠ 0 ∧ held.1 ≠ o.address then (q.outcome 0x09 0 [], s)
    else
      let whole := if o.offset = 0 then q.val else held.2
      let s1 :=
        if o.offset = 0 then
          { s with dict := { s.dict with snapshot := Tab.set noTransfer s.dict.snapshot src (o.address, whole) } }
        else s
      if o.offset ≠ 0 ∧ whole.length ≤ o.offset then (q.outcome 0x0A 0 [], s1)
      else
        let seg := (whole.drop o.offset).take 32
        (q.outcome 0 seg.length seg, s1)

/-- The segment buffer of a source set; `noTransfer` empties it. -/
def State.setSegments (s : State) (src : Nat) (v : Nat × Bytes) : State :=
  { s with dict := { s.dict with segments := Tab.set noTransfer s.dict.segments src v } }

/-- A completed value put to its sub-entry: checks 9 to 11 (R611, R615). The first component is the code, `resets` when the
write has reset the T9. -/
def Sub.accept (q : Sub) (v : Bytes) (s : State) : Nat × State :=
  if !(q.isString || decide (leNat v < 2 ^ (8 * q.size))) ∨ !(q.ok v) then (0x07, s) else q.put v s

/-- Bytes that the COUNT of a WRITE stands for: 0 is 32, and a segment has no more than 32. -/
def segCount (c : Nat) : Nat := if c = 0 then 32 else min c 32

/-- Is the length of a completed string right (R617)? -/
def Sub.lengthOk (q : Sub) (n : Nat) : Bool := if q.type = 9 then decide (n ≤ 65535) else n == q.size

/-- WRITE (R617). -/
def State.dictWrite (s : State) (o : DictOp) (src : Nat) (q : Sub) : (Nat × DictResult) × State :=
  let ends (c : Nat) (t : State) : (Nat × DictResult) × State := ((c, q.outcome c 0 []), t)
  if q.access = aRO then ends 0x03 s
  else if q.access = aRWL ∧ !(rwlOpen s) then ends 0x05 s
  else if o.offset % 32 ≠ 0 ∨ (o.offset ≠ 0 ∧ !q.isString) then ends 0x09 (if q.isString then s.setSegments src (noTransfer src) else s)
  else if !q.isString then
    let r := q.accept (cut o.data 0 8) s
    ends r.1 r.2
  else
    let held := Tab.get noTransfer s.dict.segments src
    if o.offset ≠ 0 ∧ (held.1 ≠ o.address ∨ held.2.length ≠ o.offset) then ends 0x09 (s.setSegments src (noTransfer src))
    else
      let whole := (if o.offset = 0 then [] else held.2) ++ cut o.data 0 (segCount o.count)
      if !o.final then ends 0 (s.setSegments src (o.address, whole))
      else
        let s1 := s.setSegments src (noTransfer src)
        if !(q.lengthOk whole.length) then ends 0x0A s1
        else
          let r := q.accept whole s1
          ends r.1 r.2

/-- An operation on this instance's dictionary (R615): its outcome, whether the write has reset the T9, the state. -/
def State.dictRun (s : State) (o : DictOp) (src : Nat) : DictResult × Bool × State :=
  if 0xF000 ≤ o.index ∧ !(vendorOpen s o.op) then (DictResult.refusal 0x05, false, s)
  else
    match subEntry s o.index o.sub with
    | .error e => (DictResult.refusal e, false, s)
    | .ok q =>
      if o.op = 3 then (q.describe, false, s)
      else if o.op = 1 then
        let r := s.dictRead o src q
        (r.1, false, r.2)
      else
        let r := s.dictWrite o src q
        (r.1.2, r.1.1 == resets, r.2)

/-! ## The window (R613, R614) -/

/-- A change of the dictionary window. -/
def State.onDict (s : State) (f : Dict → Dict) : State := { s with dict := f s.dict }

/-- DICT_STATUS (Table 19-4a). -/
def Dict.statusWord (d : Dict) : Nat :=
  b2n d.busy + d.status.result * 2 ^ 8 + d.status.type * 2 ^ 16 + d.status.access * 2 ^ 20 + d.status.size * 2 ^ 24
    + d.status.count * 2 ^ 48 + d.ops * 2 ^ 56

/-- A register of the window as it reads. -/
def dictWord (s : State) (off : Nat) : Nat :=
  if off = 0x00 then s.dict.indexReg.toNat
  else if off = 0x08 then s.dict.statusWord
  else if 0x10 ≤ off ∧ off < 0x30 then (Tab.get (fun _ => 0) s.dict.data ((off - 0x10) / 8)).toNat
  else 0

/-- DICT_DATA0 to 3 as a segment (R610). -/
def Dict.segment (d : Dict) : Bytes := (List.range 4).flatMap (fun i => leBytes 8 (Tab.get (fun _ => 0) d.data i).toNat)

/-- DICT_DATA0 to 3 set from a segment; bytes beyond it are zero. -/
def Dict.putSegment (d : Dict) (bs : Bytes) : Dict :=
  { d with
    data := (List.range 4).foldl
      (fun t i => Tab.set (fun _ => 0) t i (BitVec.ofNat 64 (leNat (cut bs (8 * i) 8)))) d.data }

/-- Operations that end otherwise than with OK are counted (Table 19-9). -/
def Dict.tally (d : Dict) (code : Nat) : Dict :=
  { d with opsRefused := d.opsRefused + (if code = 0 then 0 else 1),
           sequenceErrors := d.sequenceErrors + (if code = 0x09 then 1 else 0) }

/-- The operation of the window ends (R614). -/
def Dict.finish (d : Dict) (op : Nat) (r : DictResult) : Dict :=
  let d1 := if op = 2 then d else d.putSegment r.data
  { d1.tally r.result with
    status := { r with data := [] }, ops := (d.ops + 1) % 256, busy := false, current := none, awaiting := none }

/-- The operation that a DICT_INDEX value spells, with the data captured (R614). -/
def opOfIndex (v : Nat) (data : Bytes) : DictOp :=
  { op := fld v 24 2, index := fld v 0 16, sub := fld v 16 8, final := bit v 26, offset := fld v 32 16,
    count := fld v 48 6, target := fld v 56 8, data := if fld v 24 2 = 2 then data else [], foreign := none }

/-- Body of a DICT_REQ (Table 19-6). -/
def reqBody (o : DictOp) (tag : Nat) : Bytes :=
  leBytes 2 o.index ++ leBytes 1 o.sub ++ leBytes 1 (o.op + b2n o.final * 4) ++ leBytes 2 o.offset ++ leBytes 1 o.count
    ++ leBytes 1 tag
    ++ (if o.op = 2 then cut (o.data.take (segCount o.count)) 0 ((segCount o.count + 7) / 8 * 8) else [])

/-- Is `target` an instance that this one can send to (R615 check 1, R623)? -/
def dictRoute (s : State) (target : Nat) : Bool :=
  s.link.cascadeSize != 1 && decide (target < s.link.cascadeSize) && (s.peer target).reach != 0

/-- Reserved bits of DICT_INDEX read zero. -/
def indexMask : U64 := 0xFF3FFFFF07FFFFFF#64

/-- A write of DICT_INDEX, accepted by the page (R614, R623). -/
def State.dictIndex (s : State) (v : U64) : State :=
  if s.dict.busy then s.onDict (fun d => { d with opsDropped := d.opsDropped + 1 })
  else
    let w := v &&& indexMask
    let s1 := s.onDict (fun d => { d with indexReg := w })
    let o := opOfIndex w.toNat s.dict.segment
    if o.op = 0 then s1
    else if o.target = instanceRead s then s1.onDict (fun d => { d with busy := true, current := some (o, none) })
    else if !(dictRoute s o.target) then
      s1.onDict (fun d => { d with busy := true, current := some (o, some (DictResult.refusal 0x0B)) })
    else
      (s1.onDict (fun d =>
        { d with busy := true, current := some (o, none), awaiting := some d.tag, tag := (d.tag + 1) % 256,
                 opsRemote := d.opsRemote + 1 })).sendMsg kDictReq o.target (reqBody o s.dict.tag)

/-- A write of a register of the window (R613, R614). -/
def State.dictSet (s : State) (off : Nat) (v : U64) : State :=
  if off = 0x00 then s.dictIndex v
  else if 0x10 ≤ off ∧ off < 0x30 then
    s.onDict (fun d =>
      if d.busy then { d with opsDropped := d.opsDropped + 1 }
      else { d with data := Tab.set (fun _ => 0) d.data ((off - 0x10) / 8) v })
  else s

/-- DICT_INDEX with OP replaced by `op`. -/
def withOp (v : U64) (op : Nat) : U64 := (v &&& 0xFFFFFFFFFCFFFFFF#64) ||| BitVec.ofNat 64 (op * 2 ^ 24)

/-- DICT_READ (R614, R616): a write of DICT_INDEX with OP READ. -/
def execDictRead (b : Bus) (v : U64) (s : State) : Out := .next (s.pageWrite b mgr (fun t => t.dictIndex (withOp v 1)))

/-- DICT_WRITE (R614, R617): a write of DICT_INDEX with OP WRITE. -/
def execDictWrite (b : Bus) (v : U64) (s : State) : Out := .next (s.pageWrite b mgr (fun t => t.dictIndex (withOp v 2)))

/-- DICT_DESCRIBE (R614, R618): a write of DICT_INDEX with OP DESCRIBE. -/
def execDictDescribe (b : Bus) (v : U64) (s : State) : Out := .next (s.pageWrite b mgr (fun t => t.dictIndex (withOp v 3)))

/-- DICT_OPERATION_END (R614, R622): the operation of the window on this instance, or the one that has no route, ends. -/
def execDictOperationEnd (s : State) : Out :=
  .next <|
    match s.dict.current, s.dict.awaiting with
    | some (o, early), none =>
      if s.start.inReset ∨ !s.start.step0Done then s
      else
        match early with
        | some r => s.onDict (fun d => d.finish o.op r)
        | none =>
          let x := s.dictRun o 0
          if x.2.1 then x.2.2
          else x.2.2.onDict (fun d => { d.finish o.op x.1 with opsLocal := d.opsLocal + 1 })
    | _, _ => s

/-- DICT_REMOTE_TIME_EXPIRY (R626): no DICT_RESP came in time. -/
def execDictRemoteTimeExpiry (s : State) : Out :=
  .next <|
    match s.dict.current, s.dict.awaiting with
    | some (o, _), some _ =>
      s.onDict (fun d => { d.finish o.op (DictResult.refusal 0x0C) with noResponses := d.noResponses + 1 })
    | _, _ => s

/-! ## Messages (R624 to R626) -/

/-- The operation that a DICT_REQ asks for. -/
def opOfReq (m : Msg) : DictOp :=
  let by_ (i n : Nat) : Nat := leNat (cut m.body i n)
  { op := fld (by_ 3 1) 0 2, index := by_ 0 2, sub := by_ 2 1, final := bit (by_ 3 1) 2, offset := by_ 4 2, count := by_ 6 1,
    target := m.dest, data := m.body.drop 8, foreign := some m.src }

/-- Body of the DICT_RESP (Table 19-7). -/
def respBody (o : DictOp) (tag : Nat) (r : DictResult) : Bytes :=
  leBytes 2 o.index ++ leBytes 1 o.sub ++ leBytes 1 r.result ++ leBytes 2 o.offset ++ leBytes 1 r.count ++ leBytes 1 tag
    ++ leBytes 1 r.type ++ leBytes 1 r.access ++ leBytes 2 r.size ++ zeros 4
    ++ (if o.op = 2 then [] else cut r.data 0 ((r.data.length + 7) / 8 * 8))

/-- DICT_REQ (R625): the head's request is carried out, any other is discarded. -/
def execDictReq (m : Msg) (s : State) : Out :=
  .next <|
    if s.start.inReset ∨ !s.start.step0Done then s
    else
      match s.deliverMsg m kDictReq with
      | none => s.undelivered m kDictReq
      | some s1 =>
        if m.src ≠ 0 then
          (s1.onDict (fun d => { d with remoteDiscarded := d.remoteDiscarded + 1 })).raise 0x109 m.src kDictReq
        else
          let o := opOfReq m
          if o.op = 0 then s1
          else
            let x := s1.dictRun o 1
            if x.2.1 then x.2.2
            else
              (x.2.2.onDict (fun d => { d.tally x.1.result with opsLocal := d.opsLocal + 1 })).sendMsg kDictResp m.src
                (respBody o (leNat (cut m.body 7 1)) x.1)

/-- The outcome that a DICT_RESP carries. -/
def resultOfResp (m : Msg) : DictResult :=
  let by_ (i n : Nat) : Nat := leNat (cut m.body i n)
  { result := by_ 3 1, type := fld (by_ 8 1) 0 4, access := fld (by_ 9 1) 0 4, size := by_ 10 2, count := fld (by_ 6 1) 0 6,
    data := m.body.drop 16 }

/-- DICT_RESP (R623, R626): it ends the operation whose TAG it carries; any other is discarded. -/
def execDictResp (m : Msg) (s : State) : Out :=
  .next <|
    match s.deliverMsg m kDictResp with
    | none => s.undelivered m kDictResp
    | some s1 =>
      match s1.dict.current, s1.dict.awaiting with
      | some (o, _), some tag =>
        if tag = leNat (cut m.body 7 1) then s1.onDict (fun d => d.finish o.op (resultOfResp m))
        else s1.onDict (fun d => { d with lateResponses := d.lateResponses + 1 })
      | _, _ => s1.onDict (fun d => { d with lateResponses := d.lateResponses + 1 })

end Sys2Proof.Machine
end

