-- ==== Sys2Proof/Machine/Registers.lean ====
section
/-!
DEFINITION. The host target port by address (00 R25, 13 R461, 21 R653): a write or a read of one register. A register that
has a command of its own goes to that command's meaning.
-/
namespace Sys2Proof.Machine

/-- Bytes of the host target port's address space (R25). -/
def htSpan : Nat := 2 ^ 26

/-- A write at offset `off` of the page of `o` (13 Table 13-1, R461). -/
def writeOnPage (b : Bus) (o off : Nat) (v : U64) (s : State) : Out :=
  let plain : Out := .next (s.pageWrite b o (fun t => t.pageSet o off v))
  let ignored : Out := .next (s.pageWrite b o id)
  if 0x1000 ≤ off ∧ off < 0x1100 then
    if off = 0x1088 then
      if fld v.toNat 0 2 = 1 then execKwCommitLoad b o s
      else if fld v.toNat 0 2 = 2 then execKwCommitClear b o s
      else .next (s.kwAccess b o).2
    else
      .next
        (match s.kwAccess b o with
        | (false, s1) => s1
        | (true, s1) => if (s1.kw o).busy then s1 else s1.onKw o (fun w => w.write (off - 0x1000) v))
  else if off = 0x2000 then execDgConfig b o v s
  else if off = 0x2010 then execDigestData b o v s
  else if off = 0x2018 then execDigestLast b o 0x18 v s
  else if off = 0x2028 then
    match fld v.toNat 0 2 with
    | 1 => execDgCmdSave b o s
    | 2 => execDgCmdRestore b o s
    | 3 => execDgCmdAbandon b o s
    | _ => ignored
  else if off = 0x3008 then
    match fld v.toNat 0 2 with
    | 1 => execFifoSetMark b 0 o s
    | 2 => execFifoRewind b 0 o s
    | 3 => execFifoClearMark b 0 o s
    | _ => ignored
  else if o = mgr then plain
  else if off = 0x5000 then execSend b 2 o v s
  else if off = 0x5008 then
    match fld v.toNat 0 2 with
    | 1 => execSendCmdOpen b 2 o s
    | 2 => execSendCmdAbandon b 2 o s
    | _ => ignored
  else if off = 0x5010 then execSendClose b 2 o v s
  else if off = 0x5088 then
    match fld v.toNat 0 2 with
    | 1 => execFifoSetMark b 3 o s
    | 2 => execFifoRewind b 3 o s
    | 3 => execFifoClearMark b 3 o s
    | _ => ignored
  else plain

/-- A read at offset `off` of the page of `o`. -/
def readOnPage (b : Bus) (o off : Nat) (s : State) : Out :=
  if 0x1000 ≤ off ∧ off < 0x1100 then
    .next
      (match s.kwAccess b o with
      | (false, s1) => { s1 with pins := { s1.pins with htData := 0 } }
      | (true, s1) => { s1 with pins := { s1.pins with htData := BitVec.ofNat 64 ((s1.kw o).word (off - 0x1000)) } })
  else if off = 0x3000 then execPkFifoData b o s
  else if off = 0x4000 then execRngWord b o s
  else if off = 0x5080 ∧ o ≠ mgr then execFifoData b 3 o s
  else .next (s.pageRead b o (fun t => (pageWord t o off, t.pageAfterRead o off)))

/-- A write at offset `off` of a FIFO reader block on the manager page (Table 12-4). -/
def writeReader (b : Bus) (kind o off : Nat) (v : U64) (s : State) : Out :=
  if off = 0x08 then
    match fld v.toNat 0 2 with
    | 1 => execFifoSetMark b kind o s
    | 2 => execFifoRewind b kind o s
    | 3 => execFifoClearMark b kind o s
    | _ => .next (s.pageWrite b mgr id)
  else if off = 0x18 then .next (s.pageWrite b mgr (fun t => t.writeLevel kind o (fld v.toNat 0 13)))
  else .next (s.pageWrite b mgr id)

/-- A write at offset `off` of a mailbox writer block on the manager page (Table 12-3). -/
def writeWriter (b : Bus) (kind o off : Nat) (v : U64) (s : State) : Out :=
  if off = 0x00 then execSend b kind o v s
  else if off = 0x08 then
    match fld v.toNat 0 2 with
    | 1 => execSendCmdOpen b kind o s
    | 2 => execSendCmdAbandon b kind o s
    | _ => .next (s.pageWrite b mgr id)
  else if off = 0x10 then execSendClose b kind o v s
  else .next (s.pageWrite b mgr id)

/-- REGISTER_WRITE (R25, R653): a write of 64 bits at a host-target-port address. -/
def execRegisterWrite (b : Bus) (addr : Nat) (v : U64) (s : State) : Out :=
  let a := addr / 8 * 8
  if htSpan ≤ addr then .fault .noSuchUnit
  else if a < 0x40 then .next (s.pageWrite b mgr (fun t => t.dictSet a v))
  else if 0x100000 ≤ a ∧ a < 0x110000 then writeOnPage b mgr (a - 0x100000) v s
  else if 0x200000 ≤ a ∧ a < 0x220000 then
    let n := (a - 0x200000) / 0x100
    let off := a % 0x100
    if off < 0x80 then writeReader b 2 n off v s else writeWriter b 3 n (off - 0x80) v s
  else if 0x300000 ≤ a ∧ a < 0x300080 then writeReader b 4 mgr (a - 0x300000) v s
  else if 0x300200 ≤ a ∧ a < 0x300250 then execStatusClear b ((a - 0x300200) / 8) v s
  else if a = 0x300250 then execRemotePending b v s
  else if 0x1000000 ≤ a ∧ a < 0x3000000 then writeOnPage b ((a - 0x1000000) / 0x10000) (a % 0x10000) v s
  else if 0x3000000 ≤ a then execDoorbellWindowWrite b (a - 0x3000000) v s
  else .next (s.pageWrite b mgr id)

/-- REGISTER_READ (R25, R653): a read of 64 bits at a host-target-port address; the data stand on the port. -/
def execRegisterRead (b : Bus) (addr : Nat) (s : State) : Out :=
  let a := addr / 8 * 8
  let word (f : State → Nat) : Out := .next (s.pageRead b mgr (fun t => (f t, t)))
  if htSpan ≤ addr then .fault .noSuchUnit
  else if a < 0x40 then word (fun t => dictWord t a)
  else if 0x100000 ≤ a ∧ a < 0x110000 then readOnPage b mgr (a - 0x100000) s
  else if 0x200000 ≤ a ∧ a < 0x220000 then
    let n := (a - 0x200000) / 0x100
    let off := a % 0x100
    if off = 0 then execFifoData b 2 n s
    else if off < 0x80 then word (fun t => readerWord t 2 n off)
    else word (fun t => writerWord t 3 n (off - 0x80))
  else if a = 0x300000 then execFifoData b 4 mgr s
  else if 0x300000 < a ∧ a < 0x300080 then word (fun t => readerWord t 4 mgr (a - 0x300000))
  else if 0x300100 ≤ a ∧ a < 0x300140 then word (fun t => t.lineWord ((a - 0x300100) / 8))
  else if 0x300200 ≤ a ∧ a < 0x300250 then word (fun t => t.pendingWord ((a - 0x300200) / 8))
  else if a = 0x300250 then word (fun t => t.events.remotePending.toNat)
  else if 0x1000000 ≤ a ∧ a < 0x3000000 then readOnPage b ((a - 0x1000000) / 0x10000) (a % 0x10000) s
  else if 0x3000000 ≤ a then
    .next ({ (s.htAccess b).2 with pins := { (s.htAccess b).2.pins with htData := 0 } })
  else word (fun _ => 0)

end Sys2Proof.Machine
end

