-- ==== Sys2Proof/Machine/Dispatch.lean ====
section
/-!
DEFINITION. One arm for each command: a direct call of its meaning.
-/
namespace Sys2Proof.Machine

/-- The effect of a command on everything but the queue. -/
def exec (i : Instr) (s : State) : Host.Outcome State Fault Refusal :=
  match i with
  | .rqTail b owner n v => Sys2Proof.Machine.execRqTail b owner n v s
  | .cqHead b owner n v => Sys2Proof.Machine.execCqHead b owner n v s
  | .ringEnable b owner n => Sys2Proof.Machine.execRingEnable b owner n s
  | .ringDisable b owner n => Sys2Proof.Machine.execRingDisable b owner n s
  | .ringDrained owner n => Sys2Proof.Machine.execRingDrained owner n s
  | .fetchTurn rids => Sys2Proof.Machine.execFetchTurn rids s
  | .descriptorArrival owner n => Sys2Proof.Machine.execDescriptorArrival owner n s
  | .descSingleReread owner n => Sys2Proof.Machine.execDescSingleReread owner n s
  | .resolve rid => Sys2Proof.Machine.execResolve rid s
  | .blobReadArrival rid => Sys2Proof.Machine.execBlobReadArrival rid s
  | .seamGatePass rid => Sys2Proof.Machine.execSeamGatePass rid s
  | .fragmentListArrival rid => Sys2Proof.Machine.execFragmentListArrival rid s
  | .inputDataArrival rid => Sys2Proof.Machine.execInputDataArrival rid s
  | .cancel rid => Sys2Proof.Machine.execCancel rid s
  | .headArrival rid => Sys2Proof.Machine.execHeadArrival rid s
  | .inwardBeatArrival tag => Sys2Proof.Machine.execInwardBeatArrival tag s
  | .dispatch rid => Sys2Proof.Machine.execDispatch rid s
  | .laneTurn lane => Sys2Proof.Machine.execLaneTurn lane s
  | .tangoPass rid => Sys2Proof.Machine.execTangoPass rid s
  | .tangoMismatch rid at_ passed => Sys2Proof.Machine.execTangoMismatch rid at_ passed s
  | .statArrival rid => Sys2Proof.Machine.execStatArrival rid s
  | .outputWriteIssue rid => Sys2Proof.Machine.execOutputWriteIssue rid s
  | .writeResponse chan tag err => Sys2Proof.Machine.execWriteResponse chan tag err s
  | .readDataBeat chan tag data last err => Sys2Proof.Machine.execReadDataBeat chan tag data last err s
  | .spResponseTimeout chan tag => Sys2Proof.Machine.execSpResponseTimeout chan tag s
  | .journalWrite rid => Sys2Proof.Machine.execJournalWrite rid s
  | .completionRecordIssue rid => Sys2Proof.Machine.execCompletionRecordIssue rid s
  | .completionRecordAck rid => Sys2Proof.Machine.execCompletionRecordAck rid s
  | .tailWriteIssue owner n => Sys2Proof.Machine.execTailWriteIssue owner n s
  | .tailWriteAck owner n => Sys2Proof.Machine.execTailWriteAck owner n s
  | .coalTimeExpiry owner n => Sys2Proof.Machine.execCoalTimeExpiry owner n s
  | .abortAtDecisionPoint rid => Sys2Proof.Machine.execAbortAtDecisionPoint rid s
  | .aeadSeal rid => Sys2Proof.Machine.execAeadSeal rid s
  | .aeadOpen rid => Sys2Proof.Machine.execAeadOpen rid s
  | .cipherEnc rid => Sys2Proof.Machine.execCipherEnc rid s
  | .cipherDec rid => Sys2Proof.Machine.execCipherDec rid s
  | .macGen rid => Sys2Proof.Machine.execMacGen rid s
  | .macVerify rid => Sys2Proof.Machine.execMacVerify rid s
  | .digest rid => Sys2Proof.Machine.execDigest rid s
  | .hmac rid => Sys2Proof.Machine.execHmac rid s
  | .digestSave rid => Sys2Proof.Machine.execDigestSave rid s
  | .digestResume rid => Sys2Proof.Machine.execDigestResume rid s
  | .keyLoadWrapped rid => Sys2Proof.Machine.execKeyLoadWrapped rid s
  | .keyErase rid => Sys2Proof.Machine.execKeyErase rid s
  | .keyGen rid => Sys2Proof.Machine.execKeyGen rid s
  | .keyExportWrapped rid => Sys2Proof.Machine.execKeyExportWrapped rid s
  | .assocRollRoll rid => Sys2Proof.Machine.execAssocRollRoll rid s
  | .assocRollForm rid => Sys2Proof.Machine.execAssocRollForm rid s
  | .assocRollDissolve rid => Sys2Proof.Machine.execAssocRollDissolve rid s
  | .pkeRun rid => Sys2Proof.Machine.execPkeRun rid s
  | .rngFill rid => Sys2Proof.Machine.execRngFill rid s
  | .dirInsert rid => Sys2Proof.Machine.execDirInsert rid s
  | .dirDelete rid => Sys2Proof.Machine.execDirDelete rid s
  | .dirLookup rid => Sys2Proof.Machine.execDirLookup rid s
  | .nopFence rid => Sys2Proof.Machine.execNopFence rid s
  | .abort rid => Sys2Proof.Machine.execAbort rid s
  | .spreadGrant rid => Sys2Proof.Machine.execSpreadGrant rid s
  | .memberLost nn j => Sys2Proof.Machine.execMemberLost nn j s
  | .kwCommitLoad b owner => Sys2Proof.Machine.execKwCommitLoad b owner s
  | .kwCommitClear b owner => Sys2Proof.Machine.execKwCommitClear b owner s
  | .loadInForce slot => Sys2Proof.Machine.execLoadInForce slot s
  | .eraseComplete slot => Sys2Proof.Machine.execEraseComplete slot s
  | .eraseLimitExpiry slot => Sys2Proof.Machine.execEraseLimitExpiry slot s
  | .allotCommit => Sys2Proof.Machine.execAllotCommit s
  | .coldCacheSlots v => Sys2Proof.Machine.execColdCacheSlots v s
  | .tick => Sys2Proof.Machine.execTick s
  | .sweepVisit visit => Sys2Proof.Machine.execSweepVisit visit s
  | .exceptionEntryWrite owner chan => Sys2Proof.Machine.execExceptionEntryWrite owner chan s
  | .xrEnable b owner => Sys2Proof.Machine.execXrEnable b owner s
  | .learnedRecount => Sys2Proof.Machine.execLearnedRecount s
  | .laneRetest mask => Sys2Proof.Machine.execLaneRetest mask s
  | .laneRetestDone lane passed => Sys2Proof.Machine.execLaneRetestDone lane passed s
  | .posture code => Sys2Proof.Machine.execPosture code s
  | .lanesDrainedForLean => Sys2Proof.Machine.execLanesDrainedForLean s
  | .postureSettled => Sys2Proof.Machine.execPostureSettled s
  | .supplyReached => Sys2Proof.Machine.execSupplyReached s
  | .vreqLimitExpiry => Sys2Proof.Machine.execVreqLimitExpiry s
  | .sealDigestDone => Sys2Proof.Machine.execSealDigestDone s
  | .dgConfig b owner v => Sys2Proof.Machine.execDgConfig b owner v s
  | .digestData b owner v => Sys2Proof.Machine.execDigestData b owner v s
  | .digestLast b owner off v => Sys2Proof.Machine.execDigestLast b owner off v s
  | .digestFinishDone owner => Sys2Proof.Machine.execDigestFinishDone owner s
  | .dgCmdSave b owner => Sys2Proof.Machine.execDgCmdSave b owner s
  | .dgCmdRestore b owner => Sys2Proof.Machine.execDgCmdRestore b owner s
  | .dgCmdAbandon b owner => Sys2Proof.Machine.execDgCmdAbandon b owner s
  | .digestBlockDone unit done => Sys2Proof.Machine.execDigestBlockDone unit done s
  | .unitRetest mask => Sys2Proof.Machine.execUnitRetest mask s
  | .unitRetestDone unit passed => Sys2Proof.Machine.execUnitRetestDone unit passed s
  | .yieldPoint engine => Sys2Proof.Machine.execYieldPoint engine s
  | .pkeJobEnd engine invariantsHold => Sys2Proof.Machine.execPkeJobEnd engine invariantsHold s
  | .engineMismatch engine => Sys2Proof.Machine.execEngineMismatch engine s
  | .pkeContextZeroed engine rid => Sys2Proof.Machine.execPkeContextZeroed engine rid s
  | .engineRetest mask => Sys2Proof.Machine.execEngineRetest mask s
  | .engineRetestDone engine passed => Sys2Proof.Machine.execEngineRetestDone engine passed s
  | .lockstepFault => Sys2Proof.Machine.execLockstepFault s
  | .callerRecovered matches_ => Sys2Proof.Machine.execCallerRecovered matches_ s
  | .pkFifoData b owner => Sys2Proof.Machine.execPkFifoData b owner s
  | .fifoSetMark b kind owner => Sys2Proof.Machine.execFifoSetMark b kind owner s
  | .fifoRewind b kind owner => Sys2Proof.Machine.execFifoRewind b kind owner s
  | .fifoClearMark b kind owner => Sys2Proof.Machine.execFifoClearMark b kind owner s
  | .fifoData b kind owner => Sys2Proof.Machine.execFifoData b kind owner s
  | .send b kind owner v => Sys2Proof.Machine.execSend b kind owner v s
  | .sendCmdOpen b kind owner => Sys2Proof.Machine.execSendCmdOpen b kind owner s
  | .sendCmdAbandon b kind owner => Sys2Proof.Machine.execSendCmdAbandon b kind owner s
  | .sendClose b kind owner v => Sys2Proof.Machine.execSendClose b kind owner v s
  | .noiseSample source bit => Sys2Proof.Machine.execNoiseSample source bit s
  | .settlingEnd katOk => Sys2Proof.Machine.execSettlingEnd katOk s
  | .startupTestDone => Sys2Proof.Machine.execStartupTestDone s
  | .poolEntry => Sys2Proof.Machine.execPoolEntry s
  | .drbgInstantiate => Sys2Proof.Machine.execDrbgInstantiate s
  | .generateCall consumer => Sys2Proof.Machine.execGenerateCall consumer s
  | .reseed => Sys2Proof.Machine.execReseed s
  | .portRefill owner => Sys2Proof.Machine.execPortRefill owner s
  | .rngWord b owner => Sys2Proof.Machine.execRngWord b owner s
  | .drbgMismatch => Sys2Proof.Machine.execDrbgMismatch s
  | .rngFailMode compat => Sys2Proof.Machine.execRngFailMode compat s
  | .rawModeEnter => Sys2Proof.Machine.execRawModeEnter s
  | .rawModeExit => Sys2Proof.Machine.execRawModeExit s
  | .rawRunCaptured run => Sys2Proof.Machine.execRawRunCaptured run s
  | .create slice => Sys2Proof.Machine.execCreate slice s
  | .quiesce slice => Sys2Proof.Machine.execQuiesce slice s
  | .quiesceDone slice => Sys2Proof.Machine.execQuiesceDone slice s
  | .quiesceLimitExpiry slice => Sys2Proof.Machine.execQuiesceLimitExpiry slice s
  | .resume slice => Sys2Proof.Machine.execResume slice s
  | .reset slice => Sys2Proof.Machine.execReset slice s
  | .remove slice => Sys2Proof.Machine.execRemove slice s
  | .sliceResetComplete slice => Sys2Proof.Machine.execSliceResetComplete slice s
  | .promEnable slice on => Sys2Proof.Machine.execPromEnable slice on s
  | .promLogWrite slice chan => Sys2Proof.Machine.execPromLogWrite slice chan s
  | .promSwap slice => Sys2Proof.Machine.execPromSwap slice s
  | .promSwapDone slice => Sys2Proof.Machine.execPromSwapDone slice s
  | .ruleCommit => Sys2Proof.Machine.execRuleCommit s
  | .commitValidated => Sys2Proof.Machine.execCommitValidated s
  | .epochSwitch => Sys2Proof.Machine.execEpochSwitch s
  | .epochDrained => Sys2Proof.Machine.execEpochDrained s
  | .drainWarnExpiry => Sys2Proof.Machine.execDrainWarnExpiry s
  | .scrubLineRead store => Sys2Proof.Machine.execScrubLineRead store s
  | .eccInject => Sys2Proof.Machine.execEccInject s
  | .lcRequestTransition code => Sys2Proof.Machine.execLcRequestTransition code s
  | .lcUnlock => Sys2Proof.Machine.execLcUnlock s
  | .lcRepair => Sys2Proof.Machine.execLcRepair s
  | .lcScrap => Sys2Proof.Machine.execLcScrap s
  | .lcFieldVerified ok => Sys2Proof.Machine.execLcFieldVerified ok s
  | .debugNonceReq => Sys2Proof.Machine.execDebugNonceReq s
  | .debugSubmit => Sys2Proof.Machine.execDebugSubmit s
  | .certCheckDone => Sys2Proof.Machine.execCertCheckDone s
  | .debugEnd => Sys2Proof.Machine.execDebugEnd s
  | .debugRevoke => Sys2Proof.Machine.execDebugRevoke s
  | .attestRequest => Sys2Proof.Machine.execAttestRequest s
  | .attestDone => Sys2Proof.Machine.execAttestDone s
  | .powerOn straps => Sys2Proof.Machine.execPowerOn straps s
  | .pwrGoodFall => Sys2Proof.Machine.execPwrGoodFall s
  | .iso level straps => Sys2Proof.Machine.execIso level straps s
  | .pin straps => Sys2Proof.Machine.execPin straps s
  | .resetRequestOrderly => Sys2Proof.Machine.execResetRequestOrderly s
  | .resetRequestImmediate straps => Sys2Proof.Machine.execResetRequestImmediate straps s
  | .orderlyResetTakesPlace straps => Sys2Proof.Machine.execOrderlyResetTakesPlace straps s
  | .resetDrainLimitExpiry straps => Sys2Proof.Machine.execResetDrainLimitExpiry straps s
  | .lcDecode counterOk => Sys2Proof.Machine.execLcDecode counterOk s
  | .selfTestDone step failure => Sys2Proof.Machine.execSelfTestDone step failure s
  | .vaultCheckDone repairs damaged => Sys2Proof.Machine.execVaultCheckDone repairs damaged s
  | .callerImageCheckDone => Sys2Proof.Machine.execCallerImageCheckDone s
  | .startRetryTimeExpiry straps => Sys2Proof.Machine.execStartRetryTimeExpiry straps s
  | .pavaneTests mask => Sys2Proof.Machine.execPavaneTests mask s
  | .pavaneExit straps => Sys2Proof.Machine.execPavaneExit straps s
  | .tamperAlarm input lines => Sys2Proof.Machine.execTamperAlarm input lines s
  | .tamperHold => Sys2Proof.Machine.execTamperHold s
  | .tamperWaitEnd => Sys2Proof.Machine.execTamperWaitEnd s
  | .meshPatternChange openLines crossLines => Sys2Proof.Machine.execMeshPatternChange openLines crossLines s
  | .portEnable port on => Sys2Proof.Machine.execPortEnable port on s
  | .lanesClassified port status polarity => Sys2Proof.Machine.execLanesClassified port status polarity s
  | .trainingTrial port coeff eye => Sys2Proof.Machine.execTrainingTrial port coeff eye s
  | .trainingEnd port peerOk => Sys2Proof.Machine.execTrainingEnd port peerOk s
  | .alignDone port order skewOk => Sys2Proof.Machine.execAlignDone port order skewOk s
  | .portUp port => Sys2Proof.Machine.execPortUp port s
  | .portDown port cause => Sys2Proof.Machine.execPortDown port cause s
  | .relock port => Sys2Proof.Machine.execRelock port s
  | .phyReady port => Sys2Proof.Machine.execPhyReady port s
  | .frameReceive port lseq lack credit good msgs => Sys2Proof.Machine.execFrameReceive port lseq lack credit good msgs s
  | .controlFrame port lack credit => Sys2Proof.Machine.execControlFrame port lack credit s
  | .replayTimeExpiry port => Sys2Proof.Machine.execReplayTimeExpiry port s
  | .controlFramePeriod port => Sys2Proof.Machine.execControlFramePeriod port s
  | .ident port m => Sys2Proof.Machine.execIdent port m s
  | .identPeriod port => Sys2Proof.Machine.execIdentPeriod port s
  | .map port m => Sys2Proof.Machine.execMap port m s
  | .mapPeriod => Sys2Proof.Machine.execMapPeriod s
  | .time port m => Sys2Proof.Machine.execTime port m s
  | .timePeriod => Sys2Proof.Machine.execTimePeriod s
  | .echo port m => Sys2Proof.Machine.execEcho port m s
  | .echoRenewal port => Sys2Proof.Machine.execEchoRenewal port s
  | .ackE2e m => Sys2Proof.Machine.execAckE2e m s
  | .e2eTimeExpiry inst => Sys2Proof.Machine.execE2eTimeExpiry inst s
  | .ackE2ePeriod inst => Sys2Proof.Machine.execAckE2ePeriod inst s
  | .destLost inst => Sys2Proof.Machine.execDestLost inst s
  | .messageForward port m => Sys2Proof.Machine.execMessageForward port m s
  | .doorbell m => Sys2Proof.Machine.execDoorbell m s
  | .doorbellWindowWrite b addr v => Sys2Proof.Machine.execDoorbellWindowWrite b addr v s
  | .grant m => Sys2Proof.Machine.execGrant m s
  | .token m => Sys2Proof.Machine.execToken m s
  | .spreadCtl m => Sys2Proof.Machine.execSpreadCtl m s
  | .keyx m => Sys2Proof.Machine.execKeyx m s
  | .keyxSetup m => Sys2Proof.Machine.execKeyxSetup m s
  | .dictReq m => Sys2Proof.Machine.execDictReq m s
  | .dictResp m => Sys2Proof.Machine.execDictResp m s
  | .event m => Sys2Proof.Machine.execEvent m s
  | .dictRead b v => Sys2Proof.Machine.execDictRead b v s
  | .dictWrite b v => Sys2Proof.Machine.execDictWrite b v s
  | .dictDescribe b v => Sys2Proof.Machine.execDictDescribe b v s
  | .dictOperationEnd => Sys2Proof.Machine.execDictOperationEnd s
  | .dictRemoteTimeExpiry => Sys2Proof.Machine.execDictRemoteTimeExpiry s
  | .eventAccepted => Sys2Proof.Machine.execEventAccepted s
  | .statusClear b word v => Sys2Proof.Machine.execStatusClear b word v s
  | .forcedOccurrence source => Sys2Proof.Machine.execForcedOccurrence source s
  | .remotePending b v => Sys2Proof.Machine.execRemotePending b v s
  | .clockStopped clock => Sys2Proof.Machine.execClockStopped clock s
  | .registerWrite b addr v => Sys2Proof.Machine.execRegisterWrite b addr v s
  | .registerRead b addr => Sys2Proof.Machine.execRegisterRead b addr s
  | .clockReturned clock => Sys2Proof.Machine.execClockReturned clock s
  | .voltageDetectorsArmed => Sys2Proof.Machine.execVoltageDetectorsArmed s
  | .createComplete slice => Sys2Proof.Machine.execCreateComplete slice s
  | .meshReseed => Sys2Proof.Machine.execMeshReseed s

end Sys2Proof.Machine
end

