-- ==== Sys2Proof/Machine/Tap.lean ====
section
/-!
DEFINITION. The test access port (21 R669, 16 R523): an edge of TCK. The table has no row for that edge, so an idle step makes
one (log entry 97); the controller is that of IEEE 1149.1.
-/
namespace Sys2Proof.Machine

/-- The controller's next state. -/
def TapState.next (tms : Bool) : TapState → TapState
  | .reset => if tms then .reset else .idle
  | .idle => if tms then .selectDr else .idle
  | .selectDr => if tms then .selectIr else .captureDr
  | .captureDr => if tms then .exit1Dr else .shiftDr
  | .shiftDr => if tms then .exit1Dr else .shiftDr
  | .exit1Dr => if tms then .updateDr else .pauseDr
  | .pauseDr => if tms then .exit2Dr else .pauseDr
  | .exit2Dr => if tms then .updateDr else .shiftDr
  | .updateDr => if tms then .selectDr else .idle
  | .selectIr => if tms then .reset else .captureIr
  | .captureIr => if tms then .exit1Ir else .shiftIr
  | .shiftIr => if tms then .exit1Ir else .shiftIr
  | .exit1Ir => if tms then .updateIr else .pauseIr
  | .pauseIr => if tms then .exit2Ir else .pauseIr
  | .exit2Ir => if tms then .updateIr else .shiftIr
  | .updateIr => if tms then .selectDr else .idle

/-- The instruction of a code. -/
def TapInstr.ofCode (n : Nat) : TapInstr :=
  match n with
  | 0 => .bypass
  | 1 => .sample
  | 2 => .preload
  | 3 => .extest
  | n + 4 => if n % 2 = 0 then .outerScan else .myenoScan

/-- May an instruction reach what it names (16 R523)? The mandatory ones work in every state; Outer's scan chains are reached in
TEST_UNLOCKED or by OUTER_SCAN, Myeno's in BLANK only. -/
def tapOpen (s : State) (i : TapInstr) : Bool :=
  match i with
  | .outerScan => s.lc.state.code == 3 || s.lc.debugRights.getLsbD 2
  | .myenoScan => s.lc.state.code == 1
  | _ => true

/-- The instruction a value selects: all ones is BYPASS, and so is a private instruction that is not open. -/
def tapSelect (s : State) (bits : List Bool) : TapInstr :=
  let i := if bits.all id then .bypass else TapInstr.ofCode (Config.tapCode bits)
  if tapOpen s i then i else .bypass

/-- What the selected data register captures: 0 in the bypass register; the levels at the pins, or what a scan chain holds, are not
given and so free. -/
def tapCapture (s : State) (t : Tap) : List Bool :=
  match t.instr with
  | .bypass => [false]
  | .preload => t.boundary
  | _ => (List.range (Config.tapCells true)).map (fun i => bit (Config.free 23 (s.now.toNat + i)) 0)

/-- One place of shift: TDI enters, and the bit nearest TDO leaves. -/
def shiftIn (tdi : Bool) (bits : List Bool) : List Bool := bits.drop 1 ++ [tdi]

/-- An edge of TCK: the action of the state the controller is in, TDO for the falling edge that follows, and its next state; TRST_N
low holds it in Test-Logic-Reset. -/
def Tap.edge (s : State) (t : Tap) : Tap :=
  if !t.trstN then { t with state := .reset, instr := .bypass, ir := [], dr := [], tdo := false }
  else
    let u : Tap :=
      match t.state with
      | .reset => { t with instr := .bypass }
      | .captureIr => { t with ir := true :: List.replicate (Config.tapCells false + 1) false }
      | .shiftIr => { t with tdo := t.ir.headD false, ir := shiftIn t.tdi t.ir }
      | .updateIr => { t with instr := tapSelect s t.ir }
      | .captureDr => { t with dr := tapCapture s t }
      | .shiftDr => { t with tdo := t.dr.headD false, dr := shiftIn t.tdi t.dr }
      | .updateDr => if t.instr = .preload ∨ t.instr = .extest then { t with boundary := t.dr } else t
      | _ => t
    { u with state := TapState.next t.tms t.state }

end Sys2Proof.Machine
end

