-- ==== Sys2Proof/Machine/Tick.lean ====
section
/-!
DEFINITION. What time alone does: one TS_CLK cycle, which a step on an empty queue runs (log entry 4). Everything that
the specification places at a moment (an expiry, a period, a pass of an engine) is a command of its own.
-/
namespace Sys2Proof.Machine

/-- The timestamp counter after a cycle of 10 ns (21 R647), slewing by 1 ns at each microsecond while TIME asked for it
(18 R604). -/
def State.countOn (s : State) : State :=
  let t := s.now + 10#48
  let d := s.link.slewing
  if d = 0 ∨ s.now.toNat / 1000 = t.toNat / 1000 then { s with now := t }
  else if 0 < d then { s with now := t + 1#48, link := { s.link with slewing := d - 1 } }
  else { s with now := t - 1#48, link := { s.link with slewing := d + 1 } }

/-- Lanes that have power and no segment to run, whose stages FILL blocks occupy in QUIET (R329): those without a context, and those
whose contexts all wait for input. -/
def fillLanes (s : State) : Nat :=
  ((List.range 16).filter (fun n => s.lanes.powered.getLsbD n && (nextTurn s (s.lane n)).isNone)).length

/-- The pins after a cycle: the test access port makes an edge of TCK in every state, with or without a reset (21 R669), and a voltage
request goes on (21 R661). -/
def State.pinsOn (s : State) : State :=
  { s with pins := { (if s.start.inReset then s.pins else s.pins.requestOn) with tap := s.pins.tap.edge s } }

/-- One cycle: the timestamp, ACTIVE_TIME of lanes in use (Table 4-15), IDLE_TIME with no request in flight (Table 19-10),
FILL blocks in QUIET, as far as the filler's draw lasts (Table 11-1); how many steps a cycle holds is free (log entry 18). -/
def State.idleTick (s : State) : State :=
  if s.start.inReset then s.pinsOn
  else
    let s1 := s.pinsOn.countOn
    let busy := (List.range 16).filter (fun n => !(s.lane n).ctxs.isEmpty)
    let s2 := busy.foldl (fun t n => t.onLane n (fun l => { l with activeTime := l.activeTime + 10 })) s1
    let s3 := if s.reqs = [] then { s2 with ident := { s2.ident with idleTime := s2.ident.idleTime + 10 } } else s2
    if s.tango.posture = .quiet then
      let n := min s3.tango.fillLeft (fillLanes s * Config.free 10 s.now.toNat)
      { s3 with
        tango := { s3.tango with fillBlocks := s3.tango.fillBlocks + BitVec.ofNat 64 n, fillLeft := s3.tango.fillLeft - n } }
    else s3

end Sys2Proof.Machine
end

