-- ==== Sys2Proof/WellFormed.lean ====
section
/-!
DEFINITION. Well-formed commands: every operand that names a unit, an owner or an address names one that the T9 has, and
every message and strap operand is one that a wire can carry.
-/
namespace Sys2Proof

/-- A reader block of Tables 10-10, 12-4 and 20-5: kind 0 the result FIFOs, 2 and 3 the mailboxes, 4 the event FIFO. -/
def isReader (kind owner : Nat) : Bool :=
  decide ((kind = 0 ∧ owner ≤ 512) ∨ ((kind = 2 ∨ kind = 3) ∧ owner < 512) ∨ (kind = 4 ∧ owner = 512))

/-- A writer block of Table 12-3: a mailbox (R476). -/
def isWriter (kind owner : Nat) : Bool := decide ((kind = 2 ∨ kind = 3) ∧ owner < 512)

/-- A consumer of the generator: a lane's reservoir is one of 16 (R408). -/
def drawOk : Draw → Bool
  | .reservoir lane => decide (lane < 16)
  | .filler => true
  | .software => true

/-- A compare fails in a unit, or in a key window, that the T9 has. -/
def mismatchOk : MismatchAt → Bool
  | .keyWindow owner => decide (owner ≤ 512)
  | .fillLane lane => decide (lane < 16)
  | .fillUnit u => decide (u < 8)
  | _ => true

/-- The header fields of a message as wide as Table 18-4 gives them. -/
def msgOk (m : Msg) : Bool := decide (m.kind < 256 ∧ m.src < 256 ∧ m.dest < 256 ∧ m.hops < 256 ∧ m.pseq < 65536)

/-- The strap inputs as wide as Table 21-2 gives them. -/
def strapsOk (x : Straps) : Bool := decide (x.cascadeN < 128 ∧ x.linkRate < 4)

/-- Is the command well formed? -/
def Instr.wf : Instr → Bool
  | .rqTail _ owner n _ => decide (owner ≤ 512 ∧ n < 8)
  | .cqHead _ owner n _ => decide (owner ≤ 512 ∧ n < 8)
  | .ringEnable _ owner n => decide (owner ≤ 512 ∧ n < 8)
  | .ringDisable _ owner n => decide (owner ≤ 512 ∧ n < 8)
  | .ringDrained owner n => decide (owner ≤ 512 ∧ n < 8)
  | .fetchTurn _ => true
  | .descriptorArrival owner n => decide (owner ≤ 512 ∧ n < 8)
  | .descSingleReread owner n => decide (owner ≤ 512 ∧ n < 8)
  | .resolve _ => true
  | .blobReadArrival _ => true
  | .seamGatePass _ => true
  | .fragmentListArrival _ => true
  | .inputDataArrival _ => true
  | .cancel _ => true
  | .headArrival _ => true
  | .inwardBeatArrival _ => true
  | .dispatch _ => true
  | .laneTurn lane => decide (lane < 16)
  | .tangoPass _ => true
  | .tangoMismatch _ at_ passed => mismatchOk at_ && decide (passed ≤ 256)
  | .statArrival _ => true
  | .outputWriteIssue _ => true
  | .writeResponse chan _ _ => decide (chan < 4)
  | .readDataBeat chan _ _ _ _ => decide (chan < 4)
  | .spResponseTimeout chan _ => decide (chan < 4)
  | .journalWrite _ => true
  | .completionRecordIssue _ => true
  | .completionRecordAck _ => true
  | .tailWriteIssue owner n => decide (owner ≤ 512 ∧ n < 8)
  | .tailWriteAck owner n => decide (owner ≤ 512 ∧ n < 8)
  | .coalTimeExpiry owner n => decide (owner ≤ 512 ∧ n < 8)
  | .abortAtDecisionPoint _ => true
  | .aeadSeal _ => true
  | .aeadOpen _ => true
  | .cipherEnc _ => true
  | .cipherDec _ => true
  | .macGen _ => true
  | .macVerify _ => true
  | .digest _ => true
  | .hmac _ => true
  | .digestSave _ => true
  | .digestResume _ => true
  | .keyLoadWrapped _ => true
  | .keyErase _ => true
  | .keyGen _ => true
  | .keyExportWrapped _ => true
  | .assocRollRoll _ => true
  | .assocRollForm _ => true
  | .assocRollDissolve _ => true
  | .pkeRun _ => true
  | .rngFill _ => true
  | .dirInsert _ => true
  | .dirDelete _ => true
  | .dirLookup _ => true
  | .nopFence _ => true
  | .abort _ => true
  | .spreadGrant _ => true
  | .memberLost nn i => decide (nn < 16 ∧ i < 8)
  | .kwCommitLoad _ owner => decide (owner ≤ 512)
  | .kwCommitClear _ owner => decide (owner ≤ 512)
  | .loadInForce slot => decide (slot < 65536)
  | .eraseComplete slot => decide (slot < 65536)
  | .eraseLimitExpiry slot => decide (slot < 65536)
  | .allotCommit => true
  | .coldCacheSlots _ => true
  | .tick => true
  | .sweepVisit visit => decide (visit.bucket < 131072)
  | .exceptionEntryWrite owner chan => decide (owner ≤ 512 ∧ chan < 4)
  | .xrEnable _ owner => decide (owner ≤ 512)
  | .learnedRecount => true
  | .laneRetest _ => true
  | .laneRetestDone lane _ => decide (lane < 16)
  | .posture code => decide (code < 256)
  | .lanesDrainedForLean => true
  | .postureSettled => true
  | .supplyReached => true
  | .vreqLimitExpiry => true
  | .sealDigestDone => true
  | .dgConfig _ owner _ => decide (owner ≤ 512)
  | .digestData _ owner _ => decide (owner ≤ 512)
  | .digestLast _ owner off _ => decide (owner ≤ 512 ∧ off = 0x18)
  | .digestFinishDone owner => decide (owner ≤ 512)
  | .dgCmdSave _ owner => decide (owner ≤ 512)
  | .dgCmdRestore _ owner => decide (owner ≤ 512)
  | .dgCmdAbandon _ owner => decide (owner ≤ 512)
  | .digestBlockDone unit _ => decide (unit < 8)
  | .unitRetest _ => true
  | .unitRetestDone unit _ => decide (unit < 8)
  | .yieldPoint engine => decide (engine < 4)
  | .pkeJobEnd engine _ => decide (engine < 4)
  | .engineMismatch engine => decide (engine < 4)
  | .pkeContextZeroed engine _ => decide (engine < 4)
  | .engineRetest _ => true
  | .engineRetestDone engine _ => decide (engine < 4)
  | .lockstepFault => true
  | .callerRecovered _ => true
  | .pkFifoData _ owner => decide (owner ≤ 512)
  | .fifoSetMark _ kind owner => decide (isReader kind owner)
  | .fifoRewind _ kind owner => decide (isReader kind owner)
  | .fifoClearMark _ kind owner => decide (isReader kind owner)
  | .fifoData _ kind owner => decide (isReader kind owner)
  | .send _ kind owner _ => decide (isWriter kind owner)
  | .sendCmdOpen _ kind owner => decide (isWriter kind owner)
  | .sendCmdAbandon _ kind owner => decide (isWriter kind owner)
  | .sendClose _ kind owner _ => decide (isWriter kind owner)
  | .noiseSample source _ => decide (source < 4)
  | .settlingEnd _ => true
  | .startupTestDone => true
  | .poolEntry => true
  | .drbgInstantiate => true
  | .generateCall consumer => decide (drawOk consumer)
  | .reseed => true
  | .portRefill owner => decide (owner ≤ 512)
  | .rngWord _ owner => decide (owner ≤ 512)
  | .drbgMismatch => true
  | .rngFailMode _ => true
  | .rawModeEnter => true
  | .rawModeExit => true
  | .rawRunCaptured _ => true
  | .create slice => decide (slice < 512)
  | .quiesce slice => decide (slice < 512)
  | .quiesceDone slice => decide (slice < 512)
  | .quiesceLimitExpiry slice => decide (slice < 512)
  | .resume slice => decide (slice < 512)
  | .reset slice => decide (slice < 512)
  | .remove slice => decide (slice < 512)
  | .sliceResetComplete slice => decide (slice < 512)
  | .promEnable slice _ => decide (slice < 512)
  | .promLogWrite slice chan => decide (slice < 512 ∧ chan < 4)
  | .promSwap slice => decide (slice < 512)
  | .promSwapDone slice => decide (slice < 512)
  | .ruleCommit => true
  | .commitValidated => true
  | .epochSwitch => true
  | .epochDrained => true
  | .drainWarnExpiry => true
  | .scrubLineRead store => decide (store < 14)
  | .eccInject => true
  | .lcRequestTransition code => decide (code < 256)
  | .lcUnlock => true
  | .lcRepair => true
  | .lcScrap => true
  | .lcFieldVerified _ => true
  | .debugNonceReq => true
  | .debugSubmit => true
  | .certCheckDone => true
  | .debugEnd => true
  | .debugRevoke => true
  | .attestRequest => true
  | .attestDone => true
  | .powerOn straps => decide (strapsOk straps)
  | .pwrGoodFall => true
  | .iso _ straps => decide (strapsOk straps)
  | .pin straps => decide (strapsOk straps)
  | .resetRequestOrderly => true
  | .resetRequestImmediate straps => decide (strapsOk straps)
  | .orderlyResetTakesPlace straps => decide (strapsOk straps)
  | .resetDrainLimitExpiry straps => decide (strapsOk straps)
  | .lcDecode _ => true
  | .selfTestDone step _ => decide (step = 1 ∨ step = 2)
  | .vaultCheckDone _ _ => true
  | .callerImageCheckDone => true
  | .startRetryTimeExpiry straps => decide (strapsOk straps)
  | .pavaneTests _ => true
  | .pavaneExit straps => decide (strapsOk straps)
  | .tamperAlarm input _ => decide (input < 8)
  | .tamperHold => true
  | .tamperWaitEnd => true
  | .meshPatternChange _ _ => true
  | .portEnable port _ => decide (port < 2)
  | .lanesClassified port _ _ => decide (port < 2)
  | .trainingTrial port _ _ => decide (port < 2)
  | .trainingEnd port _ => decide (port < 2)
  | .alignDone port _ _ => decide (port < 2)
  | .portUp port => decide (port < 2)
  | .portDown port _ => decide (port < 2)
  | .relock port => decide (port < 2)
  | .phyReady port => decide (port < 2)
  | .frameReceive port _ _ _ _ msgs => decide (port < 2 ∧ msgs.all msgOk)
  | .controlFrame port _ _ => decide (port < 2)
  | .replayTimeExpiry port => decide (port < 2)
  | .controlFramePeriod port => decide (port < 2)
  | .ident port m => decide (port < 2 ∧ msgOk m)
  | .identPeriod port => decide (port < 2)
  | .map port m => decide (port < 2 ∧ msgOk m)
  | .mapPeriod => true
  | .time port m => decide (port < 2 ∧ msgOk m)
  | .timePeriod => true
  | .echo port m => decide (port < 2 ∧ msgOk m)
  | .echoRenewal port => decide (port < 2)
  | .ackE2e m => decide (msgOk m)
  | .e2eTimeExpiry inst => decide (inst < 64)
  | .ackE2ePeriod inst => decide (inst < 64)
  | .destLost inst => decide (inst < 64)
  | .messageForward port m => decide (port < 2 ∧ msgOk m)
  | .doorbell m => decide (msgOk m)
  | .doorbellWindowWrite _ addr _ => decide (addr < 0x1000000)
  | .grant m => decide (msgOk m)
  | .token m => decide (msgOk m)
  | .spreadCtl m => decide (msgOk m)
  | .keyx m => decide (msgOk m)
  | .keyxSetup m => decide (msgOk m)
  | .dictReq m => decide (msgOk m)
  | .dictResp m => decide (msgOk m)
  | .event m => decide (msgOk m)
  | .dictRead _ _ => true
  | .dictWrite _ _ => true
  | .dictDescribe _ _ => true
  | .dictOperationEnd => true
  | .dictRemoteTimeExpiry => true
  | .eventAccepted => true
  | .statusClear _ word _ => decide (word < 10)
  | .forcedOccurrence source => decide (source < 640)
  | .remotePending _ _ => true
  | .clockStopped clock => decide (clock < 9)
  | .registerWrite _ addr _ => decide (addr < 2 ^ 26)
  | .registerRead _ addr => decide (addr < 2 ^ 26)
  | .clockReturned clock => decide (clock < 9)
  | .voltageDetectorsArmed => true
  | .createComplete slice => decide (slice < 512)
  | .meshReseed => true

end Sys2Proof
end

