-- ==== Sys2Proof/Safety.lean ====
section
/-!
DEFINITION. The terms that statements about the block use: an access that a page accepts, pointers that a ring accepts,
the parts of State, and the invariant of the dictionary window.
-/
namespace Sys2Proof.Machine

/-! ## Accesses of the host target port -/

/-- Does the page of `o` accept the access `b` (R457, R459, R653, R654, Table 13-5)? -/
def accepts (s : State) (b : Bus) (o : Nat) : Bool :=
  s.pins.htEnabled && !s.start.inReset && b.be == 0xFF
    && (if o = mgr then isManager s.slices.mgrPasid b
        else
          decide (o < mgr) && decide ((s.slice o).state ≠ .absent)
            && (match b.pasid with
                | some p => decide ((s.slice o).pasid.toNat = p.toNat)
                | none => false)
            && !(pageDead s o))

/-- Does the key window of `o` accept the access `b` (R221, R653, R654)? -/
def kwAccepts (s : State) (b : Bus) (o : Nat) : Bool :=
  s.pins.htEnabled && !s.start.inReset && b.be == 0xFF && decide (o ≤ mgr) && kwPasidOk s b o

/-- The state after a read that returned `w`. -/
def State.readBack (s : State) (w : Nat) : State := { s with pins := { s.pins with htData := BitVec.ofNat 64 w } }

/-! ## Accesses of the system port -/

/-- Is every part of an access permitted (R489, R495)? -/
def permitted (s : State) (cls : AccClass) (owner : Nat) (write : Bool) (addr len : Nat) : Prop :=
  ∀ p ∈ partsOf addr len, (verdict s.access cls owner write (p.1 / 4096)).isSome = true

/-- The port without an ended access that a command has taken. -/
def State.taken (s : State) (a : Acc) : State :=
  { s with port := { s.port with ended := s.port.ended.filter (fun x => x.id != a.id) } }

/-! ## Fields of State -/

/-- The fields of State. -/
inductive Field where
  | ident | engine | reqs | order | spread | lanes | keys | dir | tango | digest | pke | rng | fifos
  | slices | access | port | memory | lc | start | pins | link | dict | events | now | pending
  deriving DecidableEq, Repr

/-- Does a field read the same in both states? -/
def Field.same (s t : State) : Field → Prop
  | .ident => t.ident = s.ident
  | .engine => t.engine = s.engine
  | .reqs => t.reqs = s.reqs
  | .order => t.order = s.order
  | .spread => t.spread = s.spread
  | .lanes => t.lanes = s.lanes
  | .keys => t.keys = s.keys
  | .dir => t.dir = s.dir
  | .tango => t.tango = s.tango
  | .digest => t.digest = s.digest
  | .pke => t.pke = s.pke
  | .rng => t.rng = s.rng
  | .fifos => t.fifos = s.fifos
  | .slices => t.slices = s.slices
  | .access => t.access = s.access
  | .port => t.port = s.port
  | .memory => t.memory = s.memory
  | .lc => t.lc = s.lc
  | .start => t.start = s.start
  | .pins => t.pins = s.pins
  | .link => t.link = s.link
  | .dict => t.dict = s.dict
  | .events => t.events = s.events
  | .now => t.now = s.now
  | .pending => t.pending = s.pending

/-- Does `t` differ from `s` in the fields `ps` at most? -/
def changesOnly (ps : List Field) (s t : State) : Prop := ∀ p, p ∉ ps → p.same s t

/-- The frame of a command: a next state of it differs in the fields `ps` at most. -/
def keepsAllBut (ps : List Field) (c : Instr) : Prop := ∀ s t, exec c s = .next t → changesOnly ps s t

/-! ## The dictionary window (R613, R614) -/

/-- The window is consistent: it is busy while an operation is in progress and only then, a response is awaited only
then, the operation is one of Table 19-3, the 8-bit counters of Table 19-4a stay in range, and the reserved bits of
DICT_INDEX read zero. -/
abbrev windowInv (s : State) : Prop :=
  s.dict.busy = s.dict.current.isSome ∧ (s.dict.awaiting.isSome → s.dict.current.isSome) ∧
    (∀ x ∈ s.dict.current, x.1.op ≠ 0) ∧ s.dict.ops < 256 ∧ s.dict.tag < 256 ∧ s.dict.indexReg &&& indexMask = s.dict.indexReg

/-! ## Requests (R286) -/

/-- A DIR request after the directory has acted for it. -/
def Req.dirDone (q : Req) (detail : Nat) (out : Bytes) : Req :=
  { q.putOut out with
    stat := q.stat.map (fun t => { t with ending := { st := .ok, detail := detail } }), stage := .over }

/-! ## Resets (R553) -/

/-- Is `t` the machine after a reset of `kind` from `s`, still held in it or not: no work in flight, every unit and object of
the kinds named at its reset value, the life-cycle copies, tokens and boot epoch kept, and the waiting commands too? -/
def rebooted (s t : State) (kind : ResetKind) (held : Bool) : Prop :=
  t.start.lastReset = kind ∧ t.start.inReset = held ∧ t.start.state = .lcDecode ∧ t.reqs = [] ∧ t.engine = State.reset.engine
    ∧ t.lanes = State.reset.lanes ∧ t.digest = State.reset.digest ∧ t.tango = State.reset.tango
    ∧ t.access = State.reset.access ∧ t.port = State.reset.port ∧ t.memory = State.reset.memory ∧ t.dict = State.reset.dict
    ∧ t.events = State.reset.events ∧ t.fifos = State.reset.fifos ∧ t.spread = State.reset.spread
    ∧ t.start.bootEpoch = s.start.bootEpoch ∧ t.lc.tokens = s.lc.tokens ∧ t.pending = s.pending

/-! ## Ring pointers (R62, R63) -/

/-- Is `v` a valid doorbell value? -/
def tailValid (r : Ring) (v : Nat) : Prop :=
  v < 2 ^ (r.rqLog2 + 1) ∧ ptrSub v r.rqHead r.rqLog2 ≤ 2 ^ r.rqLog2
    ∧ ptrSub r.rqTail r.rqHead r.rqLog2 ≤ ptrSub v r.rqHead r.rqLog2

/-- Is `v` a valid CQ_HEAD value? -/
def headValid (r : Ring) (v : Nat) : Prop :=
  v < 2 ^ (r.cqLog2 + 1) ∧ ptrSub v r.cqHead r.cqLog2 ≤ ptrSub r.cqTail r.cqHead r.cqLog2

/-- Does an occurrence of source `src` wait to be accepted (R637)? -/
def waits (s : State) (src : Nat) : Prop := ∃ o ∈ s.events.waiting, o.src = src

end Sys2Proof.Machine
end

