-- ==== Sys2Proof/Certificates/Slice0/Obligations.lean ====
section
/-!
DEFINITION. The statements for the provers: what the commands do, family by family, what they leave unchanged, and what
every step keeps. A rule number in a docstring names the rule that a clause rests on; it does not say that the rule is stated
whole.
-/
open Sys2Proof Sys2Proof.Machine

/-! ## Rings (chapter 2) -/

/-- R62: a doorbell that a page accepts and that is valid moves the tail, and one equal to the tail changes no ring; an
invalid one keeps the tail, puts the ring into FAULTED with BAD_TAIL and raises an event of severity WARN (a pair DRAINING or
FAULTED already keeps its state, R69). A DISABLED pair takes none (R68). -/
def Obligations.DoorbellMovesTailOrFaultsRing : Prop :=
  ∀ (s : State) (b : Bus) (o n : Nat) (v : U64), accepts s b o = true → n < 8 →
    let r := s.ring (pairKey o n)
    (r.state = .disabled → exec (.rqTail b o n v) s = .next s) ∧
    (r.state ≠ .disabled → tailValid r v.toNat →
      exec (.rqTail b o n v) s = .next (s.onRing (pairKey o n) (fun r => { r with rqTail := v.toNat })) ∧
      (v.toNat = r.rqTail → ∃ t, exec (.rqTail b o n v) s = .next t ∧ ∀ j, t.ring j = s.ring j)) ∧
    (r.state = .enabled → ¬ tailValid r v.toNat →
      ∃ t, exec (.rqTail b o n v) s = .next t ∧ waits t 0x248 ∧ severityOf 0x248 = some .warn ∧
        t.ring (pairKey o n) = { r with state := .faulted, faultCode := 1, faultPos := r.rqTail }) ∧
    (r.state = .draining ∨ r.state = .faulted → ¬ tailValid r v.toNat →
      ∃ t, exec (.rqTail b o n v) s = .next t ∧ waits t 0x248 ∧ (t.ring (pairKey o n)).rqTail = r.rqTail ∧
        (t.ring (pairKey o n)).state = r.state)

/-- R63: a CQ_HEAD write that a page accepts and that is valid moves the head; an invalid one keeps the head and puts the ring
into FAULTED with BAD_HEAD (a pair DRAINING or FAULTED already keeps its state, R69). A DISABLED pair takes none (R68). -/
def Obligations.CqHeadMovesHeadOrFaultsRing : Prop :=
  ∀ (s : State) (b : Bus) (o n : Nat) (v : U64), accepts s b o = true → n < 8 →
    let r := s.ring (pairKey o n)
    (r.state = .disabled → exec (.cqHead b o n v) s = .next s) ∧
    (r.state ≠ .disabled → headValid r v.toNat →
      exec (.cqHead b o n v) s = .next (s.onRing (pairKey o n) (fun r => { r with cqHead := v.toNat }))) ∧
    (r.state = .enabled → ¬ headValid r v.toNat →
      ∃ t, exec (.cqHead b o n v) s = .next t ∧
        t.ring (pairKey o n) = { r with state := .faulted, faultCode := 2, faultPos := r.cqHead }) ∧
    (r.state = .draining ∨ r.state = .faulted → ¬ headValid r v.toNat →
      ∃ t, exec (.cqHead b o n v) s = .next t ∧ (t.ring (pairKey o n)).cqHead = r.cqHead ∧
        (t.ring (pairKey o n)).state = r.state)

/-- R68, R69, Table 2-1: ENABLE = 1 starts a DISABLED pair whose configuration is valid with its four pointers at zero, and
faults one with a cause of the CONFIG row (code 0x05); ENABLE = 0 drains an ENABLED or FAULTED pair; a DRAINING pair whose work
is done becomes DISABLED and keeps its pointers, and one with work left stays as it is. -/
def Obligations.RingPairEnablesDrainsAndStops : Prop :=
  ∀ (s : State) (b : Bus) (o n : Nat), o ≤ 512 → n < 8 →
    (accepts s b o = true → (o = 512 ∨ n < (s.slice o).ringPairs) → (s.ring (pairKey o n)).state = .disabled →
      configBad s (pairKey o n) = false →
      ∃ t, exec (.ringEnable b o n) s = .next t ∧ (t.ring (pairKey o n)).state = .enabled ∧
        (t.ring (pairKey o n)).rqTail = 0 ∧ (t.ring (pairKey o n)).cqHead = 0 ∧ (t.ring (pairKey o n)).rqHead = 0 ∧
        (t.ring (pairKey o n)).cqTail = 0 ∧ (t.ring (pairKey o n)).rqBase = (s.ring (pairKey o n)).rqBase ∧
        ∀ j, j ≠ pairKey o n → t.ring j = s.ring j) ∧
    (accepts s b o = true → (o = 512 ∨ n < (s.slice o).ringPairs) → (s.ring (pairKey o n)).state = .disabled →
      configBad s (pairKey o n) = true →
      ∃ t, exec (.ringEnable b o n) s = .next t ∧ (t.ring (pairKey o n)).state = .faulted ∧
        (t.ring (pairKey o n)).faultCode = 5 ∧ waits t 0x249) ∧
    (accepts s b o = true → (s.ring (pairKey o n)).state = .enabled ∨ (s.ring (pairKey o n)).state = .faulted →
      exec (.ringDisable b o n) s
        = .next (s.onRing (pairKey o n) (fun r => { r with enable := false, state := .draining }))) ∧
    ((s.ring (pairKey o n)).state = .draining → pairQuiet s (pairKey o n) = true →
      exec (.ringDrained o n) s
        = .next (s.onRing (pairKey o n) (fun r => { r with state := .disabled, cq := [], reread := [] }))) ∧
    (pairQuiet s (pairKey o n) = false → exec (.ringDrained o n) s = .next s)

/-- R65, R34, R35: a fetch turn of the next ready pair gives the first REQ_IDs offered to the descriptors it reads, and issues
one read of them; the next search begins after that pair. R498: where the read of several is denied, each is to be read again
by itself. R76, R36, R116: the one descriptor of a read arrives: RQ_HEAD moves past it, and the request, unless its slice is
stopping or Fetch finds it wrong, goes to Resolve when its handle names an association and to the Seam gate when it does not.
R498: a descriptor of a denied read is read again by itself. -/
def Obligations.DescriptorsAreReadWholeOrSingly : Prop :=
  (
  ∀ (s : State) (rids : List Nat) (key : Nat), nextReady s = some key →
    freeIds s rids (turnSize s key) = true → roomFor s (pickChannel s) 2 = true →
    let addr := ((s.ring key).rqBase.toNat + 64 * ((s.ring key).rqHead % 2 ^ (s.ring key).rqLog2)) % 2 ^ 64
    (permitted s (classOf (pairOwner key)) (pairOwner key) false addr (64 * turnSize s key) →
      ∃ t, exec (.fetchTurn rids) s = .next t ∧ t.engine.turn = key + 1 ∧ (t.ring key).descOut = true ∧
        (∃ a ∈ t.port.outstanding, a.kind = .descriptor ∧ a.pair = key ∧ a.write = false ∧ a.chan = pickChannel s ∧
          a.len = 64 * turnSize s key ∧ a.addr = addr) ∧
        ∀ rid ∈ rids.take (turnSize s key),
          ∃ q, t.req rid = some q ∧ q.owner = pairOwner key ∧ q.ring = key % 8 ∧ q.stage = .descRead ∧
            q.chan = pickChannel s) ∧
    (¬ permitted s (classOf (pairOwner key)) (pairOwner key) false addr (64 * turnSize s key) → 2 ≤ turnSize s key →
      ∃ t, exec (.fetchTurn rids) s = .next t ∧ t.engine.turn = key + 1 ∧ (t.ring key).descOut = false ∧
        (t.ring key).reread = rids.take (turnSize s key) ∧ t.port = s.port)) ∧
  (
  ∀ (s : State) (o n rid : Nat) (a : Acc) (q : Req), n < 8 →
    let key := pairKey o n
    let r := s.ring key
    (s.port.ended.find? (fun a => decide (a.kind = .descriptor) && a.pair == key && !a.write)) = some a →
    (r.reread = [] ∧ inOrder s (reading s key) = [rid]) ∨ r.reread = [rid] → s.req rid = some q → q.stat = none →
    q.abortWaiting = [] →
    let d := parseDesc (cut a.data 0 64)
    let failed := if stopping s q.owner then some (ends .quiesced 0x01)
      else fetchCheck q.cls (portConfigured s q.owner d.linePort) s.pke.routineSet d
    ∃ t q', exec (.descriptorArrival o n) s = .next t ∧ t.req rid = some q' ∧
      (t.ring key).rqHead = ptrAdd r.rqHead 1 r.rqLog2 ∧ (t.ring key).descOut = false ∧ (t.ring key).reread = [] ∧
      q'.d = d ∧ q'.epochs.desc = a.epoch.toNat % 16 ∧
      (failed = none → q'.stat = none ∧
        q'.stage = if d.opcode = 0x71 then .abortWait else if needsResolve d then .resolve else .gate) ∧
      (∀ e, failed = some e → q'.stage = .over ∧ q'.outerEnded = true ∧ q'.stat.map Stat.ending = some e)) ∧
  (
  ∀ (s : State) (o n rid : Nat) (rest : List Nat) (q : Req), n < 8 →
    (s.ring (pairKey o n)).reread = rid :: rest → (s.ring (pairKey o n)).descOut = false → s.req rid = some q →
    roomFor s q.chan 2 = true →
    permitted s (classOf (pairOwner (pairKey o n))) (pairOwner (pairKey o n)) false
      (((s.ring (pairKey o n)).rqBase.toNat + 64 * (q.pos % 2 ^ (s.ring (pairKey o n)).rqLog2)) % 2 ^ 64) 64 →
    ∃ t a, exec (.descSingleReread o n) s = .next t ∧ (t.ring (pairKey o n)).descOut = true ∧
      t.port.outstanding = s.port.outstanding ++ [a] ∧ a.kind = .descriptor ∧ a.req = rid ∧ a.len = 64 ∧
      a.addr = ((s.ring (pairKey o n)).rqBase.toNat + 64 * (q.pos % 2 ^ (s.ring (pairKey o n)).rqLog2)) % 2 ^ 64)

/-! ## From the gate to Myeno (chapter 1) -/

/-- R123, R124, R127, R148: the Seam gate counts a held request and lets a request in turn into Gather, or, on a spread ring,
to be granted; it ends a NOP_FENCE there with OK. R269, R271, R272, R278: Resolve makes the lookup that the line port and the
descriptor give, first reading the octets of the input that the lookup needs, or makes the hit commit that is due; the blob of
a cold association that arrives moves its request to the gate. R81, R38, R39: list entries, and octets of the side block and of
the input, are appended in order with the epoch of their access, and Gather goes on. -/
def Obligations.GateResolverAndArrivalsServeRequests : Prop :=
  (
  ∀ (s : State) (rid : Nat) (q : Req), s.req rid = some q → q.stage = .gate →
    (gateHeld s q = true → exec (.seamGatePass rid) s = .next (s.countHold rid q)) ∧
    (gateHeld s q = false → inTurn s q = true → q.d.opcode ≠ 0x70 →
      (q.homeGrant.isSome ∨ spreadOf s (pairKey q.owner q.ring) = none →
        exec (.seamGatePass rid) s = .next (s.gatherStart rid)) ∧
      (q.homeGrant = none → (spreadOf s (pairKey q.owner q.ring)).isSome = true →
        exec (.seamGatePass rid) s = .next (s.putReq rid { q with stage := .granted }))) ∧
    (gateHeld s q = false → inTurn s q = true → q.d.opcode = 0x70 → q.stat = none →
      ∃ t q', exec (.nopFence rid) s = .next t ∧ exec (.seamGatePass rid) s = .next t ∧ t.req rid = some q' ∧
        q'.stage = .over ∧ q'.outerEnded = true ∧
        q'.stat = some { tag := 0, ending := { st := .ok, detail := 0 }, cflags := 0, inDone := 0, nonceUsed := 0 }) ∧
    (gateHeld s q = true → q.d.opcode = 0x70 → exec (.nopFence rid) s = .next (s.countHold rid q))) ∧
  (
  ∀ (s : State) (rid : Nat) (q : Req), s.req rid = some q →
    (q.stage = .resolve → dirAhead s q = false →
      (∀ e, q.found = some e → exec (.resolve rid) s = .next (s.commitFound rid q e)) ∧
      (q.found = none → (∀ n, lookupOf (s.linePort q.d.linePort) q.d q.inData ≠ .needInput n) →
        exec (.resolve rid) s = .next (s.lookup rid q (lookupOf (s.linePort q.d.linePort) q.d q.inData))) ∧
      (∀ n a left, q.found = none → lookupOf (s.linePort q.d.linePort) q.d q.inData = .needInput n →
        q.d.fragList = false → q.inData.length < min n q.d.inLen → q.readOff = q.inData.length →
        regionAt q.inRegions q.readOff = some (a, left) →
        let k := min (min 128 left) (q.d.inLen - q.readOff)
        stagingRoom s q (q.readOff + k) = true → roomFor s q.chan 2 = true →
        permitted s (classOf q.owner) q.owner false (a % 2 ^ 64) k →
        ∃ t x, exec (.resolve rid) s = .next t ∧ t.port.outstanding = s.port.outstanding ++ [x] ∧ x.kind = .input ∧
          x.write = false ∧ x.req = rid ∧ x.addr = a % 2 ^ 64 ∧ x.len = k ∧ x.off = q.readOff ∧
          t.req rid = some { q with readOff := q.readOff + k })) ∧
    (∀ a, s.port.ended.find? (fun a => decide (a.kind = .blob) && a.req == rid) = some a → q.stage = .blobRead →
      exec (.blobReadArrival rid) s
        = .next ((s.taken a).putReq rid
            { q with blob := a.data, stage := .gate, epochs := { q.epochs with blob := a.epoch.toNat % 16 } }))) ∧
  (
  ∀ (s : State) (rid : Nat) (q : Req) (a : Acc), s.req rid = some q →
    (s.port.ended.find? (fun a => decide (a.kind = .fragList) && a.req == rid) = some a →
      exec (.fragmentListArrival rid) s
        = .next (((s.taken a).putReq rid
            { q with
              frags := q.frags ++ (List.range (a.len / 16)).map (fun i => ((fragEntry a.data i).1, (fragEntry a.data i).2.1))
              fragsRead := q.fragsRead + a.len / 16
              listDone := decide (q.d.fragCount ≤ q.fragsRead + a.len / 16) }).gatherOn rid)) ∧
    (s.port.ended.find? (fun a => decide (a.kind = .side) && a.req == rid && a.off == q.side.length) = some a →
      exec (.inputDataArrival rid) s
        = .next (((s.taken a).putReq rid
            { q with
              side := q.side ++ a.data
              sideDone := decide (sideLen q.d ≤ q.side.length + a.data.length)
              epochs := { q.epochs with side := q.epochs.side ++ [(a.data.length, a.epoch.toNat % 16)] } }).gatherOn rid)) ∧
    (s.port.ended.find? (fun a => decide (a.kind = .side) && a.req == rid && a.off == q.side.length) = none →
      s.port.ended.find? (fun a => decide (a.kind = .input) && a.req == rid && a.off == q.inData.length) = some a →
      exec (.inputDataArrival rid) s
        = .next (((s.taken a).putReq rid
            { q with
              inData := q.inData ++ a.data
              epochs := { q.epochs with input := q.epochs.input ++ [(a.data.length, a.epoch.toNat % 16)] } }).gatherOn rid)))

/-- R42, R43: a HEAD beat is taken from the Seam, its tag kept, once the slots that the request names have been verified; a
request that Myeno refuses outright, or one that a check of its HEAD refuses, ends with that ending; any other is checked on.
R26, R27, R45: an inward beat that carries the tag of the next beat on the Seam is taken in its order; one marked POISON ends the
request instead; one whose fields disagree with the HEAD is discarded with the Seam's alarm, as is one of no request. R41: a
CANCEL beat stops the request with the status it carries. -/
def Obligations.HeadAndInwardBeatsReachMyeno : Prop :=
  (
  ∀ (s v : State) (rid : Nat) (q : Req) (b : Beat) (rest : List Beat), s.req rid = some q → q.seam = b :: rest →
    b.kind = BeatKind.head.code → q.m.headSeen = false → v = (namedSlots q).foldl State.verifySlot s → v.req rid = some q →
    let taken := v.putReq rid
      { q with
        seam := rest
        m := { q.m with
          headSeen := true, headTag := b.tag, lastSeen := b.tag.getLsbD 53
          exhaustedAtCheck := (namedSlots q).filter (fun n => decide ((v.slot n).state = .exhausted))
          totalWrong := if b.tag.getLsbD 53 then q.lengthWrong else none } }
    (∀ e, e.st ≠ .partialEnd → refusedOutright taken = some e → exec (.headArrival rid) s = .next (taken.checkFail rid e)) ∧
    (refusedOutright taken = none → v.start.state ≠ .resetting →
      (∀ e, e.st ≠ .partialEnd → isLaneOp q.d.opcode = false ∨ q.entry = none → headChecks taken q = some e →
        exec (.headArrival rid) s = .next (taken.checkFail rid e)) ∧
      ((isLaneOp q.d.opcode = true ∧ q.entry.isSome = true) ∨ headChecks taken q = none →
        exec (.headArrival rid) s = .next ((((taken.checkOn rid).stageOn rid).lengthEnd rid).readOutList rid)))) ∧
  (
  ∀ (s : State) (tag : U64),
    let rid := fld tag.toNat 0 16
    (s.req rid = none → exec (.inwardBeatArrival tag) s = .next (s.strayBeat rid tag)) ∧
    (∀ (q : Req) (b : Beat) (rest : List Beat), s.req rid = some q → q.seam = b :: rest → q.m.headSeen = true →
      b.kind ≠ BeatKind.head.code → b.kind ≠ BeatKind.cancel.code →
      (r26Fields tag ≠ r26Fields q.m.headTag →
        exec (.inwardBeatArrival tag) s = .next ((s.putReq rid { q with seam := rest }).seamIntegrity rid q)) ∧
      (r26Fields tag = r26Fields q.m.headTag → q.m.ending = none →
        let m1 : Myeno :=
          { q.m with
            lastSeen := q.m.lastSeen || tag.getLsbD 53
            totalWrong := if tag.getLsbD 53 then q.lengthWrong else q.m.totalWrong }
        (tag = b.tag → tag.getLsbD 59 = false →
          exec (.inwardBeatArrival tag) s
            = .next ((((s.putReq rid { q with seam := rest, m := { m1 with beats := q.m.beats ++ [b] } }).checkOn rid).stageOn
                rid).lengthEnd rid)) ∧
        (tag &&& ~~~(0x0800000000000000#64) = b.tag → tag.getLsbD 59 = true →
          exec (.inwardBeatArrival tag) s = .next ((s.putReq rid { q with seam := rest, m := m1 }).poisonEnd rid))))) ∧
  (
  ∀ (s : State) (rid : Nat) (q : Req) (b : Beat) (rest : List Beat) (e : Ending), s.req rid = some q → q.seam = b :: rest →
    q.m.headSeen = true → b.kind = BeatKind.cancel.code → leNat (cut b.data 0 1) = e.st.code →
    leNat (cut b.data 1 1) = e.detail →
    exec (.cancel rid) s
      = .next ((s.putReq rid { q with seam := rest, m := { q.m with cancel := some e, lastSeen := true } }).stopRequest rid e e))

/-! ## Deliver and the system port (chapters 1, 2, 3, 17, 21) -/

/-- R25, R292: the STAT beat completes the outward stream: its content is taken, the learn commit is made, and the request is over,
save a DIR opcode that Myeno passed, which has still to act. R51, R52, R572: the next write of the output is issued with the
octets that stand at its offset; a denied one ends the output with ACCESS_FAULT, DETAIL 0x05. R95: after the last one, the
chain state of a link that opens one is written, 128 octets. -/
def Obligations.OutwardStreamCompletesAndIsWritten : Prop :=
  (
  ∀ (s : State) (rid : Nat) (q : Req) (st : Stat), s.req rid = some q → q.m.statSent = some st → q.stat = none →
    q.statReady = true →
    exec (.statArrival rid) s
      = .next ((s.putReq rid
          { q with
            stat := some st
            stage := if isDirOp q.d.opcode && st.ending.st.good then .gather else .over
            outerEnded := !q.m.dispatched && q.m.cancel.isSome && q.m.cancel == some st.ending }).learnCommit rid q
              st.ending.st.good)) ∧
  (
  ∀ (s : State) (rid : Nat) (q : Req) (addr room : Nat), s.req rid = some q → q.outEnd = none → q.recordIssued = false →
    q.nextOut ≠ 0 → q.outPending < 64 → roomFor s q.chan 2 = true → q.outAt q.outOff = some (addr, room) →
    (permitted s (classOf q.owner) q.owner true (addr % 2 ^ 64) (min q.nextOut room) →
      ∃ t a, exec (.outputWriteIssue rid) s = .next t ∧ t.port.outstanding = s.port.outstanding ++ [a] ∧
        a.kind = .output ∧ a.write = true ∧ a.chan = q.chan ∧ a.addr = addr % 2 ^ 64 ∧ a.len = min q.nextOut room ∧
        a.data = cut q.out q.outOff (min q.nextOut room) ∧
        t.req rid = some
          { q with
            outOff := q.outOff + min q.nextOut room
            pieces := q.pieces ++ [{ off := q.outOff, len := min q.nextOut room, acked := false, ended := false }] }) ∧
    (¬ permitted s (classOf q.owner) q.owner true (addr % 2 ^ 64) (min q.nextOut room) →
      ∃ t q', exec (.outputWriteIssue rid) s = .next t ∧ t.req rid = some q' ∧
        q'.outEnd = some { st := .accessFault, detail := 5 } ∧ q'.outOff = q.outOff)) ∧
  (
  ∀ (s : State) (rid : Nat) (q : Req) (bs : Bytes), s.req rid = some q → q.outEnd = none → q.recordIssued = false →
    q.nextOut = 0 → q.chainWrite = some bs → q.chainWriteOut = false → q.outComplete = true → q.outOff = q.out.length →
    roomFor s q.chan 2 = true → permitted s (classOf q.owner) q.owner true (chainAddr q.d % 2 ^ 64) 128 →
    ∃ t a, exec (.outputWriteIssue rid) s = .next t ∧ t.port.outstanding = s.port.outstanding ++ [a] ∧
      a.kind = .chainState ∧ a.write = true ∧ a.addr = chainAddr q.d % 2 ^ 64 ∧ a.len = 128 ∧ a.data = bs ∧
      t.req rid = some { q with chainWriteOut := true })

/-- R651: the response to an output write of one part acknowledges its octets; the last beat of an input read of one part
leaves its octets with the access that has ended. R652: an access part that gets no response in time ends in error and
its tag is retired; a response that comes for a retired tag is counted and has no other effect but to free the tag. -/
def Obligations.ResponsesEndAccesses : Prop :=
  (
  ∀ (s : State) (chan tag : Nat) (a : Acc), chan < 4 → accWith s chan tag = some a →
    (∀ p q, a.write = true → a.kind = .output → a.err = false → a.parts = [p] → s.req a.req = some q →
      ∃ t, exec (.writeResponse chan tag false) s = .next t ∧
        t.port.outstanding = s.port.outstanding.filter (fun x => x.id != a.id) ∧
        t.req a.req = some { q with pieces := endPiece a.off true q.pieces }) ∧
    (∀ p data, a.write = false → a.kind = .input → a.err = false → a.parts = [p] → readsOn s a.req = true →
      ∃ t b, exec (.readDataBeat chan tag data true false) s = .next t ∧
        t.port.outstanding = s.port.outstanding.filter (fun x => x.id != a.id) ∧
        t.port.ended = s.port.ended ++ [b] ∧ b.id = a.id ∧ b.off = a.off ∧ b.data = (p.takeBeat data).data) ∧
    (exec (.spResponseTimeout chan tag) s
      = .next (State.onPart
          { s with port := { s.port with timeouts := s.port.timeouts + 1, late := s.port.late ++ [(chan, tag)] } } a tag true
          (fun p => { p with done := true })))) ∧
  (
  ∀ (s : State) (chan tag : Nat), chan < 4 → accWith s chan tag = none → (chan, tag) ∈ s.port.late →
    let freed := { s with port := { s.port with
      lateResponses := s.port.lateResponses + 1, late := s.port.late.filter (fun e => e != (chan, tag)) } }
    (∀ err, exec (.writeResponse chan tag err) s = .next freed) ∧
    (∀ data err, exec (.readDataBeat chan tag data true err) s = .next freed) ∧
    exec (.spResponseTimeout chan tag) s = .next s)

/-- R571, Table 17-5: a request that ends PARTIAL writes the 64 octets of its journal entry to the next place of its ring's
journal; without a journal the entry is lost and counted. R53, R55, R69, Table 2-8: the record of a request, once its journal
entry is settled where one is due, is written in its ring's order to the completion ring's next entry, or discarded where the
ring's records are lost. R146: that of a request granted by another instance goes there in a TOKEN. R34: the acknowledgement
of a record marks its entry and releases the REQ_ID. -/
def Obligations.JournalEntriesAndRecordsAreWritten : Prop :=
  (
  ∀ (s : State) (rid : Nat) (q : Req) (st : Stat), s.req rid = some q → q.content = some st →
    st.ending.st = .partialEnd → q.journal = .notDue → q.contentDone = true → q.homeGrant = none →
    let r := s.ring (pairKey q.owner q.ring)
    let addr := (r.journalBase.toNat + 64 * (r.journalNext % 2 ^ r.journalLog2)) % 2 ^ 64
    (r.journalLog2 = 0 →
      ∃ t, exec (.journalWrite rid) s = .next t ∧ t.req rid = some { q with journal := .lost } ∧
        t.start.journalLost = s.start.journalLost + 1) ∧
    (r.journalLog2 ≠ 0 → roomFor s q.chan 2 = true → permitted s (classOf q.owner) q.owner true addr 64 →
      ∃ t a, exec (.journalWrite rid) s = .next t ∧ t.port.outstanding = s.port.outstanding ++ [a] ∧ a.kind = .journal ∧
        a.addr = addr ∧ a.len = 64 ∧ a.data = journalEntry s q st ∧ t.req rid = some { q with journal := .written } ∧
        (t.ring (pairKey q.owner q.ring)).journalNext = (r.journalNext + 1) % 2 ^ r.journalLog2)) ∧
  (
  (∀ (s : State) (rid : Nat) (q : Req) (st : Stat), s.req rid = some q → q.content = some st →
    q.recordIssued = false → q.contentDone = true → q.waitRecords = [] →
    (∀ home nn, q.homeGrant = some (home, nn) →
      exec (.completionRecordIssue rid) s
        = .next ((((s.countRecord q st).chainEnd q st).sendMsg kToken home
            (tokenBody nn q.sseq (recordBytes s q st))).releaseReq rid)) ∧
    (q.homeGrant = none → st.ending.st ≠ .partialEnd ∨ q.journal = .acked ∨ q.journal = .lost → recordTurn s q = true →
      roomFor s q.chan 2 = true →
      let r := s.ring (pairKey q.owner q.ring)
      let addr := (r.cqBase.toNat + 32 * ((r.cqTail + r.cq.length) % 2 ^ r.cqLog2)) % 2 ^ 64
      (r.recordsLost = false → permitted s (classOf q.owner) q.owner true addr 32 →
        ∃ t a, exec (.completionRecordIssue rid) s = .next t ∧ t.port.outstanding = s.port.outstanding ++ [a] ∧
          a.kind = .record ∧ a.write = true ∧ a.addr = addr ∧ a.len = 32 ∧ a.data = recordBytes s q st ∧
          t.req rid = some { q with recordIssued := true } ∧
          (t.ring (pairKey q.owner q.ring)).cq = r.cq ++ [{ acked := false, notify := q.d.notify, chan := q.chan }]) ∧
      (r.recordsLost = true →
        exec (.completionRecordIssue rid) s = .next (((s.countRecord q st).chainEnd q st).releaseReq rid)))) ∧
  (∀ (s : State) (rid : Nat) (a : Acc),
    s.port.ended.find? (fun a => decide (a.kind = .record) && a.req == rid) = some a →
    ∃ t, exec (.completionRecordAck rid) s = .next t ∧ t.req rid = none ∧
      t.ring a.pair = (s.ring a.pair).ackEntry a.off))

/-- R66, R122, R53: the tail word over the acknowledged run of entries is written, on the channel of the request whose record is
the last of them (with requests of several channels the model's choice, log entry 74); its acknowledgement publishes them. R104,
R105: a notification writes NOTIFY_DATA to NOTIFY_ADDR on that channel and leaves no entry pending. -/
def Obligations.TailWordPublishesAndNotifies : Prop :=
  ∀ (s : State) (o n : Nat), n < 8 →
    let key := pairKey o n
    let r := s.ring key
    (r.tailInFlight = 0 → ackedRun r.cq ≠ 0 → roomFor s (r.coverChan (ackedRun r.cq)) 2 = true →
      permitted s (classOf o) o true r.tailWordAddr.toNat 8 →
      ∃ t a, exec (.tailWriteIssue o n) s = .next t ∧ t.port.outstanding = s.port.outstanding ++ [a] ∧ a.kind = .tailWord ∧
        a.chan = r.coverChan (ackedRun r.cq) ∧ a.addr = r.tailWordAddr.toNat ∧ a.len = 8 ∧
        a.data = leBytes 8 (tailWord (ptrAdd r.cqTail (ackedRun r.cq) r.cqLog2) r.rqHead) ∧
        (t.ring key).tailInFlight = ackedRun r.cq) ∧
    (∀ a, s.port.ended.find? (fun a => decide (a.kind = .tailWord) && a.pair == key) = some a → r.notifyAddr = 0 →
      exec (.tailWriteAck o n) s
        = .next ((s.taken a).onRing key (fun r =>
            { r with
              cqTail := ptrAdd r.cqTail r.tailInFlight r.cqLog2
              completed := r.completed + BitVec.ofNat 64 r.tailInFlight, cq := r.cq.drop r.tailInFlight
              tailInFlight := 0, pendingNotes := 0 }))) ∧
    (r.notifyAddr ≠ 0 → 0 < r.pendingNotes →
      permitted s .service o true r.notifyAddr.toNat 4 →
      ∃ t a, exec (.coalTimeExpiry o n) s = .next t ∧ t.port.outstanding = s.port.outstanding ++ [a] ∧
        a.kind = .notification ∧ a.chan = r.tailChan ∧ a.addr = r.notifyAddr.toNat ∧ a.len = 4 ∧ a.data = leBytes 4 r.notifyData.toNat ∧
        (t.ring key).pendingNotes = 0)

/-! ## Dispatch and the lanes (chapters 1 and 4) -/

/-- R47: a lane request at Dispatch whose key and checks stand is captured on the lane chosen, once that lane has a draw left (log
entry 66); one under a slot's key goes on to that choice with the key its slot holds. R117, R118: one whose turn has not come waits,
counted once. R338, R347: a digest request takes a context of the unit chosen, with its key when it has one. R678, R382, R422: a key
opcode acts as its own row says, a PKE_RUN goes to an engine as its row says, and an RNG_FILL joins the queue of fills. -/
def Obligations.DispatchCapturesLaneRequest : Prop :=
  (∀ (s : State) (rid : Nat) (q : Req), s.req rid = some q → isLaneOp q.d.opcode = true → q.atDispatch = true →
    q.anyPoison = false →
    (orderWaits s q = true → q.m.orderCounted = false →
      ∃ t, exec (.dispatch rid) s = .next t ∧ t.order.nonceOrderHolds = s.order.nonceOrderHolds + 1 ∧
        t.req rid = some { q with m := { q.m with orderCounted := true } }) ∧
    (∀ k n, orderWaits s q = false → q.m.cold = some k → sciShort q = false → rngRefusal s = none → rngWaits s = false →
      ¬ (heldMode s q.d = true ∧ 1024 < stagingTaken s + holdSegs q.d) →
      chooseLane s (needsInverse k.transform q.d.opcode) [] = some n → laneDraw s n = true →
      exec (.dispatch rid) s = .next (s.captureOn rid n q k)) ∧
    (∀ v n, orderWaits s q = false → q.m.cold = none → v = (namedSlots q).foldl State.verifySlot s →
      (v.req rid).map Req.ended = some false → namedAgain v q = none → keySlot v q = .ok n → stateCheck (v.slot n) = none →
      valueChecks v q n = none →
      exec (.dispatch rid) s = .next (v.assignLane rid q (v.captured q n)))) ∧
  (∀ (s : State) (rid : Nat) (q : Req), s.req rid = some q → isLaneOp q.d.opcode = false → isDigestOp q.d.opcode = true →
    q.atDispatch = true → q.anyPoison = false → orderWaits s q = false →
    (∀ u, keyedDigest q = false → chooseUnit s roomReq [] = some u →
      ∃ t q', exec (.dispatch rid) s = .next t ∧ t.req rid = some q' ∧ q'.m.dispatched = true ∧ q'.m.key = none ∧
        q'.m.work = digestStart s q none q'.m.work.chain ∧ (t.unitAt u).ctxs = (s.unitAt u).ctxs ++ [.req rid] ∧
        t.digest.requests = s.digest.requests + 1 ∧ t.digest.pointer = (u + 1) % 8) ∧
    (∀ v, keyedDigest q = true → v = (namedSlots q).foldl State.verifySlot s → (v.req rid).map Req.ended = some false →
      firstFail [useAgain v q.handle, pairCheck v q.handle] = none →
      exec (.dispatch rid) s
        = .next (v.enterDigest rid q (some ((v.slot (hSlot q.handle)).copy (hSlot q.handle) false))))) ∧
  (∀ (s : State) (rid : Nat) (q : Req) (i : Instr) (op : Nat), s.req rid = some q → q.d.opcode = op →
    (i, op) ∈ [(Instr.keyLoadWrapped rid, 0x30), (.keyErase rid, 0x31), (.keyGen rid, 0x32), (.keyExportWrapped rid, 0x33),
      (.pkeRun rid, 0x40)] → exec (.dispatch rid) s = exec i s) ∧
  (∀ (s : State) (rid : Nat) (q : Req), s.req rid = some q → q.d.opcode = 0x50 → q.m.headSeen = true → q.m.checked = true →
    q.m.dispatched = false → q.ended = false → q.outListDone = true → s.rng.fills.contains rid = false → rngRefusal s = none →
    rngWaits s = false →
    exec (.dispatch rid) s = .next { s with rng := { s.rng with fills := s.rng.fills ++ [rid] } })

/-- R195: a lane's turn goes to the context that is next; its request's next segment is issued. R167 to R175, R189, R190,
R192: each lane opcode computes the oldest segment issued and not yet computed, from the request's key, its work so far and the
segment's text; the output waits in the lane for the compare, behind that of the segments before it. R197: a context that runs its
segments in sequence issues its next one by itself. R49, R50, R92: when a segment's compares have passed, its output goes out, or
is held (R190), and its staging is released; a stop takes effect when the segments issued have passed; the final segment closes the
request. -/
def Obligations.LaneSegmentsAreComputedAndReleased : Prop :=
  (
  ∀ (s : State) (lane : Nat) (c : Ctx) (q : Req), lane < 16 → nextTurn s (s.lane lane) = some c → s.req c.req = some q →
    q.segPoison q.m.segIssued = false →
    ∃ t, exec (.laneTurn lane) s = .next t ∧ t.lanes.segments = s.lanes.segments + 1 ∧
      t.lanes.contextMoves = (if (s.lane lane).current = some c.req then s.lanes.contextMoves else s.lanes.contextMoves + 1) ∧
      (t.lane lane).current = some c.req ∧
      t.req c.req = some { q with m := { q.m with segIssued := q.m.segIssued + 1 } }) ∧
  (
  ∀ (s : State) (rid lane op : Nat) (i : Instr) (q : Req) (k : KeyCopy),
    (i, op) ∈ [(Instr.aeadSeal rid, 0x10), (.aeadOpen rid, 0x11), (.cipherEnc rid, 0x14), (.cipherDec rid, 0x15),
      (.macGen rid, 0x18), (.macVerify rid, 0x19)] →
    s.req rid = some q → q.d.opcode = op → q.m.ending = none → q.m.key = some k → laneOf s rid = some lane →
    (q.m.segComputed < q.m.segIssued →
      let n := q.m.segComputed
      let r := runText op k.transform k.secret q.m.work (if n = 0 then q.authAad k else []) (segText q n)
      let lead := if n = 0 ∧ q.d.profile = 7 ∧ q.d.opcode = 0x14 ∧ q.d.nonceHw then q.m.work.iv else []
      ∃ t, exec i s = .next t ∧
        t.req rid = some
          { q with
            m := { q.m with
              work := r.1, inLane := q.m.inLane ++ [{ out := lead ++ r.2, work := r.1 }], segComputed := n + 1 } }) ∧
    (seqOp k.transform op = true → q.m.segIssued = q.m.segComputed → q.canIssue = true → q.segPoison q.m.segIssued = false →
      exec i s = exec i (s.putReq rid { q with m := { q.m with segIssued := q.m.segIssued + 1 } }))) ∧
  (
  ∀ (s : State) (rid : Nat) (q : Req), s.req rid = some q → isLaneOp q.d.opcode = true → q.m.ending = none →
    q.m.segPassed < q.m.segComputed →
    let out := ((q.m.inLane.head?.map SegOut.out).getD []).drop q.m.outReleased
    let p : Req :=
      if q.m.held = true then { q with m := { q.m with heldOut := q.m.heldOut ++ q.beatsOut .out out } }
      else { q with outBeats := q.outBeats ++ q.beatsOut .out out }
    let s1 := s.putReq rid
      { p with
        m := { p.m with
          ckpt := (q.m.inLane.head?.map SegOut.work).getD q.m.work, inLane := q.m.inLane.drop 1, outReleased := 0
          tries := 0, excluded := [], recovering := false, segPassed := q.m.segPassed + 1 } }
    (q.m.stopAtSegment = none → q.finalSeg q.m.segPassed = false → q.m.totalWrong = none →
      exec (.tangoPass rid) s = .next s1) ∧
    (∀ w, q.m.stopAtSegment = none → q.finalSeg q.m.segPassed = false → q.m.totalWrong = some w →
      exec (.tangoPass rid) s = .next (s1.lengthEnd rid)) ∧
    (q.m.stopAtSegment = none → q.finalSeg q.m.segPassed = true → exec (.tangoPass rid) s = .next (s1.laneClose rid)) ∧
    (∀ e, q.m.stopAtSegment = some e →
      exec (.tangoPass rid) s = .next (if q.m.segIssued = q.m.segPassed + 1 then s1.myenoEnd rid e else s1)))

/-! ## Tango (chapter 8) -/

/-- R303, R309, R310, R318: a mismatch of a block leaves the results before it released and is counted against the lane, and the
request restarts at its checkpoint on another lane, the lanes that failed it excluded; R322, R323: a late pace beat raises
PACE_MARGIN as well; one at the close restarts from the latest verified checkpoint, unless a sampled posture has released what that
needs. R343: a block of a digest request that fails is recomputed on another unit. R307, R316: one of the key-handling units is
recomputed at most twice, and the request or the key window then reports RETRY_IMPOSSIBLE, DETAIL 0x02. R318, R329: a FILL block
that fails in QUIET counts against its lane or unit. R320: a retest is begun on every lane of the mask that is out of service and on
no other; a lane that passes returns with its mismatches forgotten, one that fails stays out. -/
def Obligations.MismatchedLanesRecoverAndRetest : Prop :=
  (
  ∀ (s : State) (rid n passed : Nat) (q : Req) (k : KeyCopy), s.req rid = some q → isLaneOp q.d.opcode = true →
    q.m.dispatched = true → q.m.ending = none → q.m.segPassed < q.m.segComputed → q.m.key = some k → laneOf s rid = some n →
    let unitLen := if tChacha k.transform then 64 else 16
    let fail (t : State) (i : Nat) : State := ((t.releaseTo rid i).leaveContext rid).laneMismatch n rid
    exec (.tangoMismatch rid .block passed) s
      = .next ((fail s (passed * unitLen)).recover rid q k (q.m.excluded ++ [n]) false) ∧
    exec (.tangoMismatch rid .paceLate passed) s
      = .next ((fail s.paceLate (passed * unitLen)).recover rid q k (q.m.excluded ++ [n]) false) ∧
    (q.finalSeg q.m.segPassed = true → closesTag q.d = true →
      exec (.tangoMismatch rid .close passed) s
        = .next
          (if sampleGroup q.m.posture ≠ 1 ∧ q.m.segPassed ≠ 0 then
            ((fail s q.m.laneOut.length).releaseSeg rid).retryImpossible rid 1
          else (fail s q.m.laneOut.length).recover rid q k (q.m.excluded ++ [n]) true)) ∧
    (q.m.lost = false → q.m.tries < 2 →
      ∀ m, chooseLane (fail s (passed * unitLen)) (needsInverse k.transform q.d.opcode) (q.m.excluded ++ [n]) = some m →
        ∃ t q', exec (.tangoMismatch rid .block passed) s = .next t ∧ t.req rid = some q' ∧ q'.m.tries = q.m.tries + 1 ∧
          q'.m.work = q.m.ckpt ∧ q'.m.inLane = [] ∧ q'.m.segComputed = q.m.segPassed ∧ q'.m.segIssued = q.m.segPassed ∧
          q'.m.retried = true ∧ t.tango.mismatches = s.tango.mismatches + 1 ∧
          t.tango.recomputations = s.tango.recomputations + 1) ∧
    (q.m.held = false → ∀ i, (s.releaseTo rid i).req rid = some
      { q.putOut ((q.m.laneOut.take (min i q.m.laneOut.length)).drop q.m.outReleased) with
        m := { q.m with outReleased := max (min i q.m.laneOut.length) q.m.outReleased } }) ∧
    (s.paceLate).tango.paceMargin = min 7 (s.tango.paceMargin + 1)) ∧
  (
  (∀ (s : State) (rid u passed : Nat) (q r : Req), s.req rid = some q → isLaneOp q.d.opcode = false →
    isDigestOp q.d.opcode = true → unitOf s rid = some u → (s.digestRun rid u passed).req rid = some r →
    exec (.tangoMismatch rid .block passed) s = .next ((s.digestRun rid u passed).digestMismatch rid r)) ∧
  (∀ (s : State) (rid passed : Nat) (q : Req), s.req rid = some q → isLaneOp q.d.opcode = false →
    isDigestOp q.d.opcode = false → keyWork s q = true →
    s.keys.loads.find? (fun l => l.source != 0 && l.source != 3 && l.req == rid) = none →
    (q.m.tries < 2 → ∃ t, exec (.tangoMismatch rid .block passed) s = .next t ∧
      t.tango.mismatches = s.tango.mismatches + 1 ∧ t.tango.recomputations = s.tango.recomputations + 1 ∧
      t.req rid = some { q with m := { q.m with tries := q.m.tries + 1, retried := true, recovering := true } }) ∧
    (2 ≤ q.m.tries → q.m.ending = none → ∃ t q', exec (.tangoMismatch rid .block passed) s = .next t ∧
      t.tango.mismatches = s.tango.mismatches + 1 ∧ t.req rid = some q' ∧
      q'.m.ending = some (ends .retryImpossible 2))) ∧
  (∀ (s : State) (rid o passed : Nat) (l : Load), s.keys.loads.find? (fun l => l.source == 0 && l.page == o) = some l →
    (l.tries < 2 → ∃ t, exec (.tangoMismatch rid (.keyWindow o) passed) s = .next t ∧
      t.keys.loads = s.keys.loads.map (fun x => if x = l then { x with tries := x.tries + 1 } else x) ∧
      t.tango.mismatches = s.tango.mismatches + 1 ∧ t.tango.recomputations = s.tango.recomputations + 1) ∧
    (2 ≤ l.tries → ∃ t, exec (.tangoMismatch rid (.keyWindow o) passed) s = .next t ∧ t.keys.loads = s.keys.loads.erase l ∧
      t.keys.slots = s.keys.slots ∧ (t.kw o).busy = false ∧ (t.kw o).status = Status.retryImpossible.code ∧
      (t.kw o).detail = 2 ∧ t.tango.retryNoLane = s.tango.retryNoLane + 1)) ∧
  (∀ (s : State) (rid n passed : Nat), s.tango.posture = .quiet →
    (n < 16 → s.lanes.powered.getLsbD n = true →
      exec (.tangoMismatch rid (.fillLane n) passed) s = .next (s.laneMismatch n 0)) ∧
    (n < 8 → exec (.tangoMismatch rid (.fillUnit n) passed) s = .next (s.unitMismatch n)))) ∧
  (
  (∀ (s : State) (mask : BitVec 16), ∃ t, exec (.laneRetest mask) s = .next t ∧
    ∀ n, t.lane n =
      if n < 16 ∧ mask.getLsbD n = true ∧ (s.lane n).state = .outOfService then { s.lane n with retesting := true }
      else s.lane n) ∧
  (∀ (s : State) (lane : Nat), lane < 16 → (s.lane lane).retesting = true →
    (s.lanes.enable.getLsbD lane = true → s.lanes.powered.getLsbD lane = true → (s.lane lane).ctxs = [] →
      ∃ t, exec (.laneRetestDone lane true) s = .next t ∧
        t.lane lane =
          { s.lane lane with retesting := false, retestFailed := false, recent := [], cause := 0, state := .idle }) ∧
    (∃ t, exec (.laneRetestDone lane false) s = .next t ∧
      t.lane lane = { s.lane lane with retesting := false, retestFailed := true })) ∧
  (∀ (s : State) (lane : Nat) (passed : Bool), lane < 16 → (s.lane lane).retesting = false →
    exec (.laneRetestDone lane passed) s = .next s))

/-- R330: a write of POSTURE starts a change to another posture; to LEAN, lanes 8 to 15 lose power; from LEAN, the raised
voltage is requested first. While a change is under way the write is refused and changes nothing. R330, R331, R662: the steps
that end a change of posture: the voltage is lowered once lanes 8 to 15 are empty; they are powered again once the supply has
reached the request or the limit has passed; the change is over when no request of the earlier posture remains and VREQ shows
the request. R661: a request takes back VREQ_VALID at once, changes VREQ after two cycles of TS_CLK and gives VREQ_VALID back
two cycles later. -/
def Obligations.PostureChangesAreOrderedAndCompleted : Prop :=
  (
  ∀ (s : State) (p : Posture), p ≠ s.tango.posture →
    (s.tango.changing = false → ∃ t, exec (.posture p.code) s = .next t ∧ t.tango.posture = p ∧
      t.tango.previous = s.tango.posture ∧ t.tango.changing = true ∧
      t.tango.postureChanges = s.tango.postureChanges + 1 ∧
      (p = .lean → t.lanes.powered = 0x00FF#16 ∧ t.tango.entering = true) ∧
      (s.tango.posture = .lean → t.pins = s.pins.request 800)) ∧
    (s.tango.changing = true → exec (.posture p.code) s = .next s)) ∧
  (
  ∀ (s : State),
    (s.tango.entering = true → (∀ i < 8, (s.lane (8 + i)).ctxs = []) →
      ∃ t, exec .lanesDrainedForLean s = .next t ∧ t.pins = s.pins.request 720 ∧ t.tango.entering = false ∧
        t.tango.seamHalved = true) ∧
    (∀ mv, (s.pins.request mv).vreqValid = false ∧ (s.pins.request mv).vreq = s.pins.vreq ∧
      (s.pins.request mv).supplyReached = false ∧
      (s.pins.request mv).requestOn.requestOn.vreq = mv ∧ (s.pins.request mv).requestOn.requestOn.vreqValid = false ∧
      (s.pins.request mv).requestOn.requestOn.requestOn.requestOn.vreq = mv ∧
      (s.pins.request mv).requestOn.requestOn.requestOn.requestOn.vreqValid = true) ∧
    (s.tango.leaving = true →
      ∃ t, exec .supplyReached s = .next t ∧ t.pins.supplyReached = true ∧ t.lanes.powered = 0xFFFF#16 ∧
        t.tango.leaving = false ∧ t.tango.seamHalved = false) ∧
    (s.tango.leaving = true → s.pins.supplyReached = false →
      ∃ t, exec .vreqLimitExpiry s = .next t ∧ t.pins.vreqTimeouts = s.pins.vreqTimeouts + 1 ∧
        t.lanes.powered = 0xFFFF#16 ∧ t.tango.leaving = false) ∧
    (s.tango.changing = true → s.tango.leaving = false → s.tango.entering = false →
      s.pins.vreq = s.pins.vreqNext → earlierPosture s = false →
      ∃ t, exec .postureSettled s = .next t ∧ t.tango.changing = false ∧ t.tango.posture = s.tango.posture))

/-! ## Digest units (chapter 9) -/

/-- R339, R346, R347, R354: in its unit's turn a digest opcode absorbs the rest of one segment of the message; the final segment is
followed by the finish of the opcode: the digest or HMAC goes out as ICV beats, or is compared with EXPECT, a link that leaves its
chain open writes its chain state (R348), and a DIGEST_SAVE gives its state record. -/
def Obligations.DigestOpcodesAbsorbSegment : Prop :=
  ∀ (s : State) (rid u op : Nat) (i : Instr) (q : Req),
    (i, op) ∈ [(Instr.digest rid, 0x20), (.hmac rid, 0x21), (.digestSave rid, 0x22), (.digestResume rid, 0x23)] →
    s.req rid = some q → unitOf s rid = some u → q.d.opcode = op → unitTurn s u = some (.ctx (.req rid)) →
    q.segPoison q.m.segPassed = false →
    let rest := ((q.m.payload.drop (4096 * q.m.segPassed)).take 4096).drop q.m.outReleased
    let h := (q.m.work.hash q.d.profile).absorb rest
    exec i s = .next (((s.turnOn u (.req rid)).digestRun rid u 4096).digestSegDone rid u) ∧
    (q.finalSeg q.m.segPassed = false → q.m.totalWrong = none →
      ∃ t, exec i s = .next t ∧ (t.unitAt u).current = none ∧
        t.req rid = some
          { q with
            m := { q.m with
              work := q.m.work.ofHash h, ckpt := q.m.work.ofHash h, outReleased := 0, tries := 0, excluded := []
              recovering := false, segIssued := q.m.segPassed + 1, segComputed := q.m.segPassed + 1
              segPassed := q.m.segPassed + 1 } }) ∧
    (q.finalSeg q.m.segPassed = true → q.m.heldOut = [] → op ≠ 0x22 → q.d.opens = false →
      let n := digestOut q.d
      let res := match q.m.key with
        | some k => hmacClose h k.secret n
        | none => h.finish n
      (q.d.cmp = false → ∃ t q', exec i s = .next t ∧ t.req rid = some q' ∧ q'.m.ending = some (ends .ok 0) ∧
        q'.icvBeats = q.icvBeats ++ q.beatsOut .icv res) ∧
      (q.d.cmp = true → ∃ t q', exec i s = .next t ∧ t.req rid = some q' ∧ q'.icvBeats = q.icvBeats ++ q.beatsOut .icv [] ∧
        q'.m.ending = some (if q.m.expect.take n = res then ends .ok 0 else ends .authFail 0x02))) ∧
    (q.finalSeg q.m.segPassed = true → q.m.heldOut = [] → op ≠ 0x22 → q.d.opens = true → q.m.work.chain.isSome = true →
      ∃ t q', exec i s = .next t ∧ t.req rid = some q' ∧ q'.m.ending = some (ends .ok 0) ∧ q'.icvBeats = q.icvBeats ∧
        q'.chainWrite.isSome = true) ∧
    (q.finalSeg q.m.segPassed = true → op = 0x22 →
      ∃ t q' bs, exec i s = .next t ∧ t.req rid = some q' ∧ q'.m.ending = some (ends .ok 0) ∧ bs.length = 256 ∧
        q'.outBeats = q.outBeats ++ q.beatsOut .out bs ∧ t.digest.saved = s.digest.saved + 1)

/-- R357, Table 9-9: a write of DG_CONFIG abandons the computation of an open block; it claims a context when the configuration is
legal and a unit has room, and clears the outcome; a configuration refused leaves the block closed with ERROR CONFIG, one for which
no unit has room with ERROR NO_CONTEXT; ALG 0 leaves it closed. R358, R360, R362: octets written are buffered for the computation
under way, which the first of them begins, once a finish still pending has placed its result; the last write adds its valid octets
and asks for the finish; a write with no space is an overrun and adds nothing. -/
def Obligations.DigestPagesTakeConfigurationAndData : Prop :=
  (
  ∀ (s : State) (b : Bus) (o : Nat) (v : U64), accepts s b o = true →
    let alg := fld v.toNat 0 8
    let refused := configRefused alg (fld v.toNat 16 7) (bit v.toNat 9)
    ∃ t, exec (.dgConfig b o v) s = .next t ∧ (t.page o).alg = alg ∧ (t.page o).keyed = bit v.toNat 9 ∧
      (t.page o).compare = bit v.toNat 8 ∧ (t.page o).outLen = fld v.toNat 16 7 ∧ (t.page o).done = false ∧
      (t.page o).result = zeros 64 ∧
      ((s.page o).isOpen = true → (t.page o).backlog = [] ∧ (t.page o).work = HashWork.none ∧ (t.page o).key = none) ∧
      (alg = 0 → (t.page o).isOpen = false ∧ (t.page o).error = 0) ∧
      (alg ≠ 0 → refused = true → (t.page o).isOpen = false ∧ (t.page o).error = 7) ∧
      (alg ≠ 0 → refused = false → (s.page o).isOpen = false →
        ((∃ u < 8, unitAvail s u = true ∧ roomPage (s.unitAt u) = true) → (t.page o).isOpen = true ∧ (t.page o).error = 0 ∧
          (t.unitAt (t.page o).unit).ctxs = (s.unitAt (t.page o).unit).ctxs ++ [.page o]) ∧
        ((∀ u < 8, unitAvail s u = false ∨ roomPage (s.unitAt u) = false) → (t.page o).isOpen = false ∧ (t.page o).error = 1 ∧
          t.digest.noContext = s.digest.noContext + 1))) ∧
  (
  ∀ (s : State) (b : Bus) (o : Nat) (v : U64), accepts s b o = true → (s.page o).blocked = false →
    ((s.page o).lastPending = false → ∀ t, t = s.pageBegin o true → (t.page o).blocked = false →
      ((t.page o).space ≠ 0 →
        exec (.digestData b o v) s = .next (t.onPage o (fun p => { p with backlog := p.backlog ++ leBytes 8 v.toNat }))) ∧
      ((t.page o).space ≠ 0 ∨ fld v.toNat 56 3 = 0 →
        ∃ u, exec (.digestLast b o 0x18 v) s = .next u ∧ (u.page o).lastPending = true ∧
          (u.page o).backlog = (t.page o).backlog ++ (leBytes 8 v.toNat).take (fld v.toNat 56 3)) ∧
      ((t.page o).space = 0 →
        ∃ u, exec (.digestData b o v) s = .next u ∧ (u.page o).backlog = (t.page o).backlog ∧ (u.page o).error = 2 ∧
          (u.page o).overrun = true ∧ u.digest.overruns = t.digest.overruns + 1)) ∧
    ((s.page o).lastPending = true → (s.page o).overrun = false →
      exec (.digestData b o v) s = exec (.digestData b o v) (s.pageFinish o)) ∧
    ((s.page o).work.alg ≠ 0 → s.pageBegin o true = s) ∧
    ((s.page o).work.alg = 0 → (s.page o).keyed = false →
      ((s.pageBegin o true).page o).work = HashWork.start (s.page o).alg ∧ ((s.pageBegin o true).page o).done = false ∧
      ((s.pageBegin o true).page o).result = zeros 64))

/-- R359, R360: in its unit's turn the finish places the result, or the outcome of the compare, and the computation is done. R339,
R342, R343: a unit runs blocks of the computation whose turn it is, a request's, a register block's or an internal job's; one that
fails is recomputed on another unit, and the third failure of one block abandons a register computation with ERROR 6. R329, R344: a
unit without a turn runs FILL blocks in QUIET, whose failure counts against it. R344: a retest is begun on every unit of the mask
that is out of service and on no other; a unit that passes returns with its mismatches forgotten, one that fails is marked and
stays out. -/
def Obligations.DigestUnitsRunFinishAndRetest : Prop :=
  (
  ∀ (s : State) (o : Nat), (s.page o).isOpen = true → (s.page o).lastPending = true → (s.page o).overrun = false →
    unitTurn s (s.page o).unit = some (.ctx (.page o)) →
    let p := s.page o
    let h := p.work.absorb p.backlog
    let res := match p.key with
      | some k => hmacClose h k.secret p.resLen
      | none => h.finish p.resLen
    ∃ t, exec (.digestFinishDone o) s = .next t ∧ (t.page o).done = true ∧ (t.page o).lastPending = false ∧
      (t.page o).backlog = [] ∧ (t.page o).resultRead = false ∧ t.digest.direct = s.digest.direct + 1 ∧
      (t.page o).work = HashWork.none ∧ (t.page o).equal = (p.compare && decide (p.expect.take p.resLen = res)) ∧
      (t.page o).notEqual = (p.compare && !decide (p.expect.take p.resLen = res)) ∧
      (t.page o).result = (if p.compare = true then zeros 64 else cut res 0 64)) ∧
  (
  ∀ (s : State) (u passed : Nat), u < 8 →
    (∀ o, unitTurn s u = some (.ctx (.page o)) → unitAvail s u = true →
      exec (.digestBlockDone u ⟨passed, .pass⟩) s = .next ((s.turnOn u (.page o)).pageAbsorb o passed) ∧
      exec (.digestBlockDone u ⟨passed, .mismatch⟩) s
        = .next (((s.turnOn u (.page o)).pageAbsorb o passed).pageMismatch o) ∧
      (2 ≤ (s.page o).tries →
        ∃ t, exec (.digestBlockDone u ⟨0, .mismatch⟩) s = .next t ∧ (t.page o).error = 6 ∧ (t.page o).isOpen = (s.page o).isOpen ∧
          (t.page o).work = HashWork.none ∧ (t.page o).key = none)) ∧
    (∀ rid, unitTurn s u = some (.ctx (.req rid)) →
      exec (.digestBlockDone u ⟨passed, .pass⟩) s = .next ((s.turnOn u (.req rid)).digestRun rid u passed) ∧
      ∀ q, ((s.turnOn u (.req rid)).digestRun rid u passed).req rid = some q →
        exec (.digestBlockDone u ⟨passed, .mismatch⟩) s
          = .next (((s.turnOn u (.req rid)).digestRun rid u passed).digestMismatch rid q)) ∧
    (∀ j, unitTurn s u = some .internal → (s.unitAt u).internal = some j →
      exec (.digestBlockDone u ⟨passed, .pass⟩) s = .next (s.internalRun u passed) ∧
      (passed < j.blocks → passed < 64 - (s.unitAt u).internalTurn →
        ∃ t, exec (.digestBlockDone u ⟨passed, .pass⟩) s = .next t ∧
          t.digest.internalBlocks = s.digest.internalBlocks + BitVec.ofNat 64 passed ∧
          (t.unitAt u).internal.map Internal.blocks = some (j.blocks - passed))) ∧
    (unitTurn s u = none → s.tango.posture = .quiet →
      exec (.digestBlockDone u ⟨passed, .mismatch⟩) s = .next (s.unitMismatch u) ∧
      exec (.digestBlockDone u ⟨passed, .paceLate⟩) s = .next (s.paceLate.unitMismatch u))) ∧
  (
  (∀ (s : State) (mask : BitVec 8), ∃ t, exec (.unitRetest mask) s = .next t ∧
    ∀ u, t.unitAt u =
      if u < 8 ∧ mask.getLsbD u = true ∧ (s.unitAt u).state = .outOfService then { s.unitAt u with retesting := true }
      else s.unitAt u) ∧
  (∀ (s : State) (u : Nat), u < 8 → (s.unitAt u).retesting = true →
    (∃ t, exec (.unitRetestDone u true) s = .next t ∧ t.digest.retestFailed.getLsbD u = false ∧
      t.unitAt u =
        { s.unitAt u with
          retesting := false, recent := [], failed := false
          state := unitStateOf (s.digest.enable.getLsbD u && unitsPowered s) false (s.unitAt u).isEmpty }) ∧
    (∃ t, exec (.unitRetestDone u false) s = .next t ∧ t.digest.retestFailed.getLsbD u = true ∧
      t.unitAt u = { s.unitAt u with retesting := false })) ∧
  (∀ (s : State) (u : Nat) (passed : Bool), u < 8 → (s.unitAt u).retesting = false →
    exec (.unitRetestDone u passed) s = .next s))

/-- R363: SAVE absorbs the whole blocks buffered and seals a state record of a computation of whole blocks, and refuses another with
ERROR 3; RESTORE starts a computation, keyed or not, from a record that opens and refuses another with ERROR 5; ABANDON drops the
computation and keeps the context. -/
def Obligations.DigestCommandsSaveRestoreAbandon : Prop :=
  ∀ (s : State) (b : Bus) (o : Nat), accepts s b o = true →
    (∀ s1, s1 = ((s.pageHome o).pageBegin o true).pageAbsorb o 64 → (s.page o).blocked = false →
      (s.page o).lastPending = false → (s1.page o).blocked = false →
      ((s1.page o).backlog = [] →
        ∃ t, exec (.dgCmdSave b o) s = .next t ∧ t.digest.saved = s1.digest.saved + 1 ∧
          (t.page o).stateRec
            = (s1.makeRecord o ((s1.page o).key.map (fun k => (k.slot.getD 0, k.gen))) (s1.page o).alg (s1.page o).length
                (s1.page o).work.st).1) ∧
      ((s1.page o).backlog ≠ [] →
        exec (.dgCmdSave b o) s = .next (s1.onPage o (fun p => { p with error := 3 })))) ∧
    (∀ s1, s1 = ((s.onPage o DigestPage.abandon).pageBegin o false).countControl
          (if (s.page o).keyed = true then wrapBlocks 224 else 0) → (s.page o).blocked = false →
      (s1.page o).blocked = false →
      let p := s1.page o
      let slot := if p.keyed = true then some (hSlot p.handle, hGen p.handle) else none
      (∀ n st, openRecord s1 o p.alg slot p.stateRec = some (n, st) →
        ∃ t, exec (.dgCmdRestore b o) s = .next t ∧ t.digest.resumed = s1.digest.resumed + 1 ∧
          (t.page o).work =
            { alg := p.alg, st := st.take (stateLen p.alg), buf := []
              total := n + (if p.keyed = true then hashRate p.alg else 0) }) ∧
      (openRecord s1 o p.alg slot p.stateRec = none →
        ∃ t, exec (.dgCmdRestore b o) s = .next t ∧ t.digest.refused = s1.digest.refused + 1 ∧ (t.page o).error = 5 ∧
          (t.page o).work = HashWork.none)) ∧
    ((s.page o).isOpen = true →
      exec (.dgCmdAbandon b o) s
        = .next (s.onPage o (fun p => { p.abandon with error := if p.overrun then 0 else p.error })))

/-! ## Key slots (chapters 5 and 6) -/

/-- R222: an accepted commit whose checks pass makes the window busy and starts the load of the slot it names with the values staged;
one that fails a check reports it; either way the staged secret is gone in the end. A clear puts every staged value back at its reset
value. A window that is busy takes neither. R226: the oldest load waiting for a slot comes into force, or is refused, and the window
or the request that made it is told. -/
def Obligations.KeyWindowLoadsComeIntoForce : Prop :=
  (
  ∀ (s : State) (b : Bus) (o : Nat), kwAccepts s b o = true →
    ((s.kw o).busy = true → exec (.kwCommitLoad b o) s = .next s ∧ exec (.kwCommitClear b o) s = .next s) ∧
    ((s.kw o).busy = false → ∀ v w, w = s.kw o → v = s.verifySlot (hSlot w.handle) →
      let bad := firstFail
        [refusedOutright v, if hKind w.handle = 0 ∨ hKind w.handle = 3 then none else invalid 0x05,
          loadCheck v o w.handle, lifeCheck v true,
          paramCheck v o (hSlot w.handle) (hKind w.handle) false w.params]
      (bad = none → ∃ t l, exec (.kwCommitLoad b o) s = .next t ∧ (t.kw o).busy = true ∧
        t.keys.loads = v.keys.loads ++ [l] ∧ l.slot = hSlot w.handle ∧ l.source = 0 ∧ l.page = o ∧ l.start = w.start ∧
        l.transform = w.transform ∧ l.sealing = w.sealing ∧ l.kind3 = (hKind w.handle == 3) ∧
        l.secret = secretOf w.transform w.secretBytes ∧ l.salt12 = w.saltBytes) ∧
      (∀ e, bad = some e → ∃ t, exec (.kwCommitLoad b o) s = .next t ∧ (t.kw o).busy = false ∧
        (t.kw o).status = e.st.code ∧ (t.kw o).detail = e.detail ∧ (t.kw o).secret = [] ∧ (t.kw o).salt = [] ∧
        t.keys.loads = v.keys.loads)) ∧
    ((s.kw o).busy = false →
      exec (.kwCommitClear b o) s = .next (s.onKw o (fun w =>
        { KeyWindow.dflt 0 with busy := w.busy, status := w.status, detail := w.detail, newHandle := w.newHandle })))) ∧
  (
  ∀ (s : State) (slot : Nat) (l : Load), slot < 65536 → s.keys.loads.find? (fun l => l.slot == slot) = some l →
    let s1 := s.onKeys (fun k => { k with loads := k.loads.erase l })
    (∀ o, l.source = 0 → o = l.page →
      (loadRefused s1 o l = none →
        ∃ t, exec (.loadInForce slot) s = .next t ∧ t.slot slot = (s1.applyLoad l).slot slot ∧ (t.kw o).busy = false ∧
          (t.kw o).status = 0 ∧ (t.kw o).secret = [] ∧ t.keys.loads = (s1.applyLoad l).keys.loads) ∧
      (∀ e, loadRefused s1 o l = some e →
        ∃ t, exec (.loadInForce slot) s = .next t ∧ t.keys.slots = s.keys.slots ∧ (t.kw o).busy = false ∧
          (t.kw o).status = e.st.code ∧ (t.kw o).detail = e.detail ∧ t.keys.loads = s.keys.loads.erase l)) ∧
    (∀ q, l.source ≠ 0 → s.req l.req = some q →
      (loadRefused s1 q.owner l = none →
        exec (.loadInForce slot) s = .next ((s1.applyLoad l).myenoEnd l.req { st := .ok, detail := 0 })) ∧
      (∀ e, loadRefused s1 q.owner l = some e → exec (.loadInForce slot) s = .next (s1.myenoEnd l.req e))) ∧
    (l.winEn = false → (s1.slot slot).winEn = false →
      (s1.applyLoad l).slot slot = Slot.loaded l (s.slot slot)))

/-- R225, R226, R230, R233, R241, R243: the key-slot opcodes act at Dispatch, once their slots verify and the tests made again pass: a
wrapped load and a generation start a load, an erase makes the slot ERASING, or takes a cold key out of the cold cache, an export
sends the blob out. -/
def Obligations.KeyOpcodesActAtDispatch : Prop :=
  ∀ (s v : State) (rid : Nat) (q : Req), s.req rid = some q → mayAct s q = true →
    v = (namedSlots q).foldl State.verifySlot s → (v.req rid).map Req.ended = some false →
    (∀ x, q.d.opcode = 0x30 → loadAgain v q.handle = none → blobKey v q = .ok x →
      ∃ t l, exec (.keyLoadWrapped rid) s = .next t ∧ t.keys.loads = v.keys.loads ++ [l] ∧ l.slot = hSlot q.handle ∧
        l.req = rid ∧ l.source = 1 ∧ l.fromBlob = true ∧ l.transform = x.key.transform ∧ l.earlierEpoch = x.earlier ∧
        l.sealing = ((readParams q.item).sealing && x.sealing && !(tCounter x.key.transform)) ∧
        l.secret = secretOf x.key.transform x.key.secret ∧ l.salt12 = x.key.salt12) ∧
    (q.d.opcode = 0x32 → loadAgain v q.handle = none → rngRefusal v = none → drawWaits v = false →
      let p := readParams q.item
      let r := v.internalDraw (genLen p.transform)
      ∃ t l, exec (.keyGen rid) s = .next t ∧ t.keys.loads = v.keys.loads ++ [l] ∧ l.slot = hSlot q.handle ∧ l.req = rid ∧
        l.source = 2 ∧ l.fromBlob = false ∧ l.secret = genSecret p.transform r.1 ∧
        l.salt12 = (if p.saltGen = true ∧ hKind q.handle ≠ 3 then (r.2.internalDraw 12).1 else zeros 12)) ∧
    (q.d.opcode = 0x31 → q.entry = none → eraseAgain v q.handle = none →
      ∃ t, exec (.keyErase rid) s = .next t ∧ (t.slot (hSlot q.handle)).state = .erasing ∧
        (t.slot (hSlot q.handle)).paired = false ∧ (t.slot (hSlot q.handle)).chainOpen = false ∧
        { slot := hSlot q.handle, req := rid, limitHit := false } ∈ t.keys.erases) ∧
    (q.d.opcode = 0x31 → q.entry.isSome = true →
      ∃ t q', exec (.keyErase rid) s = .next t ∧ t.req rid = some q' ∧ q'.m.ending = some (ends .ok 0) ∧
        t.keys.coldCache = v.keys.coldCache.filter (fun e => !(e.hits q.owner q.m.keyblob)) ∧ t.keys.slots = v.keys.slots) ∧
    (q.d.opcode = 0x33 → useAgain v q.handle = none →
      let x := v.slot (hSlot q.handle)
      let r := v.wrapBlob q.owner (x.copy (hSlot q.handle) false) x.kind3 (x.sealing && !(tCounter x.transform))
      exec (.keyExportWrapped rid) s
        = .next ((((r.2.acted rid).onReq rid (Req.putOut r.1)).onKeys (fun k =>
            { k with exports := k.exports + 1 })).myenoEnd rid { st := .ok, detail := 0 }))

/-- R254, R255, R262: ASSOC_ROLL forms a pair of a slot and its neighbour with the ANs given, the named slot transmitting; rolls it,
so that the neighbour transmits; and dissolves it; the request then ends OK. One that a test of its ACTION refuses changes neither
slot. -/
def Obligations.AssocRollFormsRollsAndDissolves : Prop :=
  ∀ (s v : State) (rid : Nat) (q : Req), s.req rid = some q → mayAct s q = true → q.d.opcode = 0x34 →
    v = (namedSlots q).foldl State.verifySlot s → (v.req rid).map Req.ended = some false → assocAgain v q = none →
    let n := hSlot q.handle
    let w := q.d.inAddr.toNat
    let good (t : State) : Prop := (t.req rid).map (fun x => x.m.ending) = some (some (ends .ok 0))
    (fld w 0 2 = 1 → formCheck v q.owner n w = none →
      ∃ t, exec (.assocRollForm rid) s = .next t ∧ good t ∧ (t.slot n).paired = true ∧ (t.slot n).tx = true ∧
        (t.slot (n ^^^ 1)).paired = true ∧ (t.slot (n ^^^ 1)).tx = false ∧
        (t.slot n).an = (if n % 2 = 0 then fld w 2 2 else fld w 4 2) ∧
        (t.slot (n ^^^ 1)).an = (if n % 2 = 0 then fld w 4 2 else fld w 2 2) ∧
        (t.slot n).autoRoll = bit w 6 ∧ (t.slot (n ^^^ 1)).autoRoll = bit w 6) ∧
    (∀ e, fld w 0 2 = 1 → formCheck v q.owner n w = some e → exec (.assocRollForm rid) s = .next (v.myenoEnd rid e)) ∧
    (fld w 0 2 = 2 → (v.slot n).paired = true →
      ∃ t, exec (.assocRollDissolve rid) s = .next t ∧ good t ∧ t.slot n = (v.slot n).unpair ∧
        t.slot (n ^^^ 1) = (v.slot (n ^^^ 1)).unpair) ∧
    (fld w 0 2 = 0 → rollCheck (v.slot (txSlot v n ^^^ 1)) = none →
      ∃ t, exec (.assocRollRoll rid) s = .next t ∧ good t ∧ t.keys.manualRolls = v.keys.manualRolls + 1 ∧
        t.slot (txSlot v n) = { v.slot (txSlot v n) with tx := false } ∧
        t.slot (txSlot v n ^^^ 1) = { v.slot (txSlot v n ^^^ 1) with tx := true }) ∧
    (∀ e, fld w 0 2 = 0 → rollCheck (v.slot (txSlot v n ^^^ 1)) = some e →
      exec (.assocRollRoll rid) s = .next (v.myenoEnd rid e))

/-- R241, R242: an erase whose slot is ERASING and held by no one any more completes, and the slot's contents are gone; one that exceeds the
limit stops the holders and is counted. R212: a legal allotment gives every slot of its range to the owner, empty, and no
other slot; R235: a legal size of the cold cache is taken and the cache emptied. -/
def Obligations.ErasesAndAllotmentsEmptySlots : Prop :=
  (
  ∀ (s : State) (slot : Nat) (e : Erase), slot < 65536 → s.keys.erases.find? (fun e => e.slot == slot) = some e →
    ((s.slot slot).state = .erasing → holders s slot = [] → pageHolders s slot = [] → jobHolds s slot = false →
      ∃ t, exec (.eraseComplete slot) s = .next t ∧ t.keys.erases = s.keys.erases.erase e ∧
        t.keys.erasesDone = s.keys.erasesDone + 1 ∧
        ((s.slot slot).winEn = false → t.slot slot = (s.slot slot).wiped) ∧
        ((s.slot slot).winEn = true → (s.slot slot).winSlot ≠ slot →
          t.slot slot = (s.slot slot).wiped ∧ t.slot (s.slot slot).winSlot = (s.slot (s.slot slot).winSlot).wiped)) ∧
    (e.limitHit = false →
      ∃ t, exec (.eraseLimitExpiry slot) s = .next t ∧ t.keys.eraseLimitHits = s.keys.eraseLimitHits + 1 ∧
        { e with limitHit := true } ∈ t.keys.erases)) ∧
  (
  (∀ (s : State), allotCheck s = .done → ∃ t, exec .allotCommit s = .next t ∧ t.keys.allotStatus = .done ∧
    ∀ n, t.slot n =
      if s.keys.allotBase.toNat ≤ n ∧ n < s.keys.allotBase.toNat + s.keys.allotCount.toNat then
        { Slot.dflt 0 with owner := ownerOf s.keys.allotOwner.toNat }
      else s.slot n) ∧
  (∀ (s : State) (v : U32),
    v.toNat ∈ [0, 1, 2, 4, 8, 16, 32, 64, 128, 256, 512, 1024, 2048, 4096, 8192] →
    (∀ e ∈ s.keys.slots, 65536 - max v.toNat s.keys.coldCacheSlots ≤ e.1 → e.2.owner = none) →
    exec (.coldCacheSlots v) s = .next (s.onKeys (fun k => { k with coldCacheSlots := v.toNat, coldCache := [] }))))

/-! ## The random number service (chapter 11) -/

/-- R404, R407, R408: from the end of settling on every sample of a source is tested: a repetition of 41, or 793 in a window of 1,024,
fails the source and, in T9 behaviour, stops a running service; the samples of the two sources in use, taken alternately, form a
block once there are 256 of each, which enters the pool when the windows of its samples have closed. R406, R425 to R427: the end of
settling starts the start-up test, which passes with both sources of T9 behaviour good, or with two of the four in T7-compatible
behaviour. R409, R410, R426: three blocks instantiate the DRBG, from which the cache's keys are drawn once; two reseed it. -/
def Obligations.RngStartsTestsAndReseeds : Prop :=
  ∀ s : State,
    (∀ n v, n < 4 → s.rng.settled = true → s.start.inReset = false →
      let x := s.noise n
      let run := if x.lastSample = some v then x.run + 1 else 1
      let hit := v == (if x.windowPos = 0 then v else x.windowFirst)
      let count := if x.windowPos = 0 then 1 else x.windowCount + b2n hit
      let fails := decide (run = 41) || (hit && decide (count = 793))
      ∃ t, exec (.noiseSample n v) s = .next t ∧ (t.noise n).samples = x.samples + 1 ∧ (t.noise n).run = run ∧
        (t.noise n).windowCount = count ∧ (t.noise n).windowPos = (x.windowPos + 1) % 1024 ∧
        (fails = true → (t.noise n).role = .failed) ∧
        (fails = true → s.rng.state = .running → s.rng.compat = false → x.role = .inUse →
          t.rng.state = .stopped ∧ t.rng.stopCause = (if run = 41 then 1 else 2)) ∧
        (∀ m, fails = false → conditioning s = true → x.role = .inUse → m ≠ n →
          s.rng.order = [n, m] ∨ s.rng.order = [m, n] →
          (x.input.length < 255 ∨ (s.noise m).input.length < 256 →
            (t.noise n).input = x.input ++ [v] ∧ t.rng.formed = s.rng.formed) ∧
          (x.input.length = 255 → 256 ≤ (s.noise m).input.length →
            ∃ c, t.rng.formed = s.rng.formed ++ [c] ∧ (t.noise n).input = [] ∧
              (t.noise m).input = (s.noise m).input.drop 256 ∧
              c.block =
                (if s.rng.order = [n, m] then conditionedBlock (x.input ++ [v]) (s.noise m).input
                else conditionedBlock (s.noise m).input (x.input ++ [v]))))) ∧
    (s.rng.settled = false → s.start.inReset = false → s.start.state ≠ .scrap → s.start.alarmPending = false →
      (s.rng.state = .settling →
        ∃ t u, exec (.settlingEnd true) s = .next t ∧ t.rng.state = .testing ∧ t.rng.settled = true ∧
          (∀ n < 4, (t.noise n).startCount = 0 ∧ (t.noise n).run = (s.noise n).run) ∧
          exec (.settlingEnd false) s = .next u ∧ u.rng.state = .startFailed ∧ u.rng.stopCause = 5) ∧
      (s.rng.state = .rawSample → exec (.settlingEnd true) s = .next (s.onRng (fun r => { r with settled := true })))) ∧
    (s.rng.state = .testing → (∀ n < 4, 1024 ≤ (s.noise n).startCount) →
      let good (n : Nat) : Prop := (s.noise n).startFailed = false ∧ (s.noise n).role ≠ .failed
      ∃ t, exec .startupTestDone s = .next t ∧ (∀ n < 4, ((t.noise n).role = .failed ↔ ¬ good n)) ∧
        (s.rng.compat = false → good 0 ∧ good 1 → t.rng.state = .filling ∧ t.rng.order = [0, 1] ∧ (t.noise 0).role = .inUse ∧
          (t.noise 1).role = .inUse) ∧
        (s.rng.compat = false → ¬ (good 0 ∧ good 1) → t.rng.state = .startFailed ∧ t.rng.stopCause = 3) ∧
        (∀ i j, s.rng.compat = true → i < j → j < 4 → good i → good j → (∀ n < j, n ≠ i → ¬ good n) →
          t.rng.state = .filling ∧ t.rng.order = [i, j]) ∧
        (∀ i, s.rng.compat = true → (∀ n < 4, n ≠ i → ¬ good n) → t.rng.state = .startFailed ∧ t.rng.stopCause = 3)) ∧
    (∀ c, conditioning s = true → s.rng.formed.find? (blockCleared s) = some c →
      exec .poolEntry s
        = .next (s.onRng (fun r => { r with formed := r.formed.erase c, pool := (r.pool ++ [c.block]).take 16 }))) ∧
    (s.rng.state = .filling → 3 ≤ s.rng.pool.length →
      ∃ t, exec .drbgInstantiate s = .next t ∧ t.rng.state = .running ∧ t.rng.pool = s.rng.pool.drop 3 ∧
        t.rng.seeded = true ∧ t.rng.started = true ∧ (s.rng.started = false → t.keys.checkKeys.length = 72) ∧
        (s.rng.started = true → t.keys = s.keys ∧ t.dir = s.dir ∧
          t.rng.drbgKey =
            (({ s.rng with drbgKey := zeros 32, drbgV := zeros 16 } : Rng).seed
              ((s.rng.pool.take 3).flatten
                ++ octetsOf 32 (Config.personal (rootSecret s) s.start.bootEpoch.toNat))).drbgKey)) ∧
    (s.rng.state = .running → s.rng.reseedInterval ≤ s.rng.calls → 2 ≤ s.rng.pool.length →
      exec .reseed s
        = .next (s.onRng (fun r =>
            { r.seed (r.pool.take 2).flatten with pool := r.pool.drop 2, reseeds := r.reseeds + 1 })))

/-- R416, R418, R419, R422: a generate call of 64 blocks refills a lane's reservoir that holds half or less; R329: in QUIET another
draws the filler's key and data once the last are used up; the turn of the software share gives the port first in its queue 32
words, or the fill whose turn it is its next 4 KiB; a read of a port's register takes the word at its head. -/
def Obligations.RngServesItsConsumers : Prop :=
  ∀ s : State,
    (s.rng.state = .running → reseedDue s = false →
      (∀ lane, lane < 16 → (Tab.get (fun _ => []) s.rng.reservoirs lane).length ≤ 1024 →
        ∃ t, exec (.generateCall (.reservoir lane)) s = .next t ∧
          Tab.get (fun _ => []) t.rng.reservoirs lane
            = Tab.get (fun _ => []) s.rng.reservoirs lane ++ drbgBlocks s.rng.drbgKey s.rng.drbgV 64 ∧
          t.rng.generateCalls = s.rng.generateCalls + 1 ∧ t.rng.blocks = s.rng.blocks + 64) ∧
      (s.tango.posture = .quiet → s.tango.fillLeft = 0 →
        ∃ t, exec (.generateCall .filler) s = .next t ∧ t.tango.fillLeft = 4096 ∧ t.rng.blocks = s.rng.blocks + 3) ∧
      (∀ o, o < 513 → softwareTurn s = some (false, o) →
        exec (.portRefill o) s = .next (s.servePort o) ∧ exec (.generateCall .software) s = .next (s.servePort o) ∧
          (s.servePort o).rng.portWords = s.rng.portWords + 32) ∧
      (∀ rid q, softwareTurn s = some (true, rid) → s.req rid = some q →
        exec (.generateCall .software) s = .next (s.serveFill rid q) ∧
        (s.serveFill rid q).rng.fillBytes
          = s.rng.fillBytes + BitVec.ofNat 64 (min 4096 (q.d.outCap - 4096 * q.m.segPassed))) ∧
      (∀ rid q, softwareTurn (s.fillDispatch rid) = some (true, rid) → (s.fillDispatch rid).req rid = some q →
        (s.fillDispatch rid).rng.state = .running → reseedDue (s.fillDispatch rid) = false →
        exec (.rngFill rid) s = .next ((s.fillDispatch rid).serveFill rid q))) ∧
    (∀ rid q, s.req rid = some q → q.d.opcode = 0x50 → q.m.headSeen = true → q.m.checked = true → q.ended = false →
      q.outListDone = true → s.rng.fills.contains rid = false → q.m.dispatched = false → rngRefusal s = none →
      rngWaits s = false → s.fillDispatch rid = s.onRng (fun r => { r with fills := r.fills ++ [rid] })) ∧
    (∀ b o, o ≤ mgr → accepts s b o = true →
      let r := s.readFifo 1 o
      exec (.rngWord b o) s
        = .next ((if o = mgr then r.2.rawOn.wantRefill o else r.2.wantRefill o).readBack r.1))

/-- R411: a DRBG mismatch is counted, and the third on one block stops the service with cause 4. R433: RNG_FAIL_MODE selects the
behaviour. R434 to R437: raw-sample mode is entered only where it is permitted, takes one run of 1,048,576 samples at a time, and
is left for the start-up test once settling has ended, unless the service was stopped. -/
def Obligations.RngMismatchesAndRawSampleMode : Prop :=
  ∀ s : State,
    (s.rng.state = .filling ∨ s.rng.state = .running →
      ∃ t, exec .drbgMismatch s = .next t ∧ t.rng.drbgMismatches = s.rng.drbgMismatches + 1 ∧
        (s.rng.blockTries < 2 → t.rng.state = s.rng.state ∧ t.rng.blockTries = s.rng.blockTries + 1) ∧
        (2 ≤ s.rng.blockTries → t.rng.state = .stopped ∧ t.rng.stopCause = 4)) ∧
    (∀ c, ∃ t, exec (.rngFailMode c) s = .next t ∧ t.rng = { s.rng with compat := c }) ∧
    (s.rng.rawMode = false →
      (rawPermitted s = true → ∃ t, exec .rawModeEnter s = .next t ∧ t.rng.state = .rawSample ∧ t.rng.rawMode = true ∧
        t.rng.pool = [] ∧ t.rng.formed = [] ∧ t.rng.drbgKey = [] ∧ t.rng.seeded = false ∧ t.rng.reservoirs = [] ∧
        t.rng.fills = []) ∧
      (rawPermitted s = false → exec .rawModeEnter s = .next s)) ∧
    (s.rng.rawMode = true →
      ∃ t, exec .rawModeExit s = .next t ∧ t.rng.rawMode = false ∧
        t.rng.state = (match s.rng.rawReturn with
          | .stopped => .stopped
          | .startFailed => .startFailed
          | _ => if s.rng.settled = true then .testing else .settling)) ∧
    (∀ run, s.rng.state = .rawSample → s.rng.rawRun = [] → run.length = 131072 → (s.fifo 1 mgr).space (fifoDepth 1) ≠ 0 →
      ∃ t, exec (.rawRunCaptured run) s = .next t ∧ t.rng.rawRun = run)

/-! ## Public-key engines and the Caller (chapter 10) -/

/-- R382, R383: a job at Dispatch is given, with the Caller ready, its draw and its FIFO entries at hand, to the engine with the
fewest remaining steps, under the key its slot holds when it names one; with the Caller faulted it ends with INTERNAL, DETAIL 0x02.
R384: after its next 1,024 steps the engine makes the choice of a yield point: the holder goes on when no ready job has fewer steps
or has been passed over STARVE_LIMIT times. R388: a job that has run its last step and is rejected, or whose invariants are broken,
ends with PKE_REJECT, no output; else its output is released and its TARGET loaded. R392: a zeroed context is free. -/
def Obligations.PkeJobsRunOnEngines : Prop :=
  (∀ (s : State) (rid : Nat) (q : Req), s.req rid = some q → q.d.opcode = 0x40 → q.atDispatch = true →
    q.m.lastSeen = true → q.anyPoison = false → orderWaits s q = false → targetSettled s q = true → q.m.totalWrong = none →
    messageFits q.d.profile q.m.payload = true →
    (q.handle = noHandle → s.pke.caller = .faulted →
      exec (.pkeRun rid) s = .next (s.myenoEnd rid { st := .internal, detail := 2 })) ∧
    (∀ e, q.handle = noHandle → s.pke.caller = .ready →
      (routineDraws q.d.profile = true → rngRefusal s = none ∧ drawWaits s = false) →
      (toFifo q.d = true → fifoEntries (routineOut q.d.profile 0) ≤ (s.fifo 0 q.owner).space 512) →
      chooseEngine s [] = some e →
      ∃ t j, exec (.pkeRun rid) s = .next t ∧ (t.engineAt e).jobs = (s.engineAt e).jobs ++ [j] ∧ j.req = rid ∧
        j.steps = 0 ∧ j.total = routineSteps q.d.profile 0 j.iters ∧ (iterates q.d.profile = false → j.iters = 0) ∧
        j.drawn.length = (if routineDraws q.d.profile then 64 else 0) ∧ t.pke.jobs = s.pke.jobs + 1 ∧
        t.pke.pointer = (e + 1) % 4) ∧
    (∀ v, q.handle ≠ noHandle → v = (namedSlots q).foldl State.verifySlot s → (v.req rid).map Req.ended = some false →
      useAgain v q.handle = none →
      exec (.pkeRun rid) s
        = .next (v.assignEngine rid q (some ((v.slot (hSlot q.handle)).copy (hSlot q.handle) false))))) ∧
  (∀ (s : State) (rid e : Nat) (q : Req) (key : Option KeyCopy), s.pke.caller = .ready →
    (routineDraws q.d.profile = true → rngRefusal s = none ∧ drawWaits s = false) →
    (toFifo q.d = true →
      fifoEntries (routineOut q.d.profile ((key.map KeyCopy.transform).getD 0)) ≤ (s.fifo 0 q.owner).space 512) →
    chooseEngine s [] = some e → s.assignEngine rid q key = s.startJob rid e q key) ∧
  (∀ (s : State) (e : Nat) (h : Job) (q : Req), e < 4 → holderOf s e = some h → s.req h.req = some q →
    q.m.stopAtSegment = none →
    (h.steps + 1024 < h.total →
      exec (.yieldPoint e) s = .next ((s.jobSteps e 1024 q h).yield e (some { h with steps := h.steps + 1024 })) ∧
      ((∀ j ∈ readyJobs s e, j.req = h.req ∨ (h.left ≤ j.left + 1024 ∧ j.passes < s.pke.starveLimit)) →
        (∀ j ∈ (s.engineAt e).jobs, j.req = h.req → j = h) →
        ∃ t, exec (.yieldPoint e) s = .next t ∧ (t.engineAt e).current = some h.req ∧
          (t.engineAt e).steps = (s.engineAt e).steps + 1024 ∧ t.pke.yields = s.pke.yields ∧
          { h with steps := h.steps + 1024, passes := 0 } ∈ (t.engineAt e).jobs)) ∧
    (∀ s1, h.total ≤ h.steps + 1024 → s1 = (s.jobSteps e (h.total - h.steps) q h).jobCounts q h →
      (jobRejected q h = true → exec (.pkeJobEnd e true) s = .next (s1.jobEnd e h.req q { st := .pkeReject, detail := 0 } true)) ∧
      (jobRejected q h = false →
        (∃ t x, exec (.pkeJobEnd e false) s = .next t ∧ t.pke.invariantFails = s.pke.invariantFails + 1 ∧
          t.req h.req = some x ∧ (q.m.ending = none → x.m.ending = some { st := .pkeReject, detail := 0 }) ∧
          x.outBeats = q.outBeats) ∧
        exec (.pkeJobEnd e true) s = .next (s1.jobGood e h.req q h) ∧
        (q.m.ending = none → toFifo q.d = false → routineHasTarget q.d.profile = false →
          ∃ t x, exec (.pkeJobEnd e true) s = .next t ∧ t.req h.req = some x ∧ x.m.ending = some { st := .ok, detail := 0 } ∧
            x.outBeats = q.outBeats ++ q.beatsOut .out (s1.pkeOutput q h).1) ∧
        (∀ s2 l, s2 = ((s1.pkeOutput q h).2.leaveEngine e h.req true).releaseFifo q →
          l = targetLoad s2 h.req q h (s1.pkeOutput q h).1 → routineHasTarget q.d.profile = true →
          loadRefused s2 q.owner l = none →
          ∃ t, exec (.pkeJobEnd e true) s = .next t ∧ t.keys.slots = (s2.applyLoad l).keys.slots ∧
            t.pke.targetLoads = s.pke.targetLoads + 1)))) ∧
  (∀ (s : State) (e rid : Nat) (j : Job), e < 4 →
    (s.engineAt e).jobs.find? (fun j => j.req == rid && j.zeroing) = some j →
    ∃ t, exec (.pkeContextZeroed e rid) s = .next t ∧
      (t.engineAt e).jobs = (s.engineAt e).jobs.filter (fun y => !(y.ctx == j.ctx && y.zeroing)) ∧
      t.pke.operands = s.pke.operands.set (4 * e + j.ctx) [] ∧ t.pke.areas = s.pke.areas.set (4 * e + j.ctx) [] ∧
      t.pke.threads = s.pke.threads.set (4 * e + j.ctx) [])

/-- R390: a mismatch raises the engine's event, and the holder's job restarts on another engine, from its first step. R368, R391: a
FILL command that fails in QUIET counts against its engine; an engine under retest that passes is in use again with no mismatch on
its account. R370: a lockstep fault ends every job, and a ready Caller recovers; one that recovers already is faulted at its limit; a
digest that does not match leaves it faulted. -/
def Obligations.EnginesAndCallerRecover : Prop :=
  (∀ (s : State) (e : Nat), e < 4 →
    (∀ j q s1, holderOf s e = some j → s.req j.req = some q → s1 = (s.leaveEngine e j.req false).engineMismatch e →
      exec (.engineMismatch e) s = .next (s1.restartJob j (some e)) ∧
      (∀ f, q.m.tries < 2 → chooseEngine s1 [e] = some f →
        ∃ t k, exec (.engineMismatch e) s = .next t ∧ t.pke.restarts = s.pke.restarts + 1 ∧ k ∈ (t.engineAt f).jobs ∧
          k.req = j.req ∧ k.steps = 0 ∧ k.passes = 0 ∧ k.drawn = j.drawn ∧ f ≠ e ∧
          t.req j.req = some { q with m := { q.m with tries := q.m.tries + 1, retried := true, recovering := true } } ∧
          { src := 0x090 + e, arg := e, info := 0, forced := false } ∈ t.events.waiting) ∧
      (2 ≤ q.m.tries ∨ chooseEngine s1 [e] = none → q.m.ending = none →
        ∃ t x, exec (.engineMismatch e) s = .next t ∧ t.req j.req = some x ∧ x.m.ending = some (ends .retryImpossible 2))) ∧
    (holderOf s e = none → s.tango.posture = .quiet → unitsPowered s = true →
      exec (.engineMismatch e) s = .next (s.engineMismatch e))) ∧
  (∀ (s : State) (mask : BitVec 4),
    ∃ t, exec (.engineRetest mask) s = .next t ∧ ∀ e, t.engineAt e =
      if e < 4 ∧ mask.getLsbD e = true ∧ (s.engineAt e).state = .outOfService then { s.engineAt e with retesting := true }
      else s.engineAt e) ∧
  (∀ (s : State) (e : Nat), e < 4 → (s.engineAt e).retesting = true →
    (∃ t, exec (.engineRetestDone e true) s = .next t ∧ t.pke.retestFailed.getLsbD e = false ∧
      t.engineAt e =
        { s.engineAt e with
          retesting := false, recent := [], failed := false
          state := unitStateOf (s.pke.enable.getLsbD e && unitsPowered s) false (s.engineAt e).jobs.isEmpty }) ∧
    (∃ t, exec (.engineRetestDone e false) s = .next t ∧ t.engineAt e = { s.engineAt e with retesting := false } ∧
      t.pke.retestFailed.getLsbD e = true)) ∧
  (∀ s : State,
    (s.pke.caller = .ready →
      ∃ t, exec .lockstepFault s = .next t ∧ t.pke.lockstepFaults = s.pke.lockstepFaults + 1 ∧ t.pke.caller = .recovering ∧
        t.pke.lockstepRecent = within s.now 1000 s.pke.lockstepRecent ++ [s.now] ∧
        ∀ e < 4, ∀ j ∈ (t.engineAt e).jobs, j.zeroing = true) ∧
    (s.pke.caller = .recovering →
      ∃ t, exec .lockstepFault s = .next t ∧ t.pke.lockstepFaults = s.pke.lockstepFaults + 1 ∧
        t.pke.caller =
          (if s.pke.lockstepLimit ≤ (within s.now 1000 s.pke.lockstepRecent).length + 1 then .faulted else .recovering)) ∧
    (s.pke.caller = .off ∨ s.pke.caller = .faulted → exec .lockstepFault s = .next s)) ∧
  (∀ s : State, s.pke.caller = .recovering →
    (s.pke.lockstepRecent.length < s.pke.lockstepLimit →
      exec (.callerRecovered true) s = .next { s with pke := { s.pke with caller := .ready } }) ∧
    (s.pke.lockstepLimit ≤ s.pke.lockstepRecent.length → exec (.callerRecovered true) s = .next s.callerFaulted) ∧
    exec (.callerRecovered false) s = .next (({ s with pke := { s.pke with caller := .faulted } }).raise 0x212 0 0))

/-! ## Tagged FIFOs (chapter 12) -/

/-- R443, R444, R451: a read of a FIFO with words gives the next word and takes it; one without words gives an EMPTY word, or of the
event queue an IDLE word with the time, and one whose mark was lost an ERROR word; the mark, rewind and clear-mark commands
set, return to and drop the mark. R440, R446, R453: SEND appends one DATA word with the next SEQ, or is dropped and
counted when there is no space; SEND_CMD opens a packet with the entry of its LENGTH word, SEND_CLOSE writes it, and an
abandon writes an ERROR word there. -/
def Obligations.FifosAreReadMarkedAndWritten : Prop :=
  (
  ∀ (s : State) (b : Bus) (kind o : Nat), hasReader kind o = 1 → accepts s b (readerPage kind o) = true →
    let f := s.fifo kind o
    (∀ w, (kind = 2 → mailboxDead s kind o = false) → f.lostPending = false → f.count ≠ 0 → f.kept[f.read]? = some w →
      (f.keeps = false → f.read = 0) →
      ∀ c, c = Instr.fifoData b kind o ∨ (kind = 0 ∧ c = .pkFifoData b o) →
        ∃ t, exec c s = .next t ∧ t.pins.htData = BitVec.ofNat 64 w.word ∧
          (t.fifo kind o).kept.drop (t.fifo kind o).read = f.kept.drop (f.read + 1)) ∧
    ((kind = 2 → mailboxDead s kind o = false) → f.lostPending = false → f.count = 0 → f.openAt ≠ some f.read →
      ∃ t, exec (.fifoData b kind o) s = .next t ∧ t.pins.htData = BitVec.ofNat 64
        (if kind = 4 then fifoWord tagIdle f.nextSeq s.now.toNat else fifoWord tagEmpty f.nextSeq 0)) ∧
    ((kind = 2 → mailboxDead s kind o = false) → f.lostPending = true →
      ∃ t, exec (.fifoData b kind o) s = .next t ∧
        t.pins.htData = BitVec.ofNat 64 (fifoWord tagError f.nextSeq (errorData 0x02 0)) ∧
        (t.fifo kind o).marked = false ∧ (t.fifo kind o).lostPending = false) ∧
    (∃ t, exec (.fifoSetMark b kind o) s = .next t ∧ (t.fifo kind o).marked = true ∧ (t.fifo kind o).markLost = false ∧
      (t.fifo kind o).kept = f.kept.drop f.read ∧ (t.fifo kind o).read = 0) ∧
    (∃ t, exec (.fifoRewind b kind o) s = .next t ∧ (t.fifo kind o).kept = f.kept ∧
      (f.markLost = true → (t.fifo kind o).lostPending = true) ∧
      (f.markLost = false → f.marked = true → (t.fifo kind o).read = 0)) ∧
    (∃ t, exec (.fifoClearMark b kind o) s = .next t ∧ (t.fifo kind o).marked = false ∧
      (t.fifo kind o).kept = f.kept.drop f.read ∧ (t.fifo kind o).read = 0)) ∧
  (
  ∀ (s : State) (b : Bus) (kind o : Nat) (v : U64), hasWriter kind o = 1 → accepts s b (writerPage kind o) = true →
    mailboxDead s kind o = false →
    let f := s.fifo kind o
    (f.space (fifoDepth kind) ≠ 0 →
      ∃ t, exec (.send b kind o v) s = .next t ∧ (t.fifo kind o).kept = f.kept ++
        [{ tag := .data, seq := f.written % 4096, data := v.truncate 48, bad := false, packetWords := 0 }]) ∧
    (f.space (fifoDepth kind) = 0 →
      ∃ t, exec (.send b kind o v) s = .next t ∧ (t.fifo kind o).kept = f.kept ∧
        (t.fifo kind o).sendDrops = f.sendDrops + 1) ∧
    (f.space (fifoDepth kind) ≠ 0 → f.openAt = none →
      ∃ t w, exec (.sendCmdOpen b kind o) s = .next t ∧ (t.fifo kind o).openAt = some f.kept.length ∧
        (t.fifo kind o).kept = f.kept ++ [w] ∧ w.seq = f.written % 4096) ∧
    (∀ i w, f.openAt = some i → f.kept[i]? = some w →
      (∃ t, exec (.sendClose b kind o v) s = .next t ∧ (t.fifo kind o).openAt = none ∧
        (t.fifo kind o).kept[i]? 
          = some { tag := .length, seq := w.seq, data := v.truncate 48, bad := false, packetWords := f.kept.length - (i + 1) }) ∧
      (∃ t, exec (.sendCmdAbandon b kind o) s = .next t ∧ (t.fifo kind o).openAt = none ∧
        (t.fifo kind o).kept[i]? 
          = some { tag := .error, seq := w.seq, data := 0, bad := false, packetWords := f.kept.length - (i + 1) })))

/-! ## The association directory (chapter 7) -/

/-- R287, R288: an operand block that is not valid gives OPERAND_INVALID, and one of an indexed ESP port its own refusal. R277, R286,
R287, R288: on an exact key, with no damage in the store, DIR_INSERT places a new entry, replaces one where
REPLACE is set, reports one that exists or a full table; DIR_DELETE removes it; DIR_LOOKUP reports it. R281, R283, R287,
R288: on a prefix, DIR_INSERT adds it where none stands and the trie has room, DIR_DELETE removes it, and DIR_LOOKUP
reports the longest prefix that contains the address, where the lookup meets no unlinked node. -/
def Obligations.DirectoryOpcodesAct : Prop :=
  (
  ∀ (s : State) (rid : Nat) (q : Req) (detail : Nat), s.req rid = some q →
    (readOperand (s.linePort q.d.linePort) q.d q.side = none ∧ detail = 0x1F ∨
      (∃ o, readOperand (s.linePort q.d.linePort) q.d q.side = some o ∧ o.space = 1 ∧ o.family = 1 ∧
        (s.linePort q.d.linePort).espIndexed = true) ∧ detail = 0x14) →
    (dirPending q 0x60 = true → exec (.dirInsert rid) s = .next (s.putReq rid (q.dirDone detail []))) ∧
    (dirPending q 0x61 = true → exec (.dirDelete rid) s = .next (s.putReq rid (q.dirDone detail []))) ∧
    (dirPending q 0x62 = true →
      exec (.dirLookup rid) s = .next (s.putReq rid (q.dirDone detail (lookupResult 0 0 0 0 0 0 0 0))))) ∧
  (
  ∀ (s : State) (rid : Nat) (q : Req) (o : Operand), s.req rid = some q → s.memory.damages = [] →
    readOperand (s.linePort q.d.linePort) q.d q.side = some o → o.space = 1 →
    ¬ (o.family = 1 ∧ (s.linePort q.d.linePort).espIndexed = true) →
    let k : ExactKey := { scope := (s.linePort q.d.linePort).scope, type := o.family, id := o.id }
    let target := if o.cold then BitVec.ofNat 32 o.blob else q.d.handle
    let e : Entry :=
      { scope := k.scope, type := k.type, cold := o.cold, learned := false, static := o.static, homePort := q.d.linePort
        lastHit := s.dir.tickNow, id := k.id, target := target }
    (dirPending q 0x60 = true →
      (∀ n d, s.dir.find k = none → s.dir.place e = some (n, d) →
        ∃ t, exec (.dirInsert rid) s = .next t ∧ t.dir = d ∧ t.req rid = some (q.dirDone 0 [])) ∧
      (s.dir.find k = none → s.dir.place e = none →
        ∃ t, exec (.dirInsert rid) s = .next t ∧ t.dir = { s.dir with insertFull := s.dir.insertFull + 1 } ∧
          t.req rid = some (q.dirDone 0x12 [])) ∧
      (∀ n, s.dir.find k = some n →
        (o.replace = false → exec (.dirInsert rid) s = .next (s.putReq rid (q.dirDone 0x10 []))) ∧
        (o.replace = true → ∃ t, exec (.dirInsert rid) s = .next t ∧ t.req rid = some (q.dirDone 0x11 []) ∧
          t.dir.at_ n =
            { s.dir.at_ n with
              target := target, cold := o.cold, static := o.static, homePort := q.d.linePort, lastHit := s.dir.tickNow
              learned := false }))) ∧
    (dirPending q 0x61 = true →
      (∀ n, s.dir.find k = some n → ∃ t, exec (.dirDelete rid) s = .next t ∧ t.dir.at_ n = Entry.dflt n ∧
        t.req rid = some (q.dirDone 0 [])) ∧
      (s.dir.find k = none → exec (.dirDelete rid) s = .next (s.putReq rid (q.dirDone 0x13 [])))) ∧
    (dirPending q 0x62 = true →
      exec (.dirLookup rid) s = .next (s.putReq rid
        (match s.dir.find k with
        | some n =>
          let x := s.dir.at_ n
          q.dirDone 0 (lookupResult 1 x.type 0 (b2n x.cold + 2 * b2n x.static + 4 * b2n x.learned) x.target.toNat x.homePort
            (idle s.dir x) n)
        | none => q.dirDone 0x13 (lookupResult 0 0 0 0 0 0 0 0))))) ∧
  (
  ∀ (s : State) (rid : Nat) (q : Req) (o : Operand), s.req rid = some q →
    readOperand (s.linePort q.d.linePort) q.d q.side = some o → o.space ≠ 1 →
    let p : Prefix :=
      { family := o.family, scope := (s.linePort q.d.linePort).scope, bits := o.addr, len := o.len, result := q.d.handle }
    (dirPending q 0x60 = true →
      ((∀ x ∈ s.dir.prefixes, samePrefix p x = false) → s.dir.prefixes.length < 262144 →
        prefixBytes (s.dir.prefixes ++ [p]) ≤ 5242880 →
        ∃ t, exec (.dirInsert rid) s = .next t ∧ t.req rid = some (q.dirDone 0 []) ∧
          t.dir =
            { s.dir with
              prefixes := s.dir.prefixes ++ [p]
              unlinked := s.dir.unlinked.filter (fun n => !((nodesOf p).contains n)) }) ∧
      ((∀ x ∈ s.dir.prefixes, samePrefix p x = false) →
        262144 ≤ s.dir.prefixes.length ∨ 5242880 < prefixBytes (s.dir.prefixes ++ [p]) →
        exec (.dirInsert rid) s = .next (s.putReq rid (q.dirDone 0x15 []))) ∧
      ((∃ x ∈ s.dir.prefixes, samePrefix p x = true) →
        (o.replace = false → exec (.dirInsert rid) s = .next (s.putReq rid (q.dirDone 0x10 []))) ∧
        (o.replace = true → ∃ t, exec (.dirInsert rid) s = .next t ∧ t.req rid = some (q.dirDone 0x11 []) ∧
          t.dir = { s.dir with prefixes := s.dir.prefixes.map (fun x => if samePrefix p x then p else x) }))) ∧
    (dirPending q 0x61 = true →
      ((∃ x ∈ s.dir.prefixes, samePrefix p x = true) →
        ∃ t, exec (.dirDelete rid) s = .next t ∧ (∀ x, x ∈ t.dir.prefixes ↔ x ∈ s.dir.prefixes ∧ samePrefix p x = false) ∧
          t.req rid = some (q.dirDone 0 [])) ∧
      ((∀ x ∈ s.dir.prefixes, samePrefix p x = false) →
        exec (.dirDelete rid) s = .next (s.putReq rid (q.dirDone 0x13 [])))) ∧
    (dirPending q 0x62 = true →
      (∀ x, s.dir.cutOff o.family p.scope o.addr = false → longest s.dir.prefixes o.family p.scope o.addr = some x →
        x ∈ s.dir.prefixes ∧ x.contains o.addr = true ∧
        (∀ y ∈ s.dir.prefixes, y.family = o.family → y.scope = p.scope → y.contains o.addr = true → y.len ≤ x.len) ∧
        exec (.dirLookup rid) s = .next (s.putReq rid (q.dirDone 0 (lookupResult 1 x.family x.len 0 x.result.toNat 0 0 0)))) ∧
      (s.dir.cutOff o.family p.scope o.addr = true ∨ longest s.dir.prefixes o.family p.scope o.addr = none →
        exec (.dirLookup rid) s = .next (s.putReq rid (q.dirDone 0x13 (lookupResult 0 0 0 0 0 0 0 0))))))

/-- R298: a tick advances TICK_NOW by one; the sweep's first reading of a bucket notes the aged entries, and its second removes
those of them that are still aged and no other. R294, R295: an exception ring is enabled with its pointers zeroed; its oldest entry
is written to the next place of the ring, and its acknowledgement advances XR_TAIL and is notified where an address is set; an entry
whose write fails, or whose ring has been disabled, is lost and counted. 15 R515: a recount sets every LEARNED_COUNT to the learned
entries homed there. -/
def Obligations.DirectoryAgesReportsAndRecounts : Prop :=
  ∀ s : State,
    (exec .tick s = .next { s with dir := { s.dir with tickNow := s.dir.tickNow + 1 } }) ∧
    (∀ bk, bk < 131072 →
      let found := (waysOf bk).filter (fun n => aged s (s.dir.at_ n) && !(s.dir.sweep.contains n))
      exec (.sweepVisit ⟨bk, false⟩) s = .next { s with dir := { s.dir with sweep := s.dir.sweep ++ found } } ∧
      ∃ t, exec (.sweepVisit ⟨bk, true⟩) s = .next t ∧ (∀ n, n ∈ t.dir.sweep ↔ n ∈ s.dir.sweep ∧ n ∉ waysOf bk) ∧
        ∀ n, t.dir.at_ n =
          if n ∈ waysOf bk ∧ n ∈ s.dir.sweep ∧ aged s (s.dir.at_ n) = true then Entry.dflt n else s.dir.at_ n) ∧
    (∀ b o, accepts s b o = true →
      exec (.xrEnable b o) s = .next (s.onXring o (fun x => { x with enable := true, tail := 0, head := 0 }))) ∧
    (∀ o chan e rest, chan < 4 → s.port.ended.find? (fun a => decide (a.kind = .exceptionEntry) && a.owner == o) = none →
      (s.xring o).waiting = e :: rest → (s.xring o).writing = none →
      (s.xring o).enable = true → roomFor s chan 2 = true →
      let addr := ((s.xring o).base.toNat + 32 * ((s.xring o).tail % 2 ^ (s.xring o).log2)) % 2 ^ 64
      permitted s .service o true addr 32 →
      ∃ t a, exec (.exceptionEntryWrite o chan) s = .next t ∧ t.port.outstanding = s.port.outstanding ++ [a] ∧
        a.kind = .exceptionEntry ∧ a.addr = addr ∧ a.len = 32 ∧ a.data = (e.map (leBytes 8)).flatten ∧
        (t.xring o).writing = some addr) ∧
    (∀ o chan e rest, chan < 4 → s.port.ended.find? (fun a => decide (a.kind = .exceptionEntry) && a.owner == o) = none →
      (s.xring o).waiting = e :: rest → (s.xring o).writing = none → (s.xring o).enable = false →
      exec (.exceptionEntryWrite o chan) s
        = .next (s.onXring o (fun y => { y with waiting := y.waiting.drop 1, lost := y.lost + 1 }))) ∧
    (∀ o chan a, chan < 4 → s.port.ended.find? (fun a => decide (a.kind = .exceptionEntry) && a.owner == o) = some a →
      a.err = true → exec (.exceptionEntryWrite o chan) s = .next ((s.taken a).onXring o (fun y =>
        { y with waiting := y.waiting.drop 1, writing := none, lost := y.lost + 1 }))) ∧
    (∀ o chan a, chan < 4 → s.port.ended.find? (fun a => decide (a.kind = .exceptionEntry) && a.owner == o) = some a →
      a.err = false → (s.xring o).notifyAddr ≠ 0 →
      permitted s .service o true (s.xring o).notifyAddr.toNat 4 →
      ∃ t b, exec (.exceptionEntryWrite o chan) s = .next t ∧ t.port.outstanding = s.port.outstanding ++ [b] ∧
        b.kind = .exceptionNotify ∧ b.addr = (s.xring o).notifyAddr.toNat ∧
        b.data = leBytes 4 (s.xring o).notifyData.toNat ∧ (t.xring o).tail = ptrAdd (s.xring o).tail 1 (s.xring o).log2) ∧
    (∀ o chan a, chan < 4 → s.port.ended.find? (fun a => decide (a.kind = .exceptionEntry) && a.owner == o) = some a →
      a.err = false → (s.xring o).notifyAddr = 0 →
      exec (.exceptionEntryWrite o chan) s = .next ((s.taken a).onXring o (fun y =>
        { y with waiting := y.waiting.drop 1, writing := none, tail := ptrAdd y.tail 1 y.log2 }))) ∧
    (s.dir.recountDue = true → ∃ t, exec .learnedRecount s = .next t ∧ t.dir.recountDue = false ∧
      t.memory.learnRecounts = s.memory.learnRecounts + 1 ∧
      ∀ p, (t.linePort p).learnedCount
        = (s.dir.exact.filter (fun e => e.2.type != 0 && e.2.learned && e.2.homePort == p)).length)

/-! ## Spread rings (chapters 3 and 18) -/

/-- R140, R150, R151, R602: at the gate of a spread ring a request is routed in ring order; with a free credit of its member it is run
at home (member 0) or granted to the member's instance, after a configuration when it is the member's first (R600) and with its key
sent ahead where it needs one; to a lost member it ends PARTIAL. A member that leaves the cascade map is lost, and the ring degraded.
R143, R144, R603: a member takes the grant whose MSEQ is due as a request of the ring, with its key when it carries one, and holds
another. -/
def Obligations.SpreadRingsGrantAndLose : Prop :=
  (∀ (s : State) (rid : Nat) (q : Req), s.req rid = some q → q.stage = .granted → q.member = 0 → q.stat = none →
    ((before s q).any (fun x => x.stage == .granted && x.member == 0 && x.stat.isNone)) = false → mayFetch s q.owner = true →
    (spreadOf s (pairKey q.owner q.ring) = none → exec (.spreadGrant rid) s = .next (s.gatherStart rid)) ∧
    (∀ nn e i, spreadOf s (pairKey q.owner q.ring) = some (nn, e) → i = routeOf s e q →
      (e.lost.getLsbD i = true → exec (.spreadGrant rid) s = .next (s.putReq rid (q.endLost i))) ∧
      (e.lost.getLsbD i = false → creditsUsed s e.key i < e.credits →
        (i = 0 → exec (.spreadGrant rid) s
          = .next ((s.onSpread nn (fun x => { x with grantsSent := x.grantsSent + 1 })).gatherStart rid)) ∧
        (∀ s0, i ≠ 0 → s0 = (if Tab.get (fun _ => 0) (s.spreadAt nn).perMember i = 0 then s.sendConfig nn i else s) →
          (q.keyUse = 0 → ¬ (q.d.opcode = 0x31 ∧ q.entry.isSome = true) →
            exec (.spreadGrant rid) s = .next (s0.sendGrant nn i rid q false) ∧
            (s0.sendGrant nn i rid q false).req rid = some { q with member := i }) ∧
          (q.keyUse = 0 → q.d.opcode = 0x31 → q.entry.isSome = true →
            exec (.spreadGrant rid) s
              = .next ((s0.onKeys (fun k =>
                  { k with coldCache := k.coldCache.filter (fun x => !(x.hits q.owner (cut q.blob 0 96))) })).sendGrant
                  nn i rid q false)) ∧
          (∀ k s1 tk, q.keyUse ≠ 0 → (q.keyUse = 2 → 96 ≤ q.inData.length) → s0.grantKey q = (.ok k, s1) →
            transportKey s1 ((s.spreadAt nn).instOf i) = some tk →
            exec (.spreadGrant rid) s
              = .next ((s1.sendKeyx nn ((s.spreadAt nn).instOf i) q k tk).sendGrant nn i rid q true)) ∧
          (∀ x s1, q.keyUse ≠ 0 → (q.keyUse = 2 → 96 ≤ q.inData.length) → s0.grantKey q = (.error x, s1) →
            exec (.spreadGrant rid) s = .next (s1.onReq rid (Req.endHome x))))))) ∧
  (∀ (s : State) (nn i : Nat), nn < 16 → (s.spreadAt nn).enable = true → i ∈ (s.spreadAt nn).remote →
    inMap s ((s.spreadAt nn).instOf i) = false → (s.spreadAt nn).lost.getLsbD i = false →
    ∃ t, exec (.memberLost nn i) s = .next t ∧ (t.spreadAt nn).lost.getLsbD i = true ∧ (t.spreadAt nn).state = .degraded ∧
      ∀ rid q, s.req rid = some q → pairKey q.owner q.ring = (s.spreadAt nn).key → q.homeGrant = none → q.stage = .granted →
        q.member = i → t.req rid = some (q.endLost i)) ∧
  (∀ (s u : State) (m : Msg) (r : MemberRing), s.deliverMsg m kGrant = some u →
    memberRing u m.src (leNat (cut m.body 8 1) % 16) = some r → r.early = [] →
    (leNat (cut m.body 4 4) ≠ r.taken % 2 ^ 32 →
      exec (.grant m) s
        = .next (u.onMemberRing m.src (leNat (cut m.body 8 1) % 16) (fun x => { x with early := x.early ++ [m] }))) ∧
    (∀ rid, leNat (cut m.body 4 4) = r.taken % 2 ^ 32 → freeReqId u = some rid →
      (bit (leNat (cut m.body 8 1)) 4 = false ∨ (openKeyx u r.home r.nn (leNat (cut m.body 0 4)) r.owner).isSome = true →
        ∃ t q, exec (.grant m) s = .next t ∧ t.req rid = some q ∧ q.d = grantDesc m.body ∧ q.owner = r.owner ∧
          q.ring = r.ring ∧ q.sseq = leNat (cut m.body 0 4) ∧ q.stage = .gate ∧ q.homeGrant = some (r.home, r.nn) ∧
          q.order = r.taken ∧ q.ord = grantKeyOf q.d ∧
          q.keyx = (if bit (leNat (cut m.body 8 1)) 4 then openKeyx u r.home r.nn q.sseq r.owner else none)) ∧
      (bit (leNat (cut m.body 8 1)) 4 = true → openKeyx u r.home r.nn (leNat (cut m.body 0 4)) r.owner = none →
        ∃ t q, exec (.grant m) s = .next t ∧ t.req rid = some q ∧ q.stage = .over ∧
          q.stat.map Stat.ending = some (ends .keyNotOwned 0x03) ∧ t.link.keyxRefused = u.link.keyxRefused + 1)))

/-- R147: a token delivers the content of the record to the request that was granted under its SSEQ. R600, R601, R603: a
configuration is taken while fewer than 64 are held, a release drops it, a refused one is recorded at the home, an abort or a quiesce from
the home meets the requests granted here (R149, R469), a KEYX is held for its grant, and the fragments of an exchange are collected
in their order; the last of them makes the transport key when the exchange is accepted. A token of a lost member is discarded
(R151). -/
def Obligations.SpreadMessagesBringRecordsAndKeys : Prop :=
  ∀ (s u : State) (m : Msg),
    (s.deliverMsg m kToken = some u →
      let nn := leNat (cut m.body 4 1)
      (∀ i ∈ (u.spreadAt nn).remote, (u.spreadAt nn).instOf i = m.src → (u.spreadAt nn).lost.getLsbD i = false) →
      ∀ rid q, (reqsOf u (u.spreadAt nn).key).find? (fun x =>
          x.2.homeGrant.isNone && x.2.stage == .granted && x.2.member != 0 && x.2.sseq == leNat (cut m.body 0 4)
            && x.2.stat.isNone && (u.spreadAt nn).instOf x.2.member == m.src) = some (rid, q) →
        let q1 := q.withToken (cut m.body 8 32)
        exec (.token m) s
          = .next ((u.putReq rid q1).learnCommit rid q (((q1.stat.map (fun t => t.ending.st.good))).getD false))) ∧
    (s.deliverMsg m kToken = some u →
      (∃ i ∈ (u.spreadAt (leNat (cut m.body 4 1))).remote, (u.spreadAt (leNat (cut m.body 4 1))).instOf i = m.src ∧
        (u.spreadAt (leNat (cut m.body 4 1))).lost.getLsbD i = true) →
      exec (.token m) s = .next (u.raise 0x108 m.src (leNat (cut m.body 0 4)))) ∧
    (s.deliverMsg m kSpreadCtl = some u →
      let what := leNat (cut m.body 0 1)
      let nn := leNat (cut m.body 1 1) % 16
      let others := u.link.memberRings.filter (fun x => !(x.home == m.src && x.nn == nn))
      (what = scConfig → others.length < 64 → ∃ t r, exec (.spreadCtl m) s = .next t ∧
        t.link.memberRings = others ++ [r] ∧ r.home = m.src ∧ r.nn = nn ∧ r.credits = leNat (cut m.body 8 4) ∧ r.taken = 0 ∧ r.early = []) ∧
      (what = scConfig → 64 ≤ others.length → ∃ t, exec (.spreadCtl m) s = .next t ∧
        t.link.memberRings = u.link.memberRings) ∧
      (what = scRelease → exec (.spreadCtl m) s = .next (u.onLink (fun l => { l with memberRings := others }))) ∧
      (what = scConfigResult → leNat (cut m.body 2 2) = 0 → exec (.spreadCtl m) s = .next u) ∧
      (what = scAbort → exec (.spreadCtl m) s = .next (u.takeAbort m nn)) ∧
      (what = scAbortResult → exec (.spreadCtl m) s = .next (u.abortOutcome m nn (leNat (cut m.body 2 2)))) ∧
      (what = scQuiesce → exec (.spreadCtl m) s = .next (u.takeQuiesce m nn (leNat (cut m.body 2 2) == 1)))) ∧
    (s.deliverMsg m kKeyx = some u →
      exec (.keyx m) s = .next (u.onLink (fun l => { l with keyxHeld := l.keyxHeld ++ [m] }))) ∧
    (s.deliverMsg m kKeyxSetup = some u → leNat (cut m.body 0 4) = (u.peer m.src).setup.length →
      leNat (cut m.body 4 4) = setupLen → (u.peer m.src).setup.length + 112 < setupLen →
      exec (.keyxSetup m) s
        = .next (u.onPeer m.src (fun p => { p with setup := (u.peer m.src).setup ++ cut m.body 8 112 }))) ∧
    (∀ b, s.deliverMsg m kKeyxSetup = some u → leNat (cut m.body 0 4) = (u.peer m.src).setup.length →
      leNat (cut m.body 4 4) = setupLen → setupLen ≤ (u.peer m.src).setup.length + 112 →
      b = ((u.peer m.src).setup ++ cut m.body 8 112).take setupLen →
      (setupAccepted u b = false → exec (.keyxSetup m) s = .next (u.onPeer m.src (fun p => { p with setup := [] }))) ∧
      (setupAccepted u b = true → (u.peer m.src).share ≠ [] →
        ∃ t, exec (.keyxSetup m) s = .next t ∧
          transportKey t m.src = some (makeTransportKey u m.src (u.peer m.src).share b) ∧ (t.peer m.src).share = [] ∧
          (t.peer m.src).setup = []))

/-! ## Slices and their Promenade logs (chapter 13) -/

/-- R463 to R473: a command is refused while the one before is BUSY, and one that is refused shows why. CREATE shows BUSY until it
completes with the slice ACTIVE under its PASID and a new wrap seed; QUIESCE makes an ACTIVE slice QUIESCING, which is QUIESCED once
its pairs are quiet, or cancels at the limit; RESUME, RESET and REMOVE act on a QUIESCED slice, and a reset or removal completes with
its slots zeroed and its page at reset values. -/
def Obligations.SliceCommandsChangeState : Prop :=
  ∀ (s : State) (n : Nat), n < 512 →
    let x := s.slice n
    (x.cmdStatus = .busy → ∀ c ∈ [exec (.create n) s, exec (.quiesce n) s, exec (.resume n) s, exec (.reset n) s,
      exec (.remove n) s], c = .next s) ∧
    (x.cmdStatus ≠ .busy →
      (∀ c, createRefusal s n = some c → exec (.create n) s = .next (s.onSlice n (fun y => { y with cmdStatus := c }))) ∧
      (createRefusal s n = none →
        exec (.create n) s = .next (s.onSlice n (fun y => { y with cmdStatus := .busy, creations := y.creations + 1 }))) ∧
      (x.state = .active → ∃ t, exec (.quiesce n) s = .next t ∧ (t.slice n).state = .quiescing ∧
        (t.slice n).cmdStatus = .busy ∧ (t.slice n).pending = true ∧ (t.page n).isOpen = false) ∧
      (x.state = .quiesced →
        exec (.resume n) s = .next (s.onSlice n (fun y => { y with state := .active, cmdStatus := .done, pending := false })) ∧
        exec (.reset n) s = .next (s.onSlice n (fun y => { y with state := .resetting, cmdStatus := .busy, pending := false })) ∧
        exec (.remove n) s = .next (s.onSlice n (fun y => { y with state := .removing, cmdStatus := .busy, pending := false }))) ∧
      (x.state = .absent → ∀ c ∈ [exec (.quiesce n) s, exec (.resume n) s, exec (.reset n) s, exec (.remove n) s],
        c = .next (s.onSlice n (fun y => { y with cmdStatus := .wrongState })))) ∧
    (x.state = .absent → x.cmdStatus = .busy → ∃ t, exec (.createComplete n) s = .next t ∧ (t.slice n).state = .active ∧
      (t.slice n).cmdStatus = .done ∧ Tab.get (fun _ => none) t.keys.pasids n = some (x.pasid.truncate 20) ∧
      Tab.get (fun _ => []) t.start.vaultSeeds n = (s.internalDraw 32).1 ∧ t.page n = DigestPage.dflt n) ∧
    (x.state = .quiescing →
      ((List.range 8).all (fun p => pairQuiet s (pairKey n p)) = true → ∃ t, exec (.quiesceDone n) s = .next t ∧
        (t.slice n).state = .quiesced ∧ (t.slice n).cmdStatus = .done ∧
        { src := 0x191, arg := n, info := 0, forced := false } ∈ t.events.waiting) ∧
      (x.cancelling = false → ∃ t, exec (.quiesceLimitExpiry n) s = .next t ∧ (t.slice n).cancelling = true ∧
        (t.slice n).escalations = x.escalations + 1 ∧ (t.slice n).state = .quiescing)) ∧
    (x.state = .resetting ∨ x.state = .removing →
      (slotsOf s n).any (fun k => !(holders s k).isEmpty || jobHolds s k) = false →
      ∃ t, exec (.sliceResetComplete n) s = .next t ∧ (t.slice n).cmdStatus = .done ∧
        (t.slice n).state = (if x.state = .removing then .absent else .active) ∧ t.page n = DigestPage.dflt n ∧
        ∀ k ∈ slotsOf s n, t.slot k = if x.state = .removing then Slot.dflt 0 else (s.slot k).zeroed)

/-- R480, R482, R483: PROM_ENABLE starts a log on bitmap A; the word of the first page waiting is read, and written back with its
bit set; PROM_SWAP makes the other bitmap active, and is done when no write of before it is outstanding. -/
def Obligations.PromenadeLogsAndSwaps : Prop :=
  ∀ (s : State) (n : Nat), n < 512 →
    let p := (s.slice n).prom
    (p.enable = false → ∃ t, exec (.promEnable n true) s = .next t ∧ (t.slice n).prom.enable = true ∧
      (t.slice n).prom.state = .logging ∧ (t.slice n).prom.activeB = false ∧ (t.slice n).prom.swapDone = false) ∧
    (∃ t, exec (.promEnable n false) s = .next t ∧ (t.slice n).prom.enable = false ∧ (t.slice n).prom.state = .off) ∧
    (∀ chan i b rest, chan < 4 → p.waiting = (i, b) :: rest → s.port.outstanding = [] → s.port.ended = [] →
      roomFor s chan 1 = true →
      let addr := (p.base b + 8 * (i / 64)) % 2 ^ 64
      permitted s .service n false addr 8 →
      ∃ t a, exec (.promLogWrite n chan) s = .next t ∧ t.port.outstanding = [a] ∧ a.kind = .promRead ∧ a.addr = addr ∧
        a.write = false ∧ (t.slice n).prom.waiting = rest ∧ (t.slice n).prom.bitsSet = p.bitsSet + 1) ∧
    (∀ chan a, chan < 4 → s.port.ended = [a] → a.kind = .promRead → a.owner = n → p.enable = true → p.state = .logging →
      roomFor s chan 1 = true →
      let addr := (p.base (a.pair == 1) + 8 * (a.off / 64)) % 2 ^ 64
      permitted s .service n true addr 8 →
      ∃ t b, exec (.promLogWrite n chan) s = .next t ∧ t.port.outstanding = s.port.outstanding ++ [b] ∧ t.port.ended = [] ∧
        b.kind = .promWrite ∧ b.addr = addr ∧ b.data = leBytes 8 (leNat (cut a.data 0 8) ||| 2 ^ (a.off % 64))) ∧
    (∀ chan a, chan < 4 → s.port.ended = [a] → a.kind = .promWrite → a.owner = n →
      exec (.promLogWrite n chan) s = .next (s.taken a)) ∧
    (p.state ≠ .logging → exec (.promSwap n) s = .next s) ∧
    (p.state = .logging → ∃ t, exec (.promSwap n) s = .next t ∧ (t.slice n).prom.activeB = !p.activeB ∧
      (t.slice n).prom.state = .swapping ∧ (t.slice n).prom.swapDone = false) ∧
    (p.state = .swapping → s.port.outstanding = [] → s.port.ended = [] → p.waiting = [] →
      ∃ t, exec (.promSwapDone n) s = .next t ∧ (t.slice n).prom.state = .logging ∧ (t.slice n).prom.swapDone = true)

/-! ## Access control, memory integrity and the seal (chapters 14, 15 and 0) -/

/-- R499 to R503: RULE_COMMIT begins a commit while none is in progress; the checks refuse the staged copy or pass it; the switch
puts it in force at one instant under the next epoch; an epoch is drained once no access of an earlier one is outstanding, and
a drain that takes too long is reported once. -/
def Obligations.RuleCommitsSwitchEpochs : Prop :=
  ∀ s : State,
    let a := s.access
    (a.commitState = .idle → exec .ruleCommit s
      = .next { s with access := { a with commitState := .validating, commitStatus := .busy, validated := false } }) ∧
    (a.commitState ≠ .idle → exec .ruleCommit s = .next s) ∧
    (a.commitState = .validating → a.validated = false →
      (commitCheck s = none → exec .commitValidated s
        = .next { s with access := { a with
            validated := true, commitState := if a.epochDrained then .validating else .waiting } }) ∧
      (∀ c f, commitCheck s = some (c, f) → ∃ t, exec .commitValidated s = .next t ∧ t.access = { a with
        commitState := .idle, commitStatus := c, commitFault := BitVec.ofNat 32 f, commitsRefused := a.commitsRefused + 1 } ∧
        waits t 0x16D)) ∧
    (a.commitState ≠ .idle → a.validated = true → a.epochDrained = true →
      ∃ t, exec .epochSwitch s = .next t ∧ t.access.inForce = a.staged ∧ t.access.winInForce = a.stagedWin ∧
        t.access.epochNow = a.epochNow + 1 ∧ t.access.commitState = .idle ∧ t.access.commitStatus = .done ∧
        t.access.commits = a.commits + 1 ∧ t.access.epochDrained = s.port.outstanding.isEmpty ∧ waits t 0x16C) ∧
    ((∀ x ∈ s.port.outstanding, x.epoch = a.epochNow) →
      exec .epochDrained s = .next { s with access := { a with epochDrained := true } }) ∧
    (a.epochDrained = false → a.warned = false → ∃ t, exec .drainWarnExpiry s = .next t ∧
      t.access = { a with warned := true } ∧ waits t 0x16E)

/-- R510: a scrub read advances to the next line of its store, and a pass ends with the last line. R517: ECC_INJECT arms one
injection where the life cycle or a certificate permits it, and nothing elsewhere. R5, R7: a recomputation that ends leaves
SEAL_DIGEST the digest of the measured image and the record, and reports a change of the record (two changes made before it ends
share it: log entry 94); before an image has been measured it leaves both (the model's choice, log entry 23). -/
def Obligations.MemoryIsScrubbedAndTheSealRecomputed : Prop :=
  ∀ s : State,
    (∀ n, n < 14 → s.memory.damages = [] →
      ∃ t, exec (.scrubLineRead n) s = .next t ∧ (8 ≤ n → t = s) ∧
        (n < 8 → (s.store n).position + 1 < storeLines n → (t.store n).position = (s.store n).position + 1 ∧
          (t.store n).scrubPasses = (s.store n).scrubPasses) ∧
        (n < 8 → storeLines n ≤ (s.store n).position + 1 → (t.store n).position = 0 ∧
          (t.store n).scrubPasses = (s.store n).scrubPasses + 1)) ∧
    (injectAllowed s = false → exec .eccInject s = .next s) ∧
    (∀ n, injectAllowed s = true → storeOf s.memory.injectStore = some n → s.memory.injectLine.toNat < storeLines n →
      ∃ t d, exec .eccInject s = .next t ∧ t.memory.damages = s.memory.damages ++ [d] ∧ d.store = n ∧
        d.line = s.memory.injectLine.toNat ∧ d.target = s.memory.injectTarget ∧ d.mask = s.memory.injectMask) ∧
    (s.ident.recomputing = true → s.ident.measured = true → ∃ t, exec .sealDigestDone s = .next t ∧
      t.ident.sealDigest = sealDigestOf s.ident.fwImage s.ident.sealRecord ∧ t.ident.recomputing = false ∧
      t.ident.sealState = sealStateOf s t.ident.sealDigest ∧
      (s.ident.changed = true → waits t 0x00B)) ∧
    (s.ident.recomputing = true → s.ident.measured = false → ∃ t, exec .sealDigestDone s = .next t ∧
      t.ident.sealDigest = s.ident.sealDigest ∧ t.ident.sealState = s.ident.sealState ∧ t.ident.recomputing = false)

/-! ## Life cycle, certificates and attestation (chapter 16) -/

/-- R529 to R534: a request of Table 16-3 begins the programming of its fields, or shows why not; an unlock compares the token,
zeroes it, and programs the burn field before the copies; a repair programs the copies that are not full; SCRAP waits for the
field in progress. A field verified is programmed, and the last one leaves the request PENDING; one that fails ends it. -/
def Obligations.LifeCycleRequestsProgramAntifuses : Prop :=
  ∀ s : State, s.start.inReset = false →
    let go (target : Nat) (todo : List FusePlace) : Option Programming :=
      some { target := target, todo := todo, root := [], scrapWaits := false }
    (s.lc.programming = none → s.lc.interrupted = false →
      (s.lc.status ≠ 2 → s.lc.state = .mission →
        (∃ t, exec (.lcRequestTransition 6) s = .next t ∧ t.lc.status = 1 ∧ t.lc.request = 6 ∧
          t.lc.programming = go 6 [.copy 0 35, .copy 1 35, .copy 2 35]) ∧
        (∀ code, code ≠ 6 → code ≠ 7 → exec (.lcRequestTransition code) s
          = .next (s.onLc (fun l => { l with request := code, status := 3 })))) ∧
      (∀ k j, s.lc.status ≠ 2 → s.lc.state = .testLocked k → nextToken s = some j → s.lc.tokenFails.toNat < 8 →
        let same := ((HashWork.start 5).absorb s.lc.token).finish 32 = Tab.get (fun _ => zeros 32) s.lc.tokens j
        (same → ∃ t, exec .lcUnlock s = .next t ∧ t.lc.status = 1 ∧ t.lc.token = zeros 16 ∧
          t.lc.programming = go 3 [.burn j, .copy 0 (2 * j - 1), .copy 1 (2 * j - 1), .copy 2 (2 * j - 1)]) ∧
        (¬ same → exec .lcUnlock s = .next (s.onLc (fun l =>
          { l with request := 3, token := zeros 16, tokenFails := l.tokenFails + 1, status := 4 })))) ∧
      (s.lc.state ≠ .scrap → s.lc.state ≠ .unknown → ∃ t, exec .lcScrap s = .next t ∧ t.lc.status = 1 ∧
        t.lc.programming = go 7 [.copy 0 36, .copy 1 36, .copy 2 36])) ∧
    (s.lc.programming = none → s.lc.interrupted = true → (fuseField s 0 s.lc.interruptedField).full = false →
      ∃ t todo, exec .lcRepair s = .next t ∧ t.lc.status = 1 ∧ t.lc.programming = go s.lc.interruptedTarget todo ∧
        ∀ c, c < 3 → (FusePlace.copy c s.lc.interruptedField ∈ todo ↔ (fuseField s c s.lc.interruptedField).full = false)) ∧
    (∀ p, s.lc.programming = some p → exec .lcScrap s
      = .next (s.onLc (fun l => { l with request := 7, programming := some { p with scrapWaits := true } }))) ∧
    (∀ p x rest, s.lc.programming = some p → p.todo = x :: rest →
      (s.pins.vppOk = true → exec (.lcFieldVerified true) s = .next (s.fieldGood p x rest).orderlyOn) ∧
      (p.scrapWaits = false → rest = [] → (s.fieldGood p x rest).lc.status = 2 ∧
        (s.fieldGood p x rest).lc.pending = p.target ∧ (s.fieldGood p x rest).lc.programming = none) ∧
      (p.scrapWaits = false → rest ≠ [] →
        (s.fieldGood p x rest).lc.programming = some { p with todo := rest }) ∧
      (∀ c f, x = .copy c f → (fuseField (s.fieldGood p x rest) c f).full = true) ∧
      (∀ u, u = (s.onLc (LifeCycle.cut s.rng.draws)).raise 0x22A p.target (fieldNumber p.todo) →
        exec (.lcFieldVerified false) s = .next u.orderlyOn ∧ u.lc.programming = none ∧ u.lc.status = 7 ∧ waits u 0x22A))

/-- R539 to R541: a nonce is drawn while the service runs; a submission is checked while none is; a certificate that passes every
check puts its rights and counter in force and uses the nonce up, one that fails leaves the rights; DEBUG_END and DEBUG_REVOKE
end them. R544 to R546: a report is captured when it is requested, and signed and counted when the request ends. -/
def Obligations.CertificatesAndReportsAreMade : Prop :=
  ∀ s : State, s.start.inReset = false →
    (s.rng.state = .running → ∃ t, exec .debugNonceReq s = .next t ∧ t.lc.nonceValid = true ∧
      t.lc.debugNonce = (s.internalDraw 16).1) ∧
    (s.rng.state ≠ .running → exec .debugNonceReq s
      = .next (s.onLc (fun l => { l with debugStatus := 11, debugNonce := zeros 16, nonceValid := false }))) ∧
    (s.lc.debugChecking = false → exec .debugSubmit s
      = .next (s.onLc (fun l => { l with debugStatus := 1, debugChecking := true }))) ∧
    (s.lc.debugChecking = true → ∃ t, exec .certCheckDone s = .next t ∧ t.lc.debugStatus = certOutcome s ∧
      t.lc.debugChecking = false ∧
      (certOutcome s = 2 → t.lc.debugRights = BitVec.ofNat 32 (leNat (cut s.lc.debugCert 4 4)) ∧
        t.lc.debugCounter = BitVec.ofNat 32 (leNat (cut s.lc.debugCert 72 4)) ∧ t.lc.debugNonce = zeros 16 ∧
        t.lc.certsAccepted = s.lc.certsAccepted + 1 ∧ waits t 0x22B) ∧
      (certOutcome s ≠ 2 → t.lc.debugRights = s.lc.debugRights ∧ t.lc.debugCounter = s.lc.debugCounter ∧
        t.lc.certsRefused = s.lc.certsRefused + 1 ∧ waits t 0x22C) ∧
      (certOutcome s ≠ 2 → certOutcome s ≠ 10 → t.lc.debugNonce = s.lc.debugNonce)) ∧
    (∃ t, exec .debugEnd s = .next t ∧ t.lc = { s.lc with debugRights := 0 }) ∧
    (∃ t, exec .debugRevoke s = .next t ∧ t.lc = { s.lc with debugRights := 0, debugCounter := s.lc.debugCounter + 1 }) ∧
    (s.lc.attestState ≠ 1 →
      (attestable s = true → exec .attestRequest s
        = .next (s.onLc (fun l => { l with attestState := 1, attestCaptured := reportBody s }))) ∧
      (attestable s = false → exec .attestRequest s = .next (s.onLc (fun l => { l with attestState := 3 })))) ∧
    (s.lc.attestState = 1 →
      (attestable s = true → ∃ t, exec .attestDone s = .next t ∧ t.lc.attestState = 2 ∧
        t.lc.reportCount = s.lc.reportCount + 1 ∧ t.lc.attestReport.take s.lc.attestCaptured.length = s.lc.attestCaptured) ∧
      (attestable s = false → ∃ t, exec .attestDone s = .next t ∧ t.lc.attestState = 3))

/-! ## Start, resets, tamper and pins (chapters 17 and 21) -/

/-- R554 to R564: each step of a start that ends well brings the next, the last one the RUNNING state; a step that fails is
recorded and halts the start, or enters Pavane mode after three; Pavane mode runs the tests it is asked to. -/
def Obligations.StartSequenceStepsAndFails : Prop :=
  (∀ s : State, s.start.state = .lcDecode → s.start.inReset = false → s.start.alarmPending = false →
    (∀ v, majority s = some v → v ≠ .scrap → s.pins.tamperActive = 0 →
      (s.start.failedStarts < 3 → ∃ t, exec (.lcDecode true) s = .next t ∧ t.lc.state = v ∧ t.start.state = .selfTest ∧
        t.start.step = 1 ∧ t.start.step0Done = true ∧ t.start.failedStarts = s.start.failedStarts + 1) ∧
      (∃ t, exec (.lcDecode false) s = .next t ∧ t.start.state = .pavane ∧ t.start.failReason = 0x08 ∧ waits t 0x23A)) ∧
    (∀ v, majority s = some v → v ≠ .scrap → s.pins.tamperActive &&& tamperMask { s with lc := { s.lc with state := v } } ≠ 0 →
      ∃ t, exec (.lcDecode true) s = .next t ∧ t.lc.state = v ∧ t.start.state = .tamperWait) ∧
    (majority s = none → ∃ t, exec (.lcDecode true) s = .next t ∧ t.lc.state = .scrap ∧ t.start.state = .scrap ∧
      waits t 0x228)) ∧
  (∀ s : State, starting s = true →
    (∀ k, k = 1 ∨ k = 2 → s.start.step = k →
      (∃ t, exec (.selfTestDone k none) s = .next t ∧
        t.start.step = (if k = 2 ∧ s.rng.state = .running then 4 else k + 1)) ∧
      (∀ r d, ∃ t, exec (.selfTestDone k (some (r, d))) s = .next t ∧ t.start.failReason = r ∧
        t.start.state = (if 3 ≤ s.start.failedStarts then .pavane else .startHalt))) ∧
    (s.start.step = 4 → s.start.erasePending = false →
      (∀ n m, ∃ t, exec (.vaultCheckDone n (some m)) s = .next t ∧ t.start.failReason = 0x07 ∧
        t.start.vaultRepairs = s.start.vaultRepairs + BitVec.ofNat 32 n) ∧
      (∀ n, rootMark s = s.start.previousRoot → s.start.bootEpoch ≠ 0xFFFFFFFF#32 →
        rootInUse s = none ∨ Tab.has s.start.vaultSeeds mgr = true → s.pke.callerImageAddr ≠ 0 →
        ∃ t, exec (.vaultCheckDone n none) s = .next t ∧ t.start.bootEpoch = s.start.bootEpoch + 1 ∧ t.start.step = 5 ∧
          t.start.state = .callerLoad ∧ t.pke.caller = .verifying)) ∧
    (s.start.step = 5 → s.pke.caller = .verifying → imageRead s = true →
      let image := imageBytes s
      (∀ r d, imageFormat s 0x46433954 image = some (r, d) → ∃ t, exec .callerImageCheckDone s = .next t ∧
        t.start.failReason = r) ∧
      (imageFormat s 0x46433954 image = none → imageAccept s image = none →
        ∃ t, exec .callerImageCheckDone s = .next t ∧ t.start.state = .running ∧ t.start.failedStarts = 0 ∧
          t.pke.caller = .ready ∧ t.pke.imageSigned = true ∧ t.pke.imageDigest = imageDigest image ∧ waits t 0x238) ∧
      (∀ r d, imageFormat s 0x46433954 image = none → imageAccept s image = some (r, d) →
        (unsignedOk s = true → ∃ t, exec .callerImageCheckDone s = .next t ∧ t.start.state = .running ∧
          t.pke.caller = .ready ∧ t.pke.imageSigned = false ∧ t.ident.fwVersion = 0) ∧
        (unsignedOk s = false → ∃ t, exec .callerImageCheckDone s = .next t ∧ t.start.failReason = r)))) ∧
  (∀ (s : State) (mask : BitVec 8), s.start.state = .pavane → ∃ t, exec (.pavaneTests mask) s = .next t ∧
    ∀ n, n = 1 ∨ n = 2 ∨ n = 4 → bit mask.toNat n = true → n ∈ t.start.testsRunning)

/-- R548 to R551, R560, R564, 21 R663 to R665: each kind of reset leaves the machine as reset leaves it, held while PWR_GOOD is
low or ISO high; an ORDERLY reset stops fetch and takes place once the work has ended, or at its limit. -/
def Obligations.ResetsLeaveTheResetState : Prop :=
  ∀ (s : State) (x : Straps),
    (s.pins.iso = false → ∃ t, exec (.powerOn x) s = .next t ∧ rebooted s t .powerOn false) ∧
    (s.pins.iso = true → ∃ t, exec (.powerOn x) s = .next t ∧ rebooted s t .powerOn true) ∧
    (∃ t, exec .pwrGoodFall s = .next t ∧ rebooted s t .powerOn true ∧ t.start.powerGood = false) ∧
    (s.start.powerGood = true →
      (s.pins.iso = false → ∃ t, exec (.iso true x) s = .next t ∧ rebooted s t .pin true ∧ t.pins.iso = true) ∧
      (s.pins.iso = true → ∃ t, exec (.iso false x) s = .next t ∧ rebooted s t s.start.lastReset false ∧
        t.pins.iso = false)) ∧
    (s.start.inReset = false →
      (∃ t, exec (.pin x) s = .next t ∧ rebooted s t .pin false) ∧
      (∃ t, exec (.resetRequestImmediate x) s = .next t ∧ rebooted s t .immediate false) ∧
      (s.start.failReason ≠ 0x0D → ∃ t, exec (.pavaneExit x) s = .next t ∧ rebooted s t .immediate false ∧
        t.start.failedStarts = 0) ∧
      (s.start.state ≠ .resetting →
        (s.lc.status = 1 → exec .resetRequestOrderly s
          = .next { s with start := { s.start with orderlyWaitsLc := true } }) ∧
        (s.lc.status ≠ 1 → ∃ t, exec .resetRequestOrderly s = .next t ∧ t.start.state = .resetting ∧
          t.engine.fetchStopped = true))) ∧
    (s.start.state = .resetting →
      (∃ t, exec (.resetDrainLimitExpiry x) s = .next t ∧ rebooted s t .orderly false) ∧
      (drained s = true → ∃ t, exec (.orderlyResetTakesPlace x) s = .next t ∧ rebooted s t .orderly false)) ∧
    (s.start.state = .startHalt → s.start.retryArmed = true →
      ∃ t, exec (.startRetryTimeExpiry x) s = .next t ∧ rebooted s t .immediate false)

/-- R565 to R568, 21 R667, R668: an enabled tamper input that becomes active raises its alarm and zeroises: the keys are gone and
the random number service is stopped; the block holds once its work is settled, and a wait ends with the inputs. A mesh line that
mismatches at two changes running is an alarm. 21 R648, R663: clocks that stop and return, and the detectors armed, show. -/
def Obligations.TamperZeroisesAndPinsShow : Prop :=
  ∀ s : State,
    (∀ i lines, i < 8 → s.pins.tamperActive.getLsbD i = false → (tamperMask s).getLsbD i = true →
      s.start.powerGood = true → ∃ t, exec (.tamperAlarm i lines) s = .next t ∧ waits t i ∧ t.start.alarmPending = true ∧
        t.start.tamperAlarms = s.start.tamperAlarms + 1 ∧ t.pins.tamperActive.getLsbD i = true ∧
        (∀ n, (t.slot n).secret = []) ∧ t.keys.coldCache = [] ∧ t.rng.state = .stopped ∧ t.rng.stopCause = 6 ∧
        t.rng.pool = [] ∧ t.pke.operands = List.replicate 16 [] ∧ t.pke.threads = List.replicate 16 [] ∧
        t.lc.debugRights = 0 ∧ t.engine.fetchStopped = true) ∧
    (s.start.alarmPending = true → s.start.state ≠ .tamperHold → s.reqs = [] →
      s.engine.pairs.all (fun e => recordsSettled e.2) = true →
      ∃ t, exec .tamperHold s = .next t ∧ t.start.state = .tamperHold ∧ t.start.erasePending = false) ∧
    (s.start.state = .tamperWait → s.start.alarmPending = false →
      (s.start.failedStarts < 3 → ∃ t, exec .tamperWaitEnd s = .next t ∧ t.start.state = .selfTest ∧ t.start.step = 1) ∧
      (3 ≤ s.start.failedStarts → ∃ t, exec .tamperWaitEnd s = .next t ∧ t.start.state = .pavane)) ∧
    (s.start.powerGood = true → ∀ a b : BitVec 20, ∃ t, exec (.meshPatternChange a b) s = .next t ∧ t.pins.meshOpen = a ∧
      t.pins.meshCross = b ∧
      ((a &&& s.pins.meshOpen) &&& 0xFFFF#20 ≠ 0 → s.pins.tamperActive.getLsbD 0 = false → (tamperMask s).getLsbD 0 = true →
        t.start.alarmPending = true ∧ waits t 0) ∧
      (a &&& s.pins.meshOpen = 0 → b &&& s.pins.meshCross = 0 →
        t = { s with pins := { s.pins with meshOpen := a, meshCross := b } })) ∧
    (s.rng.state = .running → reseedDue s = false → ∃ t, exec .meshReseed s = .next t ∧
      t.pins.meshSeeds = s.pins.meshSeeds + 1) ∧
    (s.start.powerGood = true → exec .voltageDetectorsArmed s
      = .next { s with pins := { s.pins with detectorsArmed := true } }) ∧
    (∀ k, k < 9 →
      (∃ t, exec (.clockStopped k) s = .next t ∧ ∀ j, t.pins.clocksPresent.getLsbD j
        = (s.pins.clocksPresent.getLsbD j && decide (j ≠ k))) ∧
      (∃ t, exec (.clockReturned k) s = .next t ∧ ∀ j, j < 9 → t.pins.clocksPresent.getLsbD j
        = (s.pins.clocksPresent.getLsbD j || decide (j = k))))

/-! ## The Lovaov link (chapter 18) -/

/-- R583 to R590: a port with its PHY ready locks, classifies its lanes, trains them, aligns, identifies its peer and comes up;
it fails with the cause of Table 18-6, and goes down with its event. -/
def Obligations.LinkPortsComeUpFailAndGoDown : Prop :=
  ∀ (s : State) (p : Nat), p < 2 →
    let l := s.lport p
    (s.link.cascadeSize ≠ 1 → s.start.inReset = false →
      (l.state = .down → l.enable = true → l.relockDue = false → ∃ t, exec (.phyReady p) s = .next t ∧
        (t.lport p).state = .lock ∧ (t.lport p).phyReady = true) ∧
      (l.relockDue = true → exec (.phyReady p) s = .next (s.onLport p (fun x => { x with phyReady := true }))) ∧
      (l.state = .down → l.enable = true → l.phyReady = true → l.relockDue = true →
        ∃ t, exec (.relock p) s = .next t ∧ (t.lport p).state = .lock ∧ (t.lport p).relockDue = false) ∧
      (l.enable = false → l.phyReady = true →
        ∃ t, exec (.portEnable p true) s = .next t ∧ (t.lport p).state = .lock ∧ (t.lport p).enable = true)) ∧
    (l.state ≠ .failed → ∃ t, exec (.portEnable p false) s = .next t ∧ (t.lport p).state = .down ∧
      (t.lport p).enable = false) ∧
    (l.state = .failed → exec (.portEnable p false) s = .next (s.onLport p (fun x => { x with enable := false }))) ∧
    (∀ status pol, l.state = .lock → ∃ t, exec (.lanesClassified p status pol) s = .next t ∧ (t.lport p).state = .train ∧
      (t.lport p).trial = 0 ∧ (t.lport p).polarity = pol ∧
      (t.lport p).laneStatus = (List.range 8).map (fun i => status.getD i 1 % 4)) ∧
    (l.state = .train →
      (∀ coeff eye noAnswer, runsTrials s p = true → s.pins.clocksPresent.getLsbD 7 = true →
        ∃ t, exec (.trainingTrial p coeff ⟨eye, noAnswer⟩) s = .next t ∧ (t.lport p).txCoeff = cut coeff 0 24 ∧
          t.pins.phycTimeouts = s.pins.phycTimeouts + BitVec.ofNat 32 (laneCount noAnswer) ∧
          (20 ≤ l.trial → (t.lport p).trial = l.trial ∧ (t.lport p).eye = l.eye) ∧
          (l.trial < 20 → (t.lport p).trial = l.trial + 1 ∧
            ∀ i, i < 8 → ((t.lport p).trained.getLsbD i = (l.trained.getLsbD i || !(noAnswer.getLsbD i))) ∧
              octet (t.lport p).eye i =
                if (l.trialOf i).isSome = true ∧ noAnswer.getLsbD i = false
                  ∧ (l.trained.getLsbD i = false ∨ (octet l.eye i).toNat < (octet eye i).toNat) then octet eye i
                else octet l.eye i)) ∧
      ((∀ i, i < 8 → l.laneStatus.getD i 1 = 0 ∧
          (runsTrials s p = true → l.trained.getLsbD i = true ∧ s.link.eyeMin ≤ (octet l.eye i).toNat)) →
        ∃ t, exec (.trainingEnd p 0xFF) s = .next t ∧ (t.lport p).state = .align ∧ (t.lport p).width = 8 ∧
          (t.lport p).laneSet = 0) ∧
      (∃ t, exec (.trainingEnd p 0) s = .next t ∧ (t.lport p).state = .failed ∧ (t.lport p).failCause = 1 ∧
        waits t (0x102 + p))) ∧
    (l.state = .align →
      (∃ t, exec (.alignDone p [0, 1, 2, 3, 4, 5, 6, 7] true) s = .next t ∧ (t.lport p).state = .identify ∧
        (t.lport p).reversed = false) ∧
      (∃ t, exec (.alignDone p [7, 6, 5, 4, 3, 2, 1, 0] true) s = .next t ∧ (t.lport p).state = .identify ∧
        (t.lport p).reversed = true) ∧
      (∃ t, exec (.alignDone p [0, 0, 0, 0, 0, 0, 0, 0] true) s = .next t ∧ (t.lport p).state = .failed ∧
        (t.lport p).failCause = 2) ∧
      (∀ order, ∃ t, exec (.alignDone p order false) s = .next t ∧ (t.lport p).state = .failed ∧
        (t.lport p).failCause = 3)) ∧
    (l.state = .identify →
      (∀ m u v, s.takeMsg p m kIdent = some u →
        v = u.onLport p (fun x =>
          { x with peerInstance := (octet m.body 51).toNat, peerPort := (octet m.body 48).toNat
                   peerFixed := bit (octet m.body 50).toNat 1, peerRole := (octet m.body 49).toNat
                   peerDevice := cut m.body 0 48, identSeen := true }) →
        (∀ c, identConflict v p m.body = some c → ∃ t, exec (.ident p m) s = .next t ∧ (t.lport p).state = .failed ∧
          (t.lport p).failCause = c) ∧
        (identConflict v p m.body = none → ∃ t, exec (.ident p m) s = .next t ∧ (t.lport p).state = .identify ∧
          (t.lport p).identSeen = true ∧ (t.lport p).peerDevice = cut m.body 0 48)) ∧
      (s.link.isFixed = false ∨ l.peerFixed = false →
        exec (.identPeriod p) s = .next (s.sendOn p kIdent (s.identBody p))) ∧
      (l.identSeen = true → s.link.isFixed = true → l.peerFixed = true → l.peerRole ≠ l.role → 16 ≤ l.echoDelays.length →
        ∃ t, exec (.portUp p) s = .next t ∧ (t.lport p).state = .up ∧ (t.lport p).lastUp = some l.txCoeff ∧
          (t.lport p).hopDelay = BitVec.ofNat 16 ((l.echoDelays.take 16).sum / 16))) ∧
    (∀ c, c < 2 → l.state = .up ∨ l.state = .identify ∨ l.state = .align → ∃ t, exec (.portDown p c) s = .next t ∧
      (t.lport p).state = .down ∧ (t.lport p).downCount = l.downCount + 1 ∧ (t.lport p).relockDue = true ∧
      waits t (0x100 + p))

/-- R579 to R581: a good DATA frame in its sequence is taken with its messages, a bad one counted; a CONTROL frame is counted and
answered with a replay when it names a kept frame; acknowledgements and credits that are due go out; a replay resends every
kept frame, and the port goes down after the eighth without an advance. While the port's clock is stopped both wait (21 R648). -/
def Obligations.LinkFramesAreTakenAndReplayed : Prop :=
  ∀ (s : State) (p : Nat), p < 2 → (s.lport p).state = .identify ∨ (s.lport p).state = .up →
    let l := s.lport p
    (∀ lack credit ms, ∃ t, exec (.frameReceive p l.lseqRx lack credit true ms) s = .next t ∧
      (t.lport p).rx = l.rx ++ rxOf ms s.now ∧ (t.lport p).lseqRx = (l.lseqRx + 1) % 65536 ∧
      (t.lport p).framesRx = l.framesRx + 1 ∧ (t.lport p).crcErrors = l.crcErrors) ∧
    (∀ lseq lack credit good ms, good = false ∨ lseq ≠ l.lseqRx → ∃ t, exec (.frameReceive p lseq lack credit good ms) s = .next t ∧
      (t.lport p).rx = l.rx ∧ (t.lport p).lseqRx = l.lseqRx ∧ (t.lport p).crcErrors = l.crcErrors + 1) ∧
    (∀ lack credit a, a = LinkPort.ackTo { l with framesRx := l.framesRx + 1, credits := l.credits + credit } lack →
      (a.names lack = false → ∃ t, exec (.controlFrame p lack credit) s = .next t ∧ t.lport p = a.flush) ∧
      (a.names lack = true → a.replayRuns < 8 → ∃ t, exec (.controlFrame p lack credit) s = .next t ∧
        t.lport p = a.replay.flush) ∧
      (a.names lack = true → 8 ≤ a.replayRuns → ∃ t, exec (.controlFrame p lack credit) s = .next t ∧
        (t.lport p).state = .down ∧ (t.lport p).kept = [] ∧ waits t (0x100 + p))) ∧
    (s.linkClock p = true → l.lackDue = true ∨ 0 < l.creditsDue →
      exec (.controlFramePeriod p) s = .next (s.onLport p LinkPort.control)) ∧
    (s.linkClock p = false → exec (.controlFramePeriod p) s = .next s ∧ exec (.replayTimeExpiry p) s = .next s) ∧
    (s.linkClock p = true → l.kept ≠ [] →
      (l.replayRuns < 8 → ∃ t, exec (.replayTimeExpiry p) s = .next t ∧ (t.lport p).replays = l.replays + 1 ∧
        (t.lport p).kept = l.kept ∧ (t.lport p).framesTx = l.framesTx + BitVec.ofNat 64 l.kept.length ∧
        (t.lport p).replayRuns = l.replayRuns + 1) ∧
      (8 ≤ l.replayRuns → ∃ t, exec (.replayTimeExpiry p) s = .next t ∧ (t.lport p).state = .down ∧
        (t.lport p).kept = [] ∧ waits t (0x100 + p)))

/-- R592, R593, R604, R605: MAP tells which segments of its sender are up; TIME steps or slews the timestamp; ECHO is answered and
measured; a message for another instance is passed on until its hop limit, one of an unknown kind discarded; the periodic
messages go out. -/
def Obligations.UnorderedMessagesMapTimeAndForward : Prop :=
  ∀ (s : State) (p : Nat) (m : Msg), p < 2 →
    (∀ u, s.takeMsg p m kMap = some u → (octet m.body 0).toNat ≠ s.link.instanceNo →
      (octet m.body 0).toNat < s.link.cascadeSize → ∃ t, exec (.map p m) s = .next t ∧
        ((t.peer (octet m.body 0).toNat).eastUp = true ↔
          (octet m.body 1 = 5 ∧ octet m.body 2 = 0) ∨ (octet m.body 4 = 5 ∧ octet m.body 5 = 0)) ∧
        ((t.peer (octet m.body 0).toNat).westUp = true ↔
          (octet m.body 1 = 5 ∧ octet m.body 2 = 1) ∨ (octet m.body 4 = 5 ∧ octet m.body 5 = 1))) ∧
    (s.link.cascadeSize ≠ 1 → exec .mapPeriod s = .next (s.sendMsg kMap everyone s.mapBody) ∧
      (s.pins.htEnabled = true → exec .timePeriod s = .next (s.sendMsg kTime everyone (timeBody s.now.toNat 0)))) ∧
    (∀ u x, s.takeMsg p m kTime = some u → (s.lport p).rx.head? = some x →
      let target := BitVec.ofNat 48 (leNat (cut m.body 0 8) % 2 ^ 48 + leNat (cut m.body 8 4) + (s.now - x.arrived).toNat)
      let diff := (target - s.now).toInt
      (diff < -64 ∨ 64 < diff → ∃ t, exec (.time p m) s = .next t ∧ t.now = target ∧ t.link.slewing = 0) ∧
      (-64 ≤ diff → diff ≤ 64 → ∃ t, exec (.time p m) s = .next t ∧ t.now = s.now ∧ t.link.slewing = diff)) ∧
    (∀ u x, s.takeMsg p m kEcho = some u → (s.lport p).rx.head? = some x →
      let w := leNat (cut m.body 0 8)
      (bit w 63 = false → exec (.echo p m) s = .next (u.sendOn p kEcho
        (leBytes 8 (w % 2 ^ 48 + 2 ^ 63) ++ leBytes 4 (x.arrived.truncate 32).toNat ++ leBytes 4 (s.now.truncate 32).toNat))) ∧
      (bit w 63 = true → (s.lport p).echoDelays.length < 16 →
        let d := (((x.arrived.truncate 32 : BitVec 32) - BitVec.ofNat 32 w)
          - (BitVec.ofNat 32 (leNat (cut m.body 12 4)) - BitVec.ofNat 32 (leNat (cut m.body 8 4)))).toNat / 2
        ∃ t, exec (.echo p m) s = .next t ∧ (t.lport p).echoDelays = (s.lport p).echoDelays ++ [d])) ∧
    ((s.lport p).state = .up → ∃ t, exec (.echoRenewal p) s = .next t ∧ (t.lport p).echoDelays = [] ∧
      (t.lport p).echoSent = some s.now) ∧
    (∀ x, (s.lport p).rx.head? = some x → x.msg = m →
      (knownKind m.kind = false → ∃ t, exec (.messageForward p m) s = .next t ∧ (t.lport p).rx = (s.lport p).rx.drop 1 ∧
        t.link.unknownKind = s.link.unknownKind + 1 ∧ waits t 0x105) ∧
      (knownKind m.kind = true → s.forMe m = false →
        (s.link.cascadeSize ≤ m.hops + 1 → ∃ t, exec (.messageForward p m) s = .next t ∧
          (t.lport p).rx = (s.lport p).rx.drop 1 ∧ t.link.hopLimitDrops = s.link.hopLimitDrops + 1 ∧ waits t 0x106) ∧
        (m.hops + 1 < s.link.cascadeSize →
          ((s.lport (1 - p)).state = .up → ∃ t, exec (.messageForward p m) s = .next t ∧
            (t.lport p).rx = (s.lport p).rx.drop 1 ∧ t.link.forwarded = s.link.forwarded + 1) ∧
          ((s.lport (1 - p)).state ≠ .up → exec (.messageForward p m) s = .next (s.popRx p)))))

/-- R595 to R599: an acknowledgement releases the messages it covers, or asks for a restart, as does a lost destination; what is
not acknowledged is resent, and deliveries are acknowledged. A doorbell of the window acts on this instance's ring, or is
forwarded to its instance, or dropped; one that arrives acts on the ring here. -/
def Obligations.OrderedMessagesAreKeptUntilAcknowledged : Prop :=
  ∀ s : State,
    (∀ m p u, s.rxPort m = some p → s.takeMsg p m kAck = some u →
      (bit (leNat (cut m.body 0 8)) 63 = true → exec (.ackE2e m) s = .next (u.dropPeer m.src)) ∧
      (bit (leNat (cut m.body 0 8)) 63 = false → u.link.waiting = [] → ∃ t, exec (.ackE2e m) s = .next t ∧
        (t.peer m.src).pending = (s.peer m.src).pending.filter (fun y =>
          !decide ((leNat (cut m.body 0 8) % 65536 + 65536 - y.pseq) % 65536 < 32768)))) ∧
    (∀ i, i < 64 →
      ((s.peer i).pending ≠ [] → ∃ t, exec (.e2eTimeExpiry i) s = .next t ∧ (t.peer i).pending = (s.peer i).pending ∧
        t.link.e2eResends = s.link.e2eResends + BitVec.ofNat 64 (s.peer i).pending.length) ∧
      (0 < (s.peer i).delivered → ∀ e, (s.peer i).expectPseq = some e → exec (.ackE2ePeriod i) s
        = .next ((s.onPeer i (fun x => { x with delivered := 0 })).sendMsg kAck i (leBytes 8 ((e + 65535) % 65536)))) ∧
      (s.link.cascadeSize ≠ 1 → i ≠ s.link.instanceNo → (s.peer i).reach = 0 → (s.peer i).everReached = true →
        ∃ t, exec (.destLost i) s = .next t ∧ (t.peer i).pending = [] ∧ (t.peer i).restartDue = true ∧
          Tab.has t.link.transportKeys i = false ∧ waits t 0x107)) ∧
    (∀ b i o pair reg v, i < 64 → o ≤ mgr → pair < 8 → reg < 2 → accepts s b o = true → 0 < s.link.cascadeSize →
      let addr := 0x40000 * i + 0x100 * o + 0x20 * pair + 8 * reg
      (i = 0 → exec (.doorbellWindowWrite b addr v) s = .next (s.ringWrite o pair reg v.toNat)) ∧
      (s.link.cascadeSize ≤ i → exec (.doorbellWindowWrite b addr v) s
        = .next (s.onLink (fun l => { l with doorbellDrops := l.doorbellDrops + 1 }))) ∧
      (i ≠ 0 → i < s.link.cascadeSize → ∃ t, exec (.doorbellWindowWrite b addr v) s = .next t ∧
        t.link.doorbellsForwarded = s.link.doorbellsForwarded + 1)) ∧
    (∀ m u, s.deliverMsg m kDoorbell = some u →
      let o := if bit (leNat (cut m.body 0 2)) 9 then mgr else leNat (cut m.body 0 2) % 512
      let pw := leNat (cut m.body 4 4)
      u.pageAccess { pasid := if bit pw 31 then none else some (BitVec.ofNat 20 pw), be := 0xFF } o = (true, u) →
      pageDead u o = false →
      exec (.doorbell m) s
        = .next (u.ringWrite o (leNat (cut m.body 2 1) % 8) (leNat (cut m.body 3 1)) (leNat (cut m.body 8 8))))

/-! ## The dictionary, events and registers (chapters 19, 20 and 21) -/

/-- R614, R622, R623, R625, R626: a write of DICT_INDEX captures its operation and makes the window busy, or is dropped and
counted while it is; the operation ends with its outcome in DICT_STATUS, OPS advanced; a remote one ends with the response that
carries its TAG, or in time without; the head's request is carried out and answered, any other discarded. -/
def Obligations.DictionaryWindowRunsOperations : Prop :=
  ∀ s : State,
    (∀ b v, accepts s b mgr = true → ∀ c ∈ [(Instr.dictRead b v, 1), (Instr.dictWrite b v, 2), (Instr.dictDescribe b v, 3)],
      let w := withOp v c.2 &&& indexMask
      let o := opOfIndex w.toNat s.dict.segment
      (s.dict.busy = true → exec c.1 s = .next (s.onDict (fun d => { d with opsDropped := d.opsDropped + 1 }))) ∧
      (s.dict.busy = false → o.op = c.2 ∧
        (o.target = instanceRead s → exec c.1 s
          = .next (s.onDict (fun d => { d with indexReg := w, busy := true, current := some (o, none) }))) ∧
        (o.target ≠ instanceRead s → dictRoute s o.target = false → exec c.1 s = .next (s.onDict (fun d =>
          { d with indexReg := w, busy := true, current := some (o, some (DictResult.refusal 0x0B)) }))) ∧
        (o.target ≠ instanceRead s → dictRoute s o.target = true → ∃ t, exec c.1 s = .next t ∧ t.dict.busy = true ∧
          t.dict.current = some (o, none) ∧ t.dict.awaiting = some s.dict.tag ∧ t.dict.tag = (s.dict.tag + 1) % 256))) ∧
    (∀ o e, s.dict.current = some (o, e) → s.dict.awaiting = none → s.start.inReset = false → s.start.step0Done = true →
      (∀ r, e = some r → exec .dictOperationEnd s = .next (s.onDict (fun d => d.finish o.op r))) ∧
      (e = none → (s.dictRun o 0).2.1 = true → exec .dictOperationEnd s = .next (s.dictRun o 0).2.2) ∧
      (e = none → (s.dictRun o 0).2.1 = false → ∃ t, exec .dictOperationEnd s = .next t ∧ t.dict.busy = false ∧
        t.dict.current = none ∧ t.dict.status = { (s.dictRun o 0).1 with data := [] } ∧
        t.dict.ops = ((s.dictRun o 0).2.2.dict.ops + 1) % 256)) ∧
    (∀ o e tag, s.dict.current = some (o, e) → s.dict.awaiting = some tag → ∃ t, exec .dictRemoteTimeExpiry s = .next t ∧
      t.dict.busy = false ∧ t.dict.status.result = 0x0C ∧ t.dict.noResponses = s.dict.noResponses + 1) ∧
    (∀ m u, s.deliverMsg m kDictResp = some u →
      (∀ o e, u.dict.current = some (o, e) → u.dict.awaiting = some (leNat (cut m.body 7 1)) →
        exec (.dictResp m) s = .next (u.onDict (fun d => d.finish o.op (resultOfResp m)))) ∧
      (u.dict.awaiting ≠ some (leNat (cut m.body 7 1)) →
        exec (.dictResp m) s = .next (u.onDict (fun d => { d with lateResponses := d.lateResponses + 1 })))) ∧
    (∀ m u, s.deliverMsg m kDictReq = some u → s.start.inReset = false → s.start.step0Done = true →
      (m.src ≠ 0 → ∃ t, exec (.dictReq m) s = .next t ∧ t.dict.remoteDiscarded = u.dict.remoteDiscarded + 1 ∧
        waits t 0x109) ∧
      (m.src = 0 → (opOfReq m).op ≠ 0 →
        let x := u.dictRun (opOfReq m) 1
        x.2.1 = false → exec (.dictReq m) s
          = .next ((x.2.2.onDict (fun d => { d.tally x.1.result with opsLocal := d.opsLocal + 1 })).sendMsg kDictResp 0
            (respBody (opOfReq m) (leNat (cut m.body 7 1)) x.1))))

/-- R615, Table 19-4: an operation on an index or a sub-entry that does not exist, a READ of one that cannot be read, a WRITE of one
that cannot be written or is locked, and a misaligned offset end with their codes, and leave every object as it was (a misaligned
segment of a string also empties the segment buffer); a READ of a scalar gives its value and leaves the state as it was. -/
def Obligations.DictionaryOperationsAreChecked : Prop :=
  ∀ (s : State) (o : DictOp) (src : Nat), o.op = 1 ∨ o.op = 2 ∨ o.op = 3 →
    let x := s.dictRun o src
    (o.index < 0xF000 → topSub o.index = none → x = (DictResult.refusal 0x01, false, s)) ∧
    (o.index < 0xF000 → subEntry s o.index o.sub = .error 0x02 → x = (DictResult.refusal 0x02, false, s)) ∧
    (0xF000 ≤ o.index → vendorOpen s o.op = false → x = (DictResult.refusal 0x05, false, s)) ∧
    (∀ q, o.index < 0xF000 → subEntry s o.index o.sub = .ok q →
      (o.op = 3 → x = (q.describe, false, s)) ∧
      (o.op = 1 → q.access = aWO ∨ q.access = aWOS → x = (q.outcome 0x04 0 [], false, s)) ∧
      (o.op = 1 → q.access ≠ aWO → q.access ≠ aWOS → q.isString = false → o.offset = 0 →
        x = (q.outcome 0 q.size (q.val.take q.size), false, s)) ∧
      (o.op = 2 → q.access = aRO → x = (q.outcome 0x03 0 [], false, s)) ∧
      (o.op = 2 → q.access = aRWL → rwlOpen s = false → x = (q.outcome 0x05 0 [], false, s)) ∧
      (o.op = 2 → q.access ≠ aRO → (q.access = aRWL → rwlOpen s = true) → q.isString = false → o.offset ≠ 0 →
        x = (q.outcome 0x09 0 [], false, s)) ∧
      (o.op = 2 → q.access ≠ aRO → (q.access = aRWL → rwlOpen s = true) → q.isString = true → o.offset % 32 ≠ 0 →
        x = (q.outcome 0x09 0 [], false, s.setSegments src (noTransfer src))))

/-- R634 to R637, R643, R644: the oldest occurrence is accepted once step 0 has ended, and its source shows it; writing 1 clears
STATUS bits and pending bits; a forced occurrence waits as any other where EVENT_FORCE is granted; an EVENT at the head counts
and sets the remote lines. -/
def Obligations.EventsAreAcceptedAndCleared : Prop :=
  ∀ s : State,
    (∀ o rest sev, s.events.waiting = o :: rest → s.start.step0Done = true → severityOf o.src = some sev →
      ∃ t, exec .eventAccepted s = .next t ∧ (t.source o.src).status = true ∧
        (t.source o.src).count = satInc (s.source o.src).count ∧ (t.source o.src).lastTime = s.now ∧
        (t.source o.src).lastArg = BitVec.ofNat 14 o.arg ∧ (t.source o.src).lastInfo = BitVec.ofNat 46 o.info ∧
        t.events.accepted = s.events.accepted + 1 ∧
        ((s.source o.src).mask = true → t.events.waiting = rest ∧ t.fifos = s.fifos)) ∧
    (∀ b w v, w < 10 → accepts s b mgr = true → ∃ t, exec (.statusClear b w v) s = .next t ∧
      ∀ i, (t.source i).status = ((s.source i).status && !(decide (i / 64 = w) && v.getLsbD (i % 64)))) ∧
    (∀ i, i < 640 →
      ((severityOf i).isSome = true → s.lc.debugRights.getLsbD 6 = true → ∃ t, exec (.forcedOccurrence i) s = .next t ∧
        t.events.waiting = s.events.waiting ++ [{ src := i, arg := 0, info := 0, forced := true }]) ∧
      (s.lc.debugRights.getLsbD 6 = false → exec (.forcedOccurrence i) s = .next s)) ∧
    (∀ b v, accepts s b mgr = true → ∃ t, exec (.remotePending b v) s = .next t ∧
      t.events = { s.events with remotePending := s.events.remotePending &&& ~~~(v.truncate 8) }) ∧
    (∀ m p u, s.rxPort m = some p → s.takeMsg p m kEvent = some u → ∃ t, exec (.event m) s = .next t ∧
      t.events.received = s.events.received + 1 ∧
      t.events.remotePending = s.events.remotePending ||| s.events.remoteRoute.truncate 8)

/-- R25, R457, R653, R654: an access by address that its page accepts acts on the register of that address: the dictionary
window, a ring block, an exception ring, a slice's mailbox registers, the status of a slice; a partial access is counted and has
no other effect; a command of an address outside the port's range is a fault. -/
def Obligations.RegistersActByAddress : Prop :=
  ∀ (s : State) (b : Bus) (v : U64),
    (accepts s b mgr = true → ∀ a, a < 0x40 → a % 8 = 0 →
      exec (.registerWrite b a v) s = .next (s.dictSet a v) ∧
      exec (.registerRead b a) s = .next (s.readBack (dictWord s a))) ∧
    (∀ n off, n < 512 → accepts s b n = true →
      let a := 0x1000000 + 0x10000 * n + off
      (off < 0x400 → off % 8 = 0 →
        exec (.registerWrite b a v) s = .next (s.ringSet (pairKey n (off / 0x80)) (off % 0x80) v) ∧
        exec (.registerRead b a) s = .next (s.readBack ((s.ring (pairKey n (off / 0x80))).word (off % 0x80)))) ∧
      (0x800 ≤ off → off < 0x880 → off % 8 = 0 →
        exec (.registerWrite b a v) s = .next (s.onXring n (fun x => x.write (off - 0x800) v)) ∧
        exec (.registerRead b a) s = .next (s.readBack ((s.xring n).word (off - 0x800)))) ∧
      (off = 0x5100 → exec (.registerWrite b a v) s = .next (s.onSlice n (fun x => { x with mbAddr := v }))) ∧
      (off = 0x6000 → exec (.registerRead b a) s = .next (s.readBack (sliceWord s n)))) ∧
    (∀ a, a < htSpan → s.pins.htEnabled = true → s.start.inReset = false → b.be ≠ 0xFF →
      let u := { s with pins := { s.pins with htPartialDrops := s.pins.htPartialDrops + 1 } }
      exec (.registerWrite b a v) s = .next u ∧ exec (.registerRead b a) s = .next (u.readBack 0)) ∧
    (∀ a, htSpan ≤ a → exec (.registerWrite b a v) s = .fault .noSuchUnit ∧
      exec (.registerRead b a) s = .fault .noSuchUnit)

/-! ## ABORT (chapter 2) -/

/-- R107 to R113: at the ring engine an ABORT ends when its ring is neither ENABLED nor DRAINING, when its target is no longer
or not yet in flight, or may not be aborted; else it waits for its target's decision point. There a target not yet dispatched
ends ABORTED and the abort ends with DETAIL 0x01, as it does for a target that is running, which stops after its segment; an
ending recorded first stands, marks the target late, and the abort ends with DETAIL 0x02. -/
def Obligations.AbortsAreSettledAtTheDecisionPoint : Prop :=
  (∀ (s : State) (rid : Nat) (q : Req), s.req rid = some q → q.d.opcode = 0x71 → q.stage = .abortWait →
    let r := s.ring (pairKey q.owner (abortRing q.d))
    (r.state ≠ .enabled → r.state ≠ .draining → exec (.abort rid) s
      = .next (s.putReq rid (q.endOuter { st := .requestInvalid, detail := 0x0B }))) ∧
    (r.state = .enabled ∨ r.state = .draining →
      (∀ t x, abortTarget s q = some (t, x) → rid ∉ x.abortWaiting →
        (x.stage ≠ .descRead → x.d.opcode = 0x70 ∨ x.d.opcode = 0x71 → exec (.abort rid) s
          = .next (s.putReq rid (q.endOuter { st := .ok, detail := 5 }))) ∧
        (x.stage = .descRead ∨ (x.d.opcode ≠ 0x70 ∧ x.d.opcode ≠ 0x71) → exec (.abort rid) s
          = .next (s.onReq t (fun y => { y with abortWaiting := y.abortWaiting ++ [rid] })))) ∧
      (abortTarget s q = none → exec (.abort rid) s = .next (s.putReq rid (q.endOuter (ends .ok
        (if 2 ^ (r.rqLog2 + 1) ≤ abortPos q.d ∨ ptrSub (abortPos q.d) r.rqHead r.rqLog2 < 2 ^ r.rqLog2 then 3 else 4))))))) ∧
  (∀ (s : State) (rid a : Nat) (rest : List Nat) (q x : Req), s.req rid = some q → q.abortWaiting = a :: rest → a ≠ rid →
    s.req a = some x → x.stage = .abortWait → x.stat = none → q.stage ≠ .descRead →
    ¬ (q.stage = .granted ∧ q.member ≠ 0 ∧ q.stat = none) →
    (q.ended = false → q.m.headSeen = false → q.m.stopAtSegment = none → q.stat = none →
      ∃ t q' x', exec (.abortAtDecisionPoint rid) s = .next t ∧ t.req rid = some q' ∧ q'.abortWaiting = rest ∧
        q'.stat.map Stat.ending = some { st := .aborted, detail := 1 } ∧ t.req a = some x' ∧
        x'.stat.map Stat.ending = some { st := .ok, detail := 1 }) ∧
    (q.ended = false → q.m.headSeen = true → q.m.dispatched = true → isKeyOp q.d.opcode = false → q.m.stopAtSegment = none →
      q.m.segIssued ≠ q.m.segPassed →
      ∃ t q' x', exec (.abortAtDecisionPoint rid) s = .next t ∧ t.req rid = some q' ∧ q'.ended = false ∧
        q'.m.stopAtSegment = some { st := .aborted, detail := 2 } ∧ t.req a = some x' ∧
        x'.stat.map Stat.ending = some { st := .ok, detail := 1 }) ∧
    (q.ended = true → q.recordIssued = false →
      ∃ t q' x', exec (.abortAtDecisionPoint rid) s = .next t ∧ t.req rid = some q' ∧ q'.abortLate = true ∧
        q'.stat = q.stat ∧ q'.m.ending = q.m.ending ∧ t.req a = some x' ∧
        x'.stat.map Stat.ending = some { st := .ok, detail := 2 }))

/-! ## Steps -/

/-- A step runs the command at the front of the queue on the state with the queue's rest; on an empty queue one TS_CLK
cycle passes (the model's choice, log entry 4). -/
def Obligations.StepRunsFrontCommand : Prop :=
  (∀ (c : Instr) (rest : List Instr) (s : State), s.pending = c :: rest → step s = exec c { s with pending := rest }) ∧
  (∀ s : State, s.pending = [] → step s = .next s.idleTick)

/-- Every well-formed command gives a next state: no command is refused, and none faults whose operands name units and
addresses that the T9 has. -/
def Obligations.WellFormedCommandsNeverStop : Prop :=
  ∀ (c : Instr) (s : State), c.wf = true → ∃ t, exec c s = .next t

/-- The queue is worked off in order: a step takes the command at the front and no command adds one, removes one or
changes their order (the queue is the model's own, log entry 4). -/
def Obligations.QueueIsWorkedOffInOrder : Prop :=
  ∀ s t : State, step s = .next t → t.pending = s.pending.tail

/-- R613, R614: the consistency of the dictionary window is kept by every step, whatever the command. -/
def Obligations.EveryStepKeepsWindowConsistent : Prop :=
  ∀ s t : State, windowInv s → step s = .next t → windowInv t

/-- The dictionary window is consistent after reset. -/
def Obligations.ResetWindowIsConsistent : Prop :=
  windowInv State.reset

/-! ## Frames -/

/-- Frame of chapters 2 and 3: ring, gather, Seam, delivery and abort commands. Each of them, where it gives a next state,
leaves every field of State as it was but those listed, whatever the state and the operands. -/
def Obligations.FrameOfRingAndDeliveryCommands : Prop :=
  (∀ b owner n v, keepsAllBut [.engine, .slices, .pins, .events] (.rqTail b owner n v)) ∧
  (∀ b owner n v, keepsAllBut [.engine, .slices, .pins, .events] (.cqHead b owner n v)) ∧
  (∀ b owner n, keepsAllBut [.engine, .spread, .slices, .pins, .events] (.ringEnable b owner n)) ∧
  (∀ b owner n, keepsAllBut [.engine, .slices, .pins, .events] (.ringDisable b owner n)) ∧
  (∀ owner n, keepsAllBut [.engine] (.ringDrained owner n)) ∧
  (∀ rids, keepsAllBut [.engine, .reqs, .spread, .slices, .access, .port, .events] (.fetchTurn rids)) ∧
  (∀ owner n, keepsAllBut [.engine, .reqs, .port] (.descriptorArrival owner n)) ∧
  (∀ owner n, keepsAllBut [.engine, .reqs, .spread, .slices, .access, .port, .events] (.descSingleReread owner n)) ∧
  (∀ rid, keepsAllBut [.reqs, .dir, .slices, .access, .port, .memory, .events] (.resolve rid)) ∧
  (∀ rid, keepsAllBut [.reqs, .port] (.blobReadArrival rid)) ∧
  (∀ rid, keepsAllBut [.reqs, .order, .slices, .access, .port, .events] (.seamGatePass rid)) ∧
  (∀ rid, keepsAllBut [.reqs, .slices, .access, .port, .events] (.fragmentListArrival rid)) ∧
  (∀ rid, keepsAllBut [.reqs, .slices, .access, .port, .events] (.inputDataArrival rid)) ∧
  (∀ rid, keepsAllBut [.reqs, .lanes, .keys, .digest] (.cancel rid)) ∧
  (∀ rid, keepsAllBut [.ident, .engine, .reqs, .lanes, .keys, .tango, .digest, .pke, .rng, .fifos, .slices, .access, .port, .memory, .lc, .start, .link, .events] (.headArrival rid)) ∧
  (∀ tag, keepsAllBut [.ident, .engine, .reqs, .lanes, .keys, .tango, .digest, .pke, .rng, .fifos, .lc, .start, .link, .events] (.inwardBeatArrival tag)) ∧
  (∀ rid, keepsAllBut [.ident, .engine, .reqs, .order, .lanes, .keys, .tango, .digest, .pke, .rng, .fifos, .memory, .lc, .start, .link, .events] (.dispatch rid)) ∧
  (∀ lane, keepsAllBut [.reqs, .lanes, .keys, .digest] (.laneTurn lane)) ∧
  (∀ rid, keepsAllBut [.ident, .engine, .reqs, .lanes, .keys, .tango, .digest, .pke, .rng, .fifos, .memory, .lc, .start, .link, .events] (.tangoPass rid)) ∧
  (∀ rid at_ passed, keepsAllBut [.reqs, .lanes, .keys, .tango, .digest, .events] (.tangoMismatch rid at_ passed)) ∧
  (∀ rid, keepsAllBut [.reqs, .dir, .events] (.statArrival rid)) ∧
  (∀ rid, keepsAllBut [.reqs, .slices, .access, .port, .events] (.outputWriteIssue rid)) ∧
  (∀ chan tag err, keepsAllBut [.engine, .reqs, .spread, .slices, .access, .port, .start, .events] (.writeResponse chan tag err)) ∧
  (∀ chan tag data last err, keepsAllBut [.engine, .reqs, .spread, .slices, .access, .port, .start, .events] (.readDataBeat chan tag data last err)) ∧
  (∀ chan tag, keepsAllBut [.engine, .reqs, .spread, .slices, .access, .port, .start, .events] (.spResponseTimeout chan tag)) ∧
  (∀ rid, keepsAllBut [.engine, .reqs, .slices, .access, .port, .start, .events] (.journalWrite rid)) ∧
  (∀ rid, keepsAllBut [.engine, .reqs, .order, .keys, .tango, .pke, .rng, .slices, .access, .port, .link, .events] (.completionRecordIssue rid)) ∧
  (∀ rid, keepsAllBut [.engine, .reqs, .port] (.completionRecordAck rid)) ∧
  (∀ owner n, keepsAllBut [.engine, .slices, .access, .port, .events] (.tailWriteIssue owner n)) ∧
  (∀ owner n, keepsAllBut [.engine, .slices, .access, .port, .events] (.tailWriteAck owner n)) ∧
  (∀ owner n, keepsAllBut [.engine, .slices, .access, .port, .events] (.coalTimeExpiry owner n)) ∧
  (∀ rid, keepsAllBut [.reqs, .lanes, .keys, .digest, .link] (.abortAtDecisionPoint rid))

/-- Frame of chapters 1 and 4 to 9: opcodes at Dispatch, keys, directory and lanes. Each of them, where it gives a next
state, leaves every field of State as it was but those listed, whatever the state and the operands. -/
def Obligations.FrameOfCipherKeyAndDirectoryCommands : Prop :=
  (∀ rid, keepsAllBut [.reqs, .lanes, .keys, .tango, .digest] (.aeadSeal rid)) ∧
  (∀ rid, keepsAllBut [.reqs, .lanes, .keys, .tango, .digest] (.aeadOpen rid)) ∧
  (∀ rid, keepsAllBut [.reqs, .lanes, .keys, .tango, .digest] (.cipherEnc rid)) ∧
  (∀ rid, keepsAllBut [.reqs, .lanes, .keys, .tango, .digest] (.cipherDec rid)) ∧
  (∀ rid, keepsAllBut [.reqs, .lanes, .keys, .tango, .digest] (.macGen rid)) ∧
  (∀ rid, keepsAllBut [.reqs, .lanes, .keys, .tango, .digest] (.macVerify rid)) ∧
  (∀ rid, keepsAllBut [.reqs, .lanes, .keys, .tango, .digest] (.digest rid)) ∧
  (∀ rid, keepsAllBut [.reqs, .lanes, .keys, .tango, .digest] (.hmac rid)) ∧
  (∀ rid, keepsAllBut [.reqs, .lanes, .keys, .tango, .digest] (.digestSave rid)) ∧
  (∀ rid, keepsAllBut [.reqs, .lanes, .keys, .tango, .digest] (.digestResume rid)) ∧
  (∀ rid, keepsAllBut [.ident, .engine, .reqs, .lanes, .keys, .tango, .digest, .pke, .rng, .fifos, .memory, .lc, .start, .link, .events] (.keyLoadWrapped rid)) ∧
  (∀ rid, keepsAllBut [.ident, .engine, .reqs, .lanes, .keys, .tango, .digest, .pke, .rng, .fifos, .memory, .lc, .start, .link, .events] (.keyErase rid)) ∧
  (∀ rid, keepsAllBut [.ident, .engine, .reqs, .lanes, .keys, .tango, .digest, .pke, .rng, .fifos, .memory, .lc, .start, .link, .events] (.keyGen rid)) ∧
  (∀ rid, keepsAllBut [.ident, .engine, .reqs, .lanes, .keys, .tango, .digest, .pke, .rng, .fifos, .memory, .lc, .start, .link, .events] (.keyExportWrapped rid)) ∧
  (∀ rid, keepsAllBut [.ident, .engine, .reqs, .lanes, .keys, .tango, .digest, .pke, .rng, .fifos, .memory, .lc, .start, .link, .events] (.assocRollRoll rid)) ∧
  (∀ rid, keepsAllBut [.ident, .engine, .reqs, .lanes, .keys, .tango, .digest, .pke, .rng, .fifos, .memory, .lc, .start, .link, .events] (.assocRollForm rid)) ∧
  (∀ rid, keepsAllBut [.ident, .engine, .reqs, .lanes, .keys, .tango, .digest, .pke, .rng, .fifos, .memory, .lc, .start, .link, .events] (.assocRollDissolve rid)) ∧
  (∀ rid, keepsAllBut [.ident, .engine, .reqs, .order, .lanes, .keys, .digest, .pke, .rng, .fifos, .memory, .lc, .start, .link, .events] (.pkeRun rid)) ∧
  (∀ rid, keepsAllBut [.reqs, .lanes, .keys, .digest, .rng, .fifos] (.rngFill rid)) ∧
  (∀ rid, keepsAllBut [.reqs, .dir, .memory, .events] (.dirInsert rid)) ∧
  (∀ rid, keepsAllBut [.reqs, .dir, .memory, .events] (.dirDelete rid)) ∧
  (∀ rid, keepsAllBut [.reqs, .dir, .memory, .events] (.dirLookup rid)) ∧
  (∀ rid, keepsAllBut [.reqs, .order, .slices, .access, .port, .events] (.nopFence rid)) ∧
  (∀ rid, keepsAllBut [.reqs] (.abort rid)) ∧
  (∀ rid, keepsAllBut [.reqs, .spread, .keys, .tango, .slices, .access, .port, .link, .events] (.spreadGrant rid)) ∧
  (∀ nn i, keepsAllBut [.reqs, .spread] (.memberLost nn i)) ∧
  (∀ b owner, keepsAllBut [.ident, .engine, .reqs, .lanes, .keys, .digest, .pke, .rng, .fifos, .memory, .lc, .start, .pins, .link, .events] (.kwCommitLoad b owner)) ∧
  (∀ b owner, keepsAllBut [.ident, .engine, .reqs, .lanes, .keys, .digest, .pke, .rng, .fifos, .lc, .start, .pins, .link, .events] (.kwCommitClear b owner)) ∧
  (∀ slot, keepsAllBut [.reqs, .lanes, .keys, .tango, .digest] (.loadInForce slot)) ∧
  (∀ slot, keepsAllBut [.reqs, .lanes, .keys, .digest] (.eraseComplete slot)) ∧
  (∀ slot, keepsAllBut [.reqs, .lanes, .keys, .digest] (.eraseLimitExpiry slot)) ∧
  keepsAllBut [.keys] .allotCommit ∧
  (∀ v, keepsAllBut [.keys] (.coldCacheSlots v)) ∧
  keepsAllBut [.dir] .tick ∧
  (∀ visit, keepsAllBut [.dir] (.sweepVisit visit)) ∧
  (∀ owner chan, keepsAllBut [.dir, .slices, .access, .port, .events] (.exceptionEntryWrite owner chan)) ∧
  (∀ b owner, keepsAllBut [.dir, .slices, .pins, .events] (.xrEnable b owner)) ∧
  keepsAllBut [.dir, .memory] .learnedRecount ∧
  (∀ mask, keepsAllBut [.lanes] (.laneRetest mask)) ∧
  (∀ lane passed, keepsAllBut [.lanes] (.laneRetestDone lane passed)) ∧
  (∀ code, keepsAllBut [.ident, .lanes, .tango, .pins] (.posture code)) ∧
  keepsAllBut [.tango, .pins] .lanesDrainedForLean ∧
  keepsAllBut [.ident, .tango] .postureSettled ∧
  keepsAllBut [.lanes, .tango, .pins] .supplyReached

/-- Frame of chapters 4, 10 to 12 and 14: digest units, engines, FIFOs and the generator. Each of them, where it gives a
next state, leaves every field of State as it was but those listed, whatever the state and the operands. -/
def Obligations.FrameOfDigestPkeFifoAndRngCommands : Prop :=
  keepsAllBut [.lanes, .tango, .pins] .vreqLimitExpiry ∧
  keepsAllBut [.ident, .events] .sealDigestDone ∧
  (∀ b owner v, keepsAllBut [.digest, .slices, .pins, .events] (.dgConfig b owner v)) ∧
  (∀ b owner v, keepsAllBut [.ident, .engine, .reqs, .lanes, .keys, .digest, .pke, .rng, .fifos, .slices, .memory, .lc, .start, .pins, .link, .events] (.digestData b owner v)) ∧
  (∀ b owner off v, keepsAllBut [.ident, .engine, .reqs, .lanes, .keys, .digest, .pke, .rng, .fifos, .slices, .memory, .lc, .start, .pins, .link, .events] (.digestLast b owner off v)) ∧
  (∀ owner, keepsAllBut [.digest] (.digestFinishDone owner)) ∧
  (∀ b owner, keepsAllBut [.ident, .engine, .reqs, .lanes, .keys, .tango, .digest, .pke, .rng, .fifos, .slices, .memory, .lc, .start, .pins, .link, .events] (.dgCmdSave b owner)) ∧
  (∀ b owner, keepsAllBut [.ident, .engine, .reqs, .lanes, .keys, .tango, .digest, .pke, .rng, .fifos, .slices, .memory, .lc, .start, .pins, .link, .events] (.dgCmdRestore b owner)) ∧
  (∀ b owner, keepsAllBut [.digest, .slices, .pins, .events] (.dgCmdAbandon b owner)) ∧
  (∀ unit done, keepsAllBut [.reqs, .lanes, .keys, .tango, .digest, .events] (.digestBlockDone unit done)) ∧
  (∀ mask, keepsAllBut [.digest] (.unitRetest mask)) ∧
  (∀ unit passed, keepsAllBut [.digest] (.unitRetestDone unit passed)) ∧
  (∀ engine, keepsAllBut [.reqs, .lanes, .keys, .digest, .pke, .fifos] (.yieldPoint engine)) ∧
  (∀ engine invariantsHold, keepsAllBut [.reqs, .lanes, .keys, .tango, .digest, .pke, .fifos, .slices, .access, .port, .events] (.pkeJobEnd engine invariantsHold)) ∧
  (∀ engine, keepsAllBut [.reqs, .lanes, .keys, .tango, .digest, .pke, .fifos, .events] (.engineMismatch engine)) ∧
  (∀ engine rid, keepsAllBut [.pke] (.pkeContextZeroed engine rid)) ∧
  (∀ mask, keepsAllBut [.pke] (.engineRetest mask)) ∧
  (∀ engine passed, keepsAllBut [.pke] (.engineRetestDone engine passed)) ∧
  keepsAllBut [.reqs, .lanes, .keys, .digest, .pke, .fifos, .events] .lockstepFault ∧
  (∀ matches_, keepsAllBut [.pke, .events] (.callerRecovered matches_)) ∧
  (∀ b owner, keepsAllBut [.fifos, .slices, .access, .port, .pins, .events] (.pkFifoData b owner)) ∧
  (∀ b kind owner, keepsAllBut [.fifos, .slices, .access, .port, .pins, .events] (.fifoSetMark b kind owner)) ∧
  (∀ b kind owner, keepsAllBut [.fifos, .slices, .access, .port, .pins, .events] (.fifoRewind b kind owner)) ∧
  (∀ b kind owner, keepsAllBut [.fifos, .slices, .access, .port, .pins, .events] (.fifoClearMark b kind owner)) ∧
  (∀ b kind owner, keepsAllBut [.fifos, .slices, .access, .port, .pins, .events] (.fifoData b kind owner)) ∧
  (∀ b kind owner v, keepsAllBut [.fifos, .slices, .access, .port, .pins, .events] (.send b kind owner v)) ∧
  (∀ b kind owner, keepsAllBut [.fifos, .slices, .access, .port, .pins, .events] (.sendCmdOpen b kind owner)) ∧
  (∀ b kind owner, keepsAllBut [.fifos, .slices, .access, .port, .pins, .events] (.sendCmdAbandon b kind owner)) ∧
  (∀ b kind owner v, keepsAllBut [.fifos, .slices, .access, .port, .pins, .events] (.sendClose b kind owner v)) ∧
  (∀ source bit, keepsAllBut [.reqs, .lanes, .keys, .digest, .pke, .rng, .fifos, .start, .events] (.noiseSample source bit)) ∧
  (∀ katOk, keepsAllBut [.reqs, .lanes, .keys, .digest, .pke, .rng, .start, .events] (.settlingEnd katOk)) ∧
  keepsAllBut [.reqs, .lanes, .keys, .digest, .pke, .rng, .start, .events] .startupTestDone ∧
  keepsAllBut [.rng] .poolEntry ∧
  keepsAllBut [.keys, .dir, .rng, .start] .drbgInstantiate ∧
  (∀ consumer, keepsAllBut [.reqs, .lanes, .keys, .tango, .digest, .rng, .fifos] (.generateCall consumer)) ∧
  keepsAllBut [.rng] .reseed ∧
  (∀ owner, keepsAllBut [.reqs, .lanes, .keys, .digest, .rng, .fifos] (.portRefill owner)) ∧
  (∀ b owner, keepsAllBut [.rng, .fifos, .slices, .access, .port, .pins, .events] (.rngWord b owner)) ∧
  keepsAllBut [.reqs, .lanes, .keys, .digest, .pke, .rng, .fifos, .start, .events] .drbgMismatch ∧
  (∀ compat, keepsAllBut [.ident, .rng] (.rngFailMode compat)) ∧
  keepsAllBut [.ident, .reqs, .lanes, .keys, .digest, .rng, .fifos] .rawModeEnter ∧
  keepsAllBut [.ident, .reqs, .lanes, .keys, .digest, .rng, .fifos] .rawModeExit ∧
  (∀ run, keepsAllBut [.rng, .fifos] (.rawRunCaptured run))

/-- Frame of chapters 13 to 17: slices, access rules, integrity, life cycle and start. Each of them, where it gives a next
state, leaves every field of State as it was but those listed, whatever the state and the operands. -/
def Obligations.FrameOfSliceAccessAndStartCommands : Prop :=
  (∀ slice, keepsAllBut [.slices] (.create slice)) ∧
  (∀ slice, keepsAllBut [.reqs, .lanes, .keys, .digest, .slices, .link] (.quiesce slice)) ∧
  (∀ slice, keepsAllBut [.slices, .events] (.quiesceDone slice)) ∧
  (∀ slice, keepsAllBut [.reqs, .lanes, .keys, .digest, .slices, .link] (.quiesceLimitExpiry slice)) ∧
  (∀ slice, keepsAllBut [.slices] (.resume slice)) ∧
  (∀ slice, keepsAllBut [.slices] (.reset slice)) ∧
  (∀ slice, keepsAllBut [.slices] (.remove slice)) ∧
  (∀ slice, keepsAllBut [.engine, .keys, .dir, .digest, .rng, .fifos, .slices, .start] (.sliceResetComplete slice)) ∧
  (∀ slice on, keepsAllBut [.slices] (.promEnable slice on)) ∧
  (∀ slice chan, keepsAllBut [.slices, .access, .port, .events] (.promLogWrite slice chan)) ∧
  (∀ slice, keepsAllBut [.slices] (.promSwap slice)) ∧
  (∀ slice, keepsAllBut [.slices] (.promSwapDone slice)) ∧
  keepsAllBut [.access] .ruleCommit ∧
  keepsAllBut [.access, .events] .commitValidated ∧
  keepsAllBut [.access, .events] .epochSwitch ∧
  keepsAllBut [.access] .epochDrained ∧
  keepsAllBut [.access, .events] .drainWarnExpiry ∧
  (∀ store, keepsAllBut [.reqs, .lanes, .keys, .dir, .tango, .digest, .pke, .fifos, .memory, .events] (.scrubLineRead store)) ∧
  keepsAllBut [.memory] .eccInject ∧
  (∀ code, keepsAllBut [.rng, .lc] (.lcRequestTransition code)) ∧
  keepsAllBut [.rng, .lc] .lcUnlock ∧
  keepsAllBut [.rng, .lc] .lcRepair ∧
  keepsAllBut [.rng, .lc] .lcScrap ∧
  (∀ ok, keepsAllBut [.engine, .reqs, .lanes, .keys, .digest, .lc, .start, .events] (.lcFieldVerified ok)) ∧
  keepsAllBut [.rng, .lc] .debugNonceReq ∧
  keepsAllBut [.lc] .debugSubmit ∧
  keepsAllBut [.ident, .digest, .rng, .lc, .events] .certCheckDone ∧
  keepsAllBut [.ident, .rng, .lc] .debugEnd ∧
  keepsAllBut [.ident, .rng, .lc] .debugRevoke ∧
  keepsAllBut [.lc] .attestRequest ∧
  keepsAllBut [.digest, .lc] .attestDone ∧
  keepsAllBut [.engine, .reqs, .lanes, .keys, .digest, .start] .resetRequestOrderly ∧
  (∀ counterOk, keepsAllBut [.ident, .lanes, .digest, .pke, .rng, .lc, .start, .events] (.lcDecode counterOk)) ∧
  (∀ step failure, keepsAllBut [.lanes, .digest, .pke, .rng, .start, .events] (.selfTestDone step failure)) ∧
  (∀ repairs damaged, keepsAllBut [.lanes, .keys, .digest, .pke, .rng, .slices, .access, .port, .lc, .start, .events] (.vaultCheckDone repairs damaged)) ∧
  keepsAllBut [.ident, .lanes, .digest, .pke, .rng, .fifos, .slices, .access, .port, .lc, .start, .events] .callerImageCheckDone ∧
  (∀ mask, keepsAllBut [.rng, .start] (.pavaneTests mask)) ∧
  (∀ input lines, keepsAllBut [.ident, .engine, .reqs, .lanes, .keys, .digest, .pke, .rng, .fifos, .lc, .start, .pins, .link, .events] (.tamperAlarm input lines)) ∧
  keepsAllBut [.keys, .slices, .start] .tamperHold ∧
  keepsAllBut [.lanes, .digest, .pke, .rng, .start, .pins, .events] .tamperWaitEnd ∧
  (∀ openLines crossLines, keepsAllBut [.ident, .engine, .reqs, .lanes, .keys, .digest, .pke, .rng, .fifos, .lc, .start, .pins, .link, .events] (.meshPatternChange openLines crossLines))

/-- Frame of chapters 18 to 21: link, dictionary and events. Each of them, where it gives a next state, leaves every field
of State as it was but those listed, whatever the state and the operands. -/
def Obligations.FrameOfLinkDictionaryAndEventCommands : Prop :=
  (∀ port on, keepsAllBut [.link] (.portEnable port on)) ∧
  (∀ port status polarity, keepsAllBut [.link] (.lanesClassified port status polarity)) ∧
  (∀ port coeff eye, keepsAllBut [.pins, .link] (.trainingTrial port coeff eye)) ∧
  (∀ port peerOk, keepsAllBut [.link, .events] (.trainingEnd port peerOk)) ∧
  (∀ port order skewOk, keepsAllBut [.link, .events] (.alignDone port order skewOk)) ∧
  (∀ port, keepsAllBut [.link] (.portUp port)) ∧
  (∀ port cause, keepsAllBut [.link, .events] (.portDown port cause)) ∧
  (∀ port, keepsAllBut [.link] (.relock port)) ∧
  (∀ port, keepsAllBut [.link] (.phyReady port)) ∧
  (∀ port lseq lack credit good msgs, keepsAllBut [.link] (.frameReceive port lseq lack credit good msgs)) ∧
  (∀ port lack credit, keepsAllBut [.link, .events] (.controlFrame port lack credit)) ∧
  (∀ port, keepsAllBut [.link, .events] (.replayTimeExpiry port)) ∧
  (∀ port, keepsAllBut [.link] (.controlFramePeriod port)) ∧
  (∀ port m, keepsAllBut [.link, .events] (.ident port m)) ∧
  (∀ port, keepsAllBut [.link] (.identPeriod port)) ∧
  (∀ port m, keepsAllBut [.link] (.map port m)) ∧
  keepsAllBut [.link] .mapPeriod ∧
  (∀ port m, keepsAllBut [.link, .now] (.time port m)) ∧
  keepsAllBut [.link] .timePeriod ∧
  (∀ port m, keepsAllBut [.link] (.echo port m)) ∧
  (∀ port, keepsAllBut [.link] (.echoRenewal port)) ∧
  (∀ m, keepsAllBut [.link, .events] (.ackE2e m)) ∧
  (∀ inst, keepsAllBut [.link] (.e2eTimeExpiry inst)) ∧
  (∀ inst, keepsAllBut [.link] (.ackE2ePeriod inst)) ∧
  (∀ inst, keepsAllBut [.link, .events] (.destLost inst)) ∧
  (∀ port m, keepsAllBut [.link, .events] (.messageForward port m)) ∧
  (∀ m, keepsAllBut [.engine, .slices, .link, .dict, .events] (.doorbell m)) ∧
  (∀ b addr v, keepsAllBut [.engine, .slices, .pins, .link, .events] (.doorbellWindowWrite b addr v)) ∧
  (∀ m, keepsAllBut [.reqs, .link, .dict, .events] (.grant m)) ∧
  (∀ m, keepsAllBut [.reqs, .dir, .link, .dict, .events] (.token m)) ∧
  (∀ m, keepsAllBut [.engine, .reqs, .spread, .lanes, .keys, .digest, .link, .dict, .events] (.spreadCtl m)) ∧
  (∀ m, keepsAllBut [.link, .dict] (.keyx m)) ∧
  (∀ m, keepsAllBut [.spread, .rng, .link, .dict] (.keyxSetup m)) ∧
  (∀ m, keepsAllBut [.link, .dict] (.dictResp m)) ∧
  (∀ m, keepsAllBut [.fifos, .slices, .access, .port, .link, .events] (.event m)) ∧
  (∀ b v, keepsAllBut [.slices, .pins, .link, .dict, .events] (.dictRead b v)) ∧
  (∀ b v, keepsAllBut [.slices, .pins, .link, .dict, .events] (.dictWrite b v)) ∧
  (∀ b v, keepsAllBut [.slices, .pins, .link, .dict, .events] (.dictDescribe b v)) ∧
  keepsAllBut [.dict] .dictRemoteTimeExpiry ∧
  keepsAllBut [.fifos, .slices, .access, .port, .link, .events] .eventAccepted ∧
  (∀ b word v, keepsAllBut [.slices, .pins, .events] (.statusClear b word v)) ∧
  (∀ source, keepsAllBut [.events] (.forcedOccurrence source)) ∧
  (∀ b v, keepsAllBut [.slices, .pins, .events] (.remotePending b v)) ∧
  (∀ clock, keepsAllBut [.pins] (.clockStopped clock)) ∧
  (∀ clock, keepsAllBut [.pke, .slices, .access, .port, .start, .pins, .events] (.clockReturned clock)) ∧
  keepsAllBut [.pins] .voltageDetectorsArmed ∧
  (∀ slice, keepsAllBut [.engine, .keys, .dir, .digest, .rng, .fifos, .slices, .start] (.createComplete slice)) ∧
  keepsAllBut [.rng, .pins] .meshReseed
end

