-- ==== Sys2Proof/Laws/Table.lean ====
section
/-!
SUPPORT. Laws of sparse tables: a read after a write at the same index and at another, and the canonical form, which every
table operation keeps.
-/
namespace Sys2Proof.Machine

/-- An index below every listed one reads as the default. -/
theorem Tab.get_rising {α : Type} (d : Nat → α) (t : Tab α) (lo k : Nat) (h : Tab.rising lo t = true) (hk : k < lo) :
    Tab.get d t k = d k := by
  induction t generalizing lo with
  | nil => rfl
  | cons e t ih =>
    obtain ⟨j, v⟩ := e
    simp only [Tab.rising, Bool.and_eq_true, decide_eq_true_eq] at h
    have : j ≠ k := by omega
    simp only [Tab.get, this, if_false]
    exact ih (j + 1) h.2 (by omega)

/-- A read of the index inserted. -/
@[simp] theorem Tab.get_ins_same {α : Type} (d : Nat → α) (t : Tab α) (k : Nat) (v : α) :
    Tab.get d (Tab.ins t k v) k = v := by
  induction t with
  | nil => simp [Tab.ins, Tab.get]
  | cons e t ih =>
    obtain ⟨j, w⟩ := e
    simp only [Tab.ins]
    split
    · simp [Tab.get]
    · split
      · simp [Tab.get]
      · rename_i h; simp [Tab.get, h, ih]

/-- A read of another index than the one inserted. -/
theorem Tab.get_ins_other {α : Type} (d : Nat → α) (t : Tab α) (k j : Nat) (v : α) (h : j ≠ k) :
    Tab.get d (Tab.ins t k v) j = Tab.get d t j := by
  induction t with
  | nil => simp [Tab.ins, Tab.get, h.symm]
  | cons e t ih =>
    obtain ⟨i, w⟩ := e
    simp only [Tab.ins]
    split
    · simp [Tab.get, h.symm]
    · split
      · rename_i h1; subst h1; simp [Tab.get, h.symm]
      · by_cases h2 : i = j <;> simp [Tab.get, h2, ih]

/-- A read of another index than the one removed. -/
theorem Tab.get_del_other {α : Type} (d : Nat → α) (t : Tab α) (k j : Nat) (h : j ≠ k) :
    Tab.get d (Tab.del t k) j = Tab.get d t j := by
  induction t with
  | nil => rfl
  | cons e t ih =>
    obtain ⟨i, w⟩ := e
    simp only [Tab.del]
    split
    · rename_i h1; subst h1; simp [Tab.get, h.symm, ih]
    · by_cases h2 : i = j <;> simp [Tab.get, h2, ih]

/-- A removed index reads as the default. -/
@[simp] theorem Tab.get_del_same {α : Type} (d : Nat → α) (t : Tab α) (k : Nat) : Tab.get d (Tab.del t k) k = d k := by
  induction t with
  | nil => rfl
  | cons e t ih =>
    obtain ⟨j, v⟩ := e
    simp only [Tab.del]
    split
    · exact ih
    · rename_i h1; simp only [Tab.get, h1, if_false]; exact ih

/-- A read of the index written. -/
@[simp] theorem Tab.get_set_same {α : Type} [DecidableEq α] (d : Nat → α) (t : Tab α) (k : Nat) (v : α) :
    Tab.get d (Tab.set d t k v) k = v := by
  unfold Tab.set; split
  · rename_i h; simp [h]
  · simp

/-- A read of another index than the one written. -/
theorem Tab.get_set_other {α : Type} [DecidableEq α] (d : Nat → α) (t : Tab α) (k j : Nat) (v : α) (h : j ≠ k) :
    Tab.get d (Tab.set d t k v) j = Tab.get d t j := by
  unfold Tab.set; split
  · exact Tab.get_del_other d t k j h
  · exact Tab.get_ins_other d t k j v h

/-- A read of the index changed. -/
@[simp] theorem Tab.get_upd_same {α : Type} [DecidableEq α] (d : Nat → α) (t : Tab α) (k : Nat) (f : α → α) :
    Tab.get d (Tab.upd d t k f) k = f (Tab.get d t k) := Tab.get_set_same ..

/-- A read of another index than the one changed. -/
theorem Tab.get_upd_other {α : Type} [DecidableEq α] (d : Nat → α) (t : Tab α) (k j : Nat) (f : α → α) (h : j ≠ k) :
    Tab.get d (Tab.upd d t k f) j = Tab.get d t j := Tab.get_set_other d t k j _ h

/-! ## The canonical form -/

/-- Rising order from a lower start. -/
theorem Tab.rising_mono {α : Type} (t : Tab α) (a b : Nat) (h : a ≤ b) (hr : Tab.rising b t = true) : Tab.rising a t = true := by
  cases t with
  | nil => rfl
  | cons e t =>
    simp only [Tab.rising, Bool.and_eq_true, decide_eq_true_eq] at hr ⊢
    exact ⟨by omega, hr.2⟩

/-- Removal keeps rising order. -/
theorem Tab.rising_del {α : Type} (t : Tab α) (k lo : Nat) (h : Tab.rising lo t = true) : Tab.rising lo (Tab.del t k) = true := by
  induction t generalizing lo with
  | nil => rfl
  | cons e t ih =>
    simp only [Tab.rising, Bool.and_eq_true, decide_eq_true_eq] at h
    simp only [Tab.del]
    split
    · exact Tab.rising_mono _ _ _ (by omega) (ih _ h.2)
    · simp only [Tab.rising, Bool.and_eq_true, decide_eq_true_eq]; exact ⟨h.1, ih _ h.2⟩

/-- Insertion keeps rising order. -/
theorem Tab.rising_ins {α : Type} (t : Tab α) (k lo : Nat) (v : α) (hk : lo ≤ k) (h : Tab.rising lo t = true) :
    Tab.rising lo (Tab.ins t k v) = true := by
  induction t generalizing lo with
  | nil => simp [Tab.ins, Tab.rising, hk]
  | cons e t ih =>
    obtain ⟨j, w⟩ := e
    simp only [Tab.rising, Bool.and_eq_true, decide_eq_true_eq] at h
    simp only [Tab.ins]
    split
    · rename_i h1
      simp only [Tab.rising, Bool.and_eq_true, decide_eq_true_eq]
      exact ⟨hk, by omega, h.2⟩
    · split
      · rename_i h2; subst h2
        simp only [Tab.rising, Bool.and_eq_true, decide_eq_true_eq]; exact ⟨hk, h.2⟩
      · simp only [Tab.rising, Bool.and_eq_true, decide_eq_true_eq]; exact ⟨h.1, ih _ (by omega) h.2⟩

/-- Removal lists no default. -/
theorem Tab.lean_del {α : Type} [DecidableEq α] (d : Nat → α) (t : Tab α) (k : Nat) (h : Tab.lean d t = true) :
    Tab.lean d (Tab.del t k) = true := by
  induction t with
  | nil => rfl
  | cons e t ih =>
    simp only [Tab.lean, Bool.and_eq_true] at h
    simp only [Tab.del]
    split
    · exact ih h.2
    · simp only [Tab.lean, Bool.and_eq_true]; exact ⟨h.1, ih h.2⟩

/-- Insertion of a value other than the default lists no default. -/
theorem Tab.lean_ins {α : Type} [DecidableEq α] (d : Nat → α) (t : Tab α) (k : Nat) (v : α) (hv : v ≠ d k)
    (h : Tab.lean d t = true) : Tab.lean d (Tab.ins t k v) = true := by
  induction t with
  | nil => simp [Tab.ins, Tab.lean, hv]
  | cons e t ih =>
    obtain ⟨j, w⟩ := e
    simp only [Tab.lean, Bool.and_eq_true] at h
    simp only [Tab.ins]
    split
    · simp only [Tab.lean, Bool.and_eq_true]; exact ⟨by simpa using hv, h.1, h.2⟩
    · split
      · simp only [Tab.lean, Bool.and_eq_true]; exact ⟨by simpa using hv, h.2⟩
      · simp only [Tab.lean, Bool.and_eq_true]; exact ⟨h.1, ih h.2⟩

/-- A write keeps the canonical form. -/
theorem Tab.wf_set {α : Type} [DecidableEq α] (d : Nat → α) (t : Tab α) (k : Nat) (v : α) (h : Tab.wf d t = true) :
    Tab.wf d (Tab.set d t k v) = true := by
  simp only [Tab.wf, Bool.and_eq_true] at h ⊢
  unfold Tab.set; split
  · exact ⟨Tab.rising_del t k 0 h.1, Tab.lean_del d t k h.2⟩
  · rename_i hv; exact ⟨Tab.rising_ins t k 0 v (by omega) h.1, Tab.lean_ins d t k v hv h.2⟩

/-- A change keeps the canonical form. -/
theorem Tab.wf_upd {α : Type} [DecidableEq α] (d : Nat → α) (t : Tab α) (k : Nat) (f : α → α) (h : Tab.wf d t = true) :
    Tab.wf d (Tab.upd d t k f) = true := Tab.wf_set d t k _ h

/-- A removal keeps the canonical form. -/
theorem Tab.wf_del {α : Type} [DecidableEq α] (d : Nat → α) (t : Tab α) (k : Nat) (h : Tab.wf d t = true) :
    Tab.wf d (Tab.del t k) = true := by
  simp only [Tab.wf, Bool.and_eq_true] at h ⊢
  exact ⟨Tab.rising_del t k 0 h.1, Tab.lean_del d t k h.2⟩

end Sys2Proof.Machine
end

