-- ==== Sys2Proof/Laws/State.lean ====
section
/-!
SUPPORT. What each named change of State leaves alone: one lemma per field per change. Beside them, what the accessor of a
table reads after a change of one index.
-/
namespace Sys2Proof.Machine

/-! ## putReq -/

@[simp] theorem State.putReq_ident (s : State) (rid : Nat) (r : Req) : (s.putReq rid r).ident = s.ident := rfl
@[simp] theorem State.putReq_engine (s : State) (rid : Nat) (r : Req) : (s.putReq rid r).engine = s.engine := rfl
@[simp] theorem State.putReq_order (s : State) (rid : Nat) (r : Req) : (s.putReq rid r).order = s.order := rfl
@[simp] theorem State.putReq_spread (s : State) (rid : Nat) (r : Req) : (s.putReq rid r).spread = s.spread := rfl
@[simp] theorem State.putReq_lanes (s : State) (rid : Nat) (r : Req) : (s.putReq rid r).lanes = s.lanes := rfl
@[simp] theorem State.putReq_keys (s : State) (rid : Nat) (r : Req) : (s.putReq rid r).keys = s.keys := rfl
@[simp] theorem State.putReq_dir (s : State) (rid : Nat) (r : Req) : (s.putReq rid r).dir = s.dir := rfl
@[simp] theorem State.putReq_tango (s : State) (rid : Nat) (r : Req) : (s.putReq rid r).tango = s.tango := rfl
@[simp] theorem State.putReq_digest (s : State) (rid : Nat) (r : Req) : (s.putReq rid r).digest = s.digest := rfl
@[simp] theorem State.putReq_pke (s : State) (rid : Nat) (r : Req) : (s.putReq rid r).pke = s.pke := rfl
@[simp] theorem State.putReq_rng (s : State) (rid : Nat) (r : Req) : (s.putReq rid r).rng = s.rng := rfl
@[simp] theorem State.putReq_fifos (s : State) (rid : Nat) (r : Req) : (s.putReq rid r).fifos = s.fifos := rfl
@[simp] theorem State.putReq_slices (s : State) (rid : Nat) (r : Req) : (s.putReq rid r).slices = s.slices := rfl
@[simp] theorem State.putReq_access (s : State) (rid : Nat) (r : Req) : (s.putReq rid r).access = s.access := rfl
@[simp] theorem State.putReq_port (s : State) (rid : Nat) (r : Req) : (s.putReq rid r).port = s.port := rfl
@[simp] theorem State.putReq_memory (s : State) (rid : Nat) (r : Req) : (s.putReq rid r).memory = s.memory := rfl
@[simp] theorem State.putReq_lc (s : State) (rid : Nat) (r : Req) : (s.putReq rid r).lc = s.lc := rfl
@[simp] theorem State.putReq_start (s : State) (rid : Nat) (r : Req) : (s.putReq rid r).start = s.start := rfl
@[simp] theorem State.putReq_pins (s : State) (rid : Nat) (r : Req) : (s.putReq rid r).pins = s.pins := rfl
@[simp] theorem State.putReq_link (s : State) (rid : Nat) (r : Req) : (s.putReq rid r).link = s.link := rfl
@[simp] theorem State.putReq_dict (s : State) (rid : Nat) (r : Req) : (s.putReq rid r).dict = s.dict := rfl
@[simp] theorem State.putReq_events (s : State) (rid : Nat) (r : Req) : (s.putReq rid r).events = s.events := rfl
@[simp] theorem State.putReq_now (s : State) (rid : Nat) (r : Req) : (s.putReq rid r).now = s.now := rfl
@[simp] theorem State.putReq_pending (s : State) (rid : Nat) (r : Req) : (s.putReq rid r).pending = s.pending := rfl

/-! ## release -/

@[simp] theorem State.release_ident (s : State) (rid : Nat) : (s.release rid).ident = s.ident := rfl
@[simp] theorem State.release_engine (s : State) (rid : Nat) : (s.release rid).engine = s.engine := rfl
@[simp] theorem State.release_order (s : State) (rid : Nat) : (s.release rid).order = s.order := rfl
@[simp] theorem State.release_spread (s : State) (rid : Nat) : (s.release rid).spread = s.spread := rfl
@[simp] theorem State.release_lanes (s : State) (rid : Nat) : (s.release rid).lanes = s.lanes := rfl
@[simp] theorem State.release_keys (s : State) (rid : Nat) : (s.release rid).keys = s.keys := rfl
@[simp] theorem State.release_dir (s : State) (rid : Nat) : (s.release rid).dir = s.dir := rfl
@[simp] theorem State.release_tango (s : State) (rid : Nat) : (s.release rid).tango = s.tango := rfl
@[simp] theorem State.release_digest (s : State) (rid : Nat) : (s.release rid).digest = s.digest := rfl
@[simp] theorem State.release_pke (s : State) (rid : Nat) : (s.release rid).pke = s.pke := rfl
@[simp] theorem State.release_rng (s : State) (rid : Nat) : (s.release rid).rng = s.rng := rfl
@[simp] theorem State.release_fifos (s : State) (rid : Nat) : (s.release rid).fifos = s.fifos := rfl
@[simp] theorem State.release_slices (s : State) (rid : Nat) : (s.release rid).slices = s.slices := rfl
@[simp] theorem State.release_access (s : State) (rid : Nat) : (s.release rid).access = s.access := rfl
@[simp] theorem State.release_port (s : State) (rid : Nat) : (s.release rid).port = s.port := rfl
@[simp] theorem State.release_memory (s : State) (rid : Nat) : (s.release rid).memory = s.memory := rfl
@[simp] theorem State.release_lc (s : State) (rid : Nat) : (s.release rid).lc = s.lc := rfl
@[simp] theorem State.release_start (s : State) (rid : Nat) : (s.release rid).start = s.start := rfl
@[simp] theorem State.release_pins (s : State) (rid : Nat) : (s.release rid).pins = s.pins := rfl
@[simp] theorem State.release_link (s : State) (rid : Nat) : (s.release rid).link = s.link := rfl
@[simp] theorem State.release_dict (s : State) (rid : Nat) : (s.release rid).dict = s.dict := rfl
@[simp] theorem State.release_events (s : State) (rid : Nat) : (s.release rid).events = s.events := rfl
@[simp] theorem State.release_now (s : State) (rid : Nat) : (s.release rid).now = s.now := rfl
@[simp] theorem State.release_pending (s : State) (rid : Nat) : (s.release rid).pending = s.pending := rfl

/-! ## onRing -/

@[simp] theorem State.onRing_ident (s : State) (k : Nat) (f : Ring → Ring) : (s.onRing k f).ident = s.ident := rfl
@[simp] theorem State.onRing_reqs (s : State) (k : Nat) (f : Ring → Ring) : (s.onRing k f).reqs = s.reqs := rfl
@[simp] theorem State.onRing_order (s : State) (k : Nat) (f : Ring → Ring) : (s.onRing k f).order = s.order := rfl
@[simp] theorem State.onRing_spread (s : State) (k : Nat) (f : Ring → Ring) : (s.onRing k f).spread = s.spread := rfl
@[simp] theorem State.onRing_lanes (s : State) (k : Nat) (f : Ring → Ring) : (s.onRing k f).lanes = s.lanes := rfl
@[simp] theorem State.onRing_keys (s : State) (k : Nat) (f : Ring → Ring) : (s.onRing k f).keys = s.keys := rfl
@[simp] theorem State.onRing_dir (s : State) (k : Nat) (f : Ring → Ring) : (s.onRing k f).dir = s.dir := rfl
@[simp] theorem State.onRing_tango (s : State) (k : Nat) (f : Ring → Ring) : (s.onRing k f).tango = s.tango := rfl
@[simp] theorem State.onRing_digest (s : State) (k : Nat) (f : Ring → Ring) : (s.onRing k f).digest = s.digest := rfl
@[simp] theorem State.onRing_pke (s : State) (k : Nat) (f : Ring → Ring) : (s.onRing k f).pke = s.pke := rfl
@[simp] theorem State.onRing_rng (s : State) (k : Nat) (f : Ring → Ring) : (s.onRing k f).rng = s.rng := rfl
@[simp] theorem State.onRing_fifos (s : State) (k : Nat) (f : Ring → Ring) : (s.onRing k f).fifos = s.fifos := rfl
@[simp] theorem State.onRing_slices (s : State) (k : Nat) (f : Ring → Ring) : (s.onRing k f).slices = s.slices := rfl
@[simp] theorem State.onRing_access (s : State) (k : Nat) (f : Ring → Ring) : (s.onRing k f).access = s.access := rfl
@[simp] theorem State.onRing_port (s : State) (k : Nat) (f : Ring → Ring) : (s.onRing k f).port = s.port := rfl
@[simp] theorem State.onRing_memory (s : State) (k : Nat) (f : Ring → Ring) : (s.onRing k f).memory = s.memory := rfl
@[simp] theorem State.onRing_lc (s : State) (k : Nat) (f : Ring → Ring) : (s.onRing k f).lc = s.lc := rfl
@[simp] theorem State.onRing_start (s : State) (k : Nat) (f : Ring → Ring) : (s.onRing k f).start = s.start := rfl
@[simp] theorem State.onRing_pins (s : State) (k : Nat) (f : Ring → Ring) : (s.onRing k f).pins = s.pins := rfl
@[simp] theorem State.onRing_link (s : State) (k : Nat) (f : Ring → Ring) : (s.onRing k f).link = s.link := rfl
@[simp] theorem State.onRing_dict (s : State) (k : Nat) (f : Ring → Ring) : (s.onRing k f).dict = s.dict := rfl
@[simp] theorem State.onRing_events (s : State) (k : Nat) (f : Ring → Ring) : (s.onRing k f).events = s.events := rfl
@[simp] theorem State.onRing_now (s : State) (k : Nat) (f : Ring → Ring) : (s.onRing k f).now = s.now := rfl
@[simp] theorem State.onRing_pending (s : State) (k : Nat) (f : Ring → Ring) : (s.onRing k f).pending = s.pending := rfl

/-! ## onSlot -/

@[simp] theorem State.onSlot_ident (s : State) (n : Nat) (f : Slot → Slot) : (s.onSlot n f).ident = s.ident := rfl
@[simp] theorem State.onSlot_engine (s : State) (n : Nat) (f : Slot → Slot) : (s.onSlot n f).engine = s.engine := rfl
@[simp] theorem State.onSlot_reqs (s : State) (n : Nat) (f : Slot → Slot) : (s.onSlot n f).reqs = s.reqs := rfl
@[simp] theorem State.onSlot_order (s : State) (n : Nat) (f : Slot → Slot) : (s.onSlot n f).order = s.order := rfl
@[simp] theorem State.onSlot_spread (s : State) (n : Nat) (f : Slot → Slot) : (s.onSlot n f).spread = s.spread := rfl
@[simp] theorem State.onSlot_lanes (s : State) (n : Nat) (f : Slot → Slot) : (s.onSlot n f).lanes = s.lanes := rfl
@[simp] theorem State.onSlot_dir (s : State) (n : Nat) (f : Slot → Slot) : (s.onSlot n f).dir = s.dir := rfl
@[simp] theorem State.onSlot_tango (s : State) (n : Nat) (f : Slot → Slot) : (s.onSlot n f).tango = s.tango := rfl
@[simp] theorem State.onSlot_digest (s : State) (n : Nat) (f : Slot → Slot) : (s.onSlot n f).digest = s.digest := rfl
@[simp] theorem State.onSlot_pke (s : State) (n : Nat) (f : Slot → Slot) : (s.onSlot n f).pke = s.pke := rfl
@[simp] theorem State.onSlot_rng (s : State) (n : Nat) (f : Slot → Slot) : (s.onSlot n f).rng = s.rng := rfl
@[simp] theorem State.onSlot_fifos (s : State) (n : Nat) (f : Slot → Slot) : (s.onSlot n f).fifos = s.fifos := rfl
@[simp] theorem State.onSlot_slices (s : State) (n : Nat) (f : Slot → Slot) : (s.onSlot n f).slices = s.slices := rfl
@[simp] theorem State.onSlot_access (s : State) (n : Nat) (f : Slot → Slot) : (s.onSlot n f).access = s.access := rfl
@[simp] theorem State.onSlot_port (s : State) (n : Nat) (f : Slot → Slot) : (s.onSlot n f).port = s.port := rfl
@[simp] theorem State.onSlot_memory (s : State) (n : Nat) (f : Slot → Slot) : (s.onSlot n f).memory = s.memory := rfl
@[simp] theorem State.onSlot_lc (s : State) (n : Nat) (f : Slot → Slot) : (s.onSlot n f).lc = s.lc := rfl
@[simp] theorem State.onSlot_start (s : State) (n : Nat) (f : Slot → Slot) : (s.onSlot n f).start = s.start := rfl
@[simp] theorem State.onSlot_pins (s : State) (n : Nat) (f : Slot → Slot) : (s.onSlot n f).pins = s.pins := rfl
@[simp] theorem State.onSlot_link (s : State) (n : Nat) (f : Slot → Slot) : (s.onSlot n f).link = s.link := rfl
@[simp] theorem State.onSlot_dict (s : State) (n : Nat) (f : Slot → Slot) : (s.onSlot n f).dict = s.dict := rfl
@[simp] theorem State.onSlot_events (s : State) (n : Nat) (f : Slot → Slot) : (s.onSlot n f).events = s.events := rfl
@[simp] theorem State.onSlot_now (s : State) (n : Nat) (f : Slot → Slot) : (s.onSlot n f).now = s.now := rfl
@[simp] theorem State.onSlot_pending (s : State) (n : Nat) (f : Slot → Slot) : (s.onSlot n f).pending = s.pending := rfl

/-! ## onKeys -/

@[simp] theorem State.onKeys_ident (s : State) (f : Keys → Keys) : (s.onKeys f).ident = s.ident := rfl
@[simp] theorem State.onKeys_engine (s : State) (f : Keys → Keys) : (s.onKeys f).engine = s.engine := rfl
@[simp] theorem State.onKeys_reqs (s : State) (f : Keys → Keys) : (s.onKeys f).reqs = s.reqs := rfl
@[simp] theorem State.onKeys_order (s : State) (f : Keys → Keys) : (s.onKeys f).order = s.order := rfl
@[simp] theorem State.onKeys_spread (s : State) (f : Keys → Keys) : (s.onKeys f).spread = s.spread := rfl
@[simp] theorem State.onKeys_lanes (s : State) (f : Keys → Keys) : (s.onKeys f).lanes = s.lanes := rfl
@[simp] theorem State.onKeys_dir (s : State) (f : Keys → Keys) : (s.onKeys f).dir = s.dir := rfl
@[simp] theorem State.onKeys_tango (s : State) (f : Keys → Keys) : (s.onKeys f).tango = s.tango := rfl
@[simp] theorem State.onKeys_digest (s : State) (f : Keys → Keys) : (s.onKeys f).digest = s.digest := rfl
@[simp] theorem State.onKeys_pke (s : State) (f : Keys → Keys) : (s.onKeys f).pke = s.pke := rfl
@[simp] theorem State.onKeys_rng (s : State) (f : Keys → Keys) : (s.onKeys f).rng = s.rng := rfl
@[simp] theorem State.onKeys_fifos (s : State) (f : Keys → Keys) : (s.onKeys f).fifos = s.fifos := rfl
@[simp] theorem State.onKeys_slices (s : State) (f : Keys → Keys) : (s.onKeys f).slices = s.slices := rfl
@[simp] theorem State.onKeys_access (s : State) (f : Keys → Keys) : (s.onKeys f).access = s.access := rfl
@[simp] theorem State.onKeys_port (s : State) (f : Keys → Keys) : (s.onKeys f).port = s.port := rfl
@[simp] theorem State.onKeys_memory (s : State) (f : Keys → Keys) : (s.onKeys f).memory = s.memory := rfl
@[simp] theorem State.onKeys_lc (s : State) (f : Keys → Keys) : (s.onKeys f).lc = s.lc := rfl
@[simp] theorem State.onKeys_start (s : State) (f : Keys → Keys) : (s.onKeys f).start = s.start := rfl
@[simp] theorem State.onKeys_pins (s : State) (f : Keys → Keys) : (s.onKeys f).pins = s.pins := rfl
@[simp] theorem State.onKeys_link (s : State) (f : Keys → Keys) : (s.onKeys f).link = s.link := rfl
@[simp] theorem State.onKeys_dict (s : State) (f : Keys → Keys) : (s.onKeys f).dict = s.dict := rfl
@[simp] theorem State.onKeys_events (s : State) (f : Keys → Keys) : (s.onKeys f).events = s.events := rfl
@[simp] theorem State.onKeys_now (s : State) (f : Keys → Keys) : (s.onKeys f).now = s.now := rfl
@[simp] theorem State.onKeys_pending (s : State) (f : Keys → Keys) : (s.onKeys f).pending = s.pending := rfl

/-! ## onSlice -/

@[simp] theorem State.onSlice_ident (s : State) (n : Nat) (f : Slice → Slice) : (s.onSlice n f).ident = s.ident := rfl
@[simp] theorem State.onSlice_engine (s : State) (n : Nat) (f : Slice → Slice) : (s.onSlice n f).engine = s.engine := rfl
@[simp] theorem State.onSlice_reqs (s : State) (n : Nat) (f : Slice → Slice) : (s.onSlice n f).reqs = s.reqs := rfl
@[simp] theorem State.onSlice_order (s : State) (n : Nat) (f : Slice → Slice) : (s.onSlice n f).order = s.order := rfl
@[simp] theorem State.onSlice_spread (s : State) (n : Nat) (f : Slice → Slice) : (s.onSlice n f).spread = s.spread := rfl
@[simp] theorem State.onSlice_lanes (s : State) (n : Nat) (f : Slice → Slice) : (s.onSlice n f).lanes = s.lanes := rfl
@[simp] theorem State.onSlice_keys (s : State) (n : Nat) (f : Slice → Slice) : (s.onSlice n f).keys = s.keys := rfl
@[simp] theorem State.onSlice_dir (s : State) (n : Nat) (f : Slice → Slice) : (s.onSlice n f).dir = s.dir := rfl
@[simp] theorem State.onSlice_tango (s : State) (n : Nat) (f : Slice → Slice) : (s.onSlice n f).tango = s.tango := rfl
@[simp] theorem State.onSlice_digest (s : State) (n : Nat) (f : Slice → Slice) : (s.onSlice n f).digest = s.digest := rfl
@[simp] theorem State.onSlice_pke (s : State) (n : Nat) (f : Slice → Slice) : (s.onSlice n f).pke = s.pke := rfl
@[simp] theorem State.onSlice_rng (s : State) (n : Nat) (f : Slice → Slice) : (s.onSlice n f).rng = s.rng := rfl
@[simp] theorem State.onSlice_fifos (s : State) (n : Nat) (f : Slice → Slice) : (s.onSlice n f).fifos = s.fifos := rfl
@[simp] theorem State.onSlice_access (s : State) (n : Nat) (f : Slice → Slice) : (s.onSlice n f).access = s.access := rfl
@[simp] theorem State.onSlice_port (s : State) (n : Nat) (f : Slice → Slice) : (s.onSlice n f).port = s.port := rfl
@[simp] theorem State.onSlice_memory (s : State) (n : Nat) (f : Slice → Slice) : (s.onSlice n f).memory = s.memory := rfl
@[simp] theorem State.onSlice_lc (s : State) (n : Nat) (f : Slice → Slice) : (s.onSlice n f).lc = s.lc := rfl
@[simp] theorem State.onSlice_start (s : State) (n : Nat) (f : Slice → Slice) : (s.onSlice n f).start = s.start := rfl
@[simp] theorem State.onSlice_pins (s : State) (n : Nat) (f : Slice → Slice) : (s.onSlice n f).pins = s.pins := rfl
@[simp] theorem State.onSlice_link (s : State) (n : Nat) (f : Slice → Slice) : (s.onSlice n f).link = s.link := rfl
@[simp] theorem State.onSlice_dict (s : State) (n : Nat) (f : Slice → Slice) : (s.onSlice n f).dict = s.dict := rfl
@[simp] theorem State.onSlice_events (s : State) (n : Nat) (f : Slice → Slice) : (s.onSlice n f).events = s.events := rfl
@[simp] theorem State.onSlice_now (s : State) (n : Nat) (f : Slice → Slice) : (s.onSlice n f).now = s.now := rfl
@[simp] theorem State.onSlice_pending (s : State) (n : Nat) (f : Slice → Slice) : (s.onSlice n f).pending = s.pending := rfl

/-! ## onLane -/

@[simp] theorem State.onLane_ident (s : State) (n : Nat) (f : Lane → Lane) : (s.onLane n f).ident = s.ident := rfl
@[simp] theorem State.onLane_engine (s : State) (n : Nat) (f : Lane → Lane) : (s.onLane n f).engine = s.engine := rfl
@[simp] theorem State.onLane_reqs (s : State) (n : Nat) (f : Lane → Lane) : (s.onLane n f).reqs = s.reqs := rfl
@[simp] theorem State.onLane_order (s : State) (n : Nat) (f : Lane → Lane) : (s.onLane n f).order = s.order := rfl
@[simp] theorem State.onLane_spread (s : State) (n : Nat) (f : Lane → Lane) : (s.onLane n f).spread = s.spread := rfl
@[simp] theorem State.onLane_keys (s : State) (n : Nat) (f : Lane → Lane) : (s.onLane n f).keys = s.keys := rfl
@[simp] theorem State.onLane_dir (s : State) (n : Nat) (f : Lane → Lane) : (s.onLane n f).dir = s.dir := rfl
@[simp] theorem State.onLane_tango (s : State) (n : Nat) (f : Lane → Lane) : (s.onLane n f).tango = s.tango := rfl
@[simp] theorem State.onLane_digest (s : State) (n : Nat) (f : Lane → Lane) : (s.onLane n f).digest = s.digest := rfl
@[simp] theorem State.onLane_pke (s : State) (n : Nat) (f : Lane → Lane) : (s.onLane n f).pke = s.pke := rfl
@[simp] theorem State.onLane_rng (s : State) (n : Nat) (f : Lane → Lane) : (s.onLane n f).rng = s.rng := rfl
@[simp] theorem State.onLane_fifos (s : State) (n : Nat) (f : Lane → Lane) : (s.onLane n f).fifos = s.fifos := rfl
@[simp] theorem State.onLane_slices (s : State) (n : Nat) (f : Lane → Lane) : (s.onLane n f).slices = s.slices := rfl
@[simp] theorem State.onLane_access (s : State) (n : Nat) (f : Lane → Lane) : (s.onLane n f).access = s.access := rfl
@[simp] theorem State.onLane_port (s : State) (n : Nat) (f : Lane → Lane) : (s.onLane n f).port = s.port := rfl
@[simp] theorem State.onLane_memory (s : State) (n : Nat) (f : Lane → Lane) : (s.onLane n f).memory = s.memory := rfl
@[simp] theorem State.onLane_lc (s : State) (n : Nat) (f : Lane → Lane) : (s.onLane n f).lc = s.lc := rfl
@[simp] theorem State.onLane_start (s : State) (n : Nat) (f : Lane → Lane) : (s.onLane n f).start = s.start := rfl
@[simp] theorem State.onLane_pins (s : State) (n : Nat) (f : Lane → Lane) : (s.onLane n f).pins = s.pins := rfl
@[simp] theorem State.onLane_link (s : State) (n : Nat) (f : Lane → Lane) : (s.onLane n f).link = s.link := rfl
@[simp] theorem State.onLane_dict (s : State) (n : Nat) (f : Lane → Lane) : (s.onLane n f).dict = s.dict := rfl
@[simp] theorem State.onLane_events (s : State) (n : Nat) (f : Lane → Lane) : (s.onLane n f).events = s.events := rfl
@[simp] theorem State.onLane_now (s : State) (n : Nat) (f : Lane → Lane) : (s.onLane n f).now = s.now := rfl
@[simp] theorem State.onLane_pending (s : State) (n : Nat) (f : Lane → Lane) : (s.onLane n f).pending = s.pending := rfl

/-! ## onLinePort -/

@[simp] theorem State.onLinePort_ident (s : State) (p : Nat) (f : LinePort → LinePort) : (s.onLinePort p f).ident = s.ident := rfl
@[simp] theorem State.onLinePort_engine (s : State) (p : Nat) (f : LinePort → LinePort) : (s.onLinePort p f).engine = s.engine := rfl
@[simp] theorem State.onLinePort_reqs (s : State) (p : Nat) (f : LinePort → LinePort) : (s.onLinePort p f).reqs = s.reqs := rfl
@[simp] theorem State.onLinePort_order (s : State) (p : Nat) (f : LinePort → LinePort) : (s.onLinePort p f).order = s.order := rfl
@[simp] theorem State.onLinePort_spread (s : State) (p : Nat) (f : LinePort → LinePort) : (s.onLinePort p f).spread = s.spread := rfl
@[simp] theorem State.onLinePort_lanes (s : State) (p : Nat) (f : LinePort → LinePort) : (s.onLinePort p f).lanes = s.lanes := rfl
@[simp] theorem State.onLinePort_keys (s : State) (p : Nat) (f : LinePort → LinePort) : (s.onLinePort p f).keys = s.keys := rfl
@[simp] theorem State.onLinePort_tango (s : State) (p : Nat) (f : LinePort → LinePort) : (s.onLinePort p f).tango = s.tango := rfl
@[simp] theorem State.onLinePort_digest (s : State) (p : Nat) (f : LinePort → LinePort) : (s.onLinePort p f).digest = s.digest := rfl
@[simp] theorem State.onLinePort_pke (s : State) (p : Nat) (f : LinePort → LinePort) : (s.onLinePort p f).pke = s.pke := rfl
@[simp] theorem State.onLinePort_rng (s : State) (p : Nat) (f : LinePort → LinePort) : (s.onLinePort p f).rng = s.rng := rfl
@[simp] theorem State.onLinePort_fifos (s : State) (p : Nat) (f : LinePort → LinePort) : (s.onLinePort p f).fifos = s.fifos := rfl
@[simp] theorem State.onLinePort_slices (s : State) (p : Nat) (f : LinePort → LinePort) : (s.onLinePort p f).slices = s.slices := rfl
@[simp] theorem State.onLinePort_access (s : State) (p : Nat) (f : LinePort → LinePort) : (s.onLinePort p f).access = s.access := rfl
@[simp] theorem State.onLinePort_port (s : State) (p : Nat) (f : LinePort → LinePort) : (s.onLinePort p f).port = s.port := rfl
@[simp] theorem State.onLinePort_memory (s : State) (p : Nat) (f : LinePort → LinePort) : (s.onLinePort p f).memory = s.memory := rfl
@[simp] theorem State.onLinePort_lc (s : State) (p : Nat) (f : LinePort → LinePort) : (s.onLinePort p f).lc = s.lc := rfl
@[simp] theorem State.onLinePort_start (s : State) (p : Nat) (f : LinePort → LinePort) : (s.onLinePort p f).start = s.start := rfl
@[simp] theorem State.onLinePort_pins (s : State) (p : Nat) (f : LinePort → LinePort) : (s.onLinePort p f).pins = s.pins := rfl
@[simp] theorem State.onLinePort_link (s : State) (p : Nat) (f : LinePort → LinePort) : (s.onLinePort p f).link = s.link := rfl
@[simp] theorem State.onLinePort_dict (s : State) (p : Nat) (f : LinePort → LinePort) : (s.onLinePort p f).dict = s.dict := rfl
@[simp] theorem State.onLinePort_events (s : State) (p : Nat) (f : LinePort → LinePort) : (s.onLinePort p f).events = s.events := rfl
@[simp] theorem State.onLinePort_now (s : State) (p : Nat) (f : LinePort → LinePort) : (s.onLinePort p f).now = s.now := rfl
@[simp] theorem State.onLinePort_pending (s : State) (p : Nat) (f : LinePort → LinePort) : (s.onLinePort p f).pending = s.pending := rfl

/-! ## onAccess -/

@[simp] theorem State.onAccess_ident (s : State) (f : Access → Access) : (s.onAccess f).ident = s.ident := rfl
@[simp] theorem State.onAccess_engine (s : State) (f : Access → Access) : (s.onAccess f).engine = s.engine := rfl
@[simp] theorem State.onAccess_reqs (s : State) (f : Access → Access) : (s.onAccess f).reqs = s.reqs := rfl
@[simp] theorem State.onAccess_order (s : State) (f : Access → Access) : (s.onAccess f).order = s.order := rfl
@[simp] theorem State.onAccess_spread (s : State) (f : Access → Access) : (s.onAccess f).spread = s.spread := rfl
@[simp] theorem State.onAccess_lanes (s : State) (f : Access → Access) : (s.onAccess f).lanes = s.lanes := rfl
@[simp] theorem State.onAccess_keys (s : State) (f : Access → Access) : (s.onAccess f).keys = s.keys := rfl
@[simp] theorem State.onAccess_dir (s : State) (f : Access → Access) : (s.onAccess f).dir = s.dir := rfl
@[simp] theorem State.onAccess_tango (s : State) (f : Access → Access) : (s.onAccess f).tango = s.tango := rfl
@[simp] theorem State.onAccess_digest (s : State) (f : Access → Access) : (s.onAccess f).digest = s.digest := rfl
@[simp] theorem State.onAccess_pke (s : State) (f : Access → Access) : (s.onAccess f).pke = s.pke := rfl
@[simp] theorem State.onAccess_rng (s : State) (f : Access → Access) : (s.onAccess f).rng = s.rng := rfl
@[simp] theorem State.onAccess_fifos (s : State) (f : Access → Access) : (s.onAccess f).fifos = s.fifos := rfl
@[simp] theorem State.onAccess_slices (s : State) (f : Access → Access) : (s.onAccess f).slices = s.slices := rfl
@[simp] theorem State.onAccess_port (s : State) (f : Access → Access) : (s.onAccess f).port = s.port := rfl
@[simp] theorem State.onAccess_memory (s : State) (f : Access → Access) : (s.onAccess f).memory = s.memory := rfl
@[simp] theorem State.onAccess_lc (s : State) (f : Access → Access) : (s.onAccess f).lc = s.lc := rfl
@[simp] theorem State.onAccess_start (s : State) (f : Access → Access) : (s.onAccess f).start = s.start := rfl
@[simp] theorem State.onAccess_pins (s : State) (f : Access → Access) : (s.onAccess f).pins = s.pins := rfl
@[simp] theorem State.onAccess_link (s : State) (f : Access → Access) : (s.onAccess f).link = s.link := rfl
@[simp] theorem State.onAccess_dict (s : State) (f : Access → Access) : (s.onAccess f).dict = s.dict := rfl
@[simp] theorem State.onAccess_events (s : State) (f : Access → Access) : (s.onAccess f).events = s.events := rfl
@[simp] theorem State.onAccess_now (s : State) (f : Access → Access) : (s.onAccess f).now = s.now := rfl
@[simp] theorem State.onAccess_pending (s : State) (f : Access → Access) : (s.onAccess f).pending = s.pending := rfl

/-! ## onDict -/

@[simp] theorem State.onDict_ident (s : State) (f : Dict → Dict) : (s.onDict f).ident = s.ident := rfl
@[simp] theorem State.onDict_engine (s : State) (f : Dict → Dict) : (s.onDict f).engine = s.engine := rfl
@[simp] theorem State.onDict_reqs (s : State) (f : Dict → Dict) : (s.onDict f).reqs = s.reqs := rfl
@[simp] theorem State.onDict_order (s : State) (f : Dict → Dict) : (s.onDict f).order = s.order := rfl
@[simp] theorem State.onDict_spread (s : State) (f : Dict → Dict) : (s.onDict f).spread = s.spread := rfl
@[simp] theorem State.onDict_lanes (s : State) (f : Dict → Dict) : (s.onDict f).lanes = s.lanes := rfl
@[simp] theorem State.onDict_keys (s : State) (f : Dict → Dict) : (s.onDict f).keys = s.keys := rfl
@[simp] theorem State.onDict_dir (s : State) (f : Dict → Dict) : (s.onDict f).dir = s.dir := rfl
@[simp] theorem State.onDict_tango (s : State) (f : Dict → Dict) : (s.onDict f).tango = s.tango := rfl
@[simp] theorem State.onDict_digest (s : State) (f : Dict → Dict) : (s.onDict f).digest = s.digest := rfl
@[simp] theorem State.onDict_pke (s : State) (f : Dict → Dict) : (s.onDict f).pke = s.pke := rfl
@[simp] theorem State.onDict_rng (s : State) (f : Dict → Dict) : (s.onDict f).rng = s.rng := rfl
@[simp] theorem State.onDict_fifos (s : State) (f : Dict → Dict) : (s.onDict f).fifos = s.fifos := rfl
@[simp] theorem State.onDict_slices (s : State) (f : Dict → Dict) : (s.onDict f).slices = s.slices := rfl
@[simp] theorem State.onDict_access (s : State) (f : Dict → Dict) : (s.onDict f).access = s.access := rfl
@[simp] theorem State.onDict_port (s : State) (f : Dict → Dict) : (s.onDict f).port = s.port := rfl
@[simp] theorem State.onDict_memory (s : State) (f : Dict → Dict) : (s.onDict f).memory = s.memory := rfl
@[simp] theorem State.onDict_lc (s : State) (f : Dict → Dict) : (s.onDict f).lc = s.lc := rfl
@[simp] theorem State.onDict_start (s : State) (f : Dict → Dict) : (s.onDict f).start = s.start := rfl
@[simp] theorem State.onDict_pins (s : State) (f : Dict → Dict) : (s.onDict f).pins = s.pins := rfl
@[simp] theorem State.onDict_link (s : State) (f : Dict → Dict) : (s.onDict f).link = s.link := rfl
@[simp] theorem State.onDict_events (s : State) (f : Dict → Dict) : (s.onDict f).events = s.events := rfl
@[simp] theorem State.onDict_now (s : State) (f : Dict → Dict) : (s.onDict f).now = s.now := rfl
@[simp] theorem State.onDict_pending (s : State) (f : Dict → Dict) : (s.onDict f).pending = s.pending := rfl

/-! ## onXring -/

@[simp] theorem State.onXring_ident (s : State) (o : Nat) (f : XRing → XRing) : (s.onXring o f).ident = s.ident := rfl
@[simp] theorem State.onXring_engine (s : State) (o : Nat) (f : XRing → XRing) : (s.onXring o f).engine = s.engine := rfl
@[simp] theorem State.onXring_reqs (s : State) (o : Nat) (f : XRing → XRing) : (s.onXring o f).reqs = s.reqs := rfl
@[simp] theorem State.onXring_order (s : State) (o : Nat) (f : XRing → XRing) : (s.onXring o f).order = s.order := rfl
@[simp] theorem State.onXring_spread (s : State) (o : Nat) (f : XRing → XRing) : (s.onXring o f).spread = s.spread := rfl
@[simp] theorem State.onXring_lanes (s : State) (o : Nat) (f : XRing → XRing) : (s.onXring o f).lanes = s.lanes := rfl
@[simp] theorem State.onXring_keys (s : State) (o : Nat) (f : XRing → XRing) : (s.onXring o f).keys = s.keys := rfl
@[simp] theorem State.onXring_tango (s : State) (o : Nat) (f : XRing → XRing) : (s.onXring o f).tango = s.tango := rfl
@[simp] theorem State.onXring_digest (s : State) (o : Nat) (f : XRing → XRing) : (s.onXring o f).digest = s.digest := rfl
@[simp] theorem State.onXring_pke (s : State) (o : Nat) (f : XRing → XRing) : (s.onXring o f).pke = s.pke := rfl
@[simp] theorem State.onXring_rng (s : State) (o : Nat) (f : XRing → XRing) : (s.onXring o f).rng = s.rng := rfl
@[simp] theorem State.onXring_fifos (s : State) (o : Nat) (f : XRing → XRing) : (s.onXring o f).fifos = s.fifos := rfl
@[simp] theorem State.onXring_slices (s : State) (o : Nat) (f : XRing → XRing) : (s.onXring o f).slices = s.slices := rfl
@[simp] theorem State.onXring_access (s : State) (o : Nat) (f : XRing → XRing) : (s.onXring o f).access = s.access := rfl
@[simp] theorem State.onXring_port (s : State) (o : Nat) (f : XRing → XRing) : (s.onXring o f).port = s.port := rfl
@[simp] theorem State.onXring_memory (s : State) (o : Nat) (f : XRing → XRing) : (s.onXring o f).memory = s.memory := rfl
@[simp] theorem State.onXring_lc (s : State) (o : Nat) (f : XRing → XRing) : (s.onXring o f).lc = s.lc := rfl
@[simp] theorem State.onXring_start (s : State) (o : Nat) (f : XRing → XRing) : (s.onXring o f).start = s.start := rfl
@[simp] theorem State.onXring_pins (s : State) (o : Nat) (f : XRing → XRing) : (s.onXring o f).pins = s.pins := rfl
@[simp] theorem State.onXring_link (s : State) (o : Nat) (f : XRing → XRing) : (s.onXring o f).link = s.link := rfl
@[simp] theorem State.onXring_dict (s : State) (o : Nat) (f : XRing → XRing) : (s.onXring o f).dict = s.dict := rfl
@[simp] theorem State.onXring_events (s : State) (o : Nat) (f : XRing → XRing) : (s.onXring o f).events = s.events := rfl
@[simp] theorem State.onXring_now (s : State) (o : Nat) (f : XRing → XRing) : (s.onXring o f).now = s.now := rfl
@[simp] theorem State.onXring_pending (s : State) (o : Nat) (f : XRing → XRing) : (s.onXring o f).pending = s.pending := rfl

/-! ## onSource -/

@[simp] theorem State.onSource_ident (s : State) (i : Nat) (f : Source → Source) : (s.onSource i f).ident = s.ident := rfl
@[simp] theorem State.onSource_engine (s : State) (i : Nat) (f : Source → Source) : (s.onSource i f).engine = s.engine := rfl
@[simp] theorem State.onSource_reqs (s : State) (i : Nat) (f : Source → Source) : (s.onSource i f).reqs = s.reqs := rfl
@[simp] theorem State.onSource_order (s : State) (i : Nat) (f : Source → Source) : (s.onSource i f).order = s.order := rfl
@[simp] theorem State.onSource_spread (s : State) (i : Nat) (f : Source → Source) : (s.onSource i f).spread = s.spread := rfl
@[simp] theorem State.onSource_lanes (s : State) (i : Nat) (f : Source → Source) : (s.onSource i f).lanes = s.lanes := rfl
@[simp] theorem State.onSource_keys (s : State) (i : Nat) (f : Source → Source) : (s.onSource i f).keys = s.keys := rfl
@[simp] theorem State.onSource_dir (s : State) (i : Nat) (f : Source → Source) : (s.onSource i f).dir = s.dir := rfl
@[simp] theorem State.onSource_tango (s : State) (i : Nat) (f : Source → Source) : (s.onSource i f).tango = s.tango := rfl
@[simp] theorem State.onSource_digest (s : State) (i : Nat) (f : Source → Source) : (s.onSource i f).digest = s.digest := rfl
@[simp] theorem State.onSource_pke (s : State) (i : Nat) (f : Source → Source) : (s.onSource i f).pke = s.pke := rfl
@[simp] theorem State.onSource_rng (s : State) (i : Nat) (f : Source → Source) : (s.onSource i f).rng = s.rng := rfl
@[simp] theorem State.onSource_fifos (s : State) (i : Nat) (f : Source → Source) : (s.onSource i f).fifos = s.fifos := rfl
@[simp] theorem State.onSource_slices (s : State) (i : Nat) (f : Source → Source) : (s.onSource i f).slices = s.slices := rfl
@[simp] theorem State.onSource_access (s : State) (i : Nat) (f : Source → Source) : (s.onSource i f).access = s.access := rfl
@[simp] theorem State.onSource_port (s : State) (i : Nat) (f : Source → Source) : (s.onSource i f).port = s.port := rfl
@[simp] theorem State.onSource_memory (s : State) (i : Nat) (f : Source → Source) : (s.onSource i f).memory = s.memory := rfl
@[simp] theorem State.onSource_lc (s : State) (i : Nat) (f : Source → Source) : (s.onSource i f).lc = s.lc := rfl
@[simp] theorem State.onSource_start (s : State) (i : Nat) (f : Source → Source) : (s.onSource i f).start = s.start := rfl
@[simp] theorem State.onSource_pins (s : State) (i : Nat) (f : Source → Source) : (s.onSource i f).pins = s.pins := rfl
@[simp] theorem State.onSource_link (s : State) (i : Nat) (f : Source → Source) : (s.onSource i f).link = s.link := rfl
@[simp] theorem State.onSource_dict (s : State) (i : Nat) (f : Source → Source) : (s.onSource i f).dict = s.dict := rfl
@[simp] theorem State.onSource_now (s : State) (i : Nat) (f : Source → Source) : (s.onSource i f).now = s.now := rfl
@[simp] theorem State.onSource_pending (s : State) (i : Nat) (f : Source → Source) : (s.onSource i f).pending = s.pending := rfl

/-! ## onKind -/

@[simp] theorem State.onKind_ident (s : State) (kind : Nat) (f : FifoKind → FifoKind) : (s.onKind kind f).ident = s.ident := rfl
@[simp] theorem State.onKind_engine (s : State) (kind : Nat) (f : FifoKind → FifoKind) : (s.onKind kind f).engine = s.engine := rfl
@[simp] theorem State.onKind_reqs (s : State) (kind : Nat) (f : FifoKind → FifoKind) : (s.onKind kind f).reqs = s.reqs := rfl
@[simp] theorem State.onKind_order (s : State) (kind : Nat) (f : FifoKind → FifoKind) : (s.onKind kind f).order = s.order := rfl
@[simp] theorem State.onKind_spread (s : State) (kind : Nat) (f : FifoKind → FifoKind) : (s.onKind kind f).spread = s.spread := rfl
@[simp] theorem State.onKind_lanes (s : State) (kind : Nat) (f : FifoKind → FifoKind) : (s.onKind kind f).lanes = s.lanes := rfl
@[simp] theorem State.onKind_keys (s : State) (kind : Nat) (f : FifoKind → FifoKind) : (s.onKind kind f).keys = s.keys := rfl
@[simp] theorem State.onKind_dir (s : State) (kind : Nat) (f : FifoKind → FifoKind) : (s.onKind kind f).dir = s.dir := rfl
@[simp] theorem State.onKind_tango (s : State) (kind : Nat) (f : FifoKind → FifoKind) : (s.onKind kind f).tango = s.tango := rfl
@[simp] theorem State.onKind_digest (s : State) (kind : Nat) (f : FifoKind → FifoKind) : (s.onKind kind f).digest = s.digest := rfl
@[simp] theorem State.onKind_pke (s : State) (kind : Nat) (f : FifoKind → FifoKind) : (s.onKind kind f).pke = s.pke := rfl
@[simp] theorem State.onKind_rng (s : State) (kind : Nat) (f : FifoKind → FifoKind) : (s.onKind kind f).rng = s.rng := rfl
@[simp] theorem State.onKind_slices (s : State) (kind : Nat) (f : FifoKind → FifoKind) : (s.onKind kind f).slices = s.slices := rfl
@[simp] theorem State.onKind_access (s : State) (kind : Nat) (f : FifoKind → FifoKind) : (s.onKind kind f).access = s.access := rfl
@[simp] theorem State.onKind_port (s : State) (kind : Nat) (f : FifoKind → FifoKind) : (s.onKind kind f).port = s.port := rfl
@[simp] theorem State.onKind_memory (s : State) (kind : Nat) (f : FifoKind → FifoKind) : (s.onKind kind f).memory = s.memory := rfl
@[simp] theorem State.onKind_lc (s : State) (kind : Nat) (f : FifoKind → FifoKind) : (s.onKind kind f).lc = s.lc := rfl
@[simp] theorem State.onKind_start (s : State) (kind : Nat) (f : FifoKind → FifoKind) : (s.onKind kind f).start = s.start := rfl
@[simp] theorem State.onKind_pins (s : State) (kind : Nat) (f : FifoKind → FifoKind) : (s.onKind kind f).pins = s.pins := rfl
@[simp] theorem State.onKind_link (s : State) (kind : Nat) (f : FifoKind → FifoKind) : (s.onKind kind f).link = s.link := rfl
@[simp] theorem State.onKind_dict (s : State) (kind : Nat) (f : FifoKind → FifoKind) : (s.onKind kind f).dict = s.dict := rfl
@[simp] theorem State.onKind_events (s : State) (kind : Nat) (f : FifoKind → FifoKind) : (s.onKind kind f).events = s.events := rfl
@[simp] theorem State.onKind_now (s : State) (kind : Nat) (f : FifoKind → FifoKind) : (s.onKind kind f).now = s.now := rfl
@[simp] theorem State.onKind_pending (s : State) (kind : Nat) (f : FifoKind → FifoKind) : (s.onKind kind f).pending = s.pending := rfl

/-! ## onStore -/

@[simp] theorem State.onStore_ident (s : State) (n : Nat) (f : Store → Store) : (s.onStore n f).ident = s.ident := rfl
@[simp] theorem State.onStore_engine (s : State) (n : Nat) (f : Store → Store) : (s.onStore n f).engine = s.engine := rfl
@[simp] theorem State.onStore_reqs (s : State) (n : Nat) (f : Store → Store) : (s.onStore n f).reqs = s.reqs := rfl
@[simp] theorem State.onStore_order (s : State) (n : Nat) (f : Store → Store) : (s.onStore n f).order = s.order := rfl
@[simp] theorem State.onStore_spread (s : State) (n : Nat) (f : Store → Store) : (s.onStore n f).spread = s.spread := rfl
@[simp] theorem State.onStore_lanes (s : State) (n : Nat) (f : Store → Store) : (s.onStore n f).lanes = s.lanes := rfl
@[simp] theorem State.onStore_keys (s : State) (n : Nat) (f : Store → Store) : (s.onStore n f).keys = s.keys := rfl
@[simp] theorem State.onStore_dir (s : State) (n : Nat) (f : Store → Store) : (s.onStore n f).dir = s.dir := rfl
@[simp] theorem State.onStore_tango (s : State) (n : Nat) (f : Store → Store) : (s.onStore n f).tango = s.tango := rfl
@[simp] theorem State.onStore_digest (s : State) (n : Nat) (f : Store → Store) : (s.onStore n f).digest = s.digest := rfl
@[simp] theorem State.onStore_pke (s : State) (n : Nat) (f : Store → Store) : (s.onStore n f).pke = s.pke := rfl
@[simp] theorem State.onStore_rng (s : State) (n : Nat) (f : Store → Store) : (s.onStore n f).rng = s.rng := rfl
@[simp] theorem State.onStore_fifos (s : State) (n : Nat) (f : Store → Store) : (s.onStore n f).fifos = s.fifos := rfl
@[simp] theorem State.onStore_slices (s : State) (n : Nat) (f : Store → Store) : (s.onStore n f).slices = s.slices := rfl
@[simp] theorem State.onStore_access (s : State) (n : Nat) (f : Store → Store) : (s.onStore n f).access = s.access := rfl
@[simp] theorem State.onStore_port (s : State) (n : Nat) (f : Store → Store) : (s.onStore n f).port = s.port := rfl
@[simp] theorem State.onStore_lc (s : State) (n : Nat) (f : Store → Store) : (s.onStore n f).lc = s.lc := rfl
@[simp] theorem State.onStore_start (s : State) (n : Nat) (f : Store → Store) : (s.onStore n f).start = s.start := rfl
@[simp] theorem State.onStore_pins (s : State) (n : Nat) (f : Store → Store) : (s.onStore n f).pins = s.pins := rfl
@[simp] theorem State.onStore_link (s : State) (n : Nat) (f : Store → Store) : (s.onStore n f).link = s.link := rfl
@[simp] theorem State.onStore_dict (s : State) (n : Nat) (f : Store → Store) : (s.onStore n f).dict = s.dict := rfl
@[simp] theorem State.onStore_events (s : State) (n : Nat) (f : Store → Store) : (s.onStore n f).events = s.events := rfl
@[simp] theorem State.onStore_now (s : State) (n : Nat) (f : Store → Store) : (s.onStore n f).now = s.now := rfl
@[simp] theorem State.onStore_pending (s : State) (n : Nat) (f : Store → Store) : (s.onStore n f).pending = s.pending := rfl

/-! ## onKw -/

@[simp] theorem State.onKw_ident (s : State) (o : Nat) (f : KeyWindow → KeyWindow) : (s.onKw o f).ident = s.ident := rfl
@[simp] theorem State.onKw_engine (s : State) (o : Nat) (f : KeyWindow → KeyWindow) : (s.onKw o f).engine = s.engine := rfl
@[simp] theorem State.onKw_reqs (s : State) (o : Nat) (f : KeyWindow → KeyWindow) : (s.onKw o f).reqs = s.reqs := rfl
@[simp] theorem State.onKw_order (s : State) (o : Nat) (f : KeyWindow → KeyWindow) : (s.onKw o f).order = s.order := rfl
@[simp] theorem State.onKw_spread (s : State) (o : Nat) (f : KeyWindow → KeyWindow) : (s.onKw o f).spread = s.spread := rfl
@[simp] theorem State.onKw_lanes (s : State) (o : Nat) (f : KeyWindow → KeyWindow) : (s.onKw o f).lanes = s.lanes := rfl
@[simp] theorem State.onKw_dir (s : State) (o : Nat) (f : KeyWindow → KeyWindow) : (s.onKw o f).dir = s.dir := rfl
@[simp] theorem State.onKw_tango (s : State) (o : Nat) (f : KeyWindow → KeyWindow) : (s.onKw o f).tango = s.tango := rfl
@[simp] theorem State.onKw_digest (s : State) (o : Nat) (f : KeyWindow → KeyWindow) : (s.onKw o f).digest = s.digest := rfl
@[simp] theorem State.onKw_pke (s : State) (o : Nat) (f : KeyWindow → KeyWindow) : (s.onKw o f).pke = s.pke := rfl
@[simp] theorem State.onKw_rng (s : State) (o : Nat) (f : KeyWindow → KeyWindow) : (s.onKw o f).rng = s.rng := rfl
@[simp] theorem State.onKw_fifos (s : State) (o : Nat) (f : KeyWindow → KeyWindow) : (s.onKw o f).fifos = s.fifos := rfl
@[simp] theorem State.onKw_slices (s : State) (o : Nat) (f : KeyWindow → KeyWindow) : (s.onKw o f).slices = s.slices := rfl
@[simp] theorem State.onKw_access (s : State) (o : Nat) (f : KeyWindow → KeyWindow) : (s.onKw o f).access = s.access := rfl
@[simp] theorem State.onKw_port (s : State) (o : Nat) (f : KeyWindow → KeyWindow) : (s.onKw o f).port = s.port := rfl
@[simp] theorem State.onKw_memory (s : State) (o : Nat) (f : KeyWindow → KeyWindow) : (s.onKw o f).memory = s.memory := rfl
@[simp] theorem State.onKw_lc (s : State) (o : Nat) (f : KeyWindow → KeyWindow) : (s.onKw o f).lc = s.lc := rfl
@[simp] theorem State.onKw_start (s : State) (o : Nat) (f : KeyWindow → KeyWindow) : (s.onKw o f).start = s.start := rfl
@[simp] theorem State.onKw_pins (s : State) (o : Nat) (f : KeyWindow → KeyWindow) : (s.onKw o f).pins = s.pins := rfl
@[simp] theorem State.onKw_link (s : State) (o : Nat) (f : KeyWindow → KeyWindow) : (s.onKw o f).link = s.link := rfl
@[simp] theorem State.onKw_dict (s : State) (o : Nat) (f : KeyWindow → KeyWindow) : (s.onKw o f).dict = s.dict := rfl
@[simp] theorem State.onKw_events (s : State) (o : Nat) (f : KeyWindow → KeyWindow) : (s.onKw o f).events = s.events := rfl
@[simp] theorem State.onKw_now (s : State) (o : Nat) (f : KeyWindow → KeyWindow) : (s.onKw o f).now = s.now := rfl
@[simp] theorem State.onKw_pending (s : State) (o : Nat) (f : KeyWindow → KeyWindow) : (s.onKw o f).pending = s.pending := rfl

/-! ## onLc -/

@[simp] theorem State.onLc_ident (s : State) (f : LifeCycle → LifeCycle) : (s.onLc f).ident = s.ident := rfl
@[simp] theorem State.onLc_engine (s : State) (f : LifeCycle → LifeCycle) : (s.onLc f).engine = s.engine := rfl
@[simp] theorem State.onLc_reqs (s : State) (f : LifeCycle → LifeCycle) : (s.onLc f).reqs = s.reqs := rfl
@[simp] theorem State.onLc_order (s : State) (f : LifeCycle → LifeCycle) : (s.onLc f).order = s.order := rfl
@[simp] theorem State.onLc_spread (s : State) (f : LifeCycle → LifeCycle) : (s.onLc f).spread = s.spread := rfl
@[simp] theorem State.onLc_lanes (s : State) (f : LifeCycle → LifeCycle) : (s.onLc f).lanes = s.lanes := rfl
@[simp] theorem State.onLc_keys (s : State) (f : LifeCycle → LifeCycle) : (s.onLc f).keys = s.keys := rfl
@[simp] theorem State.onLc_dir (s : State) (f : LifeCycle → LifeCycle) : (s.onLc f).dir = s.dir := rfl
@[simp] theorem State.onLc_tango (s : State) (f : LifeCycle → LifeCycle) : (s.onLc f).tango = s.tango := rfl
@[simp] theorem State.onLc_digest (s : State) (f : LifeCycle → LifeCycle) : (s.onLc f).digest = s.digest := rfl
@[simp] theorem State.onLc_pke (s : State) (f : LifeCycle → LifeCycle) : (s.onLc f).pke = s.pke := rfl
@[simp] theorem State.onLc_rng (s : State) (f : LifeCycle → LifeCycle) : (s.onLc f).rng = s.rng := rfl
@[simp] theorem State.onLc_fifos (s : State) (f : LifeCycle → LifeCycle) : (s.onLc f).fifos = s.fifos := rfl
@[simp] theorem State.onLc_slices (s : State) (f : LifeCycle → LifeCycle) : (s.onLc f).slices = s.slices := rfl
@[simp] theorem State.onLc_access (s : State) (f : LifeCycle → LifeCycle) : (s.onLc f).access = s.access := rfl
@[simp] theorem State.onLc_port (s : State) (f : LifeCycle → LifeCycle) : (s.onLc f).port = s.port := rfl
@[simp] theorem State.onLc_memory (s : State) (f : LifeCycle → LifeCycle) : (s.onLc f).memory = s.memory := rfl
@[simp] theorem State.onLc_start (s : State) (f : LifeCycle → LifeCycle) : (s.onLc f).start = s.start := rfl
@[simp] theorem State.onLc_pins (s : State) (f : LifeCycle → LifeCycle) : (s.onLc f).pins = s.pins := rfl
@[simp] theorem State.onLc_link (s : State) (f : LifeCycle → LifeCycle) : (s.onLc f).link = s.link := rfl
@[simp] theorem State.onLc_dict (s : State) (f : LifeCycle → LifeCycle) : (s.onLc f).dict = s.dict := rfl
@[simp] theorem State.onLc_events (s : State) (f : LifeCycle → LifeCycle) : (s.onLc f).events = s.events := rfl
@[simp] theorem State.onLc_now (s : State) (f : LifeCycle → LifeCycle) : (s.onLc f).now = s.now := rfl
@[simp] theorem State.onLc_pending (s : State) (f : LifeCycle → LifeCycle) : (s.onLc f).pending = s.pending := rfl

/-! ## onLport -/

@[simp] theorem State.onLport_ident (s : State) (p : Nat) (f : LinkPort → LinkPort) : (s.onLport p f).ident = s.ident := rfl
@[simp] theorem State.onLport_engine (s : State) (p : Nat) (f : LinkPort → LinkPort) : (s.onLport p f).engine = s.engine := rfl
@[simp] theorem State.onLport_reqs (s : State) (p : Nat) (f : LinkPort → LinkPort) : (s.onLport p f).reqs = s.reqs := rfl
@[simp] theorem State.onLport_order (s : State) (p : Nat) (f : LinkPort → LinkPort) : (s.onLport p f).order = s.order := rfl
@[simp] theorem State.onLport_spread (s : State) (p : Nat) (f : LinkPort → LinkPort) : (s.onLport p f).spread = s.spread := rfl
@[simp] theorem State.onLport_lanes (s : State) (p : Nat) (f : LinkPort → LinkPort) : (s.onLport p f).lanes = s.lanes := rfl
@[simp] theorem State.onLport_keys (s : State) (p : Nat) (f : LinkPort → LinkPort) : (s.onLport p f).keys = s.keys := rfl
@[simp] theorem State.onLport_dir (s : State) (p : Nat) (f : LinkPort → LinkPort) : (s.onLport p f).dir = s.dir := rfl
@[simp] theorem State.onLport_tango (s : State) (p : Nat) (f : LinkPort → LinkPort) : (s.onLport p f).tango = s.tango := rfl
@[simp] theorem State.onLport_digest (s : State) (p : Nat) (f : LinkPort → LinkPort) : (s.onLport p f).digest = s.digest := rfl
@[simp] theorem State.onLport_pke (s : State) (p : Nat) (f : LinkPort → LinkPort) : (s.onLport p f).pke = s.pke := rfl
@[simp] theorem State.onLport_rng (s : State) (p : Nat) (f : LinkPort → LinkPort) : (s.onLport p f).rng = s.rng := rfl
@[simp] theorem State.onLport_fifos (s : State) (p : Nat) (f : LinkPort → LinkPort) : (s.onLport p f).fifos = s.fifos := rfl
@[simp] theorem State.onLport_slices (s : State) (p : Nat) (f : LinkPort → LinkPort) : (s.onLport p f).slices = s.slices := rfl
@[simp] theorem State.onLport_access (s : State) (p : Nat) (f : LinkPort → LinkPort) : (s.onLport p f).access = s.access := rfl
@[simp] theorem State.onLport_port (s : State) (p : Nat) (f : LinkPort → LinkPort) : (s.onLport p f).port = s.port := rfl
@[simp] theorem State.onLport_memory (s : State) (p : Nat) (f : LinkPort → LinkPort) : (s.onLport p f).memory = s.memory := rfl
@[simp] theorem State.onLport_lc (s : State) (p : Nat) (f : LinkPort → LinkPort) : (s.onLport p f).lc = s.lc := rfl
@[simp] theorem State.onLport_start (s : State) (p : Nat) (f : LinkPort → LinkPort) : (s.onLport p f).start = s.start := rfl
@[simp] theorem State.onLport_pins (s : State) (p : Nat) (f : LinkPort → LinkPort) : (s.onLport p f).pins = s.pins := rfl
@[simp] theorem State.onLport_dict (s : State) (p : Nat) (f : LinkPort → LinkPort) : (s.onLport p f).dict = s.dict := rfl
@[simp] theorem State.onLport_events (s : State) (p : Nat) (f : LinkPort → LinkPort) : (s.onLport p f).events = s.events := rfl
@[simp] theorem State.onLport_now (s : State) (p : Nat) (f : LinkPort → LinkPort) : (s.onLport p f).now = s.now := rfl
@[simp] theorem State.onLport_pending (s : State) (p : Nat) (f : LinkPort → LinkPort) : (s.onLport p f).pending = s.pending := rfl

/-! ## onPeer -/

@[simp] theorem State.onPeer_ident (s : State) (i : Nat) (f : Peer → Peer) : (s.onPeer i f).ident = s.ident := rfl
@[simp] theorem State.onPeer_engine (s : State) (i : Nat) (f : Peer → Peer) : (s.onPeer i f).engine = s.engine := rfl
@[simp] theorem State.onPeer_reqs (s : State) (i : Nat) (f : Peer → Peer) : (s.onPeer i f).reqs = s.reqs := rfl
@[simp] theorem State.onPeer_order (s : State) (i : Nat) (f : Peer → Peer) : (s.onPeer i f).order = s.order := rfl
@[simp] theorem State.onPeer_spread (s : State) (i : Nat) (f : Peer → Peer) : (s.onPeer i f).spread = s.spread := rfl
@[simp] theorem State.onPeer_lanes (s : State) (i : Nat) (f : Peer → Peer) : (s.onPeer i f).lanes = s.lanes := rfl
@[simp] theorem State.onPeer_keys (s : State) (i : Nat) (f : Peer → Peer) : (s.onPeer i f).keys = s.keys := rfl
@[simp] theorem State.onPeer_dir (s : State) (i : Nat) (f : Peer → Peer) : (s.onPeer i f).dir = s.dir := rfl
@[simp] theorem State.onPeer_tango (s : State) (i : Nat) (f : Peer → Peer) : (s.onPeer i f).tango = s.tango := rfl
@[simp] theorem State.onPeer_digest (s : State) (i : Nat) (f : Peer → Peer) : (s.onPeer i f).digest = s.digest := rfl
@[simp] theorem State.onPeer_pke (s : State) (i : Nat) (f : Peer → Peer) : (s.onPeer i f).pke = s.pke := rfl
@[simp] theorem State.onPeer_rng (s : State) (i : Nat) (f : Peer → Peer) : (s.onPeer i f).rng = s.rng := rfl
@[simp] theorem State.onPeer_fifos (s : State) (i : Nat) (f : Peer → Peer) : (s.onPeer i f).fifos = s.fifos := rfl
@[simp] theorem State.onPeer_slices (s : State) (i : Nat) (f : Peer → Peer) : (s.onPeer i f).slices = s.slices := rfl
@[simp] theorem State.onPeer_access (s : State) (i : Nat) (f : Peer → Peer) : (s.onPeer i f).access = s.access := rfl
@[simp] theorem State.onPeer_port (s : State) (i : Nat) (f : Peer → Peer) : (s.onPeer i f).port = s.port := rfl
@[simp] theorem State.onPeer_memory (s : State) (i : Nat) (f : Peer → Peer) : (s.onPeer i f).memory = s.memory := rfl
@[simp] theorem State.onPeer_lc (s : State) (i : Nat) (f : Peer → Peer) : (s.onPeer i f).lc = s.lc := rfl
@[simp] theorem State.onPeer_start (s : State) (i : Nat) (f : Peer → Peer) : (s.onPeer i f).start = s.start := rfl
@[simp] theorem State.onPeer_pins (s : State) (i : Nat) (f : Peer → Peer) : (s.onPeer i f).pins = s.pins := rfl
@[simp] theorem State.onPeer_dict (s : State) (i : Nat) (f : Peer → Peer) : (s.onPeer i f).dict = s.dict := rfl
@[simp] theorem State.onPeer_events (s : State) (i : Nat) (f : Peer → Peer) : (s.onPeer i f).events = s.events := rfl
@[simp] theorem State.onPeer_now (s : State) (i : Nat) (f : Peer → Peer) : (s.onPeer i f).now = s.now := rfl
@[simp] theorem State.onPeer_pending (s : State) (i : Nat) (f : Peer → Peer) : (s.onPeer i f).pending = s.pending := rfl

/-! ## onLink -/

@[simp] theorem State.onLink_ident (s : State) (f : Link → Link) : (s.onLink f).ident = s.ident := rfl
@[simp] theorem State.onLink_engine (s : State) (f : Link → Link) : (s.onLink f).engine = s.engine := rfl
@[simp] theorem State.onLink_reqs (s : State) (f : Link → Link) : (s.onLink f).reqs = s.reqs := rfl
@[simp] theorem State.onLink_order (s : State) (f : Link → Link) : (s.onLink f).order = s.order := rfl
@[simp] theorem State.onLink_spread (s : State) (f : Link → Link) : (s.onLink f).spread = s.spread := rfl
@[simp] theorem State.onLink_lanes (s : State) (f : Link → Link) : (s.onLink f).lanes = s.lanes := rfl
@[simp] theorem State.onLink_keys (s : State) (f : Link → Link) : (s.onLink f).keys = s.keys := rfl
@[simp] theorem State.onLink_dir (s : State) (f : Link → Link) : (s.onLink f).dir = s.dir := rfl
@[simp] theorem State.onLink_tango (s : State) (f : Link → Link) : (s.onLink f).tango = s.tango := rfl
@[simp] theorem State.onLink_digest (s : State) (f : Link → Link) : (s.onLink f).digest = s.digest := rfl
@[simp] theorem State.onLink_pke (s : State) (f : Link → Link) : (s.onLink f).pke = s.pke := rfl
@[simp] theorem State.onLink_rng (s : State) (f : Link → Link) : (s.onLink f).rng = s.rng := rfl
@[simp] theorem State.onLink_fifos (s : State) (f : Link → Link) : (s.onLink f).fifos = s.fifos := rfl
@[simp] theorem State.onLink_slices (s : State) (f : Link → Link) : (s.onLink f).slices = s.slices := rfl
@[simp] theorem State.onLink_access (s : State) (f : Link → Link) : (s.onLink f).access = s.access := rfl
@[simp] theorem State.onLink_port (s : State) (f : Link → Link) : (s.onLink f).port = s.port := rfl
@[simp] theorem State.onLink_memory (s : State) (f : Link → Link) : (s.onLink f).memory = s.memory := rfl
@[simp] theorem State.onLink_lc (s : State) (f : Link → Link) : (s.onLink f).lc = s.lc := rfl
@[simp] theorem State.onLink_start (s : State) (f : Link → Link) : (s.onLink f).start = s.start := rfl
@[simp] theorem State.onLink_pins (s : State) (f : Link → Link) : (s.onLink f).pins = s.pins := rfl
@[simp] theorem State.onLink_dict (s : State) (f : Link → Link) : (s.onLink f).dict = s.dict := rfl
@[simp] theorem State.onLink_events (s : State) (f : Link → Link) : (s.onLink f).events = s.events := rfl
@[simp] theorem State.onLink_now (s : State) (f : Link → Link) : (s.onLink f).now = s.now := rfl
@[simp] theorem State.onLink_pending (s : State) (f : Link → Link) : (s.onLink f).pending = s.pending := rfl

/-! ## onUnit -/

@[simp] theorem State.onUnit_ident (s : State) (u : Nat) (f : DigestUnit → DigestUnit) : (s.onUnit u f).ident = s.ident := rfl
@[simp] theorem State.onUnit_engine (s : State) (u : Nat) (f : DigestUnit → DigestUnit) : (s.onUnit u f).engine = s.engine := rfl
@[simp] theorem State.onUnit_reqs (s : State) (u : Nat) (f : DigestUnit → DigestUnit) : (s.onUnit u f).reqs = s.reqs := rfl
@[simp] theorem State.onUnit_order (s : State) (u : Nat) (f : DigestUnit → DigestUnit) : (s.onUnit u f).order = s.order := rfl
@[simp] theorem State.onUnit_spread (s : State) (u : Nat) (f : DigestUnit → DigestUnit) : (s.onUnit u f).spread = s.spread := rfl
@[simp] theorem State.onUnit_lanes (s : State) (u : Nat) (f : DigestUnit → DigestUnit) : (s.onUnit u f).lanes = s.lanes := rfl
@[simp] theorem State.onUnit_keys (s : State) (u : Nat) (f : DigestUnit → DigestUnit) : (s.onUnit u f).keys = s.keys := rfl
@[simp] theorem State.onUnit_dir (s : State) (u : Nat) (f : DigestUnit → DigestUnit) : (s.onUnit u f).dir = s.dir := rfl
@[simp] theorem State.onUnit_tango (s : State) (u : Nat) (f : DigestUnit → DigestUnit) : (s.onUnit u f).tango = s.tango := rfl
@[simp] theorem State.onUnit_pke (s : State) (u : Nat) (f : DigestUnit → DigestUnit) : (s.onUnit u f).pke = s.pke := rfl
@[simp] theorem State.onUnit_rng (s : State) (u : Nat) (f : DigestUnit → DigestUnit) : (s.onUnit u f).rng = s.rng := rfl
@[simp] theorem State.onUnit_fifos (s : State) (u : Nat) (f : DigestUnit → DigestUnit) : (s.onUnit u f).fifos = s.fifos := rfl
@[simp] theorem State.onUnit_slices (s : State) (u : Nat) (f : DigestUnit → DigestUnit) : (s.onUnit u f).slices = s.slices := rfl
@[simp] theorem State.onUnit_access (s : State) (u : Nat) (f : DigestUnit → DigestUnit) : (s.onUnit u f).access = s.access := rfl
@[simp] theorem State.onUnit_port (s : State) (u : Nat) (f : DigestUnit → DigestUnit) : (s.onUnit u f).port = s.port := rfl
@[simp] theorem State.onUnit_memory (s : State) (u : Nat) (f : DigestUnit → DigestUnit) : (s.onUnit u f).memory = s.memory := rfl
@[simp] theorem State.onUnit_lc (s : State) (u : Nat) (f : DigestUnit → DigestUnit) : (s.onUnit u f).lc = s.lc := rfl
@[simp] theorem State.onUnit_start (s : State) (u : Nat) (f : DigestUnit → DigestUnit) : (s.onUnit u f).start = s.start := rfl
@[simp] theorem State.onUnit_pins (s : State) (u : Nat) (f : DigestUnit → DigestUnit) : (s.onUnit u f).pins = s.pins := rfl
@[simp] theorem State.onUnit_link (s : State) (u : Nat) (f : DigestUnit → DigestUnit) : (s.onUnit u f).link = s.link := rfl
@[simp] theorem State.onUnit_dict (s : State) (u : Nat) (f : DigestUnit → DigestUnit) : (s.onUnit u f).dict = s.dict := rfl
@[simp] theorem State.onUnit_events (s : State) (u : Nat) (f : DigestUnit → DigestUnit) : (s.onUnit u f).events = s.events := rfl
@[simp] theorem State.onUnit_now (s : State) (u : Nat) (f : DigestUnit → DigestUnit) : (s.onUnit u f).now = s.now := rfl
@[simp] theorem State.onUnit_pending (s : State) (u : Nat) (f : DigestUnit → DigestUnit) : (s.onUnit u f).pending = s.pending := rfl

/-! ## onEngine -/

@[simp] theorem State.onEngine_ident (s : State) (e : Nat) (f : Engine → Engine) : (s.onEngine e f).ident = s.ident := rfl
@[simp] theorem State.onEngine_engine (s : State) (e : Nat) (f : Engine → Engine) : (s.onEngine e f).engine = s.engine := rfl
@[simp] theorem State.onEngine_reqs (s : State) (e : Nat) (f : Engine → Engine) : (s.onEngine e f).reqs = s.reqs := rfl
@[simp] theorem State.onEngine_order (s : State) (e : Nat) (f : Engine → Engine) : (s.onEngine e f).order = s.order := rfl
@[simp] theorem State.onEngine_spread (s : State) (e : Nat) (f : Engine → Engine) : (s.onEngine e f).spread = s.spread := rfl
@[simp] theorem State.onEngine_lanes (s : State) (e : Nat) (f : Engine → Engine) : (s.onEngine e f).lanes = s.lanes := rfl
@[simp] theorem State.onEngine_keys (s : State) (e : Nat) (f : Engine → Engine) : (s.onEngine e f).keys = s.keys := rfl
@[simp] theorem State.onEngine_dir (s : State) (e : Nat) (f : Engine → Engine) : (s.onEngine e f).dir = s.dir := rfl
@[simp] theorem State.onEngine_tango (s : State) (e : Nat) (f : Engine → Engine) : (s.onEngine e f).tango = s.tango := rfl
@[simp] theorem State.onEngine_digest (s : State) (e : Nat) (f : Engine → Engine) : (s.onEngine e f).digest = s.digest := rfl
@[simp] theorem State.onEngine_rng (s : State) (e : Nat) (f : Engine → Engine) : (s.onEngine e f).rng = s.rng := rfl
@[simp] theorem State.onEngine_fifos (s : State) (e : Nat) (f : Engine → Engine) : (s.onEngine e f).fifos = s.fifos := rfl
@[simp] theorem State.onEngine_slices (s : State) (e : Nat) (f : Engine → Engine) : (s.onEngine e f).slices = s.slices := rfl
@[simp] theorem State.onEngine_access (s : State) (e : Nat) (f : Engine → Engine) : (s.onEngine e f).access = s.access := rfl
@[simp] theorem State.onEngine_port (s : State) (e : Nat) (f : Engine → Engine) : (s.onEngine e f).port = s.port := rfl
@[simp] theorem State.onEngine_memory (s : State) (e : Nat) (f : Engine → Engine) : (s.onEngine e f).memory = s.memory := rfl
@[simp] theorem State.onEngine_lc (s : State) (e : Nat) (f : Engine → Engine) : (s.onEngine e f).lc = s.lc := rfl
@[simp] theorem State.onEngine_start (s : State) (e : Nat) (f : Engine → Engine) : (s.onEngine e f).start = s.start := rfl
@[simp] theorem State.onEngine_pins (s : State) (e : Nat) (f : Engine → Engine) : (s.onEngine e f).pins = s.pins := rfl
@[simp] theorem State.onEngine_link (s : State) (e : Nat) (f : Engine → Engine) : (s.onEngine e f).link = s.link := rfl
@[simp] theorem State.onEngine_dict (s : State) (e : Nat) (f : Engine → Engine) : (s.onEngine e f).dict = s.dict := rfl
@[simp] theorem State.onEngine_events (s : State) (e : Nat) (f : Engine → Engine) : (s.onEngine e f).events = s.events := rfl
@[simp] theorem State.onEngine_now (s : State) (e : Nat) (f : Engine → Engine) : (s.onEngine e f).now = s.now := rfl
@[simp] theorem State.onEngine_pending (s : State) (e : Nat) (f : Engine → Engine) : (s.onEngine e f).pending = s.pending := rfl

/-! ## onStart -/

@[simp] theorem State.onStart_ident (s : State) (f : Start → Start) : (s.onStart f).ident = s.ident := rfl
@[simp] theorem State.onStart_engine (s : State) (f : Start → Start) : (s.onStart f).engine = s.engine := rfl
@[simp] theorem State.onStart_reqs (s : State) (f : Start → Start) : (s.onStart f).reqs = s.reqs := rfl
@[simp] theorem State.onStart_order (s : State) (f : Start → Start) : (s.onStart f).order = s.order := rfl
@[simp] theorem State.onStart_spread (s : State) (f : Start → Start) : (s.onStart f).spread = s.spread := rfl
@[simp] theorem State.onStart_lanes (s : State) (f : Start → Start) : (s.onStart f).lanes = s.lanes := rfl
@[simp] theorem State.onStart_keys (s : State) (f : Start → Start) : (s.onStart f).keys = s.keys := rfl
@[simp] theorem State.onStart_dir (s : State) (f : Start → Start) : (s.onStart f).dir = s.dir := rfl
@[simp] theorem State.onStart_tango (s : State) (f : Start → Start) : (s.onStart f).tango = s.tango := rfl
@[simp] theorem State.onStart_digest (s : State) (f : Start → Start) : (s.onStart f).digest = s.digest := rfl
@[simp] theorem State.onStart_pke (s : State) (f : Start → Start) : (s.onStart f).pke = s.pke := rfl
@[simp] theorem State.onStart_rng (s : State) (f : Start → Start) : (s.onStart f).rng = s.rng := rfl
@[simp] theorem State.onStart_fifos (s : State) (f : Start → Start) : (s.onStart f).fifos = s.fifos := rfl
@[simp] theorem State.onStart_slices (s : State) (f : Start → Start) : (s.onStart f).slices = s.slices := rfl
@[simp] theorem State.onStart_access (s : State) (f : Start → Start) : (s.onStart f).access = s.access := rfl
@[simp] theorem State.onStart_port (s : State) (f : Start → Start) : (s.onStart f).port = s.port := rfl
@[simp] theorem State.onStart_memory (s : State) (f : Start → Start) : (s.onStart f).memory = s.memory := rfl
@[simp] theorem State.onStart_lc (s : State) (f : Start → Start) : (s.onStart f).lc = s.lc := rfl
@[simp] theorem State.onStart_pins (s : State) (f : Start → Start) : (s.onStart f).pins = s.pins := rfl
@[simp] theorem State.onStart_link (s : State) (f : Start → Start) : (s.onStart f).link = s.link := rfl
@[simp] theorem State.onStart_dict (s : State) (f : Start → Start) : (s.onStart f).dict = s.dict := rfl
@[simp] theorem State.onStart_events (s : State) (f : Start → Start) : (s.onStart f).events = s.events := rfl
@[simp] theorem State.onStart_now (s : State) (f : Start → Start) : (s.onStart f).now = s.now := rfl
@[simp] theorem State.onStart_pending (s : State) (f : Start → Start) : (s.onStart f).pending = s.pending := rfl

/-! ## onRng -/

@[simp] theorem State.onRng_ident (s : State) (f : Rng → Rng) : (s.onRng f).ident = s.ident := rfl
@[simp] theorem State.onRng_engine (s : State) (f : Rng → Rng) : (s.onRng f).engine = s.engine := rfl
@[simp] theorem State.onRng_reqs (s : State) (f : Rng → Rng) : (s.onRng f).reqs = s.reqs := rfl
@[simp] theorem State.onRng_order (s : State) (f : Rng → Rng) : (s.onRng f).order = s.order := rfl
@[simp] theorem State.onRng_spread (s : State) (f : Rng → Rng) : (s.onRng f).spread = s.spread := rfl
@[simp] theorem State.onRng_lanes (s : State) (f : Rng → Rng) : (s.onRng f).lanes = s.lanes := rfl
@[simp] theorem State.onRng_keys (s : State) (f : Rng → Rng) : (s.onRng f).keys = s.keys := rfl
@[simp] theorem State.onRng_dir (s : State) (f : Rng → Rng) : (s.onRng f).dir = s.dir := rfl
@[simp] theorem State.onRng_tango (s : State) (f : Rng → Rng) : (s.onRng f).tango = s.tango := rfl
@[simp] theorem State.onRng_digest (s : State) (f : Rng → Rng) : (s.onRng f).digest = s.digest := rfl
@[simp] theorem State.onRng_pke (s : State) (f : Rng → Rng) : (s.onRng f).pke = s.pke := rfl
@[simp] theorem State.onRng_fifos (s : State) (f : Rng → Rng) : (s.onRng f).fifos = s.fifos := rfl
@[simp] theorem State.onRng_slices (s : State) (f : Rng → Rng) : (s.onRng f).slices = s.slices := rfl
@[simp] theorem State.onRng_access (s : State) (f : Rng → Rng) : (s.onRng f).access = s.access := rfl
@[simp] theorem State.onRng_port (s : State) (f : Rng → Rng) : (s.onRng f).port = s.port := rfl
@[simp] theorem State.onRng_memory (s : State) (f : Rng → Rng) : (s.onRng f).memory = s.memory := rfl
@[simp] theorem State.onRng_lc (s : State) (f : Rng → Rng) : (s.onRng f).lc = s.lc := rfl
@[simp] theorem State.onRng_start (s : State) (f : Rng → Rng) : (s.onRng f).start = s.start := rfl
@[simp] theorem State.onRng_pins (s : State) (f : Rng → Rng) : (s.onRng f).pins = s.pins := rfl
@[simp] theorem State.onRng_link (s : State) (f : Rng → Rng) : (s.onRng f).link = s.link := rfl
@[simp] theorem State.onRng_dict (s : State) (f : Rng → Rng) : (s.onRng f).dict = s.dict := rfl
@[simp] theorem State.onRng_events (s : State) (f : Rng → Rng) : (s.onRng f).events = s.events := rfl
@[simp] theorem State.onRng_now (s : State) (f : Rng → Rng) : (s.onRng f).now = s.now := rfl
@[simp] theorem State.onRng_pending (s : State) (f : Rng → Rng) : (s.onRng f).pending = s.pending := rfl

/-! ## onNoise -/

@[simp] theorem State.onNoise_ident (s : State) (n : Nat) (f : Noise → Noise) : (s.onNoise n f).ident = s.ident := rfl
@[simp] theorem State.onNoise_engine (s : State) (n : Nat) (f : Noise → Noise) : (s.onNoise n f).engine = s.engine := rfl
@[simp] theorem State.onNoise_reqs (s : State) (n : Nat) (f : Noise → Noise) : (s.onNoise n f).reqs = s.reqs := rfl
@[simp] theorem State.onNoise_order (s : State) (n : Nat) (f : Noise → Noise) : (s.onNoise n f).order = s.order := rfl
@[simp] theorem State.onNoise_spread (s : State) (n : Nat) (f : Noise → Noise) : (s.onNoise n f).spread = s.spread := rfl
@[simp] theorem State.onNoise_lanes (s : State) (n : Nat) (f : Noise → Noise) : (s.onNoise n f).lanes = s.lanes := rfl
@[simp] theorem State.onNoise_keys (s : State) (n : Nat) (f : Noise → Noise) : (s.onNoise n f).keys = s.keys := rfl
@[simp] theorem State.onNoise_dir (s : State) (n : Nat) (f : Noise → Noise) : (s.onNoise n f).dir = s.dir := rfl
@[simp] theorem State.onNoise_tango (s : State) (n : Nat) (f : Noise → Noise) : (s.onNoise n f).tango = s.tango := rfl
@[simp] theorem State.onNoise_digest (s : State) (n : Nat) (f : Noise → Noise) : (s.onNoise n f).digest = s.digest := rfl
@[simp] theorem State.onNoise_pke (s : State) (n : Nat) (f : Noise → Noise) : (s.onNoise n f).pke = s.pke := rfl
@[simp] theorem State.onNoise_fifos (s : State) (n : Nat) (f : Noise → Noise) : (s.onNoise n f).fifos = s.fifos := rfl
@[simp] theorem State.onNoise_slices (s : State) (n : Nat) (f : Noise → Noise) : (s.onNoise n f).slices = s.slices := rfl
@[simp] theorem State.onNoise_access (s : State) (n : Nat) (f : Noise → Noise) : (s.onNoise n f).access = s.access := rfl
@[simp] theorem State.onNoise_port (s : State) (n : Nat) (f : Noise → Noise) : (s.onNoise n f).port = s.port := rfl
@[simp] theorem State.onNoise_memory (s : State) (n : Nat) (f : Noise → Noise) : (s.onNoise n f).memory = s.memory := rfl
@[simp] theorem State.onNoise_lc (s : State) (n : Nat) (f : Noise → Noise) : (s.onNoise n f).lc = s.lc := rfl
@[simp] theorem State.onNoise_start (s : State) (n : Nat) (f : Noise → Noise) : (s.onNoise n f).start = s.start := rfl
@[simp] theorem State.onNoise_pins (s : State) (n : Nat) (f : Noise → Noise) : (s.onNoise n f).pins = s.pins := rfl
@[simp] theorem State.onNoise_link (s : State) (n : Nat) (f : Noise → Noise) : (s.onNoise n f).link = s.link := rfl
@[simp] theorem State.onNoise_dict (s : State) (n : Nat) (f : Noise → Noise) : (s.onNoise n f).dict = s.dict := rfl
@[simp] theorem State.onNoise_events (s : State) (n : Nat) (f : Noise → Noise) : (s.onNoise n f).events = s.events := rfl
@[simp] theorem State.onNoise_now (s : State) (n : Nat) (f : Noise → Noise) : (s.onNoise n f).now = s.now := rfl
@[simp] theorem State.onNoise_pending (s : State) (n : Nat) (f : Noise → Noise) : (s.onNoise n f).pending = s.pending := rfl

/-! ## onSpread -/

@[simp] theorem State.onSpread_ident (s : State) (nn : Nat) (f : Spread → Spread) : (s.onSpread nn f).ident = s.ident := rfl
@[simp] theorem State.onSpread_engine (s : State) (nn : Nat) (f : Spread → Spread) : (s.onSpread nn f).engine = s.engine := rfl
@[simp] theorem State.onSpread_reqs (s : State) (nn : Nat) (f : Spread → Spread) : (s.onSpread nn f).reqs = s.reqs := rfl
@[simp] theorem State.onSpread_order (s : State) (nn : Nat) (f : Spread → Spread) : (s.onSpread nn f).order = s.order := rfl
@[simp] theorem State.onSpread_lanes (s : State) (nn : Nat) (f : Spread → Spread) : (s.onSpread nn f).lanes = s.lanes := rfl
@[simp] theorem State.onSpread_keys (s : State) (nn : Nat) (f : Spread → Spread) : (s.onSpread nn f).keys = s.keys := rfl
@[simp] theorem State.onSpread_dir (s : State) (nn : Nat) (f : Spread → Spread) : (s.onSpread nn f).dir = s.dir := rfl
@[simp] theorem State.onSpread_tango (s : State) (nn : Nat) (f : Spread → Spread) : (s.onSpread nn f).tango = s.tango := rfl
@[simp] theorem State.onSpread_digest (s : State) (nn : Nat) (f : Spread → Spread) : (s.onSpread nn f).digest = s.digest := rfl
@[simp] theorem State.onSpread_pke (s : State) (nn : Nat) (f : Spread → Spread) : (s.onSpread nn f).pke = s.pke := rfl
@[simp] theorem State.onSpread_rng (s : State) (nn : Nat) (f : Spread → Spread) : (s.onSpread nn f).rng = s.rng := rfl
@[simp] theorem State.onSpread_fifos (s : State) (nn : Nat) (f : Spread → Spread) : (s.onSpread nn f).fifos = s.fifos := rfl
@[simp] theorem State.onSpread_slices (s : State) (nn : Nat) (f : Spread → Spread) : (s.onSpread nn f).slices = s.slices := rfl
@[simp] theorem State.onSpread_access (s : State) (nn : Nat) (f : Spread → Spread) : (s.onSpread nn f).access = s.access := rfl
@[simp] theorem State.onSpread_port (s : State) (nn : Nat) (f : Spread → Spread) : (s.onSpread nn f).port = s.port := rfl
@[simp] theorem State.onSpread_memory (s : State) (nn : Nat) (f : Spread → Spread) : (s.onSpread nn f).memory = s.memory := rfl
@[simp] theorem State.onSpread_lc (s : State) (nn : Nat) (f : Spread → Spread) : (s.onSpread nn f).lc = s.lc := rfl
@[simp] theorem State.onSpread_start (s : State) (nn : Nat) (f : Spread → Spread) : (s.onSpread nn f).start = s.start := rfl
@[simp] theorem State.onSpread_pins (s : State) (nn : Nat) (f : Spread → Spread) : (s.onSpread nn f).pins = s.pins := rfl
@[simp] theorem State.onSpread_link (s : State) (nn : Nat) (f : Spread → Spread) : (s.onSpread nn f).link = s.link := rfl
@[simp] theorem State.onSpread_dict (s : State) (nn : Nat) (f : Spread → Spread) : (s.onSpread nn f).dict = s.dict := rfl
@[simp] theorem State.onSpread_events (s : State) (nn : Nat) (f : Spread → Spread) : (s.onSpread nn f).events = s.events := rfl
@[simp] theorem State.onSpread_now (s : State) (nn : Nat) (f : Spread → Spread) : (s.onSpread nn f).now = s.now := rfl
@[simp] theorem State.onSpread_pending (s : State) (nn : Nat) (f : Spread → Spread) : (s.onSpread nn f).pending = s.pending := rfl

/-! ## onPage -/

@[simp] theorem State.onPage_ident (s : State) (o : Nat) (f : DigestPage → DigestPage) : (s.onPage o f).ident = s.ident := rfl
@[simp] theorem State.onPage_engine (s : State) (o : Nat) (f : DigestPage → DigestPage) : (s.onPage o f).engine = s.engine := rfl
@[simp] theorem State.onPage_reqs (s : State) (o : Nat) (f : DigestPage → DigestPage) : (s.onPage o f).reqs = s.reqs := rfl
@[simp] theorem State.onPage_order (s : State) (o : Nat) (f : DigestPage → DigestPage) : (s.onPage o f).order = s.order := rfl
@[simp] theorem State.onPage_spread (s : State) (o : Nat) (f : DigestPage → DigestPage) : (s.onPage o f).spread = s.spread := rfl
@[simp] theorem State.onPage_lanes (s : State) (o : Nat) (f : DigestPage → DigestPage) : (s.onPage o f).lanes = s.lanes := rfl
@[simp] theorem State.onPage_keys (s : State) (o : Nat) (f : DigestPage → DigestPage) : (s.onPage o f).keys = s.keys := rfl
@[simp] theorem State.onPage_dir (s : State) (o : Nat) (f : DigestPage → DigestPage) : (s.onPage o f).dir = s.dir := rfl
@[simp] theorem State.onPage_tango (s : State) (o : Nat) (f : DigestPage → DigestPage) : (s.onPage o f).tango = s.tango := rfl
@[simp] theorem State.onPage_pke (s : State) (o : Nat) (f : DigestPage → DigestPage) : (s.onPage o f).pke = s.pke := rfl
@[simp] theorem State.onPage_rng (s : State) (o : Nat) (f : DigestPage → DigestPage) : (s.onPage o f).rng = s.rng := rfl
@[simp] theorem State.onPage_fifos (s : State) (o : Nat) (f : DigestPage → DigestPage) : (s.onPage o f).fifos = s.fifos := rfl
@[simp] theorem State.onPage_slices (s : State) (o : Nat) (f : DigestPage → DigestPage) : (s.onPage o f).slices = s.slices := rfl
@[simp] theorem State.onPage_access (s : State) (o : Nat) (f : DigestPage → DigestPage) : (s.onPage o f).access = s.access := rfl
@[simp] theorem State.onPage_port (s : State) (o : Nat) (f : DigestPage → DigestPage) : (s.onPage o f).port = s.port := rfl
@[simp] theorem State.onPage_memory (s : State) (o : Nat) (f : DigestPage → DigestPage) : (s.onPage o f).memory = s.memory := rfl
@[simp] theorem State.onPage_lc (s : State) (o : Nat) (f : DigestPage → DigestPage) : (s.onPage o f).lc = s.lc := rfl
@[simp] theorem State.onPage_start (s : State) (o : Nat) (f : DigestPage → DigestPage) : (s.onPage o f).start = s.start := rfl
@[simp] theorem State.onPage_pins (s : State) (o : Nat) (f : DigestPage → DigestPage) : (s.onPage o f).pins = s.pins := rfl
@[simp] theorem State.onPage_link (s : State) (o : Nat) (f : DigestPage → DigestPage) : (s.onPage o f).link = s.link := rfl
@[simp] theorem State.onPage_dict (s : State) (o : Nat) (f : DigestPage → DigestPage) : (s.onPage o f).dict = s.dict := rfl
@[simp] theorem State.onPage_events (s : State) (o : Nat) (f : DigestPage → DigestPage) : (s.onPage o f).events = s.events := rfl
@[simp] theorem State.onPage_now (s : State) (o : Nat) (f : DigestPage → DigestPage) : (s.onPage o f).now = s.now := rfl
@[simp] theorem State.onPage_pending (s : State) (o : Nat) (f : DigestPage → DigestPage) : (s.onPage o f).pending = s.pending := rfl

/-! ## onMemberRing -/

@[simp] theorem State.onMemberRing_ident (s : State) (home nn : Nat) (f : MemberRing → MemberRing) : (s.onMemberRing home nn f).ident = s.ident := rfl
@[simp] theorem State.onMemberRing_engine (s : State) (home nn : Nat) (f : MemberRing → MemberRing) : (s.onMemberRing home nn f).engine = s.engine := rfl
@[simp] theorem State.onMemberRing_reqs (s : State) (home nn : Nat) (f : MemberRing → MemberRing) : (s.onMemberRing home nn f).reqs = s.reqs := rfl
@[simp] theorem State.onMemberRing_order (s : State) (home nn : Nat) (f : MemberRing → MemberRing) : (s.onMemberRing home nn f).order = s.order := rfl
@[simp] theorem State.onMemberRing_spread (s : State) (home nn : Nat) (f : MemberRing → MemberRing) : (s.onMemberRing home nn f).spread = s.spread := rfl
@[simp] theorem State.onMemberRing_lanes (s : State) (home nn : Nat) (f : MemberRing → MemberRing) : (s.onMemberRing home nn f).lanes = s.lanes := rfl
@[simp] theorem State.onMemberRing_keys (s : State) (home nn : Nat) (f : MemberRing → MemberRing) : (s.onMemberRing home nn f).keys = s.keys := rfl
@[simp] theorem State.onMemberRing_dir (s : State) (home nn : Nat) (f : MemberRing → MemberRing) : (s.onMemberRing home nn f).dir = s.dir := rfl
@[simp] theorem State.onMemberRing_tango (s : State) (home nn : Nat) (f : MemberRing → MemberRing) : (s.onMemberRing home nn f).tango = s.tango := rfl
@[simp] theorem State.onMemberRing_digest (s : State) (home nn : Nat) (f : MemberRing → MemberRing) : (s.onMemberRing home nn f).digest = s.digest := rfl
@[simp] theorem State.onMemberRing_pke (s : State) (home nn : Nat) (f : MemberRing → MemberRing) : (s.onMemberRing home nn f).pke = s.pke := rfl
@[simp] theorem State.onMemberRing_rng (s : State) (home nn : Nat) (f : MemberRing → MemberRing) : (s.onMemberRing home nn f).rng = s.rng := rfl
@[simp] theorem State.onMemberRing_fifos (s : State) (home nn : Nat) (f : MemberRing → MemberRing) : (s.onMemberRing home nn f).fifos = s.fifos := rfl
@[simp] theorem State.onMemberRing_slices (s : State) (home nn : Nat) (f : MemberRing → MemberRing) : (s.onMemberRing home nn f).slices = s.slices := rfl
@[simp] theorem State.onMemberRing_access (s : State) (home nn : Nat) (f : MemberRing → MemberRing) : (s.onMemberRing home nn f).access = s.access := rfl
@[simp] theorem State.onMemberRing_port (s : State) (home nn : Nat) (f : MemberRing → MemberRing) : (s.onMemberRing home nn f).port = s.port := rfl
@[simp] theorem State.onMemberRing_memory (s : State) (home nn : Nat) (f : MemberRing → MemberRing) : (s.onMemberRing home nn f).memory = s.memory := rfl
@[simp] theorem State.onMemberRing_lc (s : State) (home nn : Nat) (f : MemberRing → MemberRing) : (s.onMemberRing home nn f).lc = s.lc := rfl
@[simp] theorem State.onMemberRing_start (s : State) (home nn : Nat) (f : MemberRing → MemberRing) : (s.onMemberRing home nn f).start = s.start := rfl
@[simp] theorem State.onMemberRing_pins (s : State) (home nn : Nat) (f : MemberRing → MemberRing) : (s.onMemberRing home nn f).pins = s.pins := rfl
@[simp] theorem State.onMemberRing_dict (s : State) (home nn : Nat) (f : MemberRing → MemberRing) : (s.onMemberRing home nn f).dict = s.dict := rfl
@[simp] theorem State.onMemberRing_events (s : State) (home nn : Nat) (f : MemberRing → MemberRing) : (s.onMemberRing home nn f).events = s.events := rfl
@[simp] theorem State.onMemberRing_now (s : State) (home nn : Nat) (f : MemberRing → MemberRing) : (s.onMemberRing home nn f).now = s.now := rfl
@[simp] theorem State.onMemberRing_pending (s : State) (home nn : Nat) (f : MemberRing → MemberRing) : (s.onMemberRing home nn f).pending = s.pending := rfl

/-! ## Reads after a change -/

@[simp] theorem State.ring_onRing_same (s : State) (k : Nat) (f : Ring → Ring) : (s.onRing k f).ring k = f (s.ring k) := Tab.get_upd_same _ _ _ _
theorem State.ring_onRing_other (s : State) (k j : Nat) (f : Ring → Ring) (h : j ≠ k) : (s.onRing k f).ring j = s.ring j := Tab.get_upd_other _ _ _ _ _ h
@[simp] theorem State.slot_onSlot_same (s : State) (k : Nat) (f : Slot → Slot) : (s.onSlot k f).slot k = f (s.slot k) := Tab.get_upd_same _ _ _ _
theorem State.slot_onSlot_other (s : State) (k j : Nat) (f : Slot → Slot) (h : j ≠ k) : (s.onSlot k f).slot j = s.slot j := Tab.get_upd_other _ _ _ _ _ h
@[simp] theorem State.slice_onSlice_same (s : State) (k : Nat) (f : Slice → Slice) : (s.onSlice k f).slice k = f (s.slice k) := Tab.get_upd_same _ _ _ _
theorem State.slice_onSlice_other (s : State) (k j : Nat) (f : Slice → Slice) (h : j ≠ k) : (s.onSlice k f).slice j = s.slice j := Tab.get_upd_other _ _ _ _ _ h
@[simp] theorem State.lane_onLane_same (s : State) (k : Nat) (f : Lane → Lane) : (s.onLane k f).lane k = f (s.lane k) := Tab.get_upd_same _ _ _ _
theorem State.lane_onLane_other (s : State) (k j : Nat) (f : Lane → Lane) (h : j ≠ k) : (s.onLane k f).lane j = s.lane j := Tab.get_upd_other _ _ _ _ _ h
@[simp] theorem State.linePort_onLinePort_same (s : State) (k : Nat) (f : LinePort → LinePort) : (s.onLinePort k f).linePort k = f (s.linePort k) := Tab.get_upd_same _ _ _ _
theorem State.linePort_onLinePort_other (s : State) (k j : Nat) (f : LinePort → LinePort) (h : j ≠ k) : (s.onLinePort k f).linePort j = s.linePort j := Tab.get_upd_other _ _ _ _ _ h
@[simp] theorem State.source_onSource_same (s : State) (k : Nat) (f : Source → Source) : (s.onSource k f).source k = f (s.source k) := Tab.get_upd_same _ _ _ _
theorem State.source_onSource_other (s : State) (k j : Nat) (f : Source → Source) (h : j ≠ k) : (s.onSource k f).source j = s.source j := Tab.get_upd_other _ _ _ _ _ h
@[simp] theorem State.lport_onLport_same (s : State) (k : Nat) (f : LinkPort → LinkPort) : (s.onLport k f).lport k = f (s.lport k) := Tab.get_upd_same _ _ _ _
theorem State.lport_onLport_other (s : State) (k j : Nat) (f : LinkPort → LinkPort) (h : j ≠ k) : (s.onLport k f).lport j = s.lport j := Tab.get_upd_other _ _ _ _ _ h
@[simp] theorem State.peer_onPeer_same (s : State) (k : Nat) (f : Peer → Peer) : (s.onPeer k f).peer k = f (s.peer k) := Tab.get_upd_same _ _ _ _
theorem State.peer_onPeer_other (s : State) (k j : Nat) (f : Peer → Peer) (h : j ≠ k) : (s.onPeer k f).peer j = s.peer j := Tab.get_upd_other _ _ _ _ _ h
@[simp] theorem State.unitAt_onUnit_same (s : State) (k : Nat) (f : DigestUnit → DigestUnit) : (s.onUnit k f).unitAt k = f (s.unitAt k) := Tab.get_upd_same _ _ _ _
theorem State.unitAt_onUnit_other (s : State) (k j : Nat) (f : DigestUnit → DigestUnit) (h : j ≠ k) : (s.onUnit k f).unitAt j = s.unitAt j := Tab.get_upd_other _ _ _ _ _ h
@[simp] theorem State.engineAt_onEngine_same (s : State) (k : Nat) (f : Engine → Engine) : (s.onEngine k f).engineAt k = f (s.engineAt k) := Tab.get_upd_same _ _ _ _
theorem State.engineAt_onEngine_other (s : State) (k j : Nat) (f : Engine → Engine) (h : j ≠ k) : (s.onEngine k f).engineAt j = s.engineAt j := Tab.get_upd_other _ _ _ _ _ h
@[simp] theorem State.noise_onNoise_same (s : State) (k : Nat) (f : Noise → Noise) : (s.onNoise k f).noise k = f (s.noise k) := Tab.get_upd_same _ _ _ _
theorem State.noise_onNoise_other (s : State) (k j : Nat) (f : Noise → Noise) (h : j ≠ k) : (s.onNoise k f).noise j = s.noise j := Tab.get_upd_other _ _ _ _ _ h
@[simp] theorem State.spreadAt_onSpread_same (s : State) (k : Nat) (f : Spread → Spread) : (s.onSpread k f).spreadAt k = f (s.spreadAt k) := Tab.get_upd_same _ _ _ _
theorem State.spreadAt_onSpread_other (s : State) (k j : Nat) (f : Spread → Spread) (h : j ≠ k) : (s.onSpread k f).spreadAt j = s.spreadAt j := Tab.get_upd_other _ _ _ _ _ h
@[simp] theorem State.page_onPage_same (s : State) (k : Nat) (f : DigestPage → DigestPage) : (s.onPage k f).page k = f (s.page k) := Tab.get_upd_same _ _ _ _
theorem State.page_onPage_other (s : State) (k j : Nat) (f : DigestPage → DigestPage) (h : j ≠ k) : (s.onPage k f).page j = s.page j := Tab.get_upd_other _ _ _ _ _ h
@[simp] theorem State.kw_onKw_same (s : State) (k : Nat) (f : KeyWindow → KeyWindow) : (s.onKw k f).kw k = f (s.kw k) := Tab.get_upd_same _ _ _ _
theorem State.kw_onKw_other (s : State) (k j : Nat) (f : KeyWindow → KeyWindow) (h : j ≠ k) : (s.onKw k f).kw j = s.kw j := Tab.get_upd_other _ _ _ _ _ h
@[simp] theorem State.xring_onXring_same (s : State) (k : Nat) (f : XRing → XRing) : (s.onXring k f).xring k = f (s.xring k) := Tab.get_upd_same _ _ _ _
theorem State.xring_onXring_other (s : State) (k j : Nat) (f : XRing → XRing) (h : j ≠ k) : (s.onXring k f).xring j = s.xring j := Tab.get_upd_other _ _ _ _ _ h
@[simp] theorem State.store_onStore_same (s : State) (k : Nat) (f : Store → Store) : (s.onStore k f).store k = f (s.store k) := Tab.get_upd_same _ _ _ _
theorem State.store_onStore_other (s : State) (k j : Nat) (f : Store → Store) (h : j ≠ k) : (s.onStore k f).store j = s.store j := Tab.get_upd_other _ _ _ _ _ h

end Sys2Proof.Machine
end

