-- ==== Sys2Proof/Laws/Ops.lean ====
section
/-!
SUPPORT. What the shared operations do, said once: accesses of a page, events, requests, ring faults, accesses of the system
port.
-/
namespace Sys2Proof.Machine

/-! ## Accesses of a page -/

/-- An accepted access finds the port open and whole. -/
theorem accepts_htAccess (s : State) (b : Bus) (o : Nat) (h : accepts s b o = true) : s.htAccess b = (true, s) := by
  simp only [accepts, Bool.and_eq_true, beq_iff_eq, Bool.not_eq_true'] at h
  simp [State.htAccess, h.1.1.1, h.1.1.2, h.1.2]

/-- An accepted access reaches a page that is there, is its sender's, and answers. -/
theorem accepts_pageAccess (s : State) (b : Bus) (o : Nat) (h : accepts s b o = true) :
    s.pageAccess b o = (true, s) ∧ pageDead s o = false := by
  simp only [accepts, Bool.and_eq_true] at h
  have h4 := h.2
  by_cases ho : o = mgr
  · simp only [ho, if_true] at h4
    refine ⟨by simp [State.pageAccess, ho, h4], ?_⟩
    simp [pageDead, ho, mgr]
  · simp only [ho, if_false, Bool.and_eq_true, decide_eq_true_eq, Bool.not_eq_true'] at h4
    obtain ⟨⟨⟨hlt, hst⟩, hp⟩, hd⟩ := h4
    refine ⟨?_, hd⟩
    have : ¬ mgr < o := by omega
    cases hb : b.pasid <;> simp_all [State.pageAccess]

/-- What an accepted write does is its own effect. -/
theorem State.pageWrite_accepts (s : State) (b : Bus) (o : Nat) (f : State → State) (h : accepts s b o = true) :
    s.pageWrite b o f = f s := by
  have h1 := accepts_htAccess s b o h
  have h2 := accepts_pageAccess s b o h
  simp [State.pageWrite, h1, h2.1, h2.2]

/-- What an accepted read gives stands on the port. -/
theorem State.pageRead_accepts (s : State) (b : Bus) (o : Nat) (f : State → Nat × State) (h : accepts s b o = true) :
    s.pageRead b o f = (f s).2.readBack (f s).1 := by
  have h1 := accepts_htAccess s b o h
  have h2 := accepts_pageAccess s b o h
  simp [State.pageRead, h1, h2.1, h2.2, State.readBack]

/-- A key window that accepts an access. -/
theorem kwAccepts_htAccess (s : State) (b : Bus) (o : Nat) (h : kwAccepts s b o = true) : s.htAccess b = (true, s) := by
  simp only [kwAccepts, Bool.and_eq_true, beq_iff_eq, Bool.not_eq_true'] at h
  simp [State.htAccess, h.1.1.1.1, h.1.1.1.2, h.1.1.2]

/-! ## Units -/

/-- A command about a unit that the T9 has. -/
@[simp] theorem unit_next {i n : Nat} (s : State) (h : i < n) : unit i n s = .next s := by simp [unit, h]

/-! ## Events -/

/-- An occurrence of a named source waits, after those that wait already. -/
theorem State.raise_waiting (s : State) (src arg info : Nat) (h : (severityOf src).isSome = true) :
    (s.raise src arg info).events
      = { s.events with
          waiting := s.events.waiting ++ [{ src := src, arg := arg % 2 ^ 14, info := info % 2 ^ 46, forced := false }] } := by
  unfold State.raise
  cases hs : severityOf src with
  | none => simp [hs] at h
  | some _ => rfl

/-- An occurrence of a named source waits. -/
theorem State.raise_waits (s : State) (src arg info : Nat) (h : (severityOf src).isSome = true) :
    waits (s.raise src arg info) src := by
  simp [waits, State.raise_waiting s src arg info h]

/-- What waits goes on waiting while another occurrence is raised. -/
theorem waits_raise {s : State} {w : Nat} (src arg info : Nat) (h : waits s w) : waits (s.raise src arg info) w := by
  obtain ⟨o, ho, hs⟩ := h
  unfold State.raise
  split
  · exact ⟨o, ho, hs⟩
  · exact ⟨o, List.mem_append_left _ ho, hs⟩

@[simp] theorem State.raise_ident (s : State) (src arg info : Nat) : (s.raise src arg info).ident = s.ident := by
  unfold State.raise; split <;> rfl
@[simp] theorem State.raise_engine (s : State) (src arg info : Nat) : (s.raise src arg info).engine = s.engine := by
  unfold State.raise; split <;> rfl
@[simp] theorem State.raise_reqs (s : State) (src arg info : Nat) : (s.raise src arg info).reqs = s.reqs := by
  unfold State.raise; split <;> rfl
@[simp] theorem State.raise_order (s : State) (src arg info : Nat) : (s.raise src arg info).order = s.order := by
  unfold State.raise; split <;> rfl
@[simp] theorem State.raise_spread (s : State) (src arg info : Nat) : (s.raise src arg info).spread = s.spread := by
  unfold State.raise; split <;> rfl
@[simp] theorem State.raise_lanes (s : State) (src arg info : Nat) : (s.raise src arg info).lanes = s.lanes := by
  unfold State.raise; split <;> rfl
@[simp] theorem State.raise_keys (s : State) (src arg info : Nat) : (s.raise src arg info).keys = s.keys := by
  unfold State.raise; split <;> rfl
@[simp] theorem State.raise_dir (s : State) (src arg info : Nat) : (s.raise src arg info).dir = s.dir := by
  unfold State.raise; split <;> rfl
@[simp] theorem State.raise_tango (s : State) (src arg info : Nat) : (s.raise src arg info).tango = s.tango := by
  unfold State.raise; split <;> rfl
@[simp] theorem State.raise_digest (s : State) (src arg info : Nat) : (s.raise src arg info).digest = s.digest := by
  unfold State.raise; split <;> rfl
@[simp] theorem State.raise_pke (s : State) (src arg info : Nat) : (s.raise src arg info).pke = s.pke := by
  unfold State.raise; split <;> rfl
@[simp] theorem State.raise_rng (s : State) (src arg info : Nat) : (s.raise src arg info).rng = s.rng := by
  unfold State.raise; split <;> rfl
@[simp] theorem State.raise_fifos (s : State) (src arg info : Nat) : (s.raise src arg info).fifos = s.fifos := by
  unfold State.raise; split <;> rfl
@[simp] theorem State.raise_slices (s : State) (src arg info : Nat) : (s.raise src arg info).slices = s.slices := by
  unfold State.raise; split <;> rfl
@[simp] theorem State.raise_access (s : State) (src arg info : Nat) : (s.raise src arg info).access = s.access := by
  unfold State.raise; split <;> rfl
@[simp] theorem State.raise_port (s : State) (src arg info : Nat) : (s.raise src arg info).port = s.port := by
  unfold State.raise; split <;> rfl
@[simp] theorem State.raise_memory (s : State) (src arg info : Nat) : (s.raise src arg info).memory = s.memory := by
  unfold State.raise; split <;> rfl
@[simp] theorem State.raise_lc (s : State) (src arg info : Nat) : (s.raise src arg info).lc = s.lc := by
  unfold State.raise; split <;> rfl
@[simp] theorem State.raise_start (s : State) (src arg info : Nat) : (s.raise src arg info).start = s.start := by
  unfold State.raise; split <;> rfl
@[simp] theorem State.raise_pins (s : State) (src arg info : Nat) : (s.raise src arg info).pins = s.pins := by
  unfold State.raise; split <;> rfl
@[simp] theorem State.raise_link (s : State) (src arg info : Nat) : (s.raise src arg info).link = s.link := by
  unfold State.raise; split <;> rfl
@[simp] theorem State.raise_dict (s : State) (src arg info : Nat) : (s.raise src arg info).dict = s.dict := by
  unfold State.raise; split <;> rfl
@[simp] theorem State.raise_now (s : State) (src arg info : Nat) : (s.raise src arg info).now = s.now := by
  unfold State.raise; split <;> rfl
@[simp] theorem State.raise_pending (s : State) (src arg info : Nat) : (s.raise src arg info).pending = s.pending := by
  unfold State.raise; split <;> rfl

/-! ## Requests -/

theorem findReq_ins_same (t : Tab Req) (k : Nat) (q : Req) : findReq (Tab.ins t k q) k = some q := by
  induction t with
  | nil => simp [Tab.ins, findReq]
  | cons e t ih =>
    obtain ⟨j, w⟩ := e
    simp only [Tab.ins]
    split
    · simp [findReq]
    · split
      · simp [findReq]
      · simp only [findReq]
        split
        · contradiction
        · exact ih

theorem findReq_ins_other (t : Tab Req) (k j : Nat) (q : Req) (h : j ≠ k) : findReq (Tab.ins t k q) j = findReq t j := by
  induction t with
  | nil => simp [Tab.ins, findReq, Ne.symm h]
  | cons e t ih =>
    obtain ⟨i, w⟩ := e
    simp only [Tab.ins]
    split
    · simp [findReq, Ne.symm h]
    · split
      · next hi => subst hi; simp [findReq, Ne.symm h]
      · simp only [findReq, ih]

theorem findReq_del_same (t : Tab Req) (k : Nat) : findReq (Tab.del t k) k = none := by
  induction t with
  | nil => rfl
  | cons e t ih =>
    obtain ⟨i, w⟩ := e
    simp only [Tab.del]
    split
    · exact ih
    · next hi => simp only [findReq, if_neg hi, ih]

theorem findReq_del_other (t : Tab Req) (k j : Nat) (h : j ≠ k) : findReq (Tab.del t k) j = findReq t j := by
  induction t with
  | nil => rfl
  | cons e t ih =>
    obtain ⟨i, w⟩ := e
    simp only [Tab.del]
    split
    · next hi => subst hi; simp only [findReq, if_neg (Ne.symm h), ih]
    · simp only [findReq, ih]

/-- A recorded request reads back. -/
@[simp] theorem State.req_putReq_same (s : State) (rid : Nat) (q : Req) : (s.putReq rid q).req rid = some q :=
  findReq_ins_same _ _ _

/-- Recording a request leaves every other one. -/
theorem State.req_putReq_other (s : State) (rid j : Nat) (q : Req) (h : j ≠ rid) : (s.putReq rid q).req j = s.req j :=
  findReq_ins_other _ _ _ _ h

/-- A released REQ_ID names no request. -/
@[simp] theorem State.req_release_same (s : State) (rid : Nat) : (s.release rid).req rid = none := findReq_del_same _ _

/-- A release leaves every other request. -/
theorem State.req_release_other (s : State) (rid j : Nat) (h : j ≠ rid) : (s.release rid).req j = s.req j :=
  findReq_del_other _ _ _ h

/-- A change of a request changes that request, when it is in flight. -/
@[simp] theorem State.req_onReq_same (s : State) (rid : Nat) (f : Req → Req) : (s.onReq rid f).req rid = (s.req rid).map f := by
  unfold State.onReq
  split <;> simp_all

/-- A change of a request leaves every other one. -/
theorem State.req_onReq_other (s : State) (rid j : Nat) (f : Req → Req) (h : j ≠ rid) : (s.onReq rid f).req j = s.req j := by
  unfold State.onReq
  split
  · exact State.req_putReq_other _ _ _ _ h
  · rfl

/-- All that a change of a request does: the table of requests alone changes. -/
theorem State.onReq_eq (s : State) (rid : Nat) (f : Req → Req) :
    s.onReq rid f = { s with reqs := (s.onReq rid f).reqs } := by
  unfold State.onReq
  split <;> rfl

/-- A first ending stands. -/
theorem Req.endOuter_ended (e : Ending) (r : Req) (h : r.stat.isSome = true) : r.endOuter e = r := by
  simp [Req.endOuter, h]

/-- Raising an occurrence leaves every ring pair. -/
@[simp] theorem State.ring_raise (s : State) (src arg info k : Nat) : (s.raise src arg info).ring k = s.ring k := by
  simp [State.ring]

/-! ## Faults of a ring pair -/

/-- A pair that is neither DRAINING nor FAULTED meets a fault: FAULTED, with its code and its position. -/
theorem State.ringFault_state (s : State) (k code pos : Nat) (hd : (s.ring k).state ≠ .draining) (hf : (s.ring k).state ≠ .faulted) :
    ((s.ringFault k code pos).ring k).state = .faulted ∧ ((s.ringFault k code pos).ring k).faultCode = code
      ∧ ((s.ringFault k code pos).ring k).faultPos = pos := by
  simp only [State.ringFault, State.ring_raise, State.ring_onRing_same]
  cases h : (s.ring k).state <;> first | contradiction | (split <;> simp)

/-- A fault of one pair leaves every other one. -/
theorem State.ringFault_other (s : State) (k j code pos : Nat) (h : j ≠ k) : (s.ringFault k code pos).ring j = s.ring j := by
  simp [State.ringFault, State.ring_onRing_other _ _ _ _ h]

/-- A fault of a pair raises its event. -/
theorem State.ringFault_waits (s : State) (k code pos : Nat) : waits (s.ringFault k code pos) 0x249 :=
  State.raise_waits _ _ _ _ (by decide)

/-! ## Accesses of the system port -/

/-- A denied access raises the event of its channel and class. -/
theorem State.deny_waits (s : State) (k : Ask) (h : (severityOf (0x160 + 3 * k.chan + match k.cls with
    | .slice => 0
    | .manager => 1
    | .service => 2)).isSome = true) :
    waits (s.deny k) (0x160 + 3 * k.chan + match k.cls with
    | .slice => 0
    | .manager => 1
    | .service => 2) :=
  State.raise_waits _ _ _ _ h

/-- An access is issued just when every one of its parts is permitted. -/
theorem State.issue_permits (s : State) (k : Ask) :
    (s.issue k).1
      = (partsOf k.addr k.len).all (fun p => (verdict s.access k.cls k.owner k.write (p.1 / 4096)).isSome) := by
  unfold State.issue
  simp only [List.all_map, Function.comp_def]
  cases (partsOf k.addr k.len).all (fun p => (verdict s.access k.cls k.owner k.write (p.1 / 4096)).isSome) <;> rfl

/-- An access that is not permitted leaves what is outstanding. -/
theorem State.issue_denied (s : State) (k : Ask) (h : (s.issue k).1 = false) : (s.issue k).2.port = s.port := by
  rw [State.issue_permits] at h
  unfold State.issue
  simp only [List.all_map, Function.comp_def, h, State.deny, State.raise_port, Bool.false_eq_true, if_false]
  by_cases hs : 1 < (partsOf k.addr k.len).length <;> simp [hs]

/-- The log of dirty pages leaves the system port. -/
@[simp] theorem State.logPages_port (s : State) (o addr len : Nat) : (s.logPages o addr len).port = s.port := by
  unfold State.logPages
  split
  · rfl
  · simp only []
    split <;> rfl

/-- A permitted access is outstanding, after those that are already. -/
theorem State.issue_issued (s : State) (k : Ask) (h : (s.issue k).1 = true) :
    ∃ a, a.id = s.port.nextId ∧ a.kind = k.kind ∧ a.chan = k.chan ∧ a.owner = k.owner ∧ a.req = k.req ∧ a.addr = k.addr
      ∧ a.len = k.len ∧ a.data = k.data
      ∧ (s.issue k).2.port = { s.port with outstanding := s.port.outstanding ++ [a], nextId := s.port.nextId + 1 } := by
  rw [State.issue_permits] at h
  unfold State.issue
  simp only [List.all_map, Function.comp_def, h, if_true]
  by_cases hs : 1 < (partsOf k.addr k.len).length <;> by_cases hw : (k.write && k.kind.logged) = true <;>
    simp only [hs, hw, decide_true, decide_false, if_true, if_false, State.logPages_port, Bool.false_eq_true] <;>
    exact ⟨_, rfl, rfl, rfl, rfl, rfl, rfl, rfl, rfl, rfl⟩

end Sys2Proof.Machine
end

