-- ==== Sys2Proof/Tests/Slice0.lean ====
section
/-!
SUPPORT. Tests: worked values of the specification, ill-formed commands that the check refuses, and a state and operands
that meet the hypotheses of every statement, clause by clause. The expected values are the specification's own.
-/
set_option Elab.async false

namespace Sys2Proof.Tests
open Sys2Proof Sys2Proof.Machine

/-! ## Small states -/

/-- An access that the manager's page accepts after reset. -/
def bus : Bus := { pasid := none, be := 0xFF }

/-- A device in MISSION and RUNNING whose manager may read and write the whole address space. -/
def dev : State :=
  { State.reset with
    access := { State.reset.access with winInForce := [(0, { Window.dflt 0 with perm := 3 })] }
    lc := { State.reset.lc with state := .mission }
    start := { State.reset.start with state := .running, step0Done := true }
    rng := { State.reset.rng with state := .running, seeded := true, started := true } }

/-- Manager ring pair 0 enabled, with one descriptor to fetch. -/
def ring0 : State := dev.onRing 0 (fun r => { r with state := .enabled, rqTail := 1 })

/-- A request of manager ring 0 at its REQ_ID's assignment. -/
def req0 : Req := Req.fresh 512 0 0 0 0 0 .strict

/-- The request with this opcode, at this stage. -/
def reqAt (op : Nat) (st : Stage) : Req := { req0 with d := { req0.d with opcode := op }, stage := st }

/-- Request 1 in flight on manager ring 0. -/
def fly (q : Req) : State := ring0.putReq 1 q

/-- An access of request 1, on channel 0 with tag 3, of one part. -/
def acc (kind : AccKind) (write : Bool) (len : Nat) (data : Bytes) : Acc :=
  { id := 9, chan := 0, kind := kind, cls := .manager, owner := 512, req := 1, pair := 0, write := write, addr := 0x1000,
    len := len, off := 0, epoch := 0, pasid := none,
    parts := [{ tag := 3, addr := 0x1000, len := len, attr := 2, data := data, done := false }], data := data, err := false }

/-- A state in which the access is outstanding. -/
def withOut (s : State) (a : Acc) : State := { s with port := { s.port with outstanding := [a] } }

/-- A state in which the access has ended. -/
def withEnded (s : State) (a : Acc) : State := { s with port := { s.port with ended := [a] } }

/-- STAT content of a request that ended so. -/
def statOf (e : Ending) : Stat := { tag := 0, ending := e, cflags := 0, inDone := 0, nonceUsed := 0 }

/-- A request whose stream is complete, with this output. -/
def overWith (op : Nat) (out : Bytes) (e : Ending) : Req :=
  { reqAt op .over with outBeats := [{ tag := 0x0008000000000001#64, data := out }], stat := some (statOf e) }

/-- A key of AES-256-GCM. -/
def key1 : KeyCopy :=
  { slot := some 0, gen := 0, transform := 0x02, secret := zeros 32, salt12 := zeros 12, sci := zeros 8, ssci := zeros 4, an := 0 }

/-- Slot 0 of the manager, LOADED with that key. -/
def slot0 : Slot :=
  { Slot.dflt 0 with owner := some 512, state := .loaded, transform := 0x02, secret := zeros 32, salt12 := zeros 12, hard := 100 }

/-- An AEAD_OPEN wholly received, with its checks passed. -/
def open1 : Req :=
  { reqAt 0x11 .gather with
    outListDone := true, m := { Myeno.fresh with headSeen := true, checked := true, lastSeen := true } }

/-- The request on lane 15, dispatched, with its segments issued, computed and none passed. -/
def onLane15 (op issued done : Nat) : State × Req :=
  let q := { open1 with
    d := { open1.d with opcode := op }
    m := { open1.m with
      dispatched := true, key := some key1, segIssued := issued, segComputed := done
      inLane := if done = 0 then [] else [{ out := zeros 16, work := Work.none }] } }
  ((fly q).onLane 15 (fun l => { l with state := .active, ctxs := [{ req := 1, hadTurn := true, sequential := false }] }), q)

/-- A load of slot 0 waiting, made by a window (0) or by request 1 (2). -/
def load0 (source : Nat) : Load :=
  { slot := 0, gen := 0, source := source, req := 1, page := 512, secret := zeros 32, salt12 := zeros 12, sci := zeros 8,
    ssci := zeros 4, transform := 0x02, sealing := true, fromBlob := false, earlierEpoch := false, kind3 := false, epoch := 0,
    soft := 100, hard := 100, start := 1, winW := 0, winEn := false, winSlot := 0, tries := 0 }

/-- A HASH request on unit 7, with this payload received, to its last beat or not. -/
def onUnit7 (op : Nat) (last : Bool) (payload : Bytes) : State × Req :=
  let q := { reqAt op .gather with
    d := { req0.d with opcode := op, inLen := 16384, profile := 0x01 }
    m := { Myeno.fresh with
      headSeen := true, checked := true, dispatched := true, lastSeen := last
      beats := if payload = [] then [] else [{ tag := 0x0004000000000001#64, data := payload }] } }
  ((fly q).onUnit 7 (fun u => { u with state := .active, ctxs := [.req 1] }), q)

/-- An open block of the manager with this many octets buffered. -/
def page0 (n : Nat) (alg : Nat) : State :=
  (dev.onUnit 7 (fun u => { u with state := .active, ctxs := [.page 512] })).onPage 512 (fun p =>
    { p with isOpen := true, alg := 0x01, work := { HashWork.none with alg := alg }, backlog := zeros n, unit := 7 })

/-- A key-slot request that may act, with this word in IN_ADDR. -/
def keyReq (op w : Nat) : Req :=
  { reqAt op .gather with
    d := { req0.d with opcode := op, inAddr := BitVec.ofNat 64 w }
    m := { Myeno.fresh with headSeen := true, checked := true, lastSeen := true } }

/-- Its state, with slot 0 of the manager empty (false) or loaded (true). -/
def keyState (q : Req) (loaded : Bool) : State :=
  (fly q).onSlot 0 (fun x => if loaded then slot0 else { x with owner := some 512 })

/-- A keyless job at Dispatch: routine 0x04, its output in memory. -/
def job1 : Req :=
  { open1 with
    handle := noHandle, d := { req0.d with opcode := 0x40, profile := 0x04, handle := noHandle, outAddr := 0x1000, outCap := 64 } }

/-- Its job on engine 3, after this many steps. -/
def jobAt (steps : Nat) : Job :=
  { req := 1, ctx := 0, slot := none, steps := steps, total := routineSteps 0x04 0 0, passes := 0, zeroing := false, iters := 0
    drawn := [] }

/-- Engine 3 running it. -/
def engineState (q : Req) (steps : Nat) : State :=
  (fly { q with m := { q.m with dispatched := true } }).onEngine 3
    (fun e => { e with state := .active, jobs := [jobAt steps], current := some 1 })

/-- The request of a keyed routine over a P-256 secret, with slot 0 as the target of limits 100 and 200, START 1, AES-256-GCM. -/
def jobKeyed (code : Nat) (secret input : Bytes) : Req :=
  let item : Bytes := leBytes 8 100 ++ leBytes 8 200 ++ leBytes 8 1 ++ [2] ++ zeros 23
  { job1 with
    d := { job1.d with profile := code, selector := 0 }
    m := { job1.m with
      key := some { key1 with slot := some 9, transform := 0x41, secret := secret }
      beats := [{ tag := 0x0002000000000001#64, data := item }, { tag := 0x0004000000000001#64, data := input }] } }

/-- The base point of P-256. -/
def base256 : Bytes :=
  (leBytes 32 0x6B17D1F2E12C4247F8BCE6E563A440F277037D812DEB33A0F4A13945D898C296).reverse ++
    (leBytes 32 0x4FE342E2FE1A7F9B8EE7EB4A7C0F9E162BCE33576B315ECECBB6406837BF51F5).reverse

/-- Spread entry 15 over manager ring 0: this instance and instance 7; `lost` as given, member 1 configured or not. -/
def spread15 (lost : BitVec 8) (configured : Bool) : Spread :=
  { Spread.dflt 0 with
    enable := true, mgrRing := true, memberCount := 2, members := [0, 7] ++ zeros 6, state := .active, lost := lost
    perMember := if configured then [(1, 3)] else [] }

/-- A request of that ring at its gate, under slot `n`. -/
def granted (n : Nat) : Req := { reqAt 0x10 .granted with ord := .slot n }

/-- The state of a request of that ring. -/
def spreadState (q : Req) (lost : BitVec 8) : State := { fly q with spread := [(15, spread15 lost true)] }

/-- A message at the head of port 0's receive FIFO, from instance 7. -/
def msgOf (kind : Nat) (body : Bytes) : Msg :=
  { kind := kind, src := 7, dest := 0, hops := 0, restart := false, pseq := 4, body := body }

/-- A state that is to take it. -/
def linkState (m : Msg) (s : State) : State :=
  (s.onLport 0 (fun l => { l with state := .up, rx := [{ msg := m, cost := 1, arrived := 0 }] })).onPeer 7
    (fun p => { p with expectPseq := some 4, reach := 1, eastUp := true, everReached := true })

/-- The ring of home 7 of which this instance is member 1, after this many grants taken. -/
def member7 (taken : Nat) : MemberRing :=
  { home := 7, nn := 0, owner := 512, ring := 0, cls := .unordered, members := 2, index := 1, credits := 256, taken := taken
    early := [] }

/-- Slice 511 in this state, with PASID 5, after this CMD_STATUS. -/
def sliceAt (st : SliceState) (c : CmdStatus) : State :=
  dev.onSlice 511 (fun x => { x with state := st, cmdStatus := c, pasid := 5 })

/-- A commit in this state, with its checks passed or not, and a rule of an inverted range staged or none. -/
def commitAt (st : CommitState) (v drained bad : Bool) : State :=
  { dev with
    access := { dev.access with
      commitState := st, validated := v, epochDrained := drained
      staged := if bad then [(0, { Rule.dflt 0 with enable := true, base := 0x2000, limit := 0x1000, owners := 1 })] else [] } }

/-- The device in this life-cycle state with this programming in progress, no copy programmed. -/
def lcAt (st : LcState) (p : Option Programming) (interrupted : Bool) : State :=
  { dev with lc := { dev.lc with state := st, programming := p, interrupted := interrupted, interruptedField := 35 } }

/-- RETIRE being programmed, its last field next. -/
def lastField : Programming := { target := 6, todo := [.copy 2 35], root := [], scrapWaits := false }

/-- A start at this step. -/
def stepAt (st : StartState) (n failed : Nat) : State :=
  { dev with
    start := { dev.start with state := st, step := n, failedStarts := failed, vaultSeeds := [(512, zeros 32)], previousRoot := 2 }
    pke := { dev.pke with caller := .verifying, callerImageAddr := 0x1000 } }

/-- An image of 256 octets, without instructions and data, whose IMAGE_DIGEST is all this octet. -/
def imageOf (magic : Nat) (x : Byte) : Bytes := leBytes 4 magic ++ zeros 28 ++ List.replicate 48 x ++ zeros 176

/-- The image as read. -/
def imageAcc (magic : Nat) (x : Byte) : Acc := { acc .callerImage false 256 (imageOf magic x) with owner := 512 }

/-- A cascade of 8 whose port 1 is in this state. -/
def linkAt (st : LinkState) (f : LinkPort → LinkPort) : State :=
  (dev.onLink (fun l => { l with cascadeSize := 8, state := .wrapped })).onLport 1 (fun l => f { l with state := st })

/-- An IDENT body that agrees with such a cascade, its device having this first octet. -/
def identOf (dev0 : Byte) (size : Nat) : Bytes := dev0 :: zeros 47 ++ [1, 1, 0, 0xFF, BitVec.ofNat 8 size, 0, 8, 0] ++ zeros 8

/-- The port with that message next. -/
def identState (size : Nat) : State :=
  linkAt .identify (fun l => { l with rx := [{ msg := { msgOf kIdent (identOf 1 size) with dest := 0xFF }, cost := 1, arrived := 0 }] })

/-- An unordered message of instance 7 at port 1, to this instance or another, after this many hops. -/
def plainMsg (kind dest hops : Nat) (body : Bytes) : Msg := { msgOf kind body with dest := dest, hops := hops }

/-- The state that is to take it. -/
def plainState (m : Msg) : State :=
  linkAt .up (fun l => { l with rx := [{ msg := m, cost := 1, arrived := 100 }] })

/-- An operation of the window on this device, with its outcome known or not. -/
def opOn (op index sub : Nat) (data : Bytes) : DictOp :=
  { op := op, index := index, sub := sub, final := true, offset := 0, count := data.length, target := 0, data := data, foreign := none }

/-- The window busy with it, awaiting a TAG or not. -/
def windowAt (o : DictOp) (e : Option DictResult) (tag : Option Nat) : State :=
  { dev with dict := { dev.dict with busy := true, current := some (o, e), awaiting := tag } }

/-- TYPE, ACCESS and SIZE of a sub-entry, or the code with which it is not found. -/
def look (s : State) (index sub : Nat) : Nat × Nat × Nat :=
  match subEntry s index sub with
  | .ok q => (q.type, q.access, q.size)
  | .error e => (e, 0, 0)

/-- An ABORT of the request at this position. -/
def abortReq (pos : Nat) : Req :=
  { reqAt 0x71 .abortWait with pos := 1, order := 1, d := { req0.d with opcode := 0x71, inAddr := BitVec.ofNat 64 pos } }

/-! ## Hypotheses met: rings and requests (chapters 1 to 3) -/

/-- The ring enabled, draining and faulted, and a ring that is DISABLED. -/
theorem witness_DoorbellMovesTailOrFaultsRing :
    (accepts ring0 bus 512 = true ∧ (ring0.ring (pairKey 512 0)).state = .enabled ∧ tailValid (ring0.ring (pairKey 512 0)) 16 ∧
      tailValid (ring0.ring (pairKey 512 0)) (ring0.ring (pairKey 512 0)).rqTail) ∧
      ¬ tailValid (ring0.ring (pairKey 512 0)) 17 ∧ ¬ tailValid (ring0.ring (pairKey 512 0)) 0 ∧
      (accepts dev bus 512 = true ∧ (dev.ring (pairKey 512 7)).state = .disabled) ∧
      ∀ x ∈ [RingState.draining, .faulted],
        let s := ring0.onRing (pairKey 512 0) (fun r => { r with state := x })
        accepts s bus 512 = true ∧ (s.ring (pairKey 512 0)).state = x ∧ ¬ tailValid (s.ring (pairKey 512 0)) 17 := by
  unfold tailValid; decide +kernel

theorem witness_CqHeadMovesHeadOrFaultsRing :
    (∀ x ∈ [RingState.enabled, .draining, .faulted],
      let s := ring0.onRing (pairKey 512 7) (fun r => { r with state := x, cqTail := 3, cqHead := 1 })
      accepts s bus 512 = true ∧ (s.ring (pairKey 512 7)).state = x ∧ headValid (s.ring (pairKey 512 7)) 3 ∧
        ¬ headValid (s.ring (pairKey 512 7)) 4 ∧ ¬ headValid (s.ring (pairKey 512 7)) 0) ∧
      accepts dev bus 512 = true ∧ (dev.ring (pairKey 512 7)).state = .disabled := by
  unfold headValid; decide +kernel

/-- Disabled with a legal configuration and with a bad one, enabled, faulted, draining and quiet, and not quiet. -/
theorem witness_RingPairEnablesDrainsAndStops :
    (accepts dev bus 512 = true ∧ (dev.ring (pairKey 512 7)).state = .disabled ∧ configBad dev (pairKey 512 7) = false) ∧
      (let s := dev.onRing (pairKey 512 0) (fun r => { r with rqLog2 := 31 })
       accepts s bus 512 = true ∧ (s.ring (pairKey 512 0)).state = .disabled ∧ configBad s (pairKey 512 0) = true) ∧
      (∀ x ∈ [RingState.enabled, .faulted],
        let s := dev.onRing (pairKey 512 7) (fun r => { r with state := x })
        accepts s bus 512 = true ∧ (s.ring (pairKey 512 7)).state = x) ∧
      (let s := dev.onRing (pairKey 512 0) (fun r => { r with state := .draining })
       (s.ring (pairKey 512 0)).state = .draining ∧ pairQuiet s (pairKey 512 0) = true) ∧
      pairQuiet (ring0.putReq 1 req0) (pairKey 512 0) = false := by
  decide +kernel

/-- One descriptor to fetch where the read is permitted; two where it is denied. -/
theorem witness_DescriptorsAreReadWholeOrSingly_turn :
    let two : State := { (dev.onRing 0 (fun r => { r with state := .enabled, rqTail := 2, fetchWeight := 2 })) with
      access := { dev.access with winInForce := [(0, { Window.dflt 0 with perm := 0 })] } }
    let addr (s : State) := ((s.ring 0).rqBase.toNat + 64 * ((s.ring 0).rqHead % 2 ^ (s.ring 0).rqLog2)) % 2 ^ 64
    (nextReady ring0 = some 0 ∧ freeIds ring0 [0] (turnSize ring0 0) = true ∧ roomFor ring0 (pickChannel ring0) 2 = true ∧
      permitted ring0 (classOf (pairOwner 0)) (pairOwner 0) false (addr ring0) (64 * turnSize ring0 0)) ∧
      (nextReady two = some 0 ∧ freeIds two [0, 1] (turnSize two 0) = true ∧ roomFor two (pickChannel two) 2 = true ∧
        2 ≤ turnSize two 0 ∧
        ¬ permitted two (classOf (pairOwner 0)) (pairOwner 0) false (addr two) (64 * turnSize two 0)) := by
  unfold permitted; decide +kernel

/-- A NOP_FENCE descriptor, which Fetch finds nothing wrong with, and the all-ones octets, which it refuses; one read whole,
and one read again by itself. -/
theorem witness_DescriptorsAreReadWholeOrSingly_arrival :
    let a (b : Byte) : Acc := { acc .descriptor false 64 [] with data := b :: List.replicate 7 0 ++ List.replicate 56 0 }
    let s (b : Byte) := withEnded (fly req0) (a b)
    let t := (s 0x70).onRing (pairKey 512 0) (fun r => { r with reread := [1] })
    (∀ b ∈ [0x70#8, 0xFF#8],
      ((s b).port.ended.find? (fun a => decide (a.kind = .descriptor) && a.pair == pairKey 512 0 && !a.write)) = some (a b) ∧
        ((s b).ring (pairKey 512 0)).reread = [] ∧ inOrder (s b) (reading (s b) (pairKey 512 0)) = [1] ∧
        (s b).req 1 = some req0 ∧ stopping (s b) req0.owner = false) ∧
      (t.ring (pairKey 512 0)).reread = [1] ∧ t.req 1 = some req0 ∧
      fetchCheck .strict false 0 (parseDesc (cut (a 0x70).data 0 64)) = none ∧
      fetchCheck .strict false 0 (parseDesc (cut (a 0xFF).data 0 64)) = some (invalid 0x01) ∧ req0.stat = none ∧
      req0.abortWaiting = [] := by
  decide +kernel

theorem witness_DescriptorsAreReadWholeOrSingly_reread :
    let s := (fly req0).onRing (pairKey 512 0) (fun r => { r with reread := [1] })
    (s.ring (pairKey 512 0)).reread = 1 :: [] ∧ (s.ring (pairKey 512 0)).descOut = false ∧ s.req 1 = some req0 ∧
      roomFor s req0.chan 2 = true ∧
      permitted s (classOf (pairOwner (pairKey 512 0))) (pairOwner (pairKey 512 0)) false
        (((s.ring (pairKey 512 0)).rqBase.toNat + 64 * (req0.pos % 2 ^ (s.ring (pairKey 512 0)).rqLog2)) % 2 ^ 64) 64 := by
  unfold permitted; decide +kernel

/-- A FENCED request behind another is held, and a NOP_FENCE behind one; alone it is in turn; a NOP_FENCE alone ends; on a spread
ring it is to be granted. -/
theorem witness_GateResolverAndArrivalsServeRequests_gate :
    let q := { reqAt 0x10 .gate with order := 1, d := { req0.d with opcode := 0x10, flags := 0x0004 } }
    let s := ((fly q).putReq 2 (reqAt 0x10 .gather))
    let h := { reqAt 0x70 .gate with order := 1 }
    let u := ((fly h).putReq 2 (reqAt 0x10 .gather))
    let f := fly (reqAt 0x10 .gate)
    let p : State := { f with spread := [(0, { Spread.dflt 0 with enable := true, mgrRing := true, ring := 0 })] }
    let n := fly (reqAt 0x70 .gate)
    (s.req 1 = some q ∧ q.stage = .gate ∧ gateHeld s q = true) ∧ (u.req 1 = some h ∧ gateHeld u h = true ∧ h.d.opcode = 0x70) ∧
      (f.req 1 = some (reqAt 0x10 .gate) ∧ gateHeld f (reqAt 0x10 .gate) = false ∧ inTurn f (reqAt 0x10 .gate) = true ∧
        (reqAt 0x10 .gate).d.opcode ≠ 0x70 ∧ spreadOf f (pairKey 512 0) = none) ∧
      (p.req 1 = some (reqAt 0x10 .gate) ∧ gateHeld p (reqAt 0x10 .gate) = false ∧ inTurn p (reqAt 0x10 .gate) = true ∧
        (reqAt 0x10 .gate).homeGrant = none ∧ (spreadOf p (pairKey 512 0)).isSome = true) ∧
      (n.req 1 = some (reqAt 0x70 .gate) ∧ gateHeld n (reqAt 0x70 .gate) = false ∧ inTurn n (reqAt 0x70 .gate) = true ∧
        (reqAt 0x70 .gate).stat = none) := by
  decide +kernel

/-- A lookup of all zeros on a line port without selectors; a blob that has been read. -/
theorem witness_GateResolverAndArrivalsServeRequests_resolve :
    let q := reqAt 0x19 .resolve
    let s := fly q
    let a := acc .blob false 128 (zeros 128)
    let t := withEnded (fly (reqAt 0x19 .blobRead)) a
    (s.req 1 = some q ∧ q.stage = .resolve ∧ dirAhead s q = false ∧ q.found = none ∧
      ∀ n, lookupOf (s.linePort q.d.linePort) q.d q.inData ≠ .needInput n) ∧
      (t.req 1 = some (reqAt 0x19 .blobRead) ∧
        t.port.ended.find? (fun a => decide (a.kind = .blob) && a.req == 1) = some a) := by
  refine ⟨⟨by decide +kernel, by decide +kernel, by decide +kernel, by decide +kernel, fun n h => ?_⟩, by decide +kernel⟩
  have e : lookupOf ((fly (reqAt 0x19 .resolve)).linePort 0) (reqAt 0x19 .resolve).d [] =
      .exact { scope := 0, type := 1, id := zeros 8 } := by decide +kernel
  exact absurd (e.symm.trans h) (by simp)

/-- A sealing request without a handle needs its first 40 octets, which it reads from one region; a hit whose commit is due. -/
theorem witness_GateResolverAndArrivalsServeRequests_input :
    let q := { reqAt 0x10 .resolve with d := { req0.d with opcode := 0x10, inLen := 64 } }
    let f := { reqAt 0x10 .resolve with found := some (Entry.dflt 0) }
    let s := fly q
    s.req 1 = some q ∧ q.stage = .resolve ∧ dirAhead s q = false ∧ q.found = none ∧
      lookupOf (s.linePort q.d.linePort) q.d q.inData = .needInput 40 ∧ q.d.fragList = false ∧
      q.inData.length < min 40 q.d.inLen ∧ q.readOff = q.inData.length ∧ regionAt q.inRegions q.readOff = some (0, 64) ∧
      stagingRoom s q 64 = true ∧ roomFor s q.chan 2 = true ∧ permitted s (classOf q.owner) q.owner false (0 % 2 ^ 64) 64 ∧
      (fly f).req 1 = some f ∧ dirAhead (fly f) f = false ∧ f.found = some (Entry.dflt 0) := by
  unfold permitted; decide +kernel

theorem witness_GateResolverAndArrivalsServeRequests_arrivals :
    let a := acc .fragList false 16 (zeros 16)
    let b := acc .input false 64 (zeros 64)
    let c := acc .side false 64 (zeros 64)
    let s := withEnded (fly (reqAt 0x10 .gather)) a
    let t := withEnded (fly (reqAt 0x10 .gather)) b
    let u := withEnded (fly (reqAt 0x10 .gather)) c
    (s.req 1 = some (reqAt 0x10 .gather) ∧
      s.port.ended.find? (fun a => decide (a.kind = .fragList) && a.req == 1) = some a) ∧
      u.port.ended.find? (fun a => decide (a.kind = .side) && a.req == 1 && a.off == (reqAt 0x10 .gather).side.length) = some c ∧
      (t.port.ended.find? (fun a => decide (a.kind = .side) && a.req == 1 && a.off == (reqAt 0x10 .gather).side.length) = none ∧
        t.port.ended.find? (fun a => decide (a.kind = .input) && a.req == 1 && a.off == (reqAt 0x10 .gather).inData.length)
          = some b) := by
  decide +kernel

/-- A HEAD beat at the Seam of request 1, for opcode 0x50, which names no slot. -/
def headBeat : Beat := { tag := 0x0001000000000001#64, data := zeros 16 }

/-- A DATA beat of 16 octets at the Seam of request 1. -/
def dataBeat : Beat := { tag := 0x0004000000000001#64, data := zeros 16 }

/-- A request checked on, one refused outright, and one that a check of its HEAD refuses: its slot is not the manager's. -/
theorem witness_HeadAndInwardBeatsReachMyeno_head :
    let q := { reqAt 0x50 .gather with seam := [headBeat] }
    let k := { reqAt 0x10 .gather with seam := [headBeat] }
    let took (q : Req) : Req :=
      { q with
        seam := []
        m := { q.m with
          headSeen := true, headTag := headBeat.tag, lastSeen := headBeat.tag.getLsbD 53, exhaustedAtCheck := [], totalWrong := none } }
    let s := fly q
    let p : State := { s with start := { s.start with state := .pavane } }
    (s.req 1 = some q ∧ q.seam = headBeat :: [] ∧ headBeat.kind = BeatKind.head.code ∧ q.m.headSeen = false ∧
      namedSlots q = []) ∧
      (p.req 1 = some q ∧ refusedOutright (p.putReq 1 (took q)) = some (ends .notPermitted 0x04)) ∧
      (refusedOutright (s.putReq 1 (took q)) = none ∧ s.start.state ≠ .resetting ∧ headChecks (s.putReq 1 (took q)) q = none) ∧
      ((fly k).req 1 = some k ∧ k.entry = none ∧ ((namedSlots k).foldl State.verifySlot (fly k)).req 1 = some k ∧
        refusedOutright (((namedSlots k).foldl State.verifySlot (fly k)).putReq 1 (took k)) = none ∧
        headChecks (((namedSlots k).foldl State.verifySlot (fly k)).putReq 1 (took k)) k = some (ends .keyNotOwned 0x01)) := by
  decide +kernel

/-- No request; a beat with the tag of the HEAD's fields, clean and marked POISON; one with other fields; a CANCEL beat. -/
theorem witness_HeadAndInwardBeatsReachMyeno_beats :
    let q (b : Beat) := { reqAt 0x10 .gather with seam := [b], m := { Myeno.fresh with headSeen := true, headTag := headBeat.tag } }
    let cancel : Beat := { tag := 0x0007002000000001#64, data := [0x12, 0x03] }
    let tag := dataBeat.tag
    (fly (q dataBeat)).req (fld (0x0004000000000002#64).toNat 0 16) = none ∧
      ((fly (q dataBeat)).req (fld tag.toNat 0 16) = some (q dataBeat) ∧ dataBeat.kind ≠ BeatKind.head.code ∧
        dataBeat.kind ≠ BeatKind.cancel.code ∧ (q dataBeat).m.ending = none ∧ tag.getLsbD 59 = false ∧
        r26Fields tag = r26Fields (q dataBeat).m.headTag) ∧
      (let poison := tag ||| 0x0800000000000000#64
       fld poison.toNat 0 16 = 1 ∧ poison.getLsbD 59 = true ∧ poison &&& ~~~(0x0800000000000000#64) = dataBeat.tag ∧
        r26Fields poison = r26Fields (q dataBeat).m.headTag) ∧
      (fld (0x0004000000010001#64).toNat 0 16 = 1 ∧ r26Fields 0x0004000000010001#64 ≠ r26Fields (q dataBeat).m.headTag) ∧
      (cancel.kind = BeatKind.cancel.code ∧ leNat (cut cancel.data 0 1) = Status.accessFault.code ∧
        leNat (cut cancel.data 1 1) = 0x03 ∧ (q cancel).m.headSeen = true) := by
  decide +kernel

/-- A window permits the write; the default map after reset denies it; a chain state is due after the last octet. -/
theorem witness_OutwardStreamCompletesAndIsWritten :
    let p := { reqAt 0x10 .gather with m := { Myeno.fresh with statSent := some (statOf (ends .ok 0)), checked := true } }
    let q := overWith 0x10 (zeros 16) (ends .ok 0)
    let s := fly q
    let d : State := { s with access := State.reset.access }
    let c := { overWith 0x10 [] (ends .ok 0) with chainWrite := some (zeros 128) }
    ((fly p).req 1 = some p ∧ p.m.statSent = some (statOf (ends .ok 0)) ∧ p.stat = none ∧ p.statReady = true) ∧
      (s.req 1 = some q ∧ q.outEnd = none ∧ q.recordIssued = false ∧ q.nextOut ≠ 0 ∧ q.outPending < 64 ∧
        roomFor s q.chan 2 = true ∧ q.outAt q.outOff = some (0, 128)) ∧
      permitted s (classOf q.owner) q.owner true (0 % 2 ^ 64) (min q.nextOut 128) ∧
      (d.req 1 = some q ∧ ¬ permitted d (classOf q.owner) q.owner true (0 % 2 ^ 64) (min q.nextOut 128)) ∧
      ((fly c).req 1 = some c ∧ c.outEnd = none ∧ c.recordIssued = false ∧ c.nextOut = 0 ∧ c.chainWrite = some (zeros 128) ∧
        c.chainWriteOut = false ∧ c.outComplete = true ∧ c.outOff = c.out.length ∧ roomFor (fly c) c.chan 2 = true ∧
        permitted (fly c) (classOf c.owner) c.owner true (chainAddr c.d % 2 ^ 64) 128) := by
  unfold permitted; decide +kernel

theorem witness_ResponsesEndAccesses :
    let w := acc .output true 16 (zeros 16)
    let r := acc .input false 64 []
    let q := overWith 0x10 (zeros 16) (ends .ok 0)
    let s := withOut (fly q) w
    let t := withOut (fly (reqAt 0x10 .gather)) r
    let u : State := { dev with port := { dev.port with late := [(3, 7)] } }
    (accWith s 0 3 = some w ∧ w.write = true ∧ w.kind = .output ∧ w.err = false ∧ s.req w.req = some q) ∧
      (accWith t 0 3 = some r ∧ r.write = false ∧ r.kind = .input ∧ r.err = false ∧ readsOn t r.req = true) ∧
      (accWith u 3 7 = none ∧ (3, 7) ∈ u.port.late) := by
  decide +kernel

/-- Without a journal, and with one of 16 entries; a record in its turn, one granted by another instance, one of a ring whose records are
lost, and one of a request that ended PARTIAL and whose journal entry is lost. -/
theorem witness_JournalEntriesAndRecordsAreWritten :
    let q := overWith 0x10 [] (ends .partialEnd 0x01)
    let s := fly q
    let t := s.onRing (pairKey q.owner q.ring) (fun r => { r with journalLog2 := 4 })
    let o := overWith 0x10 [] (ends .ok 0)
    let u := fly o
    let l := u.onRing (pairKey o.owner o.ring) (fun r => { r with recordsLost := true })
    let g := { o with homeGrant := some (3, 1) }
    let j := { q with journal := .lost }
    let a := acc .record true 32 (zeros 32)
    (s.req 1 = some q ∧ q.content = some (statOf (ends .partialEnd 0x01)) ∧ q.journal = .notDue ∧ q.contentDone = true ∧
      q.homeGrant = none ∧ (s.ring (pairKey q.owner q.ring)).journalLog2 = 0) ∧
      (t.req 1 = some q ∧ (t.ring (pairKey q.owner q.ring)).journalLog2 ≠ 0 ∧ roomFor t q.chan 2 = true ∧
        permitted t (classOf q.owner) q.owner true 0 64) ∧
      (u.req 1 = some o ∧ o.content = some (statOf (ends .ok 0)) ∧ o.recordIssued = false ∧ o.contentDone = true ∧
        o.waitRecords = [] ∧ o.homeGrant = none ∧ recordTurn u o = true ∧ roomFor u o.chan 2 = true ∧
        (u.ring (pairKey o.owner o.ring)).recordsLost = false ∧ permitted u (classOf o.owner) o.owner true 0 32) ∧
      (l.req 1 = some o ∧ recordTurn l o = true ∧ (l.ring (pairKey o.owner o.ring)).recordsLost = true) ∧
      ((fly g).req 1 = some g ∧ g.content = some (statOf (ends .ok 0)) ∧ g.contentDone = true) ∧
      ((fly j).req 1 = some j ∧ j.journal = .lost ∧ recordTurn (fly j) j = true) ∧
      (withEnded u a).port.ended.find? (fun a => decide (a.kind = .record) && a.req == 1) = some a := by
  unfold permitted; decide +kernel

theorem witness_TailWordPublishesAndNotifies :
    let s := ring0.onRing (pairKey 512 0) (fun r => { r with cq := [{ acked := true, notify := false, chan := 3 }] })
    let a := acc .tailWord true 8 (zeros 8)
    let t := withEnded ring0 a
    let u := ring0.onRing (pairKey 512 0) (fun r => { r with notifyAddr := 0x1000, pendingNotes := 1 })
    ((s.ring (pairKey 512 0)).tailInFlight = 0 ∧ ackedRun (s.ring (pairKey 512 0)).cq ≠ 0 ∧
      (s.ring (pairKey 512 0)).coverChan (ackedRun (s.ring (pairKey 512 0)).cq) = 3 ∧ roomFor s 3 2 = true ∧
      permitted s (classOf 512) 512 true (s.ring (pairKey 512 0)).tailWordAddr.toNat 8) ∧
      (t.port.ended.find? (fun a => decide (a.kind = .tailWord) && a.pair == pairKey 512 0) = some a ∧
        (t.ring (pairKey 512 0)).notifyAddr = 0) ∧
      ((u.ring (pairKey 512 0)).notifyAddr ≠ 0 ∧ 0 < (u.ring (pairKey 512 0)).pendingNotes ∧
        permitted u .service 512 true (u.ring (pairKey 512 0)).notifyAddr.toNat 4) := by
  unfold permitted; decide +kernel

/-! ## Hypotheses met: lanes and postures (chapters 4 and 8) -/

/-- A key that Check has put with the request; the key of a slot; a request whose turn has not come. -/
theorem witness_DispatchCapturesLaneRequest_lane :
    let q := { open1 with m := { open1.m with cold := some key1 } }
    let s := { fly q with rng := { dev.rng with reservoirs := (List.range 16).map (fun n => (n, zeros 512)) } }
    let t := (fly open1).onSlot 0 (fun _ => slot0)
    let v := (namedSlots open1).foldl State.verifySlot t
    (s.req 1 = some q ∧ isLaneOp q.d.opcode = true ∧ q.atDispatch = true ∧ q.anyPoison = false ∧ orderWaits s q = false ∧
      sciShort q = false ∧ rngRefusal s = none ∧ rngWaits s = false ∧
      ¬ (heldMode s q.d = true ∧ 1024 < stagingTaken s + holdSegs q.d) ∧
      chooseLane s (needsInverse key1.transform q.d.opcode) [] = some 4 ∧ laneDraw s 4 = true) ∧
      (t.req 1 = some open1 ∧ orderWaits t open1 = false ∧ open1.m.cold = none ∧ (v.req 1).map Req.ended = some false ∧
        namedAgain v open1 = none ∧ (match keySlot v open1 with | .ok n => n == 0 | .error _ => false) = true ∧
        stateCheck (v.slot 0) = none ∧ valueChecks v open1 0 = none) := by
  decide +kernel

theorem witness_DispatchCapturesLaneRequest_others :
    let w := { open1 with order := 1 }
    let s := (fly w).putReq 2 open1
    let g := { open1 with d := { open1.d with opcode := 0x20, profile := 1 } }
    let h := { open1 with d := { open1.d with opcode := 0x21, profile := 1 } }
    let k := { open1 with d := { open1.d with opcode := 0x33 } }
    let f := { open1 with d := { open1.d with opcode := 0x50 } }
    let t := (fly h).onSlot 0 (fun _ => { slot0 with transform := 0x22 })
    let v := (namedSlots h).foldl State.verifySlot t
    (s.req 1 = some w ∧ w.atDispatch = true ∧ w.anyPoison = false ∧ orderWaits s w = true ∧ w.m.orderCounted = false) ∧
      (g.atDispatch = true ∧ g.anyPoison = false ∧ orderWaits (fly g) g = false ∧ keyedDigest g = false ∧
      chooseUnit (fly g) roomReq [] = some 0) ∧
      (h.atDispatch = true ∧ keyedDigest h = true ∧ (v.req 1).map Req.ended = some false ∧
        firstFail [useAgain v h.handle, pairCheck v h.handle] = none) ∧
      (fly k).req 1 = some k ∧ k.d.opcode = 0x33 ∧
      ((fly f).req 1 = some f ∧ f.m.headSeen = true ∧ f.m.checked = true ∧ f.m.dispatched = false ∧ f.ended = false ∧
        f.outListDone = true ∧ (fly f).rng.fills.contains 1 = false ∧ rngRefusal (fly f) = none ∧ rngWaits (fly f) = false) := by
  decide +kernel

theorem witness_LaneSegmentsAreComputedAndReleased_turn :
    let q := { open1 with m := { open1.m with dispatched := true, key := some key1 } }
    let c : Ctx := { req := 1, hadTurn := false, sequential := false }
    let s := (fly q).onLane 15 (fun l => { l with state := .active, ctxs := [c] })
    nextTurn s (s.lane 15) = some c ∧ s.req c.req = some q ∧ q.segPoison q.m.segIssued = false := by
  decide +kernel

/-- Each opcode with a segment issued and not computed; CMAC, which runs its segments in sequence, with its next one to be issued. -/
theorem witness_LaneSegmentsAreComputedAndReleased_compute : ∀ op ∈ [0x10, 0x11, 0x14, 0x15, 0x18, 0x19],
    let s := (onLane15 op 1 0).1
    let q := (onLane15 op 1 0).2
    let c := { (onLane15 op 0 0).2 with m := { (onLane15 op 0 0).2.m with key := some { key1 with transform := 0x0A } } }
    (s.req 1 = some q ∧ q.d.opcode = op ∧ q.m.ending = none ∧ q.m.key = some key1 ∧ laneOf s 1 = some 15 ∧
      q.m.segComputed < q.m.segIssued) ∧
      (op = 0x18 → seqOp 0x0A op = true ∧ c.m.segIssued = c.m.segComputed ∧ c.canIssue = true ∧
        c.segPoison c.m.segIssued = false) := by
  decide +kernel

/-- The segment computed, with its final beat received and without; with a total that is wrong; and a stop recorded. -/
theorem witness_LaneSegmentsAreComputedAndReleased_pass :
    let q := (onLane15 0x11 1 1).2
    let p := { q with m := { q.m with lastSeen := false } }
    let w := { p with m := { p.m with totalWrong := some 1 } }
    let r := { q with m := { q.m with stopAtSegment := some (ends .aborted 0x02) } }
    (∀ x ∈ [q, p, w, r], (fly x).req 1 = some x ∧ isLaneOp x.d.opcode = true ∧ x.m.ending = none ∧
      x.m.segPassed < x.m.segComputed) ∧
      (q.m.stopAtSegment = none ∧ q.finalSeg q.m.segPassed = true) ∧
      (p.m.stopAtSegment = none ∧ p.finalSeg p.m.segPassed = false ∧ p.m.totalWrong = none) ∧
      (w.m.stopAtSegment = none ∧ w.finalSeg w.m.segPassed = false ∧ w.m.totalWrong = some 1) ∧
      r.m.stopAtSegment = some (ends .aborted 0x02) := by
  decide +kernel

/-- A request on lane 15 with a segment computed: its close follows; held or not; a lane is left to choose. -/
theorem witness_MismatchedLanesRecoverAndRetest_lane :
    let s := (onLane15 0x11 1 1).1
    let q := (onLane15 0x11 1 1).2
    let f := ((s.releaseTo 1 0).leaveContext 1).laneMismatch 15 1
    s.req 1 = some q ∧ isLaneOp q.d.opcode = true ∧ q.m.dispatched = true ∧ q.m.ending = none ∧
      q.m.segPassed < q.m.segComputed ∧ q.m.key = some key1 ∧ laneOf s 1 = some 15 ∧
      q.finalSeg q.m.segPassed = true ∧ closesTag q.d = true ∧ q.m.lost = false ∧ q.m.tries < 2 ∧
      (chooseLane f (needsInverse key1.transform q.d.opcode) (q.m.excluded ++ [15])).isSome = true ∧ q.m.held = false := by
  decide +kernel

/-- A digest request on unit 7; a wrapped load at Check; a load of the manager's key window, tried twice or not; QUIET. -/
theorem witness_MismatchedLanesRecoverAndRetest_units :
    let g := { open1 with d := { open1.d with opcode := 0x20, profile := 1 }, m := { open1.m with dispatched := true } }
    let s := (fly g).onUnit 7 (fun u => { u with state := .active, ctxs := [.req 1] })
    let k (n : Nat) := { open1 with d := { open1.d with opcode := 0x33 }, m := { open1.m with tries := n } }
    let l (n : Nat) : Load := { load0 0 with tries := n }
    let w (n : Nat) : State := { dev with keys := { dev.keys with loads := [l n] } }
    let x : State := { dev with tango := { dev.tango with posture := .quiet } }
    (s.req 1 = some g ∧ isLaneOp g.d.opcode = false ∧ isDigestOp g.d.opcode = true ∧ unitOf s 1 = some 7 ∧
      ((s.digestRun 1 7 0).req 1).isSome = true) ∧
      (∀ n ∈ [0, 2], (fly (k n)).req 1 = some (k n) ∧ keyWork (fly (k n)) (k n) = true ∧
        (fly (k n)).keys.loads.find? (fun l => l.source != 0 && l.source != 3 && l.req == 1) = none) ∧
      (∀ n ∈ [0, 2], (w n).keys.loads.find? (fun x => x.source == 0 && x.page == 512) = some (l n)) ∧
      x.tango.posture = .quiet ∧ x.lanes.powered.getLsbD 15 = true := by
  decide +kernel

theorem witness_MismatchedLanesRecoverAndRetest_retest :
    let t := dev.onLane 15 (fun l => { l with state := .outOfService, retesting := true })
    (t.lane 15).retesting = true ∧ t.lanes.enable.getLsbD 15 = true ∧ t.lanes.powered.getLsbD 15 = true ∧
      (t.lane 15).ctxs = [] ∧ (dev.lane 15).retesting = false := by
  decide +kernel

theorem witness_PostureChangesAreOrderedAndCompleted :
    let e : State := { dev with tango := { dev.tango with entering := true, changing := true } }
    let l : State := { dev with tango := { dev.tango with posture := .lean, leaving := true, changing := true } }
    let c : State := { dev with tango := { dev.tango with changing := true } }
    (Posture.quiet ≠ dev.tango.posture ∧ dev.tango.changing = false) ∧ c.tango.changing = true ∧
      (e.tango.entering = true ∧ ∀ i < 8, (e.lane (8 + i)).ctxs = []) ∧
      (l.tango.leaving = true ∧ l.pins.supplyReached = false ∧ Posture.assured ≠ l.tango.posture) ∧
      (c.tango.leaving = false ∧ c.tango.entering = false ∧ c.pins.vreq = c.pins.vreqNext ∧ earlierPosture c = false) := by
  decide +kernel

/-! ## Hypotheses met: digest units (chapter 9) -/

/-- The turn is the request's; a segment that is not the last, one with the last beat; without a compare, with
one, and a link that leaves its chain open. -/
theorem witness_DigestOpcodesAbsorbSegment :
    (∀ op ∈ [0x20, 0x21, 0x22, 0x23],
      let s := (onUnit7 op true (zeros 16)).1
      let q := (onUnit7 op true (zeros 16)).2
      s.req 1 = some q ∧ unitOf s 1 = some 7 ∧ q.d.opcode = op ∧ unitTurn s 7 = some (.ctx (.req 1)) ∧
        q.segPoison q.m.segPassed = false ∧ q.finalSeg q.m.segPassed = true ∧ q.m.heldOut = [] ∧ q.d.opens = false ∧
        q.d.cmp = false) ∧
      (let q := (onUnit7 0x20 true (zeros 16)).2
       let c := { q with d := { q.d with flags := 0x0100 } }
       c.d.cmp = true ∧ c.finalSeg c.m.segPassed = true ∧ c.d.opens = false) ∧
      (let q := (onUnit7 0x20 true (zeros 16)).2
       let k : ChainState :=
         { opcode := 0x20, link := 0, slot := 0, gen := 0, an := 0, epoch := 0, chainNonce := 0, took := false, iv := [], acc := []
           aadDone := 0, textDone := 0 }
       let c := { q with d := { q.d with flags := 0x0010 }, m := { q.m with work := { q.m.work with chain := some k } } }
       c.d.opens = true ∧ c.m.work.chain.isSome = true ∧ c.finalSeg c.m.segPassed = true ∧ c.m.heldOut = [] ∧
        unitTurn ((onUnit7 0x20 true (zeros 16)).1.putReq 1 c) 7 = some (.ctx (.req 1))) ∧
      (let s := (onUnit7 0x20 false (zeros 4096)).1
       let q := (onUnit7 0x20 false (zeros 4096)).2
       unitTurn s 7 = some (.ctx (.req 1)) ∧ q.segPoison q.m.segPassed = false ∧ q.finalSeg q.m.segPassed = false ∧
        q.m.totalWrong = none) := by
  decide +kernel

/-- SHA-256, an algorithm code the table has not, and none; units with room, and none with room. -/
theorem witness_DigestPagesTakeConfigurationAndData_config :
    let off : State := { dev with digest := { dev.digest with enable := 0 } }
    (accepts dev bus 512 = true ∧ (dev.page 512).isOpen = false ∧ configRefused 0x01 0 false = false ∧
      configRefused 0xFF 0 false = true ∧ configRefused 0x01 15 true = true ∧ configRefused 0x01 16 true = false ∧
      ∃ u < 8, unitAvail dev u = true ∧ roomPage (dev.unitAt u) = true) ∧
      (accepts off bus 512 = true ∧ ∀ u < 8, unitAvail off u = false ∨ roomPage (off.unitAt u) = false) ∧
      ((page0 8 1).page 512).isOpen = true := by
  decide +kernel

/-- With space and without; a finish pending; a computation not begun. -/
theorem witness_DigestPagesTakeConfigurationAndData_data :
    let l := (page0 8 1).onPage 512 (fun p => { p with lastPending := true })
    (∀ n ∈ [1016, 1024],
      accepts (page0 n 1) bus 512 = true ∧ ((page0 n 1).page 512).blocked = false ∧ ((page0 n 1).page 512).lastPending = false ∧
        (((page0 n 1).pageBegin 512 true).page 512).blocked = false ∧ ((page0 n 1).page 512).work.alg ≠ 0 ∧
        (n = 1016 → (((page0 n 1).pageBegin 512 true).page 512).space ≠ 0) ∧
        (n = 1024 → (((page0 n 1).pageBegin 512 true).page 512).space = 0)) ∧
      ((l.page 512).blocked = false ∧ (l.page 512).lastPending = true ∧ (l.page 512).overrun = false) ∧
      (((page0 0 0).page 512).work.alg = 0 ∧ ((page0 0 0).page 512).keyed = false ∧ ((page0 0 0).page 512).blocked = false) := by
  decide +kernel

/-- A finish in its turn; blocks of a register computation, of a request and of an internal job; a unit without a turn in QUIET. -/
theorem witness_DigestUnitsRunFinishAndRetest :
    let s := (page0 64 1).onPage 512 (fun p => { p with lastPending := true })
    let t := (page0 64 1).onPage 512 (fun p => { p with tries := 2 })
    let u := dev.onUnit 7 (fun u => { u with state := .outOfService, retesting := true })
    let j := dev.onUnit 7 (fun u => { u with internal := some { req := none, blocks := 9, tries := 0, excluded := [] } })
    let x : State := { dev with tango := { dev.tango with posture := .quiet } }
    ((s.page 512).isOpen = true ∧ (s.page 512).lastPending = true ∧ (s.page 512).overrun = false ∧
      unitTurn s (s.page 512).unit = some (.ctx (.page 512))) ∧
      (unitTurn t 7 = some (.ctx (.page 512)) ∧ unitAvail t 7 = true ∧ 2 ≤ (t.page 512).tries) ∧
      unitTurn (onUnit7 0x20 true (zeros 16)).1 7 = some (.ctx (.req 1)) ∧
      (unitTurn j 7 = some .internal ∧ (j.unitAt 7).internal.map Internal.blocks = some 9 ∧ 3 < 64 - (j.unitAt 7).internalTurn) ∧
      (unitTurn x 7 = none ∧ x.tango.posture = .quiet) ∧ ((u.unitAt 7).retesting = true ∧ (dev.unitAt 7).retesting = false) := by
  decide +kernel

/-- A computation of whole blocks, and one with octets left; a record of SHA-256 of length 0, and one with a wrong first octet. -/
theorem witness_DigestCommandsSaveRestoreAbandon :
    let save (s : State) := ((s.pageHome 512).pageBegin 512 true).pageAbsorb 512 64
    let rest (s : State) := ((s.onPage 512 DigestPage.abandon).pageBegin 512 false).countControl 0
    let r := (page0 0 1).onPage 512 (fun p => { p with stateRec := [0x11, 0x01] ++ zeros 254 })
    (∀ n ∈ [0, 5], accepts (page0 n 1) bus 512 = true ∧ ((page0 n 1).page 512).blocked = false ∧
      ((page0 n 1).page 512).lastPending = false ∧ ((save (page0 n 1)).page 512).blocked = false ∧
      ((n = 0) = (((save (page0 n 1)).page 512).backlog = []))) ∧
      ((r.page 512).keyed = false ∧ (r.page 512).blocked = false ∧ ((rest r).page 512).blocked = false ∧
        openRecord (rest r) 512 ((rest r).page 512).alg none ((rest r).page 512).stateRec = some (0, zeros 200)) ∧
      (((rest (page0 0 1)).page 512).blocked = false ∧
        openRecord (rest (page0 0 1)) 512 ((rest (page0 0 1)).page 512).alg none ((rest (page0 0 1)).page 512).stateRec = none) ∧
      ((page0 0 1).page 512).isOpen = true := by
  decide +kernel

/-! ## Hypotheses met: keys (chapters 5 and 6) -/

/-- The manager's key window staged for slot 0, allotted to it and empty; not allotted; and busy. -/
theorem witness_KeyWindowLoadsComeIntoForce_commit :
    let f (s : State) := s.onKw 512 (fun w => { w with transform := 0x02 })
    let s := f (dev.onSlot 0 (fun x => { x with owner := some 512 }))
    let y := dev.onKw 512 (fun w => { w with busy := true })
    let bad (s v : State) := firstFail
      [refusedOutright v, if hKind (s.kw 512).handle = 0 ∨ hKind (s.kw 512).handle = 3 then none else invalid 0x05,
        loadCheck v 512 (s.kw 512).handle, lifeCheck v true,
        paramCheck v 512 (hSlot (s.kw 512).handle) (hKind (s.kw 512).handle) false (s.kw 512).params]
    (kwAccepts s bus 512 = true ∧ (s.kw 512).busy = false ∧ bad s (s.verifySlot (hSlot (s.kw 512).handle)) = none) ∧
      (kwAccepts (f dev) bus 512 = true ∧ ((f dev).kw 512).busy = false ∧
        bad (f dev) ((f dev).verifySlot (hSlot ((f dev).kw 512).handle)) = some (ends .keyNotOwned 0x01)) ∧
      (kwAccepts y bus 512 = true ∧ (y.kw 512).busy = true) := by
  decide +kernel

/-- A load that comes into force and one that is refused: the slot is not the owner's any more. -/
theorem witness_KeyWindowLoadsComeIntoForce_load : ∀ source ∈ [0, 2], ∀ own ∈ [some 512, some 3],
    let s := ((fly (reqAt 0x32 .gather)).onSlot 0 (fun x => { x with owner := own })).onKeys
      (fun k => { k with loads := [load0 source] })
    let s1 := s.onKeys (fun k => { k with loads := k.loads.erase (load0 source) })
    s.keys.loads.find? (fun l => l.slot == 0) = some (load0 source) ∧ s.req (load0 source).req = some (reqAt 0x32 .gather) ∧
      ((own = some 512) = (loadRefused s1 512 (load0 source) = none)) ∧ (load0 source).winEn = false ∧
      (s1.slot 0).winEn = false := by
  decide +kernel

/-- The wrapped load of a key that came with a grant, a generation, an erase of a hot key and of a cold one, an export. -/
theorem witness_KeyOpcodesActAtDispatch :
    let x : Transfer := { key := key1, sealing := true, earlier := false }
    let w := { keyReq 0x30 0 with keyx := some x }
    let c := { keyReq 0x31 0 with entry := some 0 }
    let v (q : Req) (l : Bool) := (namedSlots q).foldl State.verifySlot (keyState q l)
    (∀ y ∈ [(w, false), (keyReq 0x32 0, false), (keyReq 0x31 0, true), (c, true), (keyReq 0x33 0, true)],
      (keyState y.1 y.2).req 1 = some y.1 ∧ mayAct (keyState y.1 y.2) y.1 = true ∧
        ((v y.1 y.2).req 1).map Req.ended = some false) ∧
      (loadAgain (v w false) w.handle = none ∧
        (match blobKey (v w false) w with | .ok y => y == x | .error _ => false) = true) ∧
      (loadAgain (v (keyReq 0x32 0) false) 0 = none ∧ rngRefusal (v (keyReq 0x32 0) false) = none ∧
        drawWaits (v (keyReq 0x32 0) false) = false) ∧
      ((keyReq 0x31 0).entry = none ∧ eraseAgain (v (keyReq 0x31 0) true) 0 = none) ∧ c.entry.isSome = true ∧
      useAgain (v (keyReq 0x33 0) true) 0 = none := by
  decide +kernel

/-- Slots 0 and 1 loaded, paired or not: FORM with ANs 0 and 1, and with ANs 1 and 1; ROLL, and to an exhausted partner; DISSOLVE. -/
theorem witness_AssocRollFormsRollsAndDissolves :
    let s (w : Nat) (p l : Bool) := ((fly { keyReq 0x34 w with handle := if p then 0x10000000#32 else 0 }).onSlot 0
      (fun _ => { slot0 with paired := p, tx := p })).onSlot 1
        (fun _ => { slot0 with paired := p, sealing := true, state := if l then .loaded else .exhausted })
    let q (w : Nat) (p : Bool) : Req := { keyReq 0x34 w with handle := if p then 0x10000000#32 else 0 }
    let v (w : Nat) (p l : Bool) := (namedSlots (q w p)).foldl State.verifySlot (s w p l)
    (∀ x ∈ [(0x11, false), (0x15, false), (0x02, true), (0x00, true)],
      (s x.1 x.2 true).req 1 = some (q x.1 x.2) ∧ mayAct (s x.1 x.2 true) (q x.1 x.2) = true ∧ (q x.1 x.2).d.opcode = 0x34 ∧
        ((v x.1 x.2 true).req 1).map Req.ended = some false ∧ assocAgain (v x.1 x.2 true) (q x.1 x.2) = none) ∧
      (fld 0x11 0 2 = 1 ∧ formCheck (v 0x11 false true) 512 0 0x11 = none) ∧
      (fld 0x15 0 2 = 1 ∧ (formCheck (v 0x15 false true) 512 0 0x15).isSome = true) ∧
      ((v 0x02 true true).slot 0).paired = true ∧
      rollCheck ((v 0x00 true true).slot (txSlot (v 0x00 true true) 0 ^^^ 1)) = none ∧
      (assocAgain (v 0x00 true false) (q 0x00 true) = none ∧ ((v 0x00 true false).req 1).map Req.ended = some false ∧
        (rollCheck ((v 0x00 true false).slot (txSlot (v 0x00 true false) 0 ^^^ 1))).isSome = true) := by
  decide +kernel

/-- An erase of slot 65535 that no one holds; with a window slot and without. -/
theorem witness_ErasesAndAllotmentsEmptySlots_erase : ∀ w ∈ [true, false],
    let e : Erase := { slot := 65535, req := 1, limitHit := false }
    let s := (dev.onSlot 65535 (fun x => { x with state := .erasing, winEn := w })).onKeys (fun k => { k with erases := [e] })
    s.keys.erases.find? (fun e => e.slot == 65535) = some e ∧ (s.slot 65535).state = .erasing ∧ holders s 65535 = [] ∧
      pageHolders s 65535 = [] ∧ jobHolds s 65535 = false ∧ (s.slot 65535).winEn = w ∧ (s.slot 65535).winSlot ≠ 65535 ∧
      e.limitHit = false := by
  decide +kernel

theorem witness_ErasesAndAllotmentsEmptySlots_allot :
    allotCheck (dev.onKeys (fun k => { k with allotBase := 0xFFFF, allotCount := 1, allotOwner := 0x200 })) = .done ∧
      allotCheck (dev.onKeys (fun k => { k with allotBase := 0xFFFF, allotCount := 2, allotOwner := 0x200 })) = .range ∧
      ((8192#32).toNat ∈ [0, 1, 2, 4, 8, 16, 32, 64, 128, 256, 512, 1024, 2048, 4096, 8192] ∧
        ∀ e ∈ dev.keys.slots, 65536 - max (8192#32).toNat dev.keys.coldCacheSlots ≤ e.1 → e.2.owner = none) := by
  decide +kernel

/-! ## Hypotheses met: random numbers (chapter 11) -/

/-- The service in a state, with this many blocks in the pool and this many generate calls since the last reseed. -/
def rngAt (st : RngState) (pool calls : Nat) : State :=
  { dev with
    rng := { dev.rng with state := st, pool := List.replicate pool (zeros 16), calls := calls, settled := true, order := [0, 1] } }

/-- A source in use that repeats a sample 40 times; one that has 255 samples in the conditioner, beside 256 of the other. -/
theorem witness_RngStartsTestsAndReseeds_sample :
    let s := (rngAt .running 0 0).onNoise 0 (fun x => { x with role := .inUse, run := 40, lastSample := some true })
    let c := ((rngAt .running 0 0).onNoise 0 (fun x => { x with role := .inUse, input := List.replicate 255 true })).onNoise 1
      (fun x => { x with role := .inUse, input := List.replicate 256 false })
    (s.rng.settled = true ∧ s.start.inReset = false ∧ (s.noise 0).run + 1 = 41 ∧ (s.noise 0).lastSample = some true ∧
      s.rng.compat = false ∧ (s.noise 0).role = .inUse) ∧
      (c.rng.settled = true ∧ conditioning c = true ∧ c.rng.order = [0, 1] ∧ (c.noise 0).input.length = 255 ∧
        256 ≤ (c.noise 1).input.length ∧ (c.noise 0).windowPos = 0 ∧ (c.noise 0).run + 1 ≠ 41) := by
  decide +kernel

theorem witness_RngStartsTestsAndReseeds_start :
    let u (st : RngState) : State := { dev with rng := { dev.rng with state := st, settled := false } }
    let ready (s : State) := (List.range 4).foldl (fun s n => s.onNoise n (fun x => { x with startCount := 1024, role := .spare })) s
    let t := ready (rngAt .testing 0 0)
    let k (b : Bool) : State := { t with rng := { t.rng with compat := b } }
    let bad (s : State) (l : List Nat) := l.foldl (fun s n => s.onNoise n (fun x => { x with startFailed := true })) s
    let good (s : State) (n : Nat) : Bool := !(s.noise n).startFailed && (s.noise n).role != .failed
    (∀ st ∈ [RngState.settling, .rawSample], (u st).rng.settled = false ∧ (u st).start.inReset = false ∧
      (u st).start.state ≠ .scrap ∧ (u st).start.alarmPending = false ∧ (u st).rng.state = st) ∧
      (t.rng.state = .testing ∧ (∀ n < 4, 1024 ≤ (t.noise n).startCount) ∧ t.rng.compat = false ∧ good t 0 = true ∧
        good t 1 = true) ∧
      good (bad t [1]) 1 = false ∧
      ((k true).rng.compat = true ∧ good (bad (k true) [0, 2]) 1 = true ∧ good (bad (k true) [0, 2]) 3 = true ∧
        good (bad (k true) [0, 2]) 0 = false ∧ good (bad (k true) [0, 2]) 2 = false) ∧
      (∀ n < 4, n ≠ 3 → good (bad (k true) [0, 1, 2]) n = false) := by
  decide +kernel

theorem witness_RngStartsTestsAndReseeds_pool :
    let b : Conditioned := { block := zeros 16, parts := [(0, 0, 255), (1, 0, 255)] }
    let s := [0, 1].foldl (fun t n => t.onNoise n (fun x => { x with samples := 1024 })) (rngAt .running 0 0)
    let p := s.onRng (fun r => { r with formed := [b] })
    (conditioning p = true ∧ p.rng.formed.find? (blockCleared p) = some b) ∧
      ((rngAt .filling 3 0).rng.state = .filling ∧ 3 ≤ (rngAt .filling 3 0).rng.pool.length) ∧
      ((rngAt .running 2 64).rng.state = .running ∧ (rngAt .running 2 64).rng.reseedInterval ≤ (rngAt .running 2 64).rng.calls ∧
        2 ≤ (rngAt .running 2 64).rng.pool.length) := by
  decide +kernel

/-- An RNG_FILL at Dispatch. -/
def fill1 : Req :=
  { reqAt 0x50 .gather with
    d := { req0.d with opcode := 0x50, outCap := 4096 }, outListDone := true
    m := { Myeno.fresh with headSeen := true, checked := true } }

theorem witness_RngServesItsConsumers :
    let p : State := { dev with rng := { dev.rng with refills := [512] } }
    let x : State := { dev with tango := { dev.tango with posture := .quiet, fillLeft := 0 } }
    let f := fly fill1
    (dev.rng.state = .running ∧ reseedDue dev = false ∧ (Tab.get (fun _ => []) dev.rng.reservoirs 15).length ≤ 1024) ∧
      (x.rng.state = .running ∧ reseedDue x = false ∧ x.tango.posture = .quiet ∧ x.tango.fillLeft = 0) ∧
      (p.rng.state = .running ∧ reseedDue p = false ∧ softwareTurn p = some (false, 512)) ∧
      (f.req 1 = some fill1 ∧ fill1.d.opcode = 0x50 ∧ fill1.m.headSeen = true ∧ fill1.m.checked = true ∧ fill1.ended = false ∧
        fill1.outListDone = true ∧ f.rng.fills.contains 1 = false ∧ fill1.m.dispatched = false ∧ rngRefusal f = none ∧
        rngWaits f = false) ∧
      (softwareTurn (f.fillDispatch 1) = some (true, 1) ∧ (f.fillDispatch 1).req 1 = some fill1 ∧
        (f.fillDispatch 1).rng.state = .running ∧ reseedDue (f.fillDispatch 1) = false) ∧
      (512 ≤ mgr ∧ accepts dev bus 512 = true) := by
  decide +kernel

theorem witness_RngMismatchesAndRawSampleMode :
    let r : State := { dev with lc := { dev.lc with state := .testUnlocked 0 } }
    let m : State := { dev with rng := { dev.rng with rawMode := true, state := .rawSample } }
    (dev.rng.state = .running ∧ dev.rng.blockTries < 2) ∧
      (let x : State := { dev with rng := { dev.rng with blockTries := 2 } }; x.rng.state = .running ∧ 2 ≤ x.rng.blockTries) ∧
      (r.rng.rawMode = false ∧ rawPermitted r = true) ∧ (dev.rng.rawMode = false ∧ rawPermitted dev = false) ∧
      (m.rng.rawMode = true ∧ m.rng.state = .rawSample ∧ m.rng.rawRun = [] ∧ (List.replicate 131072 (0 : Byte)).length = 131072 ∧
        (m.fifo 1 mgr).space (fifoDepth 1) ≠ 0) := by
  refine ⟨by decide +kernel, by decide +kernel, by decide +kernel, by decide +kernel, by decide +kernel, by decide +kernel,
    by decide +kernel, List.length_replicate, by decide +kernel⟩

/-! ## Hypotheses met: public-key engines and FIFOs (chapters 10 and 12) -/

theorem witness_PkeJobsRunOnEngines :
    let f : State := { fly job1 with pke := { dev.pke with caller := .faulted } }
    let r : State := { fly job1 with pke := { dev.pke with caller := .ready, pointer := 3 } }
    let one : Bytes := zeros 31 ++ [1]
    let k := { jobKeyed 0x01 one [] with handle := 0x10009, m := { open1.m with key := none } }
    let q (x : Req) : Req := { x with m := { x.m with dispatched := true } }
    (∀ s ∈ [f, r], s.req 1 = some job1 ∧ job1.d.opcode = 0x40 ∧ job1.atDispatch = true ∧ job1.m.lastSeen = true ∧
      job1.anyPoison = false ∧ orderWaits s job1 = false ∧ targetSettled s job1 = true ∧ job1.m.totalWrong = none ∧
      messageFits job1.d.profile job1.m.payload = true ∧ job1.handle = noHandle) ∧
      f.pke.caller = .faulted ∧
      (r.pke.caller = .ready ∧ routineDraws job1.d.profile = false ∧ toFifo job1.d = false ∧ chooseEngine r [] = some 3) ∧
      (let s := (fly k).onSlot 9 (fun _ => { slot0 with transform := 0x41, secret := one, gen := 1 })
       let v := (namedSlots k).foldl State.verifySlot s
       s.req 1 = some k ∧ k.atDispatch = true ∧ k.m.lastSeen = true ∧ k.anyPoison = false ∧ orderWaits s k = false ∧
         targetSettled s k = true ∧ k.m.totalWrong = none ∧ messageFits k.d.profile k.m.payload = true ∧ k.handle ≠ noHandle ∧
         (v.req 1).map Req.ended = some false ∧ useAgain v k.handle = none) ∧
      (∀ n ∈ [0, 56320], holderOf (engineState job1 n) 3 = some (jobAt n) ∧ (engineState job1 n).req 1 = some (q job1) ∧
        (q job1).m.stopAtSegment = none) ∧
      ((jobAt 0).steps + 1024 < (jobAt 0).total ∧
        (∀ j ∈ readyJobs (engineState job1 0) 3, j.req = (jobAt 0).req ∨ ((jobAt 0).left ≤ j.left + 1024 ∧
          j.passes < (engineState job1 0).pke.starveLimit)) ∧
        ∀ j ∈ ((engineState job1 0).engineAt 3).jobs, j.req = (jobAt 0).req → j = jobAt 0) ∧
      ((jobAt 56320).total ≤ (jobAt 56320).steps + 1024 ∧ jobRejected (q (jobKeyed 0x01 (zeros 32) [])) (jobAt 56320) = true) ∧
      (∀ x ∈ [q (jobKeyed 0x01 one []), q (jobKeyed 0x07 one base256)], holderOf (engineState x 56320) 3 = some (jobAt 56320) ∧
        (engineState x 56320).req 1 = some x ∧ jobRejected x (jobAt 56320) = false ∧ x.m.ending = none ∧ toFifo x.d = false) ∧
      routineHasTarget 0x01 = false ∧ routineHasTarget 0x07 = true := by
  decide +kernel

/-- The load of a key derived by routine 0x07 into slot 0 of the manager, empty; digest unit 0 in use. -/
theorem witness_PkeTargetLoads :
    let q := jobKeyed 0x07 (zeros 31 ++ [1]) base256
    let x := { q with m := { q.m with dispatched := true } }
    let v := (engineState x 56320).onSlot 0 (fun y => { y with owner := some 512 })
    let s := v.onUnit 0 (fun u => { u with state := .active })
    let s1 := (s.jobSteps 3 ((jobAt 56320).total - 56320) x (jobAt 56320)).jobCounts x (jobAt 56320)
    let s2 := ((s1.pkeOutput x (jobAt 56320)).2.leaveEngine 3 1 true).releaseFifo x
    routineHasTarget x.d.profile = true ∧
      loadRefused s2 x.owner (targetLoad s2 1 x (jobAt 56320) (s1.pkeOutput x (jobAt 56320)).1) = none := by
  decide +kernel

/-- A context that is being zeroed. -/
theorem witness_PkeContextZeroed :
    let s := dev.onEngine 3 (fun e => { e with jobs := [{ jobAt 56320 with zeroing := true }] })
    (s.engineAt 3).jobs.find? (fun j => j.req == 1 && j.zeroing) = some { jobAt 56320 with zeroing := true } := by
  decide +kernel

/-- A mismatch of the holder's job, of one that may restart and of one that may not, and of a FILL command. -/
theorem witness_EngineMismatches :
    let q (n : Nat) : Req := { job1 with m := { job1.m with dispatched := true, tries := n } }
    let s (n : Nat) := engineState (q n) 0
    let s1 (n : Nat) := ((s n).leaveEngine 3 1 false).engineMismatch 3
    let x : State := { dev with tango := { dev.tango with posture := .quiet } }
    (∀ n ∈ [0, 2], holderOf (s n) 3 = some (jobAt 0) ∧ (s n).req 1 = some (q n)) ∧
      ((q 0).m.tries < 2 ∧ chooseEngine (s1 0) [3] = some 0) ∧ (2 ≤ (q 2).m.tries ∧ (q 2).m.ending = none) ∧
      (holderOf x 3 = none ∧ x.tango.posture = .quiet ∧ unitsPowered x = true) := by
  decide +kernel

theorem witness_EnginesAndCallerRecover :
    let t := dev.onEngine 3 (fun e => { e with state := .outOfService, retesting := true })
    let c (x : CallerState) (l : List (BitVec 48)) : State := { dev with pke := { dev.pke with caller := x, lockstepRecent := l } }
    ((t.engineAt 3).retesting = true ∧ t.pke.enable.getLsbD 3 = true) ∧ (c .ready []).pke.caller = .ready ∧
      ((c .recovering []).pke.caller = .recovering ∧
        (c .recovering []).pke.lockstepRecent.length < (c .recovering []).pke.lockstepLimit) ∧
      (let l := List.replicate (c .recovering []).pke.lockstepLimit 0
       (c .recovering l).pke.caller = .recovering ∧
         (c .recovering l).pke.lockstepLimit ≤ (c .recovering l).pke.lockstepRecent.length) ∧
      (c .off []).pke.caller = .off := by
  decide +kernel

/-- A data word of a FIFO. -/
def word1 : FifoWord := { tag := .data, seq := 5, data := 0x123456789ABC, bad := false, packetWords := 0 }

/-- The manager's result FIFO, the event FIFO and the mailboxes of slice 511: with a word, with none, and with its mark lost. -/
theorem witness_FifosAreReadAndMarked : ∀ x ∈ [(0, 512), (4, 512), (2, 511)],
    let s (f : Fifo) := (dev.onSlice 511 (fun y => { y with state := .active })).putFifo x.1 x.2 f
    let g (f : Fifo) := (s f).fifo x.1 x.2
    let w := { Fifo.empty 1 with kept := [word1], marked := true, markLost := true }
    let l := { Fifo.empty 1 with lostPending := true }
    hasReader x.1 x.2 = 1 ∧ (∀ f ∈ [w, Fifo.empty 1, l], accepts (s f) bus (readerPage x.1 x.2) = true ∧
      mailboxDead (s f) x.1 x.2 = false) ∧
      ((g w).lostPending = false ∧ (g w).count ≠ 0 ∧ (g w).kept[(g w).read]? = some word1 ∧
        ((g w).keeps = false → (g w).read = 0) ∧ (g w).markLost = true) ∧
      ((g (Fifo.empty 1)).lostPending = false ∧ (g (Fifo.empty 1)).count = 0 ∧
        (g (Fifo.empty 1)).openAt ≠ some (g (Fifo.empty 1)).read ∧ (g (Fifo.empty 1)).markLost = false) ∧
      (g l).lostPending = true := by
  decide +kernel

/-- A mailbox to slice 511 with no word, with 256 words, and with a packet open. -/
theorem witness_FifosAreWritten :
    let s (f : Fifo) := (dev.onSlice 511 (fun y => { y with state := .active })).putFifo 3 511 f
    let full : Fifo := { Fifo.empty 1 with kept := List.replicate 256 word1 }
    let packet : Fifo := { Fifo.empty 1 with kept := [{ word1 with tag := .slot }], openAt := some 0 }
    (∀ f ∈ [Fifo.empty 1, full, packet], hasWriter 3 511 = 1 ∧ accepts (s f) bus (writerPage 3 511) = true ∧
      mailboxDead (s f) 3 511 = false) ∧
      (((s (Fifo.empty 1)).fifo 3 511).space (fifoDepth 3) ≠ 0 ∧ ((s (Fifo.empty 1)).fifo 3 511).openAt = none) ∧
      ((s full).fifo 3 511).space (fifoDepth 3) = 0 ∧
      (((s packet).fifo 3 511).openAt = some 0 ∧ ((s packet).fifo 3 511).kept[0]? = some { word1 with tag := .slot }) := by
  decide +kernel

/-! ## Hypotheses met: the directory and spread rings (chapters 3, 7 and 18) -/

/-- A DIR request to which the directory has still to act, with this operand. -/
def dirReq (op : Nat) (side : Bytes) : Req :=
  { reqAt op .gather with side := side, stat := some (statOf (ends .ok 0)) }

/-- An exact operand: this TYPE, this FLAGS octet and this ID. -/
def exactSide (type flags : Byte) (id : Nat) : Bytes := [1, type, 0, flags] ++ zeros 4 ++ leBytes 8 id ++ zeros 16

/-- An entry of scope 0 with this ID. -/
def entryOf (id : Nat) : Entry := { Entry.dflt 0 with type := 2, id := leBytes 8 id }

/-- Nine IDs with one hash: the differences are multiples of the polynomial of CRC-32C. -/
def sameHash : List Nat :=
  [0, 0x105EC76F1, 0x20BD8EDE2, 0x417B1DBC4, 0x82F63B788, 0x105EC76F10, 0x20BD8EDE20, 0x417B1DBC40, 0x82F63B7880]

/-- The two buckets of those IDs full. -/
def fullDir : Directory :=
  let k : ExactKey := (entryOf 0).key
  ((waysOf (bucketA dev.dir k) ++ waysOf (bucketB dev.dir k)).zip (sameHash.drop 1)).foldl
    (fun d x => d.put x.1 (entryOf x.2)) dev.dir

/-- An operand of SPACE 0, which no table gives; an ESP operand on a port whose ESP SPIs are indexed. -/
theorem witness_DirectoryOpcodesRefuse :
    let bad : Bytes := zeros 32
    let esp := (fly (dirReq 0x60 (exactSide 1 0 256))).onLinePort 0 (fun p => { p with espIndexed := true })
    (∀ op ∈ [0x60, 0x61, 0x62], (fly (dirReq op bad)).req 1 = some (dirReq op bad) ∧ dirPending (dirReq op bad) op = true ∧
      readOperand ((fly (dirReq op bad)).linePort 0) (dirReq op bad).d bad = none) ∧
      (readOperand (esp.linePort 0) (dirReq 0x60 (exactSide 1 0 256)).d (exactSide 1 0 256)).map
        (fun o => (o.space, o.family)) = some (1, 1) ∧ (esp.linePort 0).espIndexed = true := by
  decide +kernel

theorem witness_DirectoryOpcodesActOnExactKeys :
    let o (op : Nat) (fl : Byte) := readOperand ((fly (dirReq op (exactSide 2 fl 0))).linePort 0) (dirReq op (exactSide 2 fl 0)).d
      (exactSide 2 fl 0)
    let d : Directory := dev.dir.put (4 * bucketA dev.dir (entryOf 0).key) (entryOf 0)
    (∀ op ∈ [0x60, 0x61, 0x62], ∀ fl ∈ [0#8, 4#8],
      (fly (dirReq op (exactSide 2 fl 0))).req 1 = some (dirReq op (exactSide 2 fl 0)) ∧
      dirPending (dirReq op (exactSide 2 fl 0)) op = true ∧ (o op fl).map Operand.space = some 1 ∧
      (o op fl).map Operand.family = some 2 ∧ (o op fl).map Operand.id = some (zeros 8) ∧
      (o op fl).map Operand.replace = some (fl == 4)) ∧
      dev.memory.damages = [] ∧ dev.dir.find (entryOf 0).key = none ∧ (dev.dir.place (entryOf 0)).isSome = true ∧
      (d.find (entryOf 0).key).isSome = true ∧
      (fullDir.find (entryOf 0).key = none ∧ (fullDir.place (entryOf 0)).isNone = true) := by
  decide +kernel

/-- A prefix operand: IPv4, 32 bits of 10.0.0.1. -/
def prefixSide : Bytes := [2, 4, 32, 0] ++ zeros 12 ++ [10, 0, 0, 1] ++ zeros 12

theorem witness_DirectoryOpcodesActOnPrefixes :
    let p : Prefix := { family := 4, scope := 0, bits := 0x0A000001, len := 32, result := 0 }
    (∀ op ∈ [0x60, 0x61, 0x62], (fly (dirReq op prefixSide)).req 1 = some (dirReq op prefixSide) ∧
      dirPending (dirReq op prefixSide) op = true ∧
      (readOperand ((fly (dirReq op prefixSide)).linePort 0) (dirReq op prefixSide).d prefixSide).map
        (fun o => (o.space, o.family, o.addr, o.len)) = some (2, 4, 0x0A000001, 32)) ∧
      ((∀ x ∈ dev.dir.prefixes, samePrefix p x = false) ∧ dev.dir.prefixes.length < 262144 ∧
        prefixBytes (dev.dir.prefixes ++ [p]) ≤ 5242880) ∧
      (∃ x ∈ [p], samePrefix p x = true) ∧ dev.dir.cutOff 4 0 0x0A000001 = false ∧
      longest [p] 4 0 0x0A000001 = some p ∧ longest [] 4 0 0x0A000001 = none := by
  decide +kernel

/-- A trie with no room: 262,144 prefixes of 24 bits, none of them the operand's. -/
theorem witness_DirectoryOpcodesMeetAFullTrie :
    let p : Prefix := { family := 4, scope := 0, bits := 0x0A000001, len := 32, result := 0 }
    let x : Prefix := { family := 4, scope := 0, bits := 0x0B000000, len := 24, result := 0 }
    (∀ y ∈ List.replicate 262144 x, samePrefix p y = false) ∧ 262144 ≤ (List.replicate 262144 x).length :=
  ⟨fun _ h => by rw [List.eq_of_mem_replicate h]; decide +kernel, (List.length_replicate).ge⟩

theorem witness_DirectoryAgesReportsAndRecounts :
    let a (err : Bool) : Acc := { acc .exceptionEntry true 32 (zeros 32) with owner := 512, err := err }
    let s (on : Bool) := dev.onXring 512 (fun x => { x with enable := on, waiting := [[1, 2, 3, 4]] })
    let t (err : Bool) (n : U64) := withEnded ((s true).onXring 512 (fun x => { x with notifyAddr := n, writing := some 0 })) (a err)
    let hit (s : State) (x : Option Acc) :=
      s.port.ended.find? (fun a => decide (a.kind = .exceptionEntry) && a.owner == 512) = x
    131071 < 131072 ∧ accepts dev bus 512 = true ∧
      (hit (s true) none ∧ ((s true).xring 512).waiting = [1, 2, 3, 4] :: [] ∧ ((s true).xring 512).writing = none ∧
        ((s true).xring 512).enable = true ∧ roomFor (s true) 3 2 = true ∧ permitted (s true) .service 512 true 0 32) ∧
      (hit (s false) none ∧ ((s false).xring 512).waiting = [1, 2, 3, 4] :: [] ∧ ((s false).xring 512).writing = none ∧
        ((s false).xring 512).enable = false) ∧
      hit (t true 0) (some (a true)) ∧
      (hit (t false 0x1000) (some (a false)) ∧ ((t false 0x1000).xring 512).notifyAddr ≠ 0 ∧
        permitted (t false 0x1000) .service 512 true ((t false 0x1000).xring 512).notifyAddr.toNat 4) ∧
      (hit (t false 0) (some (a false)) ∧ ((t false 0).xring 512).notifyAddr = 0) ∧
      ({ dev with dir := { dev.dir with recountDue := true } } : State).dir.recountDue = true := by
  unfold permitted; decide +kernel

/-- Slot 0 is routed to member 0, slot 1 to member 1. -/
theorem witness_SpreadGrants : ∀ n ∈ [0, 1],
    let s := spreadState (granted n) 0
    let t := spreadState (granted n) 3
    (∀ u ∈ [s, t], u.req 1 = some (granted n) ∧ (granted n).stage = .granted ∧ (granted n).member = 0 ∧ (granted n).stat = none ∧
      ((before u (granted n)).any (fun x => x.stage == .granted && x.member == 0 && x.stat.isNone)) = false ∧
      mayFetch u (granted n).owner = true) ∧
      (spreadOf s (pairKey 512 0) = some (15, spread15 0 true) ∧ routeOf s (spread15 0 true) (granted n) = n ∧
        (spread15 0 true).lost.getLsbD n = false ∧
        creditsUsed s (spread15 0 true).key n < (spread15 0 true).credits) ∧
      (spreadOf t (pairKey 512 0) = some (15, spread15 3 true) ∧ routeOf t (spread15 3 true) (granted n) = n ∧
        (spread15 3 true).lost.getLsbD n = true) ∧
      ((granted n).keyUse = 0 ∧ (granted n).d.opcode ≠ 0x31) ∧ spreadOf (fly (granted n)) (pairKey 512 0) = none := by
  decide +kernel

/-- Requests of a cold association routed to member 1, whose transport key stands: one whose blob the cold cache holds, one whose blob
is no blob, and one that erases it. -/
theorem witness_SpreadGrantsCarryKeys :
    let q : Req := { granted 1 with entry := some 5, blob := zeros 96 }
    let e : ColdEntry := { set := 0, owner := 512, lead := zeros 16, tag := zeros 16, key := key1 }
    let s := spreadState q 0
    let x : State := { s with
      keys := { s.keys with coldCache := [e], coldCacheSlots := 4 }
      link := { s.link with transportKeys := [(7, zeros 32)] } }
    let d : Req := { q with d := { q.d with opcode := 0x31 } }
    (∀ u ∈ [s, x], routeOf u (u.spreadAt 15) q = 1 ∧ Tab.get (fun _ => 0) (u.spreadAt 15).perMember 1 ≠ 0) ∧
      Tab.get (fun _ => 0) (spread15 0 false).perMember 1 = 0 ∧ (q.keyUse ≠ 0 ∧ q.keyUse ≠ 2) ∧
      ((x.grantKey q).1.toOption = some key1 ∧ transportKey (x.grantKey q).2 ((x.spreadAt 15).instOf 1) = some (zeros 32)) ∧
      (s.grantKey q).1.toOption = none ∧ (d.keyUse = 0 ∧ d.d.opcode = 0x31 ∧ d.entry.isSome = true) := by
  decide +kernel

theorem witness_SpreadMembersAreLost :
    let s := spreadState (granted 1) 0
    (s.spreadAt 15).enable = true ∧ 1 ∈ (s.spreadAt 15).remote ∧ inMap s ((s.spreadAt 15).instOf 1) = false ∧
      (s.spreadAt 15).lost.getLsbD 1 = false := by
  decide +kernel

/-- A GRANT with MSEQ 0: due, or not; without a key, and with one that no KEYX brought. -/
theorem witness_SpreadMembersTakeGrants : ∀ f ∈ [0#8, 0x10#8], ∀ n ∈ [0, 2 ^ 32, 1],
    let g := msgOf kGrant (zeros 8 ++ [f] ++ zeros 47)
    let u := (linkState g (dev.onLink (fun l => { l with memberRings := [member7 n] }))).deliverMsg g kGrant
    u.map (fun u => (memberRing u g.src (leNat (cut g.body 8 1) % 16), freeReqId u)) = some (some (member7 n), some 0) ∧
      (member7 n).early = [] ∧ (leNat (cut g.body 4 4) = (member7 n).taken % 2 ^ 32 ↔ n ≠ 1) ∧
      bit (leNat (cut g.body 8 1)) 4 = (f == 0x10) ∧
      u.map (fun u => openKeyx u (member7 n).home (member7 n).nn (leNat (cut g.body 0 4)) (member7 n).owner) = some none := by
  decide +kernel

/-- A TOKEN of entry 15 with SSEQ 0, a configuration and a release, the other controls, a KEYX, fragments of an exchange. -/
theorem witness_SpreadMessagesBringRecordsAndKeys :
    let k := msgOf kToken (zeros 4 ++ [15] ++ zeros 35)
    let c (n : Nat) := msgOf kSpreadCtl ([BitVec.ofNat 8 n] ++ zeros 15)
    let x := msgOf kKeyx (zeros 120)
    let f (off : Nat) := msgOf kKeyxSetup (leBytes 4 off ++ leBytes 4 setupLen ++ zeros 112)
    let held := (List.range 64).map (fun i => { member7 0 with home := 64 + i })
    let q := { granted 1 with member := 1 }
    let u (lost : BitVec 8) := (linkState k { fly q with spread := [(15, spread15 lost true)] }).deliverMsg k kToken
    let last := (linkState (f (143 * 112)) dev).onPeer 7 (fun p => { p with share := [1], setup := zeros (143 * 112) })
    (∀ m ∈ [k, x, f 0] ++ (List.range 7).map c, ((linkState m dev).deliverMsg m m.kind).isSome = true) ∧
      ((u 0).map (fun u => (reqsOf u (u.spreadAt 15).key).find? (fun x =>
           x.2.homeGrant.isNone && x.2.stage == .granted && x.2.member != 0 && x.2.sseq == leNat (cut k.body 0 4)
             && x.2.stat.isNone && (u.spreadAt 15).instOf x.2.member == k.src)) = some (some (1, q)) ∧
        (u 0).map (fun u => decide (∀ i ∈ (u.spreadAt 15).remote, (u.spreadAt 15).instOf i = k.src →
          (u.spreadAt 15).lost.getLsbD i = false)) = some true) ∧
      (u 2).map (fun u => (u.spreadAt 15).remote.any (fun i => (u.spreadAt 15).instOf i == k.src
        && (u.spreadAt 15).lost.getLsbD i)) = some true ∧
      ([scConfig, scRelease, scConfigResult, scAbort, scAbortResult, scQuiesce].all (fun n =>
          n < 7 && leNat (cut (c n).body 0 1) == n && leNat (cut (c n).body 2 2) == 0) = true ∧
        (dev.link.memberRings.filter (fun x => !(x.home == 7 && x.nn == 0))).length < 64 ∧
        64 ≤ (held.filter (fun x => !(x.home == 7 && x.nn == 0))).length) ∧
      (leNat (cut (f 0).body 0 4) = (dev.peer 7).setup.length ∧ leNat (cut (f 0).body 4 4) = setupLen ∧
        (dev.peer 7).setup.length + 112 < setupLen) ∧
      (last.deliverMsg (f (143 * 112)) kKeyxSetup).map (fun u => (leNat (cut (f (143 * 112)).body 0 4) == (u.peer 7).setup.length,
        decide (setupLen ≤ (u.peer 7).setup.length + 112), (u.peer 7).share != [],
        setupAccepted u (((u.peer 7).setup ++ cut (f (143 * 112)).body 8 112).take setupLen))) = some (true, true, true, false) := by
  decide +kernel

/-! ## Hypotheses met: slices, access control and integrity (chapters 13 to 15) -/

theorem witness_SliceCommandsChangeState :
    let s (st : SliceState) (c : CmdStatus) := sliceAt st c
    ((s .absent .done).slice 511).cmdStatus ≠ .busy ∧ createRefusal (s .absent .done) 511 = none ∧
      (createRefusal (dev.onSlice 511 (fun x => { x with pasid := 0x100000 })) 511).isSome = true ∧
      ((s .active .done).slice 511).state = .active ∧ ((s .quiesced .done).slice 511).state = .quiesced ∧
      ((s .absent .busy).slice 511).state = .absent ∧ ((s .absent .busy).slice 511).cmdStatus = .busy ∧
      (((s .quiescing .busy).slice 511).state = .quiescing ∧ ((s .quiescing .busy).slice 511).cancelling = false ∧
        (List.range 8).all (fun p => pairQuiet (s .quiescing .busy) (pairKey 511 p)) = true) ∧
      (((s .resetting .busy).slice 511).state = .resetting ∧ ((s .removing .busy).slice 511).state = .removing ∧
        ∀ st ∈ [SliceState.resetting, SliceState.removing],
          (slotsOf (s st .busy) 511).any (fun k => !(holders (s st .busy) k).isEmpty || jobHolds (s st .busy) k) = false) := by
  decide +kernel

/-- The log of slice 511 in this state, with these pages waiting. -/
def promAt (st : PromState) (w : List (Nat × Bool)) : State :=
  (sliceAt .active .done).onSlice 511 (fun x =>
    { x with prom := { x.prom with enable := true, state := st, baseA := 0x1000, waiting := w } })

theorem witness_PromenadeLogsAndSwaps :
    let a : Acc := { acc .promRead false 8 (zeros 8) with owner := 511 }
    let w := promAt .logging [(65, false)]
    let e := withEnded (promAt .logging []) a
    ((sliceAt .active .done).slice 511).prom.enable = false ∧
      ((w.slice 511).prom.waiting = (65, false) :: [] ∧ w.port.outstanding = [] ∧ w.port.ended = [] ∧ roomFor w 3 1 = true ∧
        permitted w .service 511 false (((w.slice 511).prom.base false + 8 * (65 / 64)) % 2 ^ 64) 8) ∧
      (e.port.ended = [a] ∧ a.kind = .promRead ∧ a.owner = 511 ∧ (e.slice 511).prom.enable = true ∧
        (e.slice 511).prom.state = .logging ∧ roomFor e 3 1 = true ∧
        permitted e .service 511 true (((e.slice 511).prom.base (a.pair == 1) + 8 * (a.off / 64)) % 2 ^ 64) 8) ∧
      (withEnded (promAt .logging []) { a with kind := .promWrite }).port.ended = [{ a with kind := .promWrite }] ∧
      ((sliceAt .active .done).slice 511).prom.state ≠ .logging ∧
      (let p := promAt .swapping []
       (p.slice 511).prom.state = .swapping ∧ p.port.outstanding = [] ∧ p.port.ended = [] ∧
         (p.slice 511).prom.waiting = []) := by
  unfold permitted; decide +kernel

theorem witness_RuleCommitsSwitchEpochs :
    dev.access.commitState = .idle ∧ (commitAt .validating false true false).access.commitState ≠ .idle ∧
      ((commitAt .validating false true false).access.validated = false ∧ commitCheck (commitAt .validating false true false) = none ∧
        commitCheck (commitAt .validating false true true) = some (.range, 0)) ∧
      ((commitAt .waiting true true false).access.commitState ≠ .idle ∧ (commitAt .waiting true true false).access.validated = true ∧
        (commitAt .waiting true true false).access.epochDrained = true) ∧
      (∀ x ∈ (commitAt .idle false false false).port.outstanding, x.epoch = (commitAt .idle false false false).access.epochNow) ∧
      ((commitAt .idle false false false).access.epochDrained = false ∧ (commitAt .idle false false false).access.warned = false) := by
  decide +kernel

/-- Store 4 at its first line and at its last; an injection into its last line, permitted by a certificate and not. -/
theorem witness_MemoryIsScrubbedAndTheSealRecomputed :
    let t := { dev with memory := { dev.memory with stores := [(4, { Store.dflt 4 with position := 2047 })] } }
    let i : State := { dev with memory := { dev.memory with injectStore := 4, injectLine := 2047 }
                                lc := { dev.lc with debugRights := 2 } }
    let r (m : Bool) : State := { dev with ident := { dev.ident with recomputing := true, measured := m, changed := true } }
    13 < 14 ∧ (dev.memory.damages = [] ∧ (dev.store 4).position + 1 < storeLines 4) ∧ storeLines 4 ≤ (t.store 4).position + 1 ∧
      injectAllowed dev = false ∧
      (injectAllowed i = true ∧ storeOf i.memory.injectStore = some 4 ∧ i.memory.injectLine.toNat < storeLines 4) ∧
      ((r true).ident.recomputing = true ∧ (r true).ident.measured = true ∧ (r true).ident.changed = true) ∧
      ((r false).ident.recomputing = true ∧ (r false).ident.measured = false) := by
  decide +kernel

/-! ## Hypotheses met: life cycle, start, tamper (chapters 16, 17 and 21) -/

theorem witness_LifeCycleRequestsProgramAntifuses :
    let m := lcAt .mission none false
    let t := lcAt (.testLocked 0) none false
    let i := lcAt .mission none true
    let p := lcAt .mission (some lastField) false
    (m.start.inReset = false ∧ m.lc.programming = none ∧ m.lc.interrupted = false ∧ m.lc.status ≠ 2 ∧ m.lc.state = .mission) ∧
      (t.lc.state = .testLocked 0 ∧ nextToken t = some 1 ∧ t.lc.tokenFails.toNat < 8) ∧
      (i.lc.interrupted = true ∧ (fuseField i 0 i.lc.interruptedField).full = false) ∧
      (p.lc.programming = some lastField ∧ lastField.todo = .copy 2 35 :: [] ∧ p.pins.vppOk = true ∧
        lastField.scrapWaits = false) ∧
      (let q : Programming := { lastField with todo := [.copy 1 35, .copy 2 35] }
       q.todo = .copy 1 35 :: [.copy 2 35] ∧ [FusePlace.copy 2 35] ≠ [] ∧ q.scrapWaits = false) := by
  decide +kernel

/-- The token that opens the next state, and one that does not. -/
theorem witness_UnlockTokenMatchesOrNot :
    let h := ((HashWork.start 5).absorb (lcAt (.testLocked 0) none false).lc.token).finish 32
    (∃ tokens : Tab Bytes, h = Tab.get (fun _ => zeros 32) tokens 1) ∧
      ∃ tokens : Tab Bytes, ¬ h = Tab.get (fun _ => zeros 32) tokens 1 :=
  ⟨⟨[(1, _)], rfl⟩, [(1, 0 :: ((HashWork.start 5).absorb (lcAt (.testLocked 0) none false).lc.token).finish 32)], fun h => by
    have := congrArg List.length h
    simp [Tab.get] at this⟩

/-- A submission of zeros, which fails check 3 of its format. Whether a signature verifies is free, so that no state can
be shown in which a certificate passes. -/
theorem witness_CertificatesAndReportsAreMade :
    let c : State := { dev with lc := { dev.lc with debugChecking := true, debugCert := [] } }
    let n : State := { dev with rng := { dev.rng with state := .stopped } }
    let a (x : Nat) : State := { dev with pke := { dev.pke with caller := .ready }, lc := { dev.lc with attestState := x } }
    let b (x : Nat) : State := { dev with lc := { dev.lc with attestState := x } }
    (dev.start.inReset = false ∧ dev.rng.state = .running) ∧ n.rng.state ≠ .running ∧ dev.lc.debugChecking = false ∧
      (c.lc.debugChecking = true ∧ certOutcome c ≠ 2 ∧ certOutcome c ≠ 10) ∧
      ((a 0).lc.attestState ≠ 1 ∧ attestable (a 0) = true) ∧ ((b 0).lc.attestState ≠ 1 ∧ attestable (b 0) = false) ∧
      ((a 1).lc.attestState = 1 ∧ attestable (a 1) = true) ∧ ((b 1).lc.attestState = 1 ∧ attestable (b 1) = false) := by
  refine ⟨by decide +kernel, by decide +kernel, by decide +kernel, ⟨rfl, ?_, ?_⟩, by decide +kernel, by decide +kernel,
    by decide +kernel, by decide +kernel⟩ <;> simp [certOutcome]

theorem witness_StartSequenceStepsAndFails :
    let z := stepAt .lcDecode 0 2
    let x : State := { z with lc := { z.lc with copies := [(34, { bits := 255, unstable := false })] } }
    let v : State := { z with lc := { z.lc with copies := [(34, { bits := 255, unstable := false }),
      (97, { bits := 255, unstable := false }), (160, { bits := 255, unstable := false })] } }
    let f := withEnded { stepAt .callerLoad 5 0 with start := { (stepAt .callerLoad 5 0).start with imageDenied := true } }
      (imageAcc 0 0)
    (z.start.state = .lcDecode ∧ z.start.inReset = false ∧ z.start.alarmPending = false ∧ z.pins.tamperActive = 0 ∧
      z.start.failedStarts < 3) ∧ majority z = some .blank ∧ majority x = some .blank ∧ majority v = none ∧
      (∀ k ∈ [1, 2], ∀ n ∈ [2, 3], starting (stepAt .selfTest k n) = true ∧ (stepAt .selfTest k n).start.step = k) ∧
      (starting (stepAt .selfTest 4 0) = true ∧ (stepAt .selfTest 4 0).start.step = 4 ∧
        (stepAt .selfTest 4 0).start.erasePending = false ∧
        rootMark (stepAt .selfTest 4 0) = (stepAt .selfTest 4 0).start.previousRoot ∧
        (stepAt .selfTest 4 0).start.bootEpoch ≠ 0xFFFFFFFF#32 ∧
        Tab.has (stepAt .selfTest 4 0).start.vaultSeeds mgr = true ∧ (stepAt .selfTest 4 0).pke.callerImageAddr ≠ 0) ∧
      (starting f = true ∧ f.start.step = 5 ∧ f.pke.caller = .verifying ∧ imageRead f = true) ∧
      (let t : State := { z with pins := { z.pins with tamperActive := 1#8 } }
       majority t = some .blank ∧ t.pins.tamperActive &&& tamperMask { t with lc := { t.lc with state := .blank } } ≠ 0) ∧
      (let p : State := { dev with start := { dev.start with state := .pavane } }; p.start.state = .pavane) := by
  decide +kernel

theorem witness_imageBytes (x : Byte) (hx : x ∈ [0#8, 1#8]) :
    imageBytes (withEnded (stepAt .callerLoad 5 0) (imageAcc 0x46433954 x)) = imageOf 0x46433954 x := by
  have e : (imageParts (withEnded (stepAt .callerLoad 5 0) (imageAcc 0x46433954 x))).map (fun a => (a.off, a.data))
      = [(0, imageOf 0x46433954 x)] := by
    revert x
    decide +kernel
  unfold imageBytes
  rw [e, List.mergeSort_singleton]
  simp

/-- An image that no read brought; two of the right format, one of them with another IMAGE_DIGEST than its own, where an unsigned one
may run and where not. Whether a signature verifies is free. -/
theorem witness_CallerImageFormats :
    let d : State := { stepAt .callerLoad 5 0 with start := { (stepAt .callerLoad 5 0).start with imageDenied := true } }
    let g (x : Byte) := withEnded (stepAt .callerLoad 5 0) (imageAcc 0x46433954 x)
    (imageFormat d 0x46433954 (imageBytes d) = some (0x09, 2)) ∧
      (∀ x ∈ [0#8, 1#8], imageRead (g x) = true ∧ imageFormat (g x) 0x46433954 (imageBytes (g x)) = none ∧
        unsignedOk (g x) = false ∧ unsignedOk { g x with lc := { (g x).lc with state := .develop } } = true) ∧
      (imageAccept (g 0) (imageBytes (g 0)) = some (0x0B, 0) ∨ imageAccept (g 1) (imageBytes (g 1)) = some (0x0B, 0)) := by
  refine ⟨by simp [imageFormat], fun x hx => ⟨?_, ?_, ?_, ?_⟩, ?_⟩
  · revert x; decide +kernel
  · rw [witness_imageBytes x hx]; revert x; decide +kernel
  · revert x; decide +kernel
  · revert x; decide +kernel
  · rw [witness_imageBytes 0 (by decide), witness_imageBytes 1 (by decide)]
    have e : imageDigest (imageOf 0x46433954 0) = imageDigest (imageOf 0x46433954 1) :=
      congrArg (fun b => ((HashWork.start 2).absorb b).finish 48) (by decide +kernel)
    by_cases h : imageDigest (imageOf 0x46433954 0) = cut (imageOf 0x46433954 0) 32 48
    · have n : imageDigest (imageOf 0x46433954 1) ≠ cut (imageOf 0x46433954 1) 32 48 := by
        rw [← e, h]; decide +kernel
      exact Or.inr (by unfold imageAccept; rw [if_pos n])
    · exact Or.inl (by unfold imageAccept; rw [if_pos h])

theorem witness_ResetsLeaveTheResetState :
    let i : State := { dev with pins := { dev.pins with iso := true } }
    let r : State := { dev with start := { dev.start with state := .resetting } }
    let h : State := { dev with start := { dev.start with state := .startHalt, retryArmed := true } }
    let l : State := { dev with lc := { dev.lc with status := 1 } }
    (dev.pins.iso = false ∧ dev.start.powerGood = true ∧ dev.start.inReset = false ∧ dev.start.failReason ≠ 0x0D ∧
      dev.start.state ≠ .resetting ∧ dev.lc.status ≠ 1) ∧ (i.pins.iso = true ∧ i.start.powerGood = true) ∧ l.lc.status = 1 ∧
      (r.start.state = .resetting ∧ drained r = true) ∧ (h.start.state = .startHalt ∧ h.start.retryArmed = true) := by
  decide +kernel

/-- Inputs 0 and 3, the second a voltage detector once armed. -/
theorem witness_TamperZeroisesAndPinsShow :
    let v : State := { dev with pins := { dev.pins with detectorsArmed := true } }
    let a : State := { dev with start := { dev.start with alarmPending := true } }
    let w : State := { dev with start := { dev.start with state := .tamperWait } }
    let m : State := { dev with pins := { dev.pins with meshOpen := 0x1#20 } }
    (dev.pins.tamperActive.getLsbD 0 = false ∧ (tamperMask dev).getLsbD 0 = true ∧ dev.start.powerGood = true) ∧
      (v.pins.tamperActive.getLsbD 3 = false ∧ (tamperMask v).getLsbD 3 = true ∧ (tamperMask dev).getLsbD 3 = false) ∧
      (a.start.alarmPending = true ∧ a.start.state ≠ .tamperHold ∧ a.reqs = [] ∧
        a.engine.pairs.all (fun e => recordsSettled e.2) = true) ∧
      (w.start.state = .tamperWait ∧ w.start.alarmPending = false ∧ w.start.failedStarts < 3 ∧
        (let x : State := { w with start := { w.start with failedStarts := 3 } }; 3 ≤ x.start.failedStarts)) ∧
      ((0x1#20 &&& m.pins.meshOpen) &&& 0xFFFF#20 ≠ 0 ∧ 0x2#20 &&& m.pins.meshOpen = 0) ∧
      (dev.rng.state = .running ∧ reseedDue dev = false) := by
  decide +kernel

/-! ## Hypotheses met: the link, the dictionary, events and registers (chapters 18 to 20) -/

theorem witness_LinkPortsComeUpFailAndGoDown :
    let d := linkAt .down id
    let r := linkAt .down (fun l => { l with phyReady := true, relockDue := true })
    let e := linkAt .down (fun l => { l with phyReady := true, enable := false })
    let t := linkAt .train (fun l => { l with eye := List.replicate 8 64, trained := 0xFF })
    let i := linkAt .identify (fun l =>
      { l with identSeen := true, peerFixed := true, peerRole := 0, echoDelays := List.replicate 16 5 })
    (d.link.cascadeSize ≠ 1 ∧ d.start.inReset = false ∧ (d.lport 1).state = .down ∧ (d.lport 1).enable = true ∧
      (d.lport 1).state ≠ .failed) ∧
      ((r.lport 1).state = .down ∧ (r.lport 1).enable = true ∧ (r.lport 1).phyReady = true ∧ (r.lport 1).relockDue = true) ∧
      ((e.lport 1).enable = false ∧ (e.lport 1).phyReady = true) ∧ ((linkAt .lock id).lport 1).state = .lock ∧
      (((linkAt .failed id).lport 1).state = .failed ∧ (d.lport 1).relockDue = false) ∧
      ((t.lport 1).state = .train ∧ runsTrials t 1 = true ∧ t.pins.clocksPresent.getLsbD 7 = true ∧ (t.lport 1).trial < 20 ∧
        20 ≤ ((linkAt .train (fun l => { l with trial := 20 })).lport 1).trial ∧
        ∀ i < 8, (t.lport 1).laneStatus.getD i 1 = 0 ∧ (t.lport 1).trained.getLsbD i = true ∧
          t.link.eyeMin ≤ (octet (t.lport 1).eye i).toNat) ∧
      ((linkAt .align id).lport 1).state = .align ∧
      (∀ z ∈ [(8, none), (7, some 6)],
        let s := identState z.1
        let m := { msgOf kIdent (identOf 1 z.1) with dest := 0xFF }
        (s.takeMsg 1 m kIdent).isSome = true ∧ (s.takeMsg 1 m kIdent).map (fun u =>
          identConflict (u.onLport 1 (fun x =>
            { x with peerInstance := (octet m.body 51).toNat, peerPort := (octet m.body 48).toNat
                     peerFixed := bit (octet m.body 50).toNat 1, peerRole := (octet m.body 49).toNat
                     peerDevice := cut m.body 0 48, identSeen := true })) 1 m.body) = some z.2) ∧
      ((i.lport 1).identSeen = true ∧ i.link.isFixed = true ∧ (i.lport 1).peerFixed = true ∧
        (i.lport 1).peerRole ≠ (i.lport 1).role ∧ 16 ≤ (i.lport 1).echoDelays.length) ∧
      ((linkAt .identify id).link.isFixed = false ∨ ((linkAt .identify id).lport 1).peerFixed = false) ∧
      ((linkAt .up id).lport 1).state = .up := by
  decide +kernel

/-- A port with one kept frame, after 7 replays and after 8, its clock running or stopped; a LACK that names the frame, and one that
does not. -/
theorem witness_LinkFramesAreTakenAndReplayed : ∀ n ∈ [7, 8],
    let s := linkAt .up (fun l => { l with kept := [(65535, [])], replayRuns := n, creditsDue := 1 })
    let x : State := { s with pins := { s.pins with clocksPresent := 0 } }
    let a (lack : Nat) := LinkPort.ackTo { s.lport 1 with framesRx := (s.lport 1).framesRx + 1, credits := (s.lport 1).credits + 1 } lack
    (s.lport 1).state = .up ∧ 0 < (s.lport 1).creditsDue ∧ (s.lport 1).kept ≠ [] ∧ (n = 7 → (s.lport 1).replayRuns < 8) ∧
      (n = 8 → 8 ≤ (s.lport 1).replayRuns) ∧ s.linkClock 1 = true ∧ x.linkClock 1 = false ∧ (x.lport 1).state = .up ∧
      (a 0).names 0 = false ∧ (a 65535).names 65535 = true ∧ (n = 7 → (a 65535).replayRuns < 8) ∧
      (n = 8 → 8 ≤ (a 65535).replayRuns) := by
  decide +kernel

theorem witness_UnorderedMessagesMapTimeAndForward :
    let map := plainMsg kMap 0xFF 0 ([7, 5, 0, 0, 5, 1] ++ zeros 10)
    let step := plainMsg kTime 0xFF 0 (leBytes 8 500 ++ zeros 8)
    let slew := plainMsg kTime 0xFF 0 (leBytes 8 164 ++ zeros 8)
    let ask := plainMsg kEcho 0 0 (zeros 16)
    let answer := plainMsg kEcho 0 0 (leBytes 8 (2 ^ 63 + 10) ++ leBytes 4 40 ++ leBytes 4 50)
    let strange := plainMsg 0x7F 0 0 (zeros 16)
    let last := plainMsg kDoorbell 5 7 (zeros 16)
    let on := plainMsg kDoorbell 5 6 (zeros 16)
    let diff (m : Msg) : Int := (BitVec.ofNat 48 (leNat (cut m.body 0 8) % 2 ^ 48 + leNat (cut m.body 8 4)
      + ((plainState m).now - 100).toNat) - (plainState m).now).toInt
    (∀ x ∈ [(map, kMap), (step, kTime), (slew, kTime), (ask, kEcho), (answer, kEcho)],
      ((plainState x.1).takeMsg 1 x.1 x.2).isSome = true) ∧
      ((octet map.body 0).toNat ≠ (plainState map).link.instanceNo ∧
        (octet map.body 0).toNat < (plainState map).link.cascadeSize ∧ (plainState map).pins.htEnabled = true ∧
        (plainState map).link.cascadeSize ≠ 1 ∧ ((plainState map).lport 1).state = .up) ∧
      (diff step < -64 ∨ 64 < diff step) ∧ (-64 ≤ diff slew ∧ diff slew ≤ 64) ∧
      bit (leNat (cut ask.body 0 8)) 63 = false ∧
      (bit (leNat (cut answer.body 0 8)) 63 = true ∧ ((plainState answer).lport 1).echoDelays.length < 16) ∧
      (∀ m ∈ [strange, last, on], ((plainState m).lport 1).rx.head? = some { msg := m, cost := 1, arrived := 100 }) ∧
      knownKind strange.kind = false ∧ (∀ m ∈ [last, on], knownKind m.kind = true ∧ (plainState m).forMe m = false) ∧
      (plainState last).link.cascadeSize ≤ last.hops + 1 ∧ on.hops + 1 < (plainState on).link.cascadeSize ∧
      ((plainState on).lport 0).state ≠ .up ∧ (((plainState on).onLport 0 (fun l => { l with state := .up })).lport 0).state = .up := by
  decide +kernel

theorem witness_OrderedMessagesAreKeptUntilAcknowledged :
    let restart := plainMsg kAck 0 0 (leBytes 8 (2 ^ 63))
    let ack := plainMsg kAck 0 0 (leBytes 8 3)
    let p := (linkAt .up id).onPeer 7 (fun x =>
      { x with pending := [msgOf kDoorbell []], delivered := 1, expectPseq := some 0, everReached := true })
    let bell := msgOf kDoorbell (leBytes 2 0x200 ++ [7, 0] ++ leBytes 4 0x80000000 ++ leBytes 8 1)
    (∀ m ∈ [restart, ack], (plainState m).rxPort m = some 1 ∧ ((plainState m).takeMsg 1 m kAck).isSome = true) ∧
      bit (leNat (cut restart.body 0 8)) 63 = true ∧ bit (leNat (cut ack.body 0 8)) 63 = false ∧
      (plainState ack).link.waiting = [] ∧
      ((p.peer 7).pending ≠ [] ∧ 0 < (p.peer 7).delivered ∧ (p.peer 7).expectPseq = some 0 ∧ p.link.cascadeSize ≠ 1 ∧
        7 ≠ p.link.instanceNo ∧ (p.peer 7).reach = 0 ∧ (p.peer 7).everReached = true) ∧
      (512 ≤ mgr ∧ accepts (linkAt .up id) bus 512 = true ∧ 0 < (linkAt .up id).link.cascadeSize ∧
        (linkAt .up id).link.cascadeSize ≤ 8 ∧ 7 < (linkAt .up id).link.cascadeSize) ∧
      ((linkState bell dev).deliverMsg bell kDoorbell).map (fun u =>
        (decide (u.pageAccess { pasid := none, be := 0xFF } mgr = (true, u)), pageDead u mgr)) = some (true, false) := by
  decide +kernel

/-- A READ of INSTANCE_NO on this instance, on the absent instance 3, and on the reachable instance 7. -/
theorem witness_DictWindowCapturesOperations :
    let w (target : Nat) := withOp (BitVec.ofNat 64 (target * 2 ^ 56 + 0x011000)) 1 &&& indexMask
    let o (target : Nat) := opOfIndex (w target).toNat dev.dict.segment
    let s := (linkAt .up id).onPeer 7 (fun x => { x with reach := 1 })
    let b : State := { dev with dict := { dev.dict with busy := true } }
    accepts dev bus mgr = true ∧ b.dict.busy = true ∧ dev.dict.busy = false ∧ (o 0).target = instanceRead dev ∧
      ((o 3).target ≠ instanceRead dev ∧ dictRoute dev (o 3).target = false) ∧
      (s.dict.busy = false ∧ (o 7).target ≠ instanceRead s ∧ dictRoute s (o 7).target = true) := by
  decide +kernel

/-- A READ of the identity, a WRITE of 1 to RESET_REQUEST (an IMMEDIATE reset), a response to TAG 9, a READ asked for by the
head and one by another instance. -/
theorem witness_DictionaryWindowRunsOperations :
    let r := opOn 1 0x1000 0x01 []
    let resp := msgOf kDictResp (zeros 7 ++ [9] ++ zeros 8)
    let ask := { msgOf kDictReq ([0x00, 0x10, 0x01, 1] ++ zeros 12) with src := 0 }
    let far := msgOf kDictReq ([0x00, 0x10, 0x01, 1] ++ zeros 12)
    let got (m : Msg) (s : State) : State := (linkState m s).onPeer m.src (fun p => { p with expectPseq := some 4 })
    (∀ x ∈ [(r, some (DictResult.refusal 0x0B)), (r, none)],
      (windowAt x.1 x.2 none).dict.current = some x ∧ (windowAt x.1 x.2 none).dict.awaiting = none ∧
        (windowAt x.1 x.2 none).start.inReset = false ∧ (windowAt x.1 x.2 none).start.step0Done = true) ∧
      ((windowAt r none none).dictRun r 0).2.1 = false ∧
      ((windowAt r none (some 9)).dict.current = some (r, none) ∧ (windowAt r none (some 9)).dict.awaiting = some 9) ∧
      (∀ t ∈ [some 9, some 8, none], ((got resp (windowAt r none t)).deliverMsg resp kDictResp).map
        (fun u => (u.dict.current, u.dict.awaiting)) = some (some (r, none), t)) ∧ leNat (cut resp.body 7 1) = 9 ∧
      (∀ m ∈ [ask, far], ((got m dev).deliverMsg m kDictReq).isSome = true ∧ (got m dev).start.inReset = false ∧
        (got m dev).start.step0Done = true) ∧ far.src ≠ 0 ∧ ask.src = 0 ∧ (opOfReq ask).op ≠ 0 ∧
      ((got ask dev).deliverMsg ask kDictReq).map (fun u => (u.dictRun (opOfReq ask) 1).2.1) = some false := by
  decide +kernel

theorem witness_DictionaryOperationsAreChecked :
    (0x0FFF < 0xF000 ∧ topSub 0x0FFF = none) ∧ look dev 0x1000 0xFE = (2, 0, 0) ∧
      (0xF000 ≤ 0xF000 ∧ vendorOpen dev 1 = false ∧ vendorOpen { dev with lc := { dev.lc with state := .blank } } 1 = true) ∧
      (look dev 0x1000 0x01).2.1 = aRO ∧ (look dev 0x7101 0x04).2.1 = aWO ∧
      (8 ≤ (look dev 0x2300 0x06).1 ∧ (look dev 0x2300 0x06).2.1 = aRW ∧ (33 : Nat) % 32 ≠ 0 ∧ (look dev 0x1000 0x01).1 < 8) ∧
      ((look dev 0x2020 0x02).2.1 = aRWL ∧ rwlOpen dev = false ∧ rwlOpen { dev with lc := { dev.lc with state := .develop } } = true) := by
  decide +kernel

/-- An occurrence of source 0x248 waiting. -/
theorem witness_EventsAreAcceptedAndCleared :
    let s := dev.raise 0x248 7 0
    let f : State := { dev with lc := { dev.lc with debugRights := 0x40 } }
    let m := plainMsg kEvent 0 0 (zeros 32)
    (s.events.waiting = { src := 0x248, arg := 7, info := 0, forced := false } :: [] ∧ s.start.step0Done = true ∧
      severityOf 0x248 = some .warn) ∧ accepts dev bus mgr = true ∧
      ((severityOf 0x24A).isSome = true ∧ f.lc.debugRights.getLsbD 6 = true ∧ dev.lc.debugRights.getLsbD 6 = false) ∧
      ((plainState m).rxPort m = some 1 ∧ ((plainState m).takeMsg 1 m kEvent).isSome = true) := by
  decide +kernel

/-- The manager's access, one to slice 511, and a partial one. -/
theorem witness_RegistersActByAddress :
    let own : Bus := { pasid := some 5, be := 0xFF }
    accepts dev bus mgr = true ∧ accepts (sliceAt .active .done) own 511 = true ∧
      (dev.pins.htEnabled = true ∧ dev.start.inReset = false ∧ (0x7F#8 : BitVec 8) ≠ 0xFF) := by
  decide +kernel

/-! ## Hypotheses met: ABORT and steps (chapter 2) -/

/-- Request 2 aborts request 1, at position 0 of ring 0, enabled or not; one names a position with no request. -/
theorem witness_AbortsAreSettledAtTheDecisionPoint :
    let x := { reqAt 0x10 .gate with abortWaiting := [] }
    let n := reqAt 0x70 .gate
    let f := reqAt 0x10 .descRead
    let s (y : Req) := (fly y).putReq 2 (abortReq 0)
    let d := (dev.putReq 2 (abortReq 0))
    let e := (fly x).putReq 2 (abortReq 3)
    let w := { reqAt 0x10 .gate with abortWaiting := [2] }
    let g := { w with m := { Myeno.fresh with ending := some (ends .authFail 0x01), headSeen := true } }
    let r := { (onLane15 0x11 1 0).2 with abortWaiting := [2] }
    (d.req 2 = some (abortReq 0) ∧ (abortReq 0).stage = .abortWait ∧
      (d.ring (pairKey 512 (abortRing (abortReq 0).d))).state ≠ .enabled ∧
      (d.ring (pairKey 512 (abortRing (abortReq 0).d))).state ≠ .draining) ∧
      (∀ y ∈ [x, n], (s y).req 2 = some (abortReq 0) ∧ ((s y).ring (pairKey 512 (abortRing (abortReq 0).d))).state = .enabled ∧
        abortTarget (s y) (abortReq 0) = some (1, y) ∧ y.stage ≠ .descRead ∧ 2 ∉ y.abortWaiting) ∧
      ((s f).req 2 = some (abortReq 0) ∧ abortTarget (s f) (abortReq 0) = some (1, f) ∧ f.stage = .descRead ∧ 2 ∉ f.abortWaiting) ∧
      abortTarget e (abortReq 3) = none ∧
      (∀ y ∈ [w, g, r], (s y).req 1 = some y ∧ y.abortWaiting = 2 :: [] ∧ (s y).req 2 = some (abortReq 0) ∧
        (abortReq 0).stage = .abortWait ∧ (abortReq 0).stat = none ∧ y.stage ≠ .descRead ∧
        ¬ (y.stage = .granted ∧ y.member ≠ 0 ∧ y.stat = none)) ∧
      (r.ended = false ∧ r.m.headSeen = true ∧ r.m.dispatched = true ∧ isKeyOp r.d.opcode = false ∧ r.m.stopAtSegment = none ∧
        r.m.segIssued ≠ r.m.segPassed) ∧
      (w.ended = false ∧ w.m.headSeen = false ∧ w.m.stopAtSegment = none ∧ w.stat = none) ∧
      (g.ended = true ∧ g.recordIssued = false) := by
  decide +kernel

theorem witness_StepsKeepQueueAndWindow :
    let s : State := { dev with pending := [.tick, .tick] }
    s.pending = .tick :: [.tick] ∧ dev.pending = [] ∧ (Instr.tick).wf = true ∧ windowInv s ∧
      step s = .next { s with dir := { s.dir with tickNow := s.dir.tickNow + 1 }, pending := [.tick] } := by
  refine ⟨rfl, rfl, rfl, by decide +kernel, rfl⟩

/-! ## Commands that are well formed at the end of their ranges, and ill formed beyond (WellFormed.lean) -/

/-- Straps and a message within the widths of Tables 21-2 and 18-4. -/
def wireStraps : Straps := { htEnable := true, cascadeN := 127, linkRate := 3 }
def wireMsg : Msg := { kind := 255, src := 255, dest := 255, hops := 255, restart := true, pseq := 65535, body := [] }

theorem test_wf_accepts_1 : ∀ c ∈ (
    [.rqTail bus 512 7 0, .cqHead bus 512 7 0, .ringEnable bus 512 7, .ringDisable bus 512 7, .ringDrained 512 7,
     .descriptorArrival 512 7, .descSingleReread 512 7, .laneTurn 15, .tangoMismatch 0 .block 256,
     .writeResponse 3 0 true, .readDataBeat 3 0 [] true true, .spResponseTimeout 3 0, .tailWriteIssue 512 7,
     .tailWriteAck 512 7, .coalTimeExpiry 512 7, .memberLost 15 7, .kwCommitLoad bus 512, .kwCommitClear bus 512,
     .loadInForce 65535, .eraseComplete 65535, .eraseLimitExpiry 65535, .sweepVisit ⟨131071, true⟩, .exceptionEntryWrite 512 3,
     .xrEnable bus 512, .laneRetestDone 15 true, .posture 255, .dgConfig bus 512 0, .digestData bus 512 0,
     .digestLast bus 512 0x18 0, .digestFinishDone 512, .dgCmdSave bus 512, .dgCmdRestore bus 512,
     .dgCmdAbandon bus 512, .digestBlockDone 7 ⟨0, .pass⟩, .unitRetestDone 7 true, .yieldPoint 3, .pkeJobEnd 3 true,
     .engineMismatch 3, .pkeContextZeroed 3 0, .engineRetestDone 3 true, .pkFifoData bus 512, .fifoSetMark bus 4 512,
     .fifoRewind bus 4 512, .fifoClearMark bus 4 512, .fifoData bus 4 512, .send bus 3 511 0, .sendCmdOpen bus 3 511,
     .sendCmdAbandon bus 3 511, .sendClose bus 3 511 0, .noiseSample 3 true, .generateCall (.reservoir 15),
     .portRefill 512, .rngWord bus 512, .create 511, .quiesce 511, .quiesceDone 511, .quiesceLimitExpiry 511,
     .resume 511, .reset 511, .remove 511] : List Instr), c.wf = true := by
  decide +kernel

theorem test_wf_accepts_2 : ∀ c ∈ (
    [.sliceResetComplete 511, .promEnable 511 true, .promLogWrite 511 3, .promSwap 511, .promSwapDone 511,
     .scrubLineRead 13, .lcRequestTransition 255, .powerOn wireStraps, .iso true wireStraps, .pin wireStraps,
     .resetRequestImmediate wireStraps, .orderlyResetTakesPlace wireStraps, .resetDrainLimitExpiry wireStraps,
     .selfTestDone 2 none, .startRetryTimeExpiry wireStraps, .pavaneExit wireStraps, .tamperAlarm 7 0,
     .portEnable 1 true, .lanesClassified 1 [] 0, .trainingTrial 1 [] ⟨[], 0⟩, .trainingEnd 1 0, .alignDone 1 [] true,
     .portUp 1, .portDown 1 0, .relock 1, .phyReady 1, .frameReceive 1 0 0 0 true [wireMsg], .controlFrame 1 0 0,
     .replayTimeExpiry 1, .controlFramePeriod 1, .ident 1 wireMsg, .identPeriod 1, .map 1 wireMsg, .time 1 wireMsg,
     .echo 1 wireMsg, .echoRenewal 1, .ackE2e wireMsg, .e2eTimeExpiry 63, .ackE2ePeriod 63, .destLost 63,
     .messageForward 1 wireMsg, .doorbell wireMsg, .doorbellWindowWrite bus 16777215 0, .grant wireMsg, .token wireMsg,
     .spreadCtl wireMsg, .keyx wireMsg, .keyxSetup wireMsg, .dictReq wireMsg, .dictResp wireMsg, .event wireMsg,
     .statusClear bus 9 0, .forcedOccurrence 639, .clockStopped 8, .registerWrite bus 67108863 0,
     .registerRead bus 67108863, .clockReturned 8, .createComplete 511] : List Instr), c.wf = true := by
  decide +kernel

theorem test_wf_refuses_1 : ∀ c ∈ (
    [.rqTail bus 513 7 0, .rqTail bus 512 8 0, .cqHead bus 513 7 0, .cqHead bus 512 8 0, .ringEnable bus 513 7,
     .ringEnable bus 512 8, .ringDisable bus 513 7, .ringDisable bus 512 8, .ringDrained 513 7, .ringDrained 512 8,
     .descriptorArrival 513 7, .descriptorArrival 512 8, .descSingleReread 513 7, .descSingleReread 512 8,
     .laneTurn 16, .tangoMismatch 0 .block 257, .writeResponse 4 0 true, .readDataBeat 4 0 [] true true,
     .spResponseTimeout 4 0, .tailWriteIssue 513 7, .tailWriteIssue 512 8, .tailWriteAck 513 7, .tailWriteAck 512 8,
     .coalTimeExpiry 513 7, .coalTimeExpiry 512 8, .memberLost 16 7, .memberLost 15 8, .kwCommitLoad bus 513,
     .kwCommitClear bus 513, .loadInForce 65536, .eraseComplete 65536, .eraseLimitExpiry 65536, .sweepVisit ⟨131072, true⟩,
     .exceptionEntryWrite 513 3, .exceptionEntryWrite 512 4, .xrEnable bus 513, .laneRetestDone 16 true, .posture 256,
     .dgConfig bus 513 0, .digestData bus 513 0, .digestLast bus 513 0x18 0, .digestLast bus 512 7 0,
     .digestFinishDone 513, .dgCmdSave bus 513, .dgCmdRestore bus 513, .dgCmdAbandon bus 513,
     .digestBlockDone 8 ⟨0, .pass⟩, .unitRetestDone 8 true, .yieldPoint 4, .pkeJobEnd 4 true, .engineMismatch 4,
     .pkeContextZeroed 4 0, .engineRetestDone 4 true, .pkFifoData bus 513, .fifoSetMark bus 1 512,
     .fifoSetMark bus 5 512, .fifoSetMark bus 4 513, .fifoRewind bus 1 512, .fifoRewind bus 5 512,
     .fifoRewind bus 4 513] : List Instr), c.wf = false := by
  decide +kernel

theorem test_wf_refuses_2 : ∀ c ∈ (
    [.fifoClearMark bus 1 512, .fifoClearMark bus 5 512, .fifoClearMark bus 4 513, .fifoData bus 1 512,
     .fifoData bus 5 512, .fifoData bus 4 513, .send bus 1 511 0, .send bus 4 511 0, .send bus 3 512 0,
     .sendCmdOpen bus 1 511, .sendCmdOpen bus 4 511, .sendCmdOpen bus 3 512, .sendCmdAbandon bus 1 511,
     .sendCmdAbandon bus 4 511, .sendCmdAbandon bus 3 512, .sendClose bus 1 511 0, .sendClose bus 4 511 0,
     .sendClose bus 3 512 0, .noiseSample 4 true, .generateCall (.reservoir 16), .portRefill 513, .rngWord bus 513,
     .create 512, .quiesce 512, .quiesceDone 512, .quiesceLimitExpiry 512, .resume 512, .reset 512, .remove 512,
     .sliceResetComplete 512, .promEnable 512 true, .promLogWrite 512 3, .promLogWrite 511 4, .promSwap 512,
     .promSwapDone 512, .scrubLineRead 14, .lcRequestTransition 256, .powerOn { wireStraps with linkRate := 4 },
     .iso true { wireStraps with cascadeN := 128 }, .pin { wireStraps with linkRate := 4 },
     .resetRequestImmediate { wireStraps with cascadeN := 128 },
     .orderlyResetTakesPlace { wireStraps with linkRate := 4 },
     .resetDrainLimitExpiry { wireStraps with cascadeN := 128 }, .selfTestDone 7 none,
     .startRetryTimeExpiry { wireStraps with cascadeN := 128 }, .pavaneExit { wireStraps with linkRate := 4 },
     .tamperAlarm 8 0, .portEnable 2 true, .lanesClassified 2 [] 0, .trainingTrial 2 [] ⟨[], 0⟩, .trainingEnd 2 0,
     .alignDone 2 [] true, .portUp 2, .portDown 2 0, .relock 2, .phyReady 2, .frameReceive 2 0 0 0 true [wireMsg],
     .frameReceive 1 0 0 0 true [{ wireMsg with src := 256 }], .controlFrame 2 0 0, .replayTimeExpiry 2] : List Instr), c.wf = false := by
  decide +kernel

theorem test_wf_refuses_3 : ∀ c ∈ (
    [.controlFramePeriod 2, .ident 2 wireMsg, .ident 1 { wireMsg with dest := 256 }, .identPeriod 2, .map 2 wireMsg,
     .map 1 { wireMsg with kind := 256 }, .time 2 wireMsg, .time 1 { wireMsg with dest := 256 }, .echo 2 wireMsg,
     .echo 1 { wireMsg with pseq := 65536 }, .echoRenewal 2, .ackE2e { wireMsg with src := 256 }, .e2eTimeExpiry 64,
     .ackE2ePeriod 64, .destLost 64, .messageForward 2 wireMsg, .messageForward 1 { wireMsg with src := 256 },
     .doorbell { wireMsg with dest := 256 }, .doorbellWindowWrite bus 16777216 0,
     .grant { wireMsg with pseq := 65536 }, .token { wireMsg with kind := 256 },
     .spreadCtl { wireMsg with src := 256 }, .keyx { wireMsg with dest := 256 },
     .keyxSetup { wireMsg with hops := 256 }, .dictReq { wireMsg with pseq := 65536 },
     .dictResp { wireMsg with kind := 256 }, .event { wireMsg with src := 256 }, .statusClear bus 10 0,
     .forcedOccurrence 640, .clockStopped 9, .registerWrite bus 67108864 0, .registerRead bus 67108864,
     .clockReturned 9, .createComplete 512] : List Instr), c.wf = false := by
  decide +kernel

/-! ## Worked values of the specification -/

/-- The state after a command; a stop leaves the state it was given. -/
def ran (c : Instr) (s : State) : State :=
  match exec c s with
  | .next t => t
  | _ => s

/-- Table 1-9: the tags of REQ_ID 0x1A3C, slice 37, ring 2, under epoch 5 and generation 0x2C1. -/
theorem test_tag_words :
    tagWord (tagBase 0x1A3C 37 2 .strict) 5 0x2C1 .aad false false true 8 = 0x04432C1508251A3C#64 ∧
      tagWord (tagBase 0x1A3C 37 2 .strict) 5 0x2C1 .data false false true 16 = 0x00442C1508251A3C#64 ∧
      tagWord (tagBase 0x1A3C 37 2 .strict) 5 0x2C1 .data false true false 16 = 0x00242C1508251A3C#64 := by
  decide +kernel

/-- R185, the XPN frame across a 2³² boundary: both recoveries, the pre-check and the copy refused as a duplicate. -/
theorem test_xpn_recovery :
    recoverPn 0x1FFFFFF80 1024 true 0x12 = 0x200000012 ∧ recoverPn 0x200000012 1024 true 0xFFFFFFC0 = 0x1FFFFFFC0 ∧
      replayTest 0x1FFFFFF80 1024 0 0x200000012 = none ∧ replayTest 0x200000012 1024 0 0x1FFFFFFC0 = none ∧
      replayTest 0x200000012 1024 (replayMap 0x200000012 0 0x1FFFFFFC0) 0x1FFFFFFC0 = some 3 := by
  decide +kernel

/-- The commit of that frame clears the 145 numbers between, and sets the frame's own bit. -/
theorem test_replay_commit_clears_between :
    replayMap 0x1FFFFFF80 (BitVec.allOnes 1024) 0x200000012 = (BitVec.allOnes 879).zeroExtend 1024 <<< 18 := by
  decide +kernel

/-- Its IV: (SSCI ‖ p) XOR SALT12. -/
theorem test_xpn_iv :
    nonceOf { Desc.unread with opcode := 0x11, profile := 3, flags := 0x0080 }
        { key1 with ssci := [0, 0, 0, 7], salt12 := [0x9a, 0x4f, 0x11, 0xc0, 0x5b, 0x73, 0x2e, 0x08, 0xd4, 0x16, 0xc3, 0xa1] }
        0x200000012 [] [] [] []
      = [0x9a, 0x4f, 0x11, 0xc7, 0x5b, 0x73, 0x2e, 0x0a, 0xd4, 0x16, 0xc3, 0xb3] := by
  decide +kernel

/-- The state of a record: ring 2 of slice 140, at this position, with this SEQ; its octets. -/
def recordOf (pos seq : Nat) (pieces : List Piece) (j : JournalState) (outer : Bool) (t : Stat) : Nat × Nat :=
  let q := { req0 with
    owner := 140, ring := 2, pos := pos, d := { req0.d with seq := seq }, stage := .over, stat := some t, pieces := pieces
    journal := j, outerEnded := outer }
  let b := recordBytes (dev.onRing (pairKey 140 2) (fun r => { r with rqLog2 := 16 })) q t
  (leNat (cut b 0 8), leNat (cut b 8 8))

/-- The pieces of 17: 31 of 128 octets, of which piece 20 was not acknowledged. -/
def pieces17 : List Piece :=
  (List.range 31).map (fun k => { off := 128 * k, len := 128, acked := k != 20, ended := true })

/-- Records of chapters 17, 13 and 14: W0 and W1 as the examples give them. -/
theorem test_records :
    recordOf 0x93 0x4410 pieces17 .acked false { tag := 0, ending := ends .partialEnd 0x02, cflags := 0x20, inDone := 8208, nonceUsed := 0x1C2B }
        = (0x4410009301210202, 0x00000F0000002010) ∧
      recordOf 0x41 0x0B02 [] .notDue false (statOf (ends .quiesced 0x01)) = (0x0B02004100000151, 0) ∧
      recordOf 0x42 0x0B03 [] .notDue true (statOf (ends .quiesced 0x01)) = (0x0B03004202000151, 0) ∧
      recordOf 0x118 0x3A07 (pieces17.take 1) .notDue false
        { tag := 0, ending := ends .accessFault 0x05, cflags := 0x20, inDone := 1480, nonceUsed := 0 } = (0x3A07011800210512, 0x00000080000005C8) := by
  decide +kernel

/-- Table 17-8: the first six words of journal entry 0x17. -/
theorem test_journal_entry :
    let t : Stat := { tag := 0, ending := ends .partialEnd 0x02, cflags := 0x20, inDone := 8208, nonceUsed := 0x1C2B }
    let q := { req0 with
      owner := 140, ring := 2, pos := 0x93, d := { req0.d with seq := 0x4410, inLen := 8208, aadLen := 16 }, stage := .over
      stat := some t, pieces := pieces17, outOff := 3968, cause := 3
      m := { Myeno.fresh with segPassed := 2, nonceUsed := 0x1C2B, nonceValid := true, key := some key1 } }
    let b := journalEntry (dev.onRing (pairKey 140 2) (fun r => { r with rqLog2 := 16 })) q t
    (List.range 6).map (fun i => leNat (cut b (8 * i) 8)) =
      [0x0403020244100093, 0x1C2B, 0x0002000200002010, 0x00000A0000000F00, 0xF80, 0x7FE] := by
  decide +kernel

/-- The mailbox of slice 66: three words after the entry of an open packet (Table 12-7, before t3). -/
def mail66 : State :=
  let w (t : FifoTag) (i v : Nat) : FifoWord :=
    { tag := t, seq := 0xF8 + i, data := BitVec.ofNat 48 v, bad := false, packetWords := 0 }
  (dev.onSlice 66 (fun x => { x with state := .active, pasid := 66 })).putFifo 2 66
    { Fifo.empty 1 with kept := [w .slot 0 0, w .data 1 7, w .data 2 8, w .data 3 9], openAt := some 0, written := 0xFC }

/-- Table 12-7: t2 reads EMPTY at the unwritten entry; after t3 the reads of t4 give the LENGTH word and the first DATA word,
and t6 shows the tenant its word consumed. -/
theorem test_mailbox_packet :
    let own : Bus := { pasid := some 66, be := 0xFF }
    let s := ran (.sendClose own 2 66 3) mail66
    let t := ran (.fifoData bus 2 66) s
    (ran (.fifoData bus 2 66) mail66).pins.htData = 0x00F8000000000000#64 ∧ t.pins.htData = 0xA0F8000000000003#64 ∧
      (ran (.fifoData bus 2 66) t).pins.htData = 0x90F9000000000007#64 ∧ (s.fifo 2 66).count = 4 ∧
      (ran (.registerRead own (0x1000000 + 0x10000 * 66 + 0x5000)) t).pins.htData = 0x60F8000000000003#64 := by
  decide +kernel

/-- Table 20-7: the three queue words of source 0x0A2 at t1. -/
theorem test_event_words :
    let s := ({ dev with now := 0x00021E4F3A2C#48 }.raise 0x0A2 0 0xC00024690).putFifo 4 512 { Fifo.empty 2048 with written := 0x3C1 }
    ((ran .eventAccepted s).fifo 4 512).kept.map FifoWord.word = [0x93C1228800000002, 0x93C240001E4F3A2C, 0x93C3800C00024690] := by
  decide +kernel

/-- 15: LAST_ERROR of word 0 of line 0x48D2, rebuilt by the scrubber. -/
theorem test_last_error : lastErrorWord (0x48D2 * 8) 2 true = 0x0000000A00024690#64 := by decide +kernel

/-- 16: LC_VOTES and the state after the unlock cut short. -/
theorem test_lc_votes :
    let full (c : Nat) (n : Nat) : Tab FuseField := (List.range n).map (fun f => (64 * c + f, { bits := 255, unstable := false }))
    let s : State := { dev with lc := { dev.lc with
      copies := full 0 6 ++ full 1 5 ++ [(69, { bits := 15, unstable := false })] ++ full 2 5 } }
    lcVotes s = 0x05020203 ∧ majority s = some (.testLocked 2) ∧ partialField s = some 5 := by
  decide +kernel

/-- 19: DICT_STATUS at t4 of the worked example. -/
theorem test_dict_status :
    ({ dev.dict with ops := 0x41, status := { result := 0, type := 8, access := 1, size := 48, count := 32, data := [] } } :
      Dict).statusWord = 0x4120000030180000 := by
  decide +kernel

/-- 5: QUERY_RESULT of the erased slot of slice 141, 6: the attributes of the pair's TX slot and of the other. -/
theorem test_query_result :
    queryResult { Slot.dflt 0 with state := .erased, gen := 7, owner := some 141 } = 0x808D0071 ∧
      Slot.pairField { Slot.dflt 0 with an := 3, paired := true, tx := true, autoRoll := true } = 0x001F ∧
      Slot.pairField { Slot.dflt 0 with an := 2, paired := true, autoRoll := true } = 0x0016 := by
  decide +kernel

/-- 14: the second write of the example falls into two parts at the 4 KiB boundary. -/
theorem test_access_split :
    partsOf 0x30FC0 128 = [(0x30FC0, 64), (0x31000, 64)] ∧ partsOf 0x30F80 128 = [(0x30F80, 128)] := by
  decide +kernel

/-- 6: S2 takes 0x2_FFFF_FFFF from slot 0x5C20, which reaches its soft threshold; TX moves to 0x5C21 in the same step. -/
theorem test_take_rolls_pair :
    let x (tx : Bool) (c : Nat) : Slot :=
      { slot0 with
        sealing := true, counter := BitVec.ofNat 64 c, soft := 0x300000000, hard := 0x340000000, paired := true, tx := tx, autoRoll := true }
    let s := (dev.onSlot 0x5C20 (fun _ => x true 0x2FFFFFFFF)).onSlot 0x5C21 (fun _ => x false 1)
    let r := s.takeValue 0x5C20
    r.1 = 0x2FFFFFFFF ∧ r.2.1 = true ∧ (r.2.2.slot 0x5C20).counter = 0x300000000 ∧ (r.2.2.slot 0x5C20).tx = false ∧ (r.2.2.slot 0x5C21).tx = true ∧
      r.2.2.keys.softCrossings = 1 ∧ r.2.2.keys.autoRolls = 1 := by
  decide +kernel

end Sys2Proof.Tests
end

section
/-!
SUPPORT. The ring pointers that software writes (chapter 2): what a fault leaves of its pair, what a doorbell and a CQ_HEAD
value do on each of their branches, and the two statements about them.
-/
namespace Sys2Proof.Machine

/-! ## What a fault leaves of its pair (R69) -/

/-- An ENABLED pair whose records are not lost by the fault: its state, its code and its position change, and nothing else. -/
theorem State.ring_ringFault_enabled (s : State) (k code pos : Nat) (he : (s.ring k).state = .enabled) (hc : code ≠ cqAccess) :
    (s.ringFault k code pos).ring k = { s.ring k with state := .faulted, faultCode := code, faultPos := pos } := by
  simp [State.ringFault, he, hc]

/-- A pair DRAINING or FAULTED already keeps its state, and with it the pointers that software writes. -/
theorem State.ringFault_stopped (s : State) (k code pos : Nat)
    (h : (s.ring k).state = .draining ∨ (s.ring k).state = .faulted) :
    ((s.ringFault k code pos).ring k).state = (s.ring k).state ∧
      ((s.ringFault k code pos).ring k).rqTail = (s.ring k).rqTail ∧
      ((s.ringFault k code pos).ring k).cqHead = (s.ring k).cqHead := by
  simp only [State.ringFault, State.ring_raise, State.ring_onRing_same]
  rcases h with hdraining | hfaulted
  · by_cases hfirst : (s.ring k).faultCode = 0 <;> by_cases hlost : code = cqAccess <;> simp [hdraining, hfirst, hlost]
  · by_cases hlost : code = cqAccess <;> simp [hfaulted, hlost]

/-- What waits goes on waiting while a pair meets a fault. -/
theorem waits_ringFault {s : State} {w : Nat} (k code pos : Nat) (h : waits s w) : waits (s.ringFault k code pos) w :=
  waits_raise (s := s.onRing k _) _ _ _ h

/-- A change that leaves pair `k` as it is leaves every pair. -/
theorem State.ring_onRing_of_fixed (s : State) (k j : Nat) (f : Ring → Ring) (h : f (s.ring k) = s.ring k) :
    (s.onRing k f).ring j = s.ring j := by
  by_cases hj : j = k
  · subst hj; rw [State.ring_onRing_same, h]
  · exact State.ring_onRing_other _ _ _ _ hj

/-! ## The doorbell (R62) -/

/-- A DISABLED pair takes no doorbell (R68). -/
theorem State.doorbell_disabled (s : State) (k v : Nat) (h : (s.ring k).state = .disabled) : s.doorbell k v = s :=
  if_pos h

/-- A valid value moves the tail. -/
theorem State.doorbell_valid (s : State) (k v : Nat) (h : (s.ring k).state ≠ .disabled) (hv : tailValid (s.ring k) v) :
    s.doorbell k v = s.onRing k (fun r => { r with rqTail := v }) :=
  (if_neg h).trans (if_pos hv)

/-- An invalid value raises its event and faults the pair, with the tail it keeps as the position. -/
theorem State.doorbell_invalid (s : State) (k v : Nat) (h : (s.ring k).state ≠ .disabled) (hv : ¬ tailValid (s.ring k) v) :
    s.doorbell k v = (s.raise 0x248 (ringArg k) v).ringFault k badTail (s.ring k).rqTail :=
  (if_neg h).trans (if_neg hv)

/-- An invalid value raises the event of the ring engine, whichever state the fault then finds the pair in. -/
theorem State.doorbell_invalid_waits (s : State) (k v : Nat) (h : (s.ring k).state ≠ .disabled)
    (hv : ¬ tailValid (s.ring k) v) : waits (s.doorbell k v) 0x248 := by
  rw [State.doorbell_invalid s k v h hv]
  exact waits_ringFault _ _ _ (State.raise_waits _ _ _ _ (by decide))

/-- RQ_TAIL written through a page that accepts the write is a doorbell. -/
theorem exec_rqTail_accepts (s : State) (b : Bus) (o n : Nat) (v : U64) (ha : accepts s b o = true) (hn : n < 8) :
    exec (.rqTail b o n v) s = .next (s.doorbell (pairKey o n) v.toNat) := by
  change execRqTail b o n v s = _
  rw [execRqTail, State.pageWrite_accepts s b o _ ha, unit_next _ hn]

/-- Settles O1, by the branches of the doorbell: ignored, valid, and invalid as the fault finds the pair. -/
theorem doorbellMovesTailOrFaultsRing : Obligations.DoorbellMovesTailOrFaultsRing := by
  intro s b o n v ha hn
  simp only [exec_rqTail_accepts s b o n v ha hn]
  refine ⟨fun hd => ?_, fun hd hv => ?_, fun he hv => ?_, fun hdf hv => ?_⟩
  · rw [State.doorbell_disabled s _ _ hd]
  · rw [State.doorbell_valid s _ _ hd hv]
    exact ⟨rfl, fun htail => ⟨_, rfl, fun j => State.ring_onRing_of_fixed s _ j _ (by rw [htail])⟩⟩
  · have hd : (s.ring (pairKey o n)).state ≠ .disabled := by simp [he]
    refine ⟨_, rfl, State.doorbell_invalid_waits s _ _ hd hv, by decide, ?_⟩
    rw [State.doorbell_invalid s _ _ hd hv, State.ring_ringFault_enabled _ _ _ _ (by simpa using he) (by decide), State.ring_raise]
    rfl
  · have hd : (s.ring (pairKey o n)).state ≠ .disabled := by rcases hdf with h | h <;> simp [h]
    refine ⟨_, rfl, State.doorbell_invalid_waits s _ _ hd hv, ?_⟩
    obtain ⟨hstate, htail, -⟩ := State.ringFault_stopped (s.raise 0x248 (ringArg (pairKey o n)) v.toNat) (pairKey o n) badTail
      (s.ring (pairKey o n)).rqTail (by simpa using hdf)
    rw [State.ring_raise] at hstate htail
    rw [State.doorbell_invalid s _ _ hd hv]
    exact ⟨htail, hstate⟩

/-! ## CQ_HEAD (R63) -/

/-- A DISABLED pair takes no CQ_HEAD value (R68). -/
theorem State.cqHeadWrite_disabled (s : State) (k v : Nat) (h : (s.ring k).state = .disabled) : s.cqHeadWrite k v = s :=
  if_pos h

/-- A valid value moves the head. -/
theorem State.cqHeadWrite_valid (s : State) (k v : Nat) (h : (s.ring k).state ≠ .disabled) (hv : headValid (s.ring k) v) :
    s.cqHeadWrite k v = s.onRing k (fun r => { r with cqHead := v }) :=
  (if_neg h).trans (if_pos hv)

/-- An invalid value faults the pair, with the head it keeps as the position. -/
theorem State.cqHeadWrite_invalid (s : State) (k v : Nat) (h : (s.ring k).state ≠ .disabled) (hv : ¬ headValid (s.ring k) v) :
    s.cqHeadWrite k v = s.ringFault k badHead (s.ring k).cqHead :=
  (if_neg h).trans (if_neg hv)

/-- CQ_HEAD written through a page that accepts the write reaches its pair. -/
theorem exec_cqHead_accepts (s : State) (b : Bus) (o n : Nat) (v : U64) (ha : accepts s b o = true) (hn : n < 8) :
    exec (.cqHead b o n v) s = .next (s.cqHeadWrite (pairKey o n) v.toNat) := by
  change execCqHead b o n v s = _
  rw [execCqHead, State.pageWrite_accepts s b o _ ha, unit_next _ hn]

/-- Settles O2, by the branches of the CQ_HEAD write: ignored, valid, and invalid as the fault finds the pair. -/
theorem cqHeadMovesHeadOrFaultsRing : Obligations.CqHeadMovesHeadOrFaultsRing := by
  intro s b o n v ha hn
  simp only [exec_cqHead_accepts s b o n v ha hn]
  refine ⟨fun hd => ?_, fun hd hv => ?_, fun he hv => ?_, fun hdf hv => ?_⟩
  · rw [State.cqHeadWrite_disabled s _ _ hd]
  · rw [State.cqHeadWrite_valid s _ _ hd hv]
  · rw [State.cqHeadWrite_invalid s _ _ (by simp [he]) hv]
    exact ⟨_, rfl, State.ring_ringFault_enabled s _ _ _ he (by decide)⟩
  · rw [State.cqHeadWrite_invalid s _ _ (by rcases hdf with h | h <;> simp [h]) hv]
    obtain ⟨hstate, -, hhead⟩ := State.ringFault_stopped s _ badHead (s.ring (pairKey o n)).cqHead hdf
    exact ⟨_, rfl, hhead, hstate⟩

end Sys2Proof.Machine
end

section
/-!
SUPPORT. The fields of State, read by name: what a command may change is said of the field `p` that it does not name, so that one
lemma for each operation serves every frame.
-/
namespace Sys2Proof.Machine

/-! ## A field by name -/

/-- What a field holds. -/
def Field.type : Field → Type
  | .ident => Ident
  | .engine => RingEngine
  | .reqs => Tab Req
  | .order => Ordering
  | .spread => Tab Spread
  | .lanes => Lanes
  | .keys => Keys
  | .dir => Directory
  | .tango => Tango
  | .digest => Digest
  | .pke => Pke
  | .rng => Rng
  | .fifos => Fifos
  | .slices => Slices
  | .access => Access
  | .port => Port
  | .memory => Memory
  | .lc => LifeCycle
  | .start => Start
  | .pins => Pins
  | .link => Link
  | .dict => Dict
  | .events => Events
  | .now => BitVec 48
  | .pending => List Instr

/-- The field `p` of a state. -/
def State.field (s : State) : (p : Field) → p.type
  | .ident => s.ident
  | .engine => s.engine
  | .reqs => s.reqs
  | .order => s.order
  | .spread => s.spread
  | .lanes => s.lanes
  | .keys => s.keys
  | .dir => s.dir
  | .tango => s.tango
  | .digest => s.digest
  | .pke => s.pke
  | .rng => s.rng
  | .fifos => s.fifos
  | .slices => s.slices
  | .access => s.access
  | .port => s.port
  | .memory => s.memory
  | .lc => s.lc
  | .start => s.start
  | .pins => s.pins
  | .link => s.link
  | .dict => s.dict
  | .events => s.events
  | .now => s.now
  | .pending => s.pending

/-- Two states agree in a field when its reads are equal. -/
theorem Field.same_iff (φ : Field) (s t : State) : φ.same s t ↔ t.field φ = s.field φ := by
  cases φ <;> rfl

section
variable {φ : Field} (s : State)

/-! ## A record update leaves the fields that it does not name -/

@[simp] theorem field_set_ident (x : Ident) (h : φ ≠ .ident) : State.field { s with ident := x } φ = s.field φ := by
  cases φ <;> first | rfl | exact absurd rfl h
@[simp] theorem field_set_engine (x : RingEngine) (h : φ ≠ .engine) : State.field { s with engine := x } φ = s.field φ := by
  cases φ <;> first | rfl | exact absurd rfl h
@[simp] theorem field_set_reqs (x : Tab Req) (h : φ ≠ .reqs) : State.field { s with reqs := x } φ = s.field φ := by
  cases φ <;> first | rfl | exact absurd rfl h
@[simp] theorem field_set_order (x : Ordering) (h : φ ≠ .order) : State.field { s with order := x } φ = s.field φ := by
  cases φ <;> first | rfl | exact absurd rfl h
@[simp] theorem field_set_spread (x : Tab Spread) (h : φ ≠ .spread) : State.field { s with spread := x } φ = s.field φ := by
  cases φ <;> first | rfl | exact absurd rfl h
@[simp] theorem field_set_lanes (x : Lanes) (h : φ ≠ .lanes) : State.field { s with lanes := x } φ = s.field φ := by
  cases φ <;> first | rfl | exact absurd rfl h
@[simp] theorem field_set_keys (x : Keys) (h : φ ≠ .keys) : State.field { s with keys := x } φ = s.field φ := by
  cases φ <;> first | rfl | exact absurd rfl h
@[simp] theorem field_set_dir (x : Directory) (h : φ ≠ .dir) : State.field { s with dir := x } φ = s.field φ := by
  cases φ <;> first | rfl | exact absurd rfl h
@[simp] theorem field_set_tango (x : Tango) (h : φ ≠ .tango) : State.field { s with tango := x } φ = s.field φ := by
  cases φ <;> first | rfl | exact absurd rfl h
@[simp] theorem field_set_digest (x : Digest) (h : φ ≠ .digest) : State.field { s with digest := x } φ = s.field φ := by
  cases φ <;> first | rfl | exact absurd rfl h
@[simp] theorem field_set_pke (x : Pke) (h : φ ≠ .pke) : State.field { s with pke := x } φ = s.field φ := by
  cases φ <;> first | rfl | exact absurd rfl h
@[simp] theorem field_set_rng (x : Rng) (h : φ ≠ .rng) : State.field { s with rng := x } φ = s.field φ := by
  cases φ <;> first | rfl | exact absurd rfl h
@[simp] theorem field_set_fifos (x : Fifos) (h : φ ≠ .fifos) : State.field { s with fifos := x } φ = s.field φ := by
  cases φ <;> first | rfl | exact absurd rfl h
@[simp] theorem field_set_slices (x : Slices) (h : φ ≠ .slices) : State.field { s with slices := x } φ = s.field φ := by
  cases φ <;> first | rfl | exact absurd rfl h
@[simp] theorem field_set_access (x : Access) (h : φ ≠ .access) : State.field { s with access := x } φ = s.field φ := by
  cases φ <;> first | rfl | exact absurd rfl h
@[simp] theorem field_set_port (x : Port) (h : φ ≠ .port) : State.field { s with port := x } φ = s.field φ := by
  cases φ <;> first | rfl | exact absurd rfl h
@[simp] theorem field_set_memory (x : Memory) (h : φ ≠ .memory) : State.field { s with memory := x } φ = s.field φ := by
  cases φ <;> first | rfl | exact absurd rfl h
@[simp] theorem field_set_lc (x : LifeCycle) (h : φ ≠ .lc) : State.field { s with lc := x } φ = s.field φ := by
  cases φ <;> first | rfl | exact absurd rfl h
@[simp] theorem field_set_start (x : Start) (h : φ ≠ .start) : State.field { s with start := x } φ = s.field φ := by
  cases φ <;> first | rfl | exact absurd rfl h
@[simp] theorem field_set_pins (x : Pins) (h : φ ≠ .pins) : State.field { s with pins := x } φ = s.field φ := by
  cases φ <;> first | rfl | exact absurd rfl h
@[simp] theorem field_set_link (x : Link) (h : φ ≠ .link) : State.field { s with link := x } φ = s.field φ := by
  cases φ <;> first | rfl | exact absurd rfl h
@[simp] theorem field_set_dict (x : Dict) (h : φ ≠ .dict) : State.field { s with dict := x } φ = s.field φ := by
  cases φ <;> first | rfl | exact absurd rfl h
@[simp] theorem field_set_events (x : Events) (h : φ ≠ .events) : State.field { s with events := x } φ = s.field φ := by
  cases φ <;> first | rfl | exact absurd rfl h
@[simp] theorem field_set_now (x : BitVec 48) (h : φ ≠ .now) : State.field { s with now := x } φ = s.field φ := by
  cases φ <;> first | rfl | exact absurd rfl h
@[simp] theorem field_set_pending (x : List Instr) (h : φ ≠ .pending) : State.field { s with pending := x } φ = s.field φ := by
  cases φ <;> first | rfl | exact absurd rfl h

@[simp] theorem field_set_access_port (x0 : Access) (x1 : Port)
    (h : φ ≠ .access ∧ φ ≠ .port) :
    State.field { s with access := x0, port := x1 } φ = s.field φ := by
  cases φ <;> first | rfl | simp at h
@[simp] theorem field_set_ident_start (x0 : Ident) (x1 : Start)
    (h : φ ≠ .ident ∧ φ ≠ .start) :
    State.field { s with ident := x0, start := x1 } φ = s.field φ := by
  cases φ <;> first | rfl | simp at h
@[simp] theorem field_set_dir_memory (x0 : Directory) (x1 : Memory)
    (h : φ ≠ .dir ∧ φ ≠ .memory) :
    State.field { s with dir := x0, memory := x1 } φ = s.field φ := by
  cases φ <;> first | rfl | simp at h
@[simp] theorem field_set_engine_keys_dir_digest_fifos_slices (x0 : RingEngine) (x1 : Keys) (x2 : Directory) (x3 : Digest) (x4 : Fifos) (x5 : Slices)
    (h : φ ≠ .engine ∧ φ ≠ .keys ∧ φ ≠ .dir ∧ φ ≠ .digest ∧ φ ≠ .fifos ∧ φ ≠ .slices) :
    State.field { s with engine := x0, keys := x1, dir := x2, digest := x3, fifos := x4, slices := x5 } φ = s.field φ := by
  cases φ <;> first | rfl | simp at h
@[simp] theorem field_set_engine_lanes_keys_digest_pke_rng_fifos_lc_start_link_events (x0 : RingEngine) (x1 : Lanes) (x2 : Keys) (x3 : Digest) (x4 : Pke) (x5 : Rng) (x6 : Fifos) (x7 : LifeCycle) (x8 : Start) (x9 : Link) (x10 : Events)
    (h : φ ≠ .engine ∧ φ ≠ .lanes ∧ φ ≠ .keys ∧ φ ≠ .digest ∧ φ ≠ .pke ∧ φ ≠ .rng ∧ φ ≠ .fifos ∧ φ ≠ .lc ∧ φ ≠ .start ∧ φ ≠ .link ∧ φ ≠ .events) :
    State.field { s with engine := x0, lanes := x1, keys := x2, digest := x3, pke := x4, rng := x5, fifos := x6, lc := x7, start := x8, link := x9, events := x10 } φ = s.field φ := by
  cases φ <;> first | rfl | simp at h
@[simp] theorem field_set_engine_start (x0 : RingEngine) (x1 : Start)
    (h : φ ≠ .engine ∧ φ ≠ .start) :
    State.field { s with engine := x0, start := x1 } φ = s.field φ := by
  cases φ <;> first | rfl | simp at h
@[simp] theorem field_set_ident_pke (x0 : Ident) (x1 : Pke)
    (h : φ ≠ .ident ∧ φ ≠ .pke) :
    State.field { s with ident := x0, pke := x1 } φ = s.field φ := by
  cases φ <;> first | rfl | simp at h
@[simp] theorem field_set_keys_dir (x0 : Keys) (x1 : Directory)
    (h : φ ≠ .keys ∧ φ ≠ .dir) :
    State.field { s with keys := x0, dir := x1 } φ = s.field φ := by
  cases φ <;> first | rfl | simp at h
@[simp] theorem field_set_keys_slices_start (x0 : Keys) (x1 : Slices) (x2 : Start)
    (h : φ ≠ .keys ∧ φ ≠ .slices ∧ φ ≠ .start) :
    State.field { s with keys := x0, slices := x1, start := x2 } φ = s.field φ := by
  cases φ <;> first | rfl | simp at h
@[simp] theorem field_set_keys_start (x0 : Keys) (x1 : Start)
    (h : φ ≠ .keys ∧ φ ≠ .start) :
    State.field { s with keys := x0, start := x1 } φ = s.field φ := by
  cases φ <;> first | rfl | simp at h
@[simp] theorem field_set_keys_tango_pke_rng (x0 : Keys) (x1 : Tango) (x2 : Pke) (x3 : Rng)
    (h : φ ≠ .keys ∧ φ ≠ .tango ∧ φ ≠ .pke ∧ φ ≠ .rng) :
    State.field { s with keys := x0, tango := x1, pke := x2, rng := x3 } φ = s.field φ := by
  cases φ <;> first | rfl | simp at h
@[simp] theorem field_set_lanes_rng (x0 : Lanes) (x1 : Rng)
    (h : φ ≠ .lanes ∧ φ ≠ .rng) :
    State.field { s with lanes := x0, rng := x1 } φ = s.field φ := by
  cases φ <;> first | rfl | simp at h
@[simp] theorem field_set_lanes_tango_pins (x0 : Lanes) (x1 : Tango) (x2 : Pins)
    (h : φ ≠ .lanes ∧ φ ≠ .tango ∧ φ ≠ .pins) :
    State.field { s with lanes := x0, tango := x1, pins := x2 } φ = s.field φ := by
  cases φ <;> first | rfl | simp at h
@[simp] theorem field_set_lanes_tango (x0 : Lanes) (x1 : Tango)
    (h : φ ≠ .lanes ∧ φ ≠ .tango) :
    State.field { s with lanes := x0, tango := x1 } φ = s.field φ := by
  cases φ <;> first | rfl | simp at h
@[simp] theorem field_set_lc_start (x0 : LifeCycle) (x1 : Start)
    (h : φ ≠ .lc ∧ φ ≠ .start) :
    State.field { s with lc := x0, start := x1 } φ = s.field φ := by
  cases φ <;> first | rfl | simp at h
@[simp] theorem field_set_link_now (x0 : Link) (x1 : BitVec 48)
    (h : φ ≠ .link ∧ φ ≠ .now) :
    State.field { s with link := x0, now := x1 } φ = s.field φ := by
  cases φ <;> first | rfl | simp at h
@[simp] theorem field_set_pke_port_start (x0 : Pke) (x1 : Port) (x2 : Start)
    (h : φ ≠ .pke ∧ φ ≠ .port ∧ φ ≠ .start) :
    State.field { s with pke := x0, port := x1, start := x2 } φ = s.field φ := by
  cases φ <;> first | rfl | simp at h
@[simp] theorem field_set_pke_start (x0 : Pke) (x1 : Start)
    (h : φ ≠ .pke ∧ φ ≠ .start) :
    State.field { s with pke := x0, start := x1 } φ = s.field φ := by
  cases φ <;> first | rfl | simp at h
@[simp] theorem field_set_start_pins (x0 : Start) (x1 : Pins)
    (h : φ ≠ .start ∧ φ ≠ .pins) :
    State.field { s with start := x0, pins := x1 } φ = s.field φ := by
  cases φ <;> first | rfl | simp at h
@[simp] theorem field_set_tango_pins (x0 : Tango) (x1 : Pins)
    (h : φ ≠ .tango ∧ φ ≠ .pins) :
    State.field { s with tango := x0, pins := x1 } φ = s.field φ := by
  cases φ <;> first | rfl | simp at h

@[simp] theorem field_ite (c : Prop) [Decidable c] (a b : State) :
    (if c then a else b).field φ = if c then a.field φ else b.field φ := apply_ite (fun t => State.field t φ) c a b

/-- Changes made one after another, each of which leaves the field. -/
@[simp] theorem field_foldl {α : Type} (f : State → α → State) (hf : ∀ t x, (f t x).field φ = t.field φ) (l : List α) :
    (l.foldl f s).field φ = s.field φ := by
  induction l generalizing s with
  | nil => rfl
  | cons x l ih => rw [List.foldl_cons, ih, hf]

/-- The state of a pair that is taken apart. -/
theorem field_of_snd {α : Type} {x : α × State} {a : α} {t : State} (h : x = (a, t)) : t.field φ = x.2.field φ := by
  rw [h]

/-- The command leaves the field `p`, where it gives a next state. -/
def Out.keeps (φ : Field) (s : State) (o : Out) : Prop := ∀ t, o = .next t → t.field φ = s.field φ

@[simp] theorem Out.keeps_next (t : State) : Out.keeps φ s (.next t) ↔ t.field φ = s.field φ := by
  simp [Out.keeps]

@[simp] theorem Out.keeps_fault (r : Fault) : Out.keeps φ s (.fault r) ↔ True := by simp [Out.keeps]

@[simp] theorem Out.keeps_unit (i n : Nat) (t : State) :
    Out.keeps φ s (unit i n t) ↔ (i < n → t.field φ = s.field φ) := by
  unfold unit
  split <;> simp_all [Out.keeps]

end

end Sys2Proof.Machine
end

section
/-!
SUPPORT. The frame of every operation: each lemma names, as its hypothesis, the fields that the operation may change, and says that
any other field reads as before. They are `simp` lemmas, so that an operation made of others gets its frame from theirs.
-/
namespace Sys2Proof.Machine

section
variable {φ : Field}

/-! ## Ops -/

@[simp] theorem State.putReq_field (s : State) (rid : Nat) (r : Req) (hφ : φ ≠ .reqs) : (s.putReq rid r).field φ = s.field φ :=
    by
  simp [State.putReq, hφ]
@[simp] theorem State.onReq_field (s : State) (rid : Nat) (f : Req → Req) (hφ : φ ≠ .reqs) : (s.onReq rid f).field φ = s.field
    φ := by
  unfold State.onReq
  split <;> simp [hφ]
@[simp] theorem State.release_field (s : State) (rid : Nat) (hφ : φ ≠ .reqs) : (s.release rid).field φ = s.field φ := by
  simp [State.release, hφ]
@[simp] theorem State.onRing_field (s : State) (k : Nat) (f : Ring → Ring) (hφ : φ ≠ .engine) : (s.onRing k f).field φ =
    s.field φ := by
  simp [State.onRing, hφ]
@[simp] theorem State.onSlot_field (s : State) (n : Nat) (f : Slot → Slot) (hφ : φ ≠ .keys) : (s.onSlot n f).field φ = s.field
    φ := by
  simp [State.onSlot, hφ]
@[simp] theorem State.onKeys_field (s : State) (f : Keys → Keys) (hφ : φ ≠ .keys) : (s.onKeys f).field φ = s.field φ := by
  simp [State.onKeys, hφ]
@[simp] theorem State.onSlice_field (s : State) (n : Nat) (f : Slice → Slice) (hφ : φ ≠ .slices) : (s.onSlice n f).field φ =
    s.field φ := by
  simp [State.onSlice, hφ]
@[simp] theorem State.onLane_field (s : State) (n : Nat) (f : Lane → Lane) (hφ : φ ≠ .lanes) : (s.onLane n f).field φ = s.field
    φ := by
  simp [State.onLane, hφ]
@[simp] theorem State.onLinePort_field (s : State) (p : Nat) (f : LinePort → LinePort) (hφ : φ ≠ .dir) : (s.onLinePort p
    f).field φ = s.field φ := by
  simp [State.onLinePort, hφ]
@[simp] theorem State.raise_field (s : State) (src arg info : Nat) (hφ : φ ≠ .events) : (s.raise src arg info).field φ =
    s.field φ := by
  unfold State.raise
  split <;> simp [hφ]
@[simp] theorem State.drawBytes_field (s : State) (n : Nat) (hφ : φ ≠ .rng) : (s.drawBytes n).2.field φ = s.field φ := by
  simp [State.drawBytes, hφ]
@[simp] theorem State.generate_field (s : State) (n : Nat) (hφ : φ ≠ .rng) : (s.generate n).2.field φ = s.field φ := by
  simp [State.generate, hφ]
@[simp] theorem State.deny_field (s : State) (k : Ask) (hφ : φ ≠ .access ∧ φ ≠ .events) : (s.deny k).field φ = s.field φ := by
  simp [State.deny, hφ]
@[simp] theorem State.logPages_field (s : State) (owner : Nat) (addr len : Nat) (hφ : φ ≠ .slices) : (s.logPages owner addr
    len).field φ = s.field φ := by
  simp [State.logPages, hφ]
@[simp] theorem State.issue_field (s : State) (k : Ask) (hφ : φ ≠ .slices ∧ φ ≠ .access ∧ φ ≠ .port ∧ φ ≠ .events) : (s.issue
    k).2.field φ = s.field φ := by
  unfold State.issue
  simp only []
  (repeat' split) <;> simp [hφ]
@[simp] theorem State.setRecord_field (s : State) (i : Nat) (v : Bytes) (hφ : φ ≠ .ident) : (s.setRecord i v).field φ = s.field
    φ := by
  simp [State.setRecord, hφ]
@[simp] theorem State.ringFault_field (s : State) (key code pos : Nat) (hφ : φ ≠ .engine ∧ φ ≠ .events) : (s.ringFault key code
    pos).field φ = s.field φ := by
  simp [State.ringFault, hφ]
@[simp] theorem State.htAccess_field (s : State) (b : Bus) (hφ : φ ≠ .pins) : (s.htAccess b).2.field φ = s.field φ := by
  unfold State.htAccess
  (repeat' split) <;> simp [hφ]
@[simp] theorem State.pageAccess_field (s : State) (b : Bus) (owner : Nat) (hφ : φ ≠ .slices ∧ φ ≠ .events) : (s.pageAccess b
    owner).2.field φ = s.field φ := by
  unfold State.pageAccess
  simp only []
  repeat' split
  · rfl
  · simp [hφ]
  · rfl
  · rfl
  · simp [hφ]
  · simp [hφ]
  · rfl
  · simp [hφ]
  · simp [hφ]
@[simp] theorem State.pageWrite_field (s : State) (b : Bus) (owner : Nat) (f : State → State) (hφ : φ ≠ .slices ∧ φ ≠ .pins ∧ φ
    ≠ .events) (hf : ∀ t : State, (f t).field φ = t.field φ) : (s.pageWrite b owner f).field φ = s.field φ := by
  unfold State.pageWrite
  repeat' split
  · simp [hφ, field_of_snd ‹State.htAccess _ _ = _›]
  · simp [hφ, field_of_snd ‹State.pageAccess _ _ _ = _›, field_of_snd ‹State.htAccess _ _ = _›]
  · simp [hφ, field_of_snd ‹State.pageAccess _ _ _ = _›, field_of_snd ‹State.htAccess _ _ = _›]
  · simp [hφ, hf, field_of_snd ‹State.pageAccess _ _ _ = _›, field_of_snd ‹State.htAccess _ _ = _›]
@[simp] theorem State.pageRead_field (s : State) (b : Bus) (owner : Nat) (f : State → Nat × State) (hφ : φ ≠ .slices ∧ φ ≠
    .pins ∧ φ ≠ .events) (hf : ∀ t : State, (f t).2.field φ = t.field φ) : (s.pageRead b owner f).field φ = s.field φ := by
  unfold State.pageRead
  repeat' split
  · simp [hφ, field_of_snd ‹State.htAccess _ _ = _›]
  · simp [hφ, field_of_snd ‹State.pageAccess _ _ _ = _›, field_of_snd ‹State.htAccess _ _ = _›]
  · simp [hφ, field_of_snd ‹State.pageAccess _ _ _ = _›, field_of_snd ‹State.htAccess _ _ = _›]
  · simp [hφ, hf, field_of_snd ‹State.pageAccess _ _ _ = _›, field_of_snd ‹State.htAccess _ _ = _›]

/-! ## Rings -/

@[simp] theorem State.doorbell_field (s : State) (key v : Nat) (hφ : φ ≠ .engine ∧ φ ≠ .events) : (s.doorbell key v).field φ =
    s.field φ := by
  simp [State.doorbell, hφ]
@[simp] theorem State.cqHeadWrite_field (s : State) (key v : Nat) (hφ : φ ≠ .engine ∧ φ ≠ .events) : (s.cqHeadWrite key
    v).field φ = s.field φ := by
  simp [State.cqHeadWrite, hφ]
@[simp] theorem execRqTail_field (b : Bus) (owner n : Nat) (v : U64) (s : State) (hφ : φ ≠ .engine ∧ φ ≠ .slices ∧ φ ≠ .pins ∧
    φ ≠ .events) : (execRqTail b owner n v s).keeps φ s := by
  simp [execRqTail, hφ]
@[simp] theorem execCqHead_field (b : Bus) (owner n : Nat) (v : U64) (s : State) (hφ : φ ≠ .engine ∧ φ ≠ .slices ∧ φ ≠ .pins ∧
    φ ≠ .events) : (execCqHead b owner n v s).keeps φ s := by
  simp [execCqHead, hφ]
@[simp] theorem State.enablePair_field (s : State) (key : Nat) (hφ : φ ≠ .engine ∧ φ ≠ .spread ∧ φ ≠ .events) : (s.enablePair
    key).field φ = s.field φ := by
  unfold State.enablePair
  simp only []
  split
  · rfl
  · split
    · split
      · simp only [hφ, ne_eq, not_false_eq_true, and_self, State.onRing_field, State.ringFault_field]
      · split <;> simp only [hφ, ne_eq, not_false_eq_true, field_set_spread, State.onRing_field]
    · rfl
@[simp] theorem State.disablePair_field (s : State) (key : Nat) (hφ : φ ≠ .engine) : (s.disablePair key).field φ = s.field φ :=
    by
  unfold State.disablePair
  split <;> simp [hφ]
@[simp] theorem execRingEnable_field (b : Bus) (owner n : Nat) (s : State) (hφ : φ ≠ .engine ∧ φ ≠ .spread ∧ φ ≠ .slices ∧ φ ≠
    .pins ∧ φ ≠ .events) : (execRingEnable b owner n s).keeps φ s := by
  simp [execRingEnable, hφ]
@[simp] theorem execRingDisable_field (b : Bus) (owner n : Nat) (s : State) (hφ : φ ≠ .engine ∧ φ ≠ .slices ∧ φ ≠ .pins ∧ φ ≠
    .events) : (execRingDisable b owner n s).keeps φ s := by
  simp [execRingDisable, hφ]
@[simp] theorem execRingDrained_field (owner n : Nat) (s : State) (hφ : φ ≠ .engine) : (execRingDrained owner n s).keeps φ s :=
    by
  simp [execRingDrained, hφ]
@[simp] theorem State.assign_field (s : State) (key chan : Nat) (l : List Nat) (i : Nat) (hφ : φ ≠ .engine ∧ φ ≠ .reqs ∧ φ ≠ .spread) :
    (s.assign key chan l i).field φ = s.field φ := by
  induction l generalizing s i with
  | nil => rfl
  | cons rid l ih =>
    simp only [State.assign, ih]
    split <;> simp only [hφ, ne_eq, not_false_eq_true, field_set_spread, State.onRing_field, State.putReq_field]
@[simp] theorem State.settleAbort_field (s : State) (rid detail : Nat) (hφ : φ ≠ .reqs) : (s.settleAbort rid detail).field φ =
    s.field φ := by
  simp [State.settleAbort, hφ]
@[simp] theorem State.settleAborts_field (s : State) (l : List Nat) (detail : Nat) (hφ : φ ≠ .reqs) : (s.settleAborts l
    detail).field φ = s.field φ := by
  simp [State.settleAborts, hφ]
@[simp] theorem State.releaseReq_field (s : State) (rid : Nat) (hφ : φ ≠ .reqs) : (s.releaseReq rid).field φ = s.field φ := by
  unfold State.releaseReq
  split <;> simp [hφ]
@[simp] theorem State.abortsLost_field (s : State) (rid : Nat) (hφ : φ ≠ .reqs) : (s.abortsLost rid).field φ = s.field φ := by
  unfold State.abortsLost
  split <;> simp [hφ]
@[simp] theorem State.descDenied_field (s : State) (key : Nat) (l : List Nat)
    (hφ : φ ≠ .engine ∧ φ ≠ .reqs ∧ φ ≠ .spread ∧ φ ≠ .events) : (s.descDenied key l).field φ = s.field φ := by
  cases l with
  | nil => rfl
  | cons rid l =>
    simp only [State.descDenied]
    split <;> simp only [hφ, ne_eq, not_false_eq_true, and_self, implies_true, field_foldl, field_set_spread,
        State.onRing_field, State.onReq_field, State.ringFault_field, State.releaseReq_field, State.abortsLost_field]
@[simp] theorem State.descReadLost_field (s : State) (key : Nat) (rids : List Nat) (hφ : φ ≠ .engine ∧ φ ≠ .reqs ∧ φ ≠ .spread
    ∧ φ ≠ .events) : (s.descReadLost key rids).field φ = s.field φ := by
  unfold State.descReadLost
  split <;> simp [hφ]
@[simp] theorem execFetchTurn_field (rids : List Nat) (s : State) (hφ : φ ≠ .engine ∧ φ ≠ .reqs ∧ φ ≠ .spread ∧ φ ≠ .slices ∧ φ
    ≠ .access ∧ φ ≠ .port ∧ φ ≠ .events) : (execFetchTurn rids s).keeps φ s := by
  unfold execFetchTurn
  simp only []
  repeat' split
  · simp
  · simp [hφ, field_of_snd ‹State.issue _ _ = _›]
  · simp [hφ, field_of_snd ‹State.issue _ _ = _›]
  · simp
@[simp] theorem State.takeDescriptor_field (s : State) (rid ep : Nat) (bs : Bytes) (hφ : φ ≠ .reqs) : (s.takeDescriptor rid ep
    bs).field φ = s.field φ := by
  unfold State.takeDescriptor
  split <;> simp [hφ]
@[simp] theorem State.takeDescriptors_field (s : State) (ep : Nat) (bs : Bytes) (l : List Nat) (i : Nat) (hφ : φ ≠ .reqs) :
    (s.takeDescriptors ep bs l i).field φ = s.field φ := by
  induction l generalizing s i with
  | nil => rfl
  | cons rid l ih => rw [State.takeDescriptors, ih, State.takeDescriptor_field _ _ _ _ hφ]
theorem State.takeEnded_field (s : State) (p : Acc → Bool) (hφ : φ ≠ .port) {a : Acc} {t : State} (ht : s.takeEnded p = some
    (a, t)) : t.field φ = s.field φ := by
  unfold State.takeEnded at ht
  split at ht <;> cases ht
  exact field_set_port _ _ hφ
@[simp] theorem execDescriptorArrival_field (owner n : Nat) (s : State) (hφ : φ ≠ .engine ∧ φ ≠ .reqs ∧ φ ≠ .port) :
    (execDescriptorArrival owner n s).keeps φ s := by
  unfold execDescriptorArrival
  refine (Out.keeps_unit _ _ _ _).mpr fun _ => ?_
  split
  · rfl
  · simp only [hφ, ne_eq, not_false_eq_true, State.onRing_field, State.takeDescriptors_field, State.takeEnded_field (ht := ‹_›)]
@[simp] theorem execDescSingleReread_field (owner n : Nat) (s : State) (hφ : φ ≠ .engine ∧ φ ≠ .reqs ∧ φ ≠ .spread ∧ φ ≠
    .slices ∧ φ ≠ .access ∧ φ ≠ .port ∧ φ ≠ .events) : (execDescSingleReread owner n s).keeps φ s := by
  unfold execDescSingleReread
  simp only []
  repeat' split
  · simp
  · simp
  · simp [hφ, field_of_snd ‹State.issue _ _ = _›]
  · simp [hφ, field_of_snd ‹State.issue _ _ = _›]

/-! ## Fifos -/

@[simp] theorem State.putFifo_field (s : State) (kind o : Nat) (f : Fifo) (hφ : φ ≠ .fifos) : (s.putFifo kind o f).field φ =
    s.field φ := by
  unfold State.putFifo
  split <;> simp [hφ]
@[simp] theorem State.onKind_field (s : State) (kind : Nat) (f : FifoKind → FifoKind) (hφ : φ ≠ .fifos) : (s.onKind kind
    f).field φ = s.field φ := by
  simp [State.onKind, hφ]
@[simp] theorem State.mailboxNotify_field (s : State) (o : Nat) (hφ : φ ≠ .slices ∧ φ ≠ .access ∧ φ ≠ .port ∧ φ ≠ .events) :
    (s.mailboxNotify o).field φ = s.field φ := by
  unfold State.mailboxNotify
  simp only []
  repeat' split
  · rfl
  · simp [hφ, field_of_snd ‹State.issue _ _ = _›]
  · simp [hφ, field_of_snd ‹State.issue _ _ = _›]
@[simp] theorem State.levelCheck_field (s : State) (kind o : Nat) (hφ : φ ≠ .fifos ∧ φ ≠ .slices ∧ φ ≠ .access ∧ φ ≠ .port ∧ φ
    ≠ .events) : (s.levelCheck kind o).field φ = s.field φ := by
  simp [State.levelCheck, hφ]
@[simp] theorem State.onFifo_field (s : State) (kind o : Nat) (f : Fifo → Fifo) (hφ : φ ≠ .fifos ∧ φ ≠ .slices ∧ φ ≠ .access ∧
    φ ≠ .port ∧ φ ≠ .events) : (s.onFifo kind o f).field φ = s.field φ := by
  simp [State.onFifo, hφ]
@[simp] theorem State.writeLevel_field (s : State) (kind o v : Nat) (hφ : φ ≠ .fifos ∧ φ ≠ .slices ∧ φ ≠ .access ∧ φ ≠ .port ∧
    φ ≠ .events) : (s.writeLevel kind o v).field φ = s.field φ := by
  simp [State.writeLevel, hφ]
@[simp] theorem State.levelsAll_field (s : State) (hφ : φ ≠ .fifos ∧ φ ≠ .slices ∧ φ ≠ .access ∧ φ ≠ .port ∧ φ ≠ .events) :
    (s.levelsAll).field φ = s.field φ := by
  simp [State.levelsAll, hφ]
@[simp] theorem State.readFifo_field (s : State) (kind o : Nat) (hφ : φ ≠ .fifos ∧ φ ≠ .slices ∧ φ ≠ .access ∧ φ ≠ .port ∧ φ ≠
    .events) : (s.readFifo kind o).2.field φ = s.field φ := by
  unfold State.readFifo
  simp only []
  (repeat' split) <;> simp [hφ]
@[simp] theorem execFifoData_field (b : Bus) (kind owner : Nat) (s : State) (hφ : φ ≠ .fifos ∧ φ ≠ .slices ∧ φ ≠ .access ∧ φ ≠
    .port ∧ φ ≠ .pins ∧ φ ≠ .events) : (execFifoData b kind owner s).keeps φ s := by
  unfold execFifoData
  refine (Out.keeps_unit _ _ _ _).mpr fun _ => State.pageRead_field _ _ _ _ ⟨hφ.2.1, hφ.2.2.2.2.1, hφ.2.2.2.2.2⟩ fun t => ?_
  simp only [apply_ite Prod.snd, hφ, ne_eq, not_false_eq_true, and_self, field_ite, ite_self, State.readFifo_field]
@[simp] theorem execPkFifoData_field (b : Bus) (owner : Nat) (s : State) (hφ : φ ≠ .fifos ∧ φ ≠ .slices ∧ φ ≠ .access ∧ φ ≠
    .port ∧ φ ≠ .pins ∧ φ ≠ .events) : (execPkFifoData b owner s).keeps φ s := by
  simp [execPkFifoData, hφ]
@[simp] theorem execFifoSetMark_field (b : Bus) (kind owner : Nat) (s : State) (hφ : φ ≠ .fifos ∧ φ ≠ .slices ∧ φ ≠ .access ∧ φ
    ≠ .port ∧ φ ≠ .pins ∧ φ ≠ .events) : (execFifoSetMark b kind owner s).keeps φ s := by
  simp [execFifoSetMark, hφ]
@[simp] theorem execFifoRewind_field (b : Bus) (kind owner : Nat) (s : State) (hφ : φ ≠ .fifos ∧ φ ≠ .slices ∧ φ ≠ .access ∧ φ
    ≠ .port ∧ φ ≠ .pins ∧ φ ≠ .events) : (execFifoRewind b kind owner s).keeps φ s := by
  simp [execFifoRewind, hφ]
@[simp] theorem execFifoClearMark_field (b : Bus) (kind owner : Nat) (s : State) (hφ : φ ≠ .fifos ∧ φ ≠ .slices ∧ φ ≠ .access ∧
    φ ≠ .port ∧ φ ≠ .pins ∧ φ ≠ .events) : (execFifoClearMark b kind owner s).keeps φ s := by
  simp [execFifoClearMark, hφ]
@[simp] theorem State.sendDrop_field (s : State) (kind o : Nat) (hφ : φ ≠ .fifos) : (s.sendDrop kind o).field φ = s.field φ :=
    by
  simp [State.sendDrop, hφ]
@[simp] theorem State.sendWord_field (s : State) (kind o : Nat) (v : BitVec 48) (hφ : φ ≠ .fifos ∧ φ ≠ .slices ∧ φ ≠ .access ∧
    φ ≠ .port ∧ φ ≠ .events) : (s.sendWord kind o v).field φ = s.field φ := by
  simp [State.sendWord, hφ]
@[simp] theorem State.sendOpen_field (s : State) (kind o : Nat) (hφ : φ ≠ .fifos ∧ φ ≠ .slices ∧ φ ≠ .access ∧ φ ≠ .port ∧ φ ≠
    .events) : (s.sendOpen kind o).field φ = s.field φ := by
  simp [State.sendOpen, hφ]
@[simp] theorem State.sendAbandon_field (s : State) (kind o : Nat) (hφ : φ ≠ .fifos ∧ φ ≠ .slices ∧ φ ≠ .access ∧ φ ≠ .port ∧ φ
    ≠ .events) : (s.sendAbandon kind o).field φ = s.field φ := by
  simp [State.sendAbandon, hφ]
@[simp] theorem State.sendLength_field (s : State) (kind o : Nat) (v : BitVec 48) (hφ : φ ≠ .fifos ∧ φ ≠ .slices ∧ φ ≠ .access
    ∧ φ ≠ .port ∧ φ ≠ .events) : (s.sendLength kind o v).field φ = s.field φ := by
  unfold State.sendLength
  simp only []
  repeat' split
  · rfl
  · rfl
  · simp [hφ]
@[simp] theorem execSend_field (b : Bus) (kind owner : Nat) (v : U64) (s : State) (hφ : φ ≠ .fifos ∧ φ ≠ .slices ∧ φ ≠ .access
    ∧ φ ≠ .port ∧ φ ≠ .pins ∧ φ ≠ .events) : (execSend b kind owner v s).keeps φ s := by
  simp [execSend, hφ]
@[simp] theorem execSendCmdOpen_field (b : Bus) (kind owner : Nat) (s : State) (hφ : φ ≠ .fifos ∧ φ ≠ .slices ∧ φ ≠ .access ∧ φ
    ≠ .port ∧ φ ≠ .pins ∧ φ ≠ .events) : (execSendCmdOpen b kind owner s).keeps φ s := by
  simp [execSendCmdOpen, hφ]
@[simp] theorem execSendCmdAbandon_field (b : Bus) (kind owner : Nat) (s : State) (hφ : φ ≠ .fifos ∧ φ ≠ .slices ∧ φ ≠ .access
    ∧ φ ≠ .port ∧ φ ≠ .pins ∧ φ ≠ .events) : (execSendCmdAbandon b kind owner s).keeps φ s := by
  simp [execSendCmdAbandon, hφ]
@[simp] theorem execSendClose_field (b : Bus) (kind owner : Nat) (v : U64) (s : State) (hφ : φ ≠ .fifos ∧ φ ≠ .slices ∧ φ ≠
    .access ∧ φ ≠ .port ∧ φ ≠ .pins ∧ φ ≠ .events) : (execSendClose b kind owner v s).keeps φ s := by
  simp [execSendClose, hφ]

/-! ## Link -/

@[simp] theorem State.onLport_field (s : State) (p : Nat) (f : LinkPort → LinkPort) (hφ : φ ≠ .link) : (s.onLport p f).field φ
    = s.field φ := by
  simp [State.onLport, hφ]
@[simp] theorem State.onPeer_field (s : State) (i : Nat) (f : Peer → Peer) (hφ : φ ≠ .link) : (s.onPeer i f).field φ = s.field
    φ := by
  simp [State.onPeer, hφ]
@[simp] theorem State.onLink_field (s : State) (f : Link → Link) (hφ : φ ≠ .link) : (s.onLink f).field φ = s.field φ := by
  simp [State.onLink, hφ]
@[simp] theorem State.queueAt_field (s : State) (p : Nat) (m : Msg) (hφ : φ ≠ .link) : (s.queueAt p m).field φ = s.field φ := by
  simp [State.queueAt, hφ]
@[simp] theorem State.transmit_field (s : State) (m : Msg) (hφ : φ ≠ .link) : (s.transmit m).field φ = s.field φ := by
  unfold State.transmit
  split <;> simp [hφ]
@[simp] theorem State.broadcast_field (s : State) (m : Msg) (hφ : φ ≠ .link) : (s.broadcast m).field φ = s.field φ := by
  simp [State.broadcast, hφ]
@[simp] theorem State.originate_field (s : State) (m : Msg) (hφ : φ ≠ .link) : (s.originate m).field φ = s.field φ := by
  simp [State.originate, hφ]
@[simp] theorem State.sendMsg_field (s : State) (kind dest : Nat) (body : Bytes) (hφ : φ ≠ .link) : (s.sendMsg kind dest
    body).field φ = s.field φ := by
  simp [State.sendMsg, hφ]
@[simp] theorem State.sendOn_field (s : State) (p kind : Nat) (body : Bytes) (hφ : φ ≠ .link) : (s.sendOn p kind body).field φ
    = s.field φ := by
  simp [State.sendOn, hφ]
@[simp] theorem State.sendWaiting_field (s : State) (l : List Msg) (hφ : φ ≠ .link) : (s.sendWaiting l).field φ = s.field φ := by
  induction l generalizing s with
  | nil => exact State.onLink_field _ _ hφ
  | cons m l ih =>
    rw [State.sendWaiting]
    split
    · rw [ih, State.originate_field _ _ hφ]
    · exact State.onLink_field _ _ hφ
@[simp] theorem State.resendTo_field (s : State) (d : Nat) (hφ : φ ≠ .link) : (s.resendTo d).field φ = s.field φ := by
  simp [State.resendTo, hφ]
@[simp] theorem State.popRx_field (s : State) (p : Nat) (hφ : φ ≠ .link) : (s.popRx p).field φ = s.field φ := by
  simp [State.popRx, hφ]
@[simp] theorem State.forwardOn_field (s : State) (p : Nat) (m : Msg) (hφ : φ ≠ .link) : (s.forwardOn p m).field φ = s.field φ
    := by
  simp [State.forwardOn, hφ]
@[simp] theorem State.passOn_field (s : State) (p : Nat) (m : Msg) (hφ : φ ≠ .link) : (s.passOn p m).field φ = s.field φ := by
  simp [State.passOn, hφ]
theorem State.takeMsg_field (s : State) (p : Nat) (m : Msg) (kind : Nat) (hφ : φ ≠ .link) {t : State} (ht : s.takeMsg p m kind
    = some t) : t.field φ = s.field φ := by
  unfold State.takeMsg at ht
  split at ht <;> cases ht
  simp only [hφ, ne_eq, not_false_eq_true, State.onLink_field, State.popRx_field]
@[simp] theorem State.dictEmptied_field (s : State) (src : Nat) (hφ : φ ≠ .dict) : (s.dictEmptied src).field φ = s.field φ := by
  simp [State.dictEmptied, hφ]
@[simp] theorem State.acceptOrdered_field (s : State) (m : Msg) (hφ : φ ≠ .link ∧ φ ≠ .dict) : (s.acceptOrdered m).1.field φ =
    s.field φ := by
  unfold State.acceptOrdered
  simp only []
  split
  · simp only [hφ, ne_eq, not_false_eq_true, State.onPeer_field, State.onLink_field, State.dictEmptied_field]
  · split
    · simp only [hφ, ne_eq, not_false_eq_true, State.sendMsg_field]
    · simp only [apply_ite Prod.fst, hφ, ne_eq, not_false_eq_true, field_ite, ite_self, State.onPeer_field, State.onLink_field]
@[simp] theorem State.sendAck_field (s : State) (i : Nat) (hφ : φ ≠ .link) : (s.sendAck i).field φ = s.field φ := by
  unfold State.sendAck
  split <;> simp [hφ]
theorem State.deliverMsg_field (s : State) (m : Msg) (kind : Nat) (hφ : φ ≠ .link ∧ φ ≠ .dict) {t : State} (ht : s.deliverMsg m
    kind = some t) : t.field φ = s.field φ := by
  have hafter (r : State × Bool) :
      (if 256 ≤ (r.1.peer m.src).delivered then (r.1.sendAck m.src, r.2) else r).1.field φ = r.1.field φ := by
    split
    · exact State.sendAck_field _ _ hφ.1
    · rfl
  unfold State.deliverMsg at ht
  simp only [] at ht
  split at ht
  · cases ht
  · split at ht
    · obtain ⟨-, ht⟩ := Option.ite_none_right_eq_some.mp ht
      cases ht
      rw [hafter, State.acceptOrdered_field _ _ hφ]
    · split at ht
      · cases ht
      · obtain ⟨-, ht⟩ := Option.ite_none_right_eq_some.mp ht
        cases ht
        rw [hafter, State.acceptOrdered_field _ _ hφ, State.popRx_field _ _ hφ.1]
@[simp] theorem State.undelivered_field (s : State) (m : Msg) (kind : Nat) (hφ : φ ≠ .link ∧ φ ≠ .dict) : (s.undelivered m
    kind).field φ = s.field φ := by
  unfold State.undelivered
  (repeat' split) <;> simp [hφ]
@[simp] theorem execFrameReceive_field (port lseq lack credit : Nat) (good : Bool) (msgs : List Msg) (s : State) (hφ : φ ≠
    .link) : (execFrameReceive port lseq lack credit good msgs s).keeps φ s := by
  simp [execFrameReceive, hφ]
@[simp] theorem execControlFramePeriod_field (port : Nat) (s : State) (hφ : φ ≠ .link) : (execControlFramePeriod port s).keeps
    φ s := by
  simp [execControlFramePeriod, hφ]
@[simp] theorem State.sendMap_field (s : State) (hφ : φ ≠ .link) : (s.sendMap).field φ = s.field φ := by
  simp [State.sendMap, hφ]
@[simp] theorem State.remap_field (s : State) (hφ : φ ≠ .link) : (s.remap).field φ = s.field φ := by
  simp [State.remap, hφ]
@[simp] theorem State.portChanged_field (s : State) (hφ : φ ≠ .link) : (s.portChanged).field φ = s.field φ := by
  simp [State.portChanged, hφ]
@[simp] theorem execMap_field (port : Nat) (m : Msg) (s : State) (hφ : φ ≠ .link) : (execMap port m s).keeps φ s := by
  unfold execMap
  repeat' split
  · simp
  · simp [hφ, State.takeMsg_field (ht := ‹State.takeMsg _ _ _ _ = _›)]
@[simp] theorem execMapPeriod_field (s : State) (hφ : φ ≠ .link) : (execMapPeriod s).keeps φ s := by
  simp [execMapPeriod, hφ]
@[simp] theorem State.tryLock_field (s : State) (p : Nat) (hφ : φ ≠ .link) : (s.tryLock p).field φ = s.field φ := by
  simp [State.tryLock, hφ]
@[simp] theorem State.portDown_field (s : State) (p : Nat) (hφ : φ ≠ .link ∧ φ ≠ .events) : (s.portDown p).field φ = s.field φ
    := by
  simp [State.portDown, hφ]
@[simp] theorem State.portFail_field (s : State) (p cause : Nat) (hφ : φ ≠ .link ∧ φ ≠ .events) : (s.portFail p cause).field φ
    = s.field φ := by
  simp [State.portFail, hφ]
@[simp] theorem State.resendFrames_field (s : State) (p : Nat) (hφ : φ ≠ .link ∧ φ ≠ .events) : (s.resendFrames p).field φ =
    s.field φ := by
  simp [State.resendFrames, hφ]
@[simp] theorem execControlFrame_field (port lack credit : Nat) (s : State) (hφ : φ ≠ .link ∧ φ ≠ .events) : (execControlFrame
    port lack credit s).keeps φ s := by
  simp [execControlFrame, hφ]
@[simp] theorem State.writePortEnable_field (s : State) (p : Nat) (on : Bool) (hφ : φ ≠ .link) : (s.writePortEnable p on).field
    φ = s.field φ := by
  simp [State.writePortEnable, hφ]
@[simp] theorem execPortEnable_field (port : Nat) (on : Bool) (s : State) (hφ : φ ≠ .link) : (execPortEnable port on s).keeps φ
    s := by
  simp [execPortEnable, hφ]
@[simp] theorem execPhyReady_field (port : Nat) (s : State) (hφ : φ ≠ .link) : (execPhyReady port s).keeps φ s := by
  simp [execPhyReady, hφ]
@[simp] theorem execRelock_field (port : Nat) (s : State) (hφ : φ ≠ .link) : (execRelock port s).keeps φ s := by
  simp [execRelock, hφ]
@[simp] theorem execLanesClassified_field (port : Nat) (status : List Nat) (polarity : BitVec 8) (s : State) (hφ : φ ≠ .link) :
    (execLanesClassified port status polarity s).keeps φ s := by
  simp [execLanesClassified, hφ]
@[simp] theorem execTrainingTrial_field (port : Nat) (coeff : Bytes) (eye : TrialEye) (s : State) (hφ : φ ≠ .pins ∧ φ ≠ .link)
    : (execTrainingTrial port coeff eye s).keeps φ s := by
  simp [execTrainingTrial, hφ]
@[simp] theorem execTrainingEnd_field (port : Nat) (peerOk : BitVec 8) (s : State) (hφ : φ ≠ .link ∧ φ ≠ .events) :
    (execTrainingEnd port peerOk s).keeps φ s := by
  simp [execTrainingEnd, hφ]
@[simp] theorem State.sendEcho_field (s : State) (p : Nat) (hφ : φ ≠ .link) : (s.sendEcho p).field φ = s.field φ := by
  simp [State.sendEcho, hφ]
@[simp] theorem State.identify_field (s : State) (p : Nat) (hφ : φ ≠ .link) : (s.identify p).field φ = s.field φ := by
  simp [State.identify, hφ]
@[simp] theorem execAlignDone_field (port : Nat) (order : List Nat) (skewOk : Bool) (s : State) (hφ : φ ≠ .link ∧ φ ≠ .events)
    : (execAlignDone port order skewOk s).keeps φ s := by
  simp [execAlignDone, hφ]
@[simp] theorem State.fixBy_field (s : State) (p : Nat) (b : Bytes) (hφ : φ ≠ .link ∧ φ ≠ .events) : (s.fixBy p b).field φ =
    s.field φ := by
  simp [State.fixBy, hφ]
@[simp] theorem execIdent_field (port : Nat) (m : Msg) (s : State) (hφ : φ ≠ .link ∧ φ ≠ .events) : (execIdent port m s).keeps
    φ s := by
  unfold execIdent
  refine (Out.keeps_unit _ _ _ _).mpr fun _ => ?_
  split
  · rfl
  · split
    · rfl
    · next s1 h1 => 
      simp only []
      split <;> simp only [hφ, ne_eq, not_false_eq_true, and_self, field_ite, ite_self, State.onLport_field,
          State.onPeer_field, State.onLink_field, State.portFail_field, State.fixBy_field, State.takeMsg_field (ht := h1)]
@[simp] theorem execIdentPeriod_field (port : Nat) (s : State) (hφ : φ ≠ .link) : (execIdentPeriod port s).keeps φ s := by
  simp [execIdentPeriod, hφ]
@[simp] theorem execPortUp_field (port : Nat) (s : State) (hφ : φ ≠ .link) : (execPortUp port s).keeps φ s := by
  simp [execPortUp, hφ]
@[simp] theorem execPortDown_field (port cause : Nat) (s : State) (hφ : φ ≠ .link ∧ φ ≠ .events) : (execPortDown port cause
    s).keeps φ s := by
  simp [execPortDown, hφ]
@[simp] theorem execReplayTimeExpiry_field (port : Nat) (s : State) (hφ : φ ≠ .link ∧ φ ≠ .events) : (execReplayTimeExpiry port
    s).keeps φ s := by
  simp [execReplayTimeExpiry, hφ]
@[simp] theorem execEcho_field (port : Nat) (m : Msg) (s : State) (hφ : φ ≠ .link) : (execEcho port m s).keeps φ s := by
  unfold execEcho
  repeat' split
  · simp
  · simp [hφ, State.takeMsg_field (ht := ‹State.takeMsg _ _ _ _ = _›)]
@[simp] theorem execEchoRenewal_field (port : Nat) (s : State) (hφ : φ ≠ .link) : (execEchoRenewal port s).keeps φ s := by
  simp [execEchoRenewal, hφ]
@[simp] theorem execTime_field (port : Nat) (m : Msg) (s : State) (hφ : φ ≠ .link ∧ φ ≠ .now) : (execTime port m s).keeps φ s
    := by
  unfold execTime
  repeat' split
  · simp
  · simp [hφ, State.takeMsg_field (ht := ‹State.takeMsg _ _ _ _ = _›)]
@[simp] theorem execTimePeriod_field (s : State) (hφ : φ ≠ .link) : (execTimePeriod s).keeps φ s := by
  simp [execTimePeriod, hφ]
@[simp] theorem State.dropPeer_field (s : State) (d : Nat) (hφ : φ ≠ .link ∧ φ ≠ .events) : (s.dropPeer d).field φ = s.field φ
    := by
  simp [State.dropPeer, hφ]
@[simp] theorem execAckE2e_field (m : Msg) (s : State) (hφ : φ ≠ .link ∧ φ ≠ .events) : (execAckE2e m s).keeps φ s := by
  unfold execAckE2e
  repeat' split
  · simp
  · simp
  · simp [hφ, State.takeMsg_field (ht := ‹State.takeMsg _ _ _ _ = _›)]
@[simp] theorem execE2eTimeExpiry_field (inst : Nat) (s : State) (hφ : φ ≠ .link) : (execE2eTimeExpiry inst s).keeps φ s := by
  simp [execE2eTimeExpiry, hφ]
@[simp] theorem execAckE2ePeriod_field (inst : Nat) (s : State) (hφ : φ ≠ .link) : (execAckE2ePeriod inst s).keeps φ s := by
  simp [execAckE2ePeriod, hφ]
@[simp] theorem execDestLost_field (inst : Nat) (s : State) (hφ : φ ≠ .link ∧ φ ≠ .events) : (execDestLost inst s).keeps φ s :=
    by
  simp [execDestLost, hφ]
@[simp] theorem execMessageForward_field (port : Nat) (m : Msg) (s : State) (hφ : φ ≠ .link ∧ φ ≠ .events) :
    (execMessageForward port m s).keeps φ s := by
  simp [execMessageForward, hφ]
@[simp] theorem State.ringWrite_field (s : State) (owner pair reg v : Nat) (hφ : φ ≠ .engine ∧ φ ≠ .events) : (s.ringWrite
    owner pair reg v).field φ = s.field φ := by
  simp [State.ringWrite, hφ]
@[simp] theorem execDoorbellWindowWrite_field (b : Bus) (addr : Nat) (v : U64) (s : State) (hφ : φ ≠ .engine ∧ φ ≠ .slices ∧ φ
    ≠ .pins ∧ φ ≠ .link ∧ φ ≠ .events) : (execDoorbellWindowWrite b addr v s).keeps φ s := by
  unfold execDoorbellWindowWrite
  rw [Out.keeps_next]
  split
  · simp only [hφ, ne_eq, not_false_eq_true, State.htAccess_field, field_of_snd ‹State.htAccess _ _ = _›]
  · next s1 h1 =>
    simp only []
    split
    · simp only [hφ, ne_eq, not_false_eq_true, State.htAccess_field, field_of_snd h1]
    · split
      · simp only [hφ, ne_eq, not_false_eq_true, State.htAccess_field, State.onLink_field, field_of_snd h1]
      · split
        · simp only [hφ, ne_eq, not_false_eq_true, State.htAccess_field, field_of_snd h1]
        · split <;> simp only [hφ, ne_eq, not_false_eq_true, and_self, field_ite, ite_self, State.htAccess_field,
            State.pageAccess_field, State.onLink_field, State.sendMsg_field, State.ringWrite_field, field_of_snd h1,
            field_of_snd ‹State.pageAccess _ _ _ = _›]
@[simp] theorem execDoorbell_field (m : Msg) (s : State) (hφ : φ ≠ .engine ∧ φ ≠ .slices ∧ φ ≠ .link ∧ φ ≠ .dict ∧ φ ≠ .events)
    : (execDoorbell m s).keeps φ s := by
  unfold execDoorbell
  rw [Out.keeps_next]
  split
  · simp only [hφ, ne_eq, not_false_eq_true, and_self, State.undelivered_field]
  · next s1 h1 =>
    simp only []
    split <;> simp only [hφ, ne_eq, not_false_eq_true, and_self, field_ite, ite_self, State.pageAccess_field,
        State.ringWrite_field, State.deliverMsg_field (ht := h1), field_of_snd ‹State.pageAccess _ _ _ = _›]

/-! ## Integrity -/

@[simp] theorem State.onStore_field (s : State) (n : Nat) (f : Store → Store) (hφ : φ ≠ .memory) : (s.onStore n f).field φ =
    s.field φ := by
  simp [State.onStore, hφ]
@[simp] theorem State.repeatCheck_field (s : State) (n word : Nat) (hφ : φ ≠ .memory ∧ φ ≠ .events) : (s.repeatCheck n
    word).field φ = s.field φ := by
  simp [State.repeatCheck, hφ]
@[simp] theorem State.countCorrected_field (n : Nat) (scrub : Bool) (s : State) (word : Nat) (hφ : φ ≠ .memory ∧ φ ≠ .events) :
    (State.countCorrected n scrub s word).field φ = s.field φ := by
  simp [State.countCorrected, hφ]
@[simp] theorem State.countRebuilt_field (n : Nat) (scrub : Bool) (s : State) (word : Nat) (hφ : φ ≠ .memory ∧ φ ≠ .events) :
    (State.countRebuilt n scrub s word).field φ = s.field φ := by
  simp [State.countRebuilt, hφ]
@[simp] theorem State.countCaught_field (n : Nat) (scrub : Bool) (s : State) (word : Nat) (hφ : φ ≠ .memory) :
    (State.countCaught n scrub s word).field φ = s.field φ := by
  simp [State.countCaught, hφ]
@[simp] theorem State.countLost_field (n : Nat) (scrub : Bool) (s : State) (word : Nat) (hφ : φ ≠ .memory) : (State.countLost n
    scrub s word).field φ = s.field φ := by
  simp [State.countLost, hφ]
@[simp] theorem State.lineRead_field (s : State) (n line : Nat) (scrub : Bool) (hφ : φ ≠ .memory ∧ φ ≠ .events) : (s.lineRead n
    line scrub).2.field φ = s.field φ := by
  unfold State.lineRead
  simp only []
  repeat' split
  · rfl
  · simp [hφ]
  · simp [hφ]
@[simp] theorem State.dropDamage_field (s : State) (n line : Nat) (hφ : φ ≠ .memory) : (s.dropDamage n line).field φ = s.field
    φ := by
  simp [State.dropDamage, hφ]

/-! ## Directory -/

@[simp] theorem State.addLearned_field (s : State) (p : Nat) (f : Nat → Nat) (hφ : φ ≠ .dir) : (s.addLearned p f).field φ =
    s.field φ := by
  simp [State.addLearned, hφ]
@[simp] theorem State.removeEntry_field (s : State) (n : Nat) (hφ : φ ≠ .dir) : (s.removeEntry n).field φ = s.field φ := by
  simp [State.removeEntry, hφ]
@[simp] theorem State.readBucket_field (s : State) (bk : Nat) (scrub : Bool) (hφ : φ ≠ .dir ∧ φ ≠ .memory ∧ φ ≠ .events) :
    (s.readBucket bk scrub).field φ = s.field φ := by
  unfold State.readBucket
  (repeat' split) <;> simp [hφ, field_of_snd ‹State.lineRead _ _ _ _ = _›]
@[simp] theorem State.readBuckets_field (s : State) (k : ExactKey) (hφ : φ ≠ .dir ∧ φ ≠ .memory ∧ φ ≠ .events) : (s.readBuckets
    k).field φ = s.field φ := by
  simp [State.readBuckets, hφ]
@[simp] theorem State.onXring_field (s : State) (o : Nat) (f : XRing → XRing) (hφ : φ ≠ .dir) : (s.onXring o f).field φ =
    s.field φ := by
  simp [State.onXring, hφ]
@[simp] theorem State.exception_field (s : State) (port cause old : Nat) (q : Req) (sci : Bytes) (target : BitVec 32) (pos :
    Nat) (hφ : φ ≠ .dir) : (s.exception port cause old q sci target pos).field φ = s.field φ := by
  unfold State.exception
  split <;> simp [hφ]
@[simp] theorem execExceptionEntryWrite_field (owner chan : Nat) (s : State) (hφ : φ ≠ .dir ∧ φ ≠ .slices ∧ φ ≠ .access ∧ φ ≠
    .port ∧ φ ≠ .events) : (execExceptionEntryWrite owner chan s).keeps φ s := by
  unfold execExceptionEntryWrite
  refine (Out.keeps_unit _ _ _ _).mpr fun _ => ?_
  split
  · next a s1 h1 =>
    simp only []
    split
    · simp only [hφ, ne_eq, not_false_eq_true, State.onXring_field, State.takeEnded_field (ht := h1)]
    · split
      · simp only [hφ, ne_eq, not_false_eq_true, State.onXring_field, State.takeEnded_field (ht := h1)]
      · split <;> simp only [hφ, ne_eq, not_false_eq_true, and_self, State.raise_field, State.issue_field, State.onXring_field,
          field_of_snd ‹State.issue _ _ = _›, State.takeEnded_field (ht := h1)]
  · simp only []
    split
    · split
      · simp only [hφ, ne_eq, not_false_eq_true, State.onXring_field]
      · split
        · split <;> simp only [hφ, ne_eq, not_false_eq_true, and_self, State.raise_field, State.issue_field,
            State.onXring_field, field_of_snd ‹State.issue _ _ = _›]
        · rfl
    · rfl
@[simp] theorem execXrEnable_field (b : Bus) (owner : Nat) (s : State) (hφ : φ ≠ .dir ∧ φ ≠ .slices ∧ φ ≠ .pins ∧ φ ≠ .events)
    : (execXrEnable b owner s).keeps φ s := by
  simp [execXrEnable, hφ]
@[simp] theorem State.miss_field (s : State) (rid detail : Nat) (q : Req) (hφ : φ ≠ .reqs ∧ φ ≠ .dir) : (s.miss rid detail
    q).field φ = s.field φ := by
  simp [State.miss, hφ]
@[simp] theorem State.resolvedHot_field (s : State) (rid : Nat) (h : BitVec 32) (q : Req) (hφ : φ ≠ .reqs) : (s.resolvedHot rid
    h q).field φ = s.field φ := by
  simp [State.resolvedHot, hφ]
@[simp] theorem State.resolvedCold_field (s : State) (rid i : Nat) (h : BitVec 32) (q : Req) (hφ : φ ≠ .reqs ∧ φ ≠ .slices ∧ φ
    ≠ .access ∧ φ ≠ .port ∧ φ ≠ .events) : (s.resolvedCold rid i h q).field φ = s.field φ := by
  unfold State.resolvedCold
  simp only []
  (repeat' split) <;> simp [hφ, field_of_snd ‹State.issue _ _ = _›]
@[simp] theorem State.hitCommit_field (s : State) (k : ExactKey) (hφ : φ ≠ .dir) : (s.hitCommit k).field φ = s.field φ := by
  unfold State.hitCommit
  split <;> simp [hφ]
@[simp] theorem State.resolvedTo_field (s : State) (rid : Nat) (e : Entry) (q : Req) (hφ : φ ≠ .reqs ∧ φ ≠ .slices ∧ φ ≠
    .access ∧ φ ≠ .port ∧ φ ≠ .events) : (s.resolvedTo rid e q).field φ = s.field φ := by
  simp [State.resolvedTo, hφ]
@[simp] theorem State.commitFound_field (s : State) (rid : Nat) (q : Req) (e : Entry) (hφ : φ ≠ .reqs ∧ φ ≠ .dir ∧ φ ≠ .slices
    ∧ φ ≠ .access ∧ φ ≠ .port ∧ φ ≠ .events) : (s.commitFound rid q e).field φ = s.field φ := by
  simp [State.commitFound, hφ]
@[simp] theorem State.learnCase_field (s : State) (rid : Nat) (q : Req) (k : ExactKey) (hφ : φ ≠ .reqs ∧ φ ≠ .dir) :
    (s.learnCase rid q k).field φ = s.field φ := by
  simp [State.learnCase, hφ]
@[simp] theorem State.lookup_field (s : State) (rid : Nat) (q : Req) (lk : Lookup) (hφ : φ ≠ .reqs ∧ φ ≠ .dir ∧ φ ≠ .slices ∧ φ
    ≠ .access ∧ φ ≠ .port ∧ φ ≠ .memory ∧ φ ≠ .events) : (s.lookup rid q lk).field φ = s.field φ := by
  unfold State.lookup
  simp only []
  repeat' split
  · rfl
  · simp [hφ]
  · simp [hφ]
  · simp [hφ]
  · simp [hφ]
  · simp [hφ]
  · simp [hφ]
  · simp [hφ]
  · simp [hφ]
  · simp [hφ]
  · simp [hφ]
  · simp [hφ]
@[simp] theorem State.moveTest_field (s : State) (rid n p : Nat) (q : Req) (sci : Bytes) (hφ : φ ≠ .dir ∧ φ ≠ .events) :
    (s.moveTest rid n p q sci).field φ = s.field φ := by
  simp [State.moveTest, hφ]
@[simp] theorem State.learnCommit_field (s : State) (rid : Nat) (q : Req) (good : Bool) (hφ : φ ≠ .dir ∧ φ ≠ .events) :
    (s.learnCommit rid q good).field φ = s.field φ := by
  unfold State.learnCommit
  simp only []
  repeat' split
  · rfl
  · simp [hφ]
  · rfl
  · rfl
  · simp [hφ]
  · simp [hφ]
  · rfl
  · simp [hφ]
  · simp [hφ]
  · rfl
  · simp [hφ]
  · rfl
  · rfl
@[simp] theorem execTick_field (s : State) (hφ : φ ≠ .dir) : (execTick s).keeps φ s := by
  simp [execTick, hφ]
@[simp] theorem State.sweepRead_field (s : State) (bucket : Nat) (hφ : φ ≠ .dir) : (s.sweepRead bucket).field φ = s.field φ :=
    by
  simp [State.sweepRead, hφ]
@[simp] theorem State.sweepAgain_field (s : State) (n : Nat) (hφ : φ ≠ .dir) : (s.sweepAgain n).field φ = s.field φ := by
  simp [State.sweepAgain, hφ]
@[simp] theorem execSweepVisit_field (visit : SweepRead) (s : State) (hφ : φ ≠ .dir) : (execSweepVisit visit s).keeps φ s := by
  unfold execSweepVisit
  refine (Out.keeps_unit _ _ _ _).mpr fun _ => ?_
  split <;> simp only [hφ, ne_eq, not_false_eq_true, implies_true, field_foldl, field_set_dir, State.sweepRead_field, State.sweepAgain_field]
@[simp] theorem execLearnedRecount_field (s : State) (hφ : φ ≠ .dir ∧ φ ≠ .memory) : (execLearnedRecount s).keeps φ s := by
  simp [execLearnedRecount, hφ]
@[simp] theorem State.dirFinish_field (s : State) (rid detail : Nat) (out : Bytes) (hφ : φ ≠ .reqs) : (s.dirFinish rid detail
    out).field φ = s.field φ := by
  simp [State.dirFinish, hφ]
@[simp] theorem execDirInsert_field (rid : Nat) (s : State) (hφ : φ ≠ .reqs ∧ φ ≠ .dir ∧ φ ≠ .memory ∧ φ ≠ .events) :
    (execDirInsert rid s).keeps φ s := by
  unfold execDirInsert
  simp only []
  (repeat' split) <;> simp [hφ]
@[simp] theorem execDirDelete_field (rid : Nat) (s : State) (hφ : φ ≠ .reqs ∧ φ ≠ .dir ∧ φ ≠ .memory ∧ φ ≠ .events) :
    (execDirDelete rid s).keeps φ s := by
  unfold execDirDelete
  simp only []
  (repeat' split) <;> simp [hφ]
@[simp] theorem execDirLookup_field (rid : Nat) (s : State) (hφ : φ ≠ .reqs ∧ φ ≠ .dir ∧ φ ≠ .memory ∧ φ ≠ .events) :
    (execDirLookup rid s).keeps φ s := by
  unfold execDirLookup
  simp only []
  (repeat' split) <;> simp [hφ]

/-! ## Myeno -/

@[simp] theorem State.wrapNonce_field (s : State) (hφ : φ ≠ .keys) : (s.wrapNonce).2.field φ = s.field φ := by
  simp [State.wrapNonce, hφ]
@[simp] theorem State.wrapChain_field (s : State) (o alg : Nat) (c : ChainState) (hφ : φ ≠ .keys) : (s.wrapChain o alg
    c).2.field φ = s.field φ := by
  simp [State.wrapChain, hφ]
@[simp] theorem State.onUnit_field (s : State) (u : Nat) (f : DigestUnit → DigestUnit) (hφ : φ ≠ .digest) : (s.onUnit u
    f).field φ = s.field φ := by
  simp [State.onUnit, hφ]
@[simp] theorem State.onEngine_field (s : State) (e : Nat) (f : Engine → Engine) (hφ : φ ≠ .pke) : (s.onEngine e f).field φ =
    s.field φ := by
  simp [State.onEngine, hφ]
@[simp] theorem State.leaveContext_field (s : State) (rid : Nat) (hφ : φ ≠ .lanes ∧ φ ≠ .digest) : (s.leaveContext rid).field φ
    = s.field φ := by
  unfold State.leaveContext
  (repeat' split) <;> simp [hφ]
@[simp] theorem State.closeChainOf_field (s : State) (q : Req) (hφ : φ ≠ .keys) : (s.closeChainOf q).field φ = s.field φ := by
  unfold State.closeChainOf
  (repeat' split) <;> simp [hφ]
@[simp] theorem State.myenoEnd_field (s : State) (rid : Nat) (e : Ending) (hφ : φ ≠ .reqs ∧ φ ≠ .lanes ∧ φ ≠ .keys ∧ φ ≠
    .digest) : (s.myenoEnd rid e).field φ = s.field φ := by
  unfold State.myenoEnd
  split <;> simp [hφ]
@[simp] theorem State.stopRequest_field (s : State) (rid : Nat) (before after : Ending) (hφ : φ ≠ .reqs ∧ φ ≠ .lanes ∧ φ ≠
    .keys ∧ φ ≠ .digest) : (s.stopRequest rid before after).field φ = s.field φ := by
  unfold State.stopRequest
  split <;> simp [hφ]

/-! ## Zeroise -/

@[simp] theorem State.zeroise_field (s : State) (hφ : φ ≠ .ident ∧ φ ≠ .engine ∧ φ ≠ .reqs ∧ φ ≠ .lanes ∧ φ ≠ .keys ∧ φ ≠
    .digest ∧ φ ≠ .pke ∧ φ ≠ .rng ∧ φ ≠ .fifos ∧ φ ≠ .lc ∧ φ ≠ .start ∧ φ ≠ .link ∧ φ ≠ .events) : (s.zeroise).field φ =
    s.field φ := by
  simp [State.zeroise, hφ]
@[simp] theorem State.alarm_field (s : State) (src arg info : Nat) (hφ : φ ≠ .ident ∧ φ ≠ .engine ∧ φ ≠ .reqs ∧ φ ≠ .lanes ∧ φ
    ≠ .keys ∧ φ ≠ .digest ∧ φ ≠ .pke ∧ φ ≠ .rng ∧ φ ≠ .fifos ∧ φ ≠ .lc ∧ φ ≠ .start ∧ φ ≠ .link ∧ φ ≠ .events) : (s.alarm src
    arg info).field φ = s.field φ := by
  simp [State.alarm, hφ]

/-! ## Gather -/

@[simp] theorem State.gatherEnd_field (s : State) (rid : Nat) (e : Ending) (addr : Nat) (hφ : φ ≠ .reqs) : (s.gatherEnd rid e
    addr).field φ = s.field φ := by
  simp [State.gatherEnd, hφ]
@[simp] theorem State.gatherRead_field (s : State) (rid : Nat) (k : Ask) (hφ : φ ≠ .reqs ∧ φ ≠ .slices ∧ φ ≠ .access ∧ φ ≠
    .port ∧ φ ≠ .events) : (s.gatherRead rid k).2.field φ = s.field φ := by
  unfold State.gatherRead
  (repeat' split) <;> simp [hφ, field_of_snd ‹State.issue _ _ = _›]
@[simp] theorem State.readSide_field (s : State) (rid : Nat) (hφ : φ ≠ .reqs ∧ φ ≠ .slices ∧ φ ≠ .access ∧ φ ≠ .port ∧ φ ≠
    .events) : (s.readSide rid).field φ = s.field φ := by
  unfold State.readSide
  split
  · rfl
  · next q hq =>
    simp only []
    split
    · simp only [hφ, ne_eq, not_false_eq_true, State.onReq_field]
    · generalize List.range ((sideLen q.d + 127) / 128) = l
      suffices ∀ r : Bool × State, (l.foldl (fun (t : Bool × State) i =>
          if t.1 then
            t.2.gatherRead rid (q.ask rid .side false (q.d.w6.toNat + 128 * i) (min 128 (sideLen q.d - 128 * i)) (128 * i) [])
          else t) r).2.field φ = r.2.field φ from this (true, s)
      induction l with
      | nil => exact fun _ => rfl
      | cons i l ih =>
        intro r
        rw [List.foldl_cons, ih]
        split <;> simp only [hφ, ne_eq, not_false_eq_true, and_self, State.gatherRead_field]
@[simp] theorem State.readList_field (s : State) (rid : Nat) (hφ : φ ≠ .reqs ∧ φ ≠ .slices ∧ φ ≠ .access ∧ φ ≠ .port ∧ φ ≠
    .events) : (s.readList rid).field φ = s.field φ := by
  unfold State.readList
  split <;> simp [hφ]
@[simp] theorem State.readOutList_field (s : State) (rid : Nat) (hφ : φ ≠ .reqs ∧ φ ≠ .slices ∧ φ ≠ .access ∧ φ ≠ .port ∧ φ ≠
    .events) : (s.readOutList rid).field φ = s.field φ := by
  unfold State.readOutList
  split <;> simp [hφ]
@[simp] theorem State.readInput_field (n : Nat) (s : State) (rid : Nat)
    (hφ : φ ≠ .reqs ∧ φ ≠ .slices ∧ φ ≠ .access ∧ φ ≠ .port ∧ φ ≠ .events) : (State.readInput n s rid).field φ = s.field φ := by
  induction n generalizing s with
  | zero => rfl
  | succ n ih =>
    rw [State.readInput]
    simp only []
    (repeat' split) <;> first
      | rfl
      | simp only [field_of_snd ‹State.gatherRead _ _ _ = _›, ih, hφ, ne_eq, not_false_eq_true, and_self, State.onReq_field,
          State.gatherRead_field]
@[simp] theorem State.gatherOn_field (s : State) (rid : Nat) (hφ : φ ≠ .reqs ∧ φ ≠ .slices ∧ φ ≠ .access ∧ φ ≠ .port ∧ φ ≠
    .events) : (s.gatherOn rid).field φ = s.field φ := by
  simp [State.gatherOn, hφ]
@[simp] theorem State.gatherStart_field (s : State) (rid : Nat) (hφ : φ ≠ .reqs ∧ φ ≠ .slices ∧ φ ≠ .access ∧ φ ≠ .port ∧ φ ≠
    .events) : (s.gatherStart rid).field φ = s.field φ := by
  simp [State.gatherStart, hφ]
@[simp] theorem State.countHold_field (s : State) (rid : Nat) (q : Req) (hφ : φ ≠ .reqs ∧ φ ≠ .order) : (s.countHold rid
    q).field φ = s.field φ := by
  simp [State.countHold, hφ]
@[simp] theorem State.gateTry_field (s : State) (rid : Nat) (hφ : φ ≠ .reqs ∧ φ ≠ .order ∧ φ ≠ .slices ∧ φ ≠ .access ∧ φ ≠
    .port ∧ φ ≠ .events) : (s.gateTry rid).field φ = s.field φ := by
  unfold State.gateTry
  split <;> simp [hφ]
@[simp] theorem execSeamGatePass_field (rid : Nat) (s : State) (hφ : φ ≠ .reqs ∧ φ ≠ .order ∧ φ ≠ .slices ∧ φ ≠ .access ∧ φ ≠
    .port ∧ φ ≠ .events) : (execSeamGatePass rid s).keeps φ s := by
  simp [execSeamGatePass, hφ]
@[simp] theorem execNopFence_field (rid : Nat) (s : State) (hφ : φ ≠ .reqs ∧ φ ≠ .order ∧ φ ≠ .slices ∧ φ ≠ .access ∧ φ ≠ .port
    ∧ φ ≠ .events) : (execNopFence rid s).keeps φ s := by
  unfold execNopFence
  split <;> simp [hφ]
@[simp] theorem execResolve_field (rid : Nat) (s : State) (hφ : φ ≠ .reqs ∧ φ ≠ .dir ∧ φ ≠ .slices ∧ φ ≠ .access ∧ φ ≠ .port ∧
    φ ≠ .memory ∧ φ ≠ .events) : (execResolve rid s).keeps φ s := by
  unfold execResolve
  simp only []
  repeat' split
  · simp
  · simp
  · simp [hφ]
  · simp
  · simp [hφ]
  · simp [hφ]
  · simp
  · simp
  · simp
  · simp [hφ, field_of_snd ‹State.gatherRead _ _ _ = _›]
  · simp [hφ, field_of_snd ‹State.gatherRead _ _ _ = _›]
  · simp [hφ]
@[simp] theorem execBlobReadArrival_field (rid : Nat) (s : State) (hφ : φ ≠ .reqs ∧ φ ≠ .port) : (execBlobReadArrival rid
    s).keeps φ s := by
  unfold execBlobReadArrival
  repeat' split
  · simp
  · simp [hφ, State.takeEnded_field (ht := ‹State.takeEnded _ _ = _›)]
@[simp] theorem execFragmentListArrival_field (rid : Nat) (s : State) (hφ : φ ≠ .reqs ∧ φ ≠ .slices ∧ φ ≠ .access ∧ φ ≠ .port ∧
    φ ≠ .events) : (execFragmentListArrival rid s).keeps φ s := by
  unfold execFragmentListArrival
  repeat' split
  · simp [hφ, State.takeEnded_field (ht := ‹State.takeEnded _ _ = _›)]
  · simp [hφ, State.takeEnded_field (ht := ‹State.takeEnded _ _ = _›)]
  · simp [hφ, State.takeEnded_field (ht := ‹State.takeEnded _ _ = _›)]
  · simp [hφ]
@[simp] theorem execInputDataArrival_field (rid : Nat) (s : State) (hφ : φ ≠ .reqs ∧ φ ≠ .slices ∧ φ ≠ .access ∧ φ ≠ .port ∧ φ
    ≠ .events) : (execInputDataArrival rid s).keeps φ s := by
  unfold execInputDataArrival
  repeat' split
  · simp
  · simp [hφ, State.takeEnded_field (ht := ‹State.takeEnded _ _ = _›)]
  · simp [hφ, State.takeEnded_field (ht := ‹State.takeEnded _ _ = _›)]
  · simp [hφ]

/-! ## Check -/

@[simp] theorem State.poisonSlot_field (s : State) (n : Nat) (gen : Bool) (hφ : φ ≠ .keys) : (s.poisonSlot n gen).field φ =
    s.field φ := by
  simp [State.poisonSlot, hφ]
@[simp] theorem State.holdDamage_field (s : State) (n line : Nat) (hφ : φ ≠ .memory) : (s.holdDamage n line).field φ = s.field
    φ := by
  simp [State.holdDamage, hφ]
@[simp] theorem State.readSlotLine_field (s : State) (line : Nat) (scrub : Bool) (hφ : φ ≠ .keys ∧ φ ≠ .memory ∧ φ ≠ .events) :
    (s.readSlotLine line scrub).field φ = s.field φ := by
  unfold State.readSlotLine
  (repeat' split) <;> simp [hφ, field_of_snd ‹State.lineRead _ _ _ _ = _›]
@[simp] theorem State.readSlot_field (s : State) (n : Nat) (hφ : φ ≠ .keys ∧ φ ≠ .memory ∧ φ ≠ .events) : (s.readSlot n).field
    φ = s.field φ := by
  unfold State.readSlot
  split
  · rfl
  · refine field_foldl s _ (fun t m => field_foldl t _ (fun u k => ?_) _) _
    simp only [hφ, ne_eq, not_false_eq_true, and_self, State.readSlotLine_field]
@[simp] theorem State.verifySlot_field (s0 : State) (n : Nat) (hφ : φ ≠ .ident ∧ φ ≠ .engine ∧ φ ≠ .reqs ∧ φ ≠ .lanes ∧ φ ≠
    .keys ∧ φ ≠ .digest ∧ φ ≠ .pke ∧ φ ≠ .rng ∧ φ ≠ .fifos ∧ φ ≠ .memory ∧ φ ≠ .lc ∧ φ ≠ .start ∧ φ ≠ .link ∧ φ ≠ .events) :
    (s0.verifySlot n).field φ = s0.field φ := by
  simp [State.verifySlot, hφ]
@[simp] theorem State.countControl_field (s : State) (n : Nat) (hφ : φ ≠ .tango) : (s.countControl n).field φ = s.field φ := by
  simp [State.countControl, hφ]
@[simp] theorem State.wrapBlob_field (s0 : State) (o : Nat) (k : KeyCopy) (kind3 sealing : Bool) (hφ : φ ≠ .keys ∧ φ ≠ .tango)
    : (s0.wrapBlob o k kind3 sealing).2.field φ = s0.field φ := by
  simp [State.wrapBlob, hφ]
@[simp] theorem State.coldKey_field (s : State) (o : Nat) (b : Bytes) (hφ : φ ≠ .keys ∧ φ ≠ .tango) : (s.coldKey o b).2.field φ
    = s.field φ := by
  unfold State.coldKey
  simp only []
  (repeat' split) <;> simp [hφ]
@[simp] theorem State.assocKey_field (s : State) (q : Req) (hφ : φ ≠ .keys ∧ φ ≠ .tango) : (s.assocKey q).2.field φ = s.field φ
    := by
  unfold State.assocKey
  split <;> simp [hφ]
@[simp] theorem State.makeRecord_field (s : State) (o : Nat) (slot : Option (Nat × BitVec 12)) (alg len : Nat) (st : Bytes) (hφ
    : φ ≠ .keys ∧ φ ≠ .tango) : (s.makeRecord o slot alg len st).2.field φ = s.field φ := by
  unfold State.makeRecord
  split <;> simp [hφ]
@[simp] theorem State.checkFail_field (s : State) (rid : Nat) (e : Ending) (hφ : φ ≠ .reqs ∧ φ ≠ .lanes ∧ φ ≠ .keys ∧ φ ≠
    .digest) : (s.checkFail rid e).field φ = s.field φ := by
  simp [State.checkFail, hφ]
@[simp] theorem State.dirPass_field (s : State) (rid : Nat) (hφ : φ ≠ .reqs ∧ φ ≠ .lanes ∧ φ ≠ .keys ∧ φ ≠ .digest) :
    (s.dirPass rid).field φ = s.field φ := by
  simp [State.dirPass, hφ]
@[simp] theorem State.checkItems_field (s0 : State) (rid : Nat) (q : Req) (hφ : φ ≠ .reqs ∧ φ ≠ .lanes ∧ φ ≠ .keys ∧ φ ≠ .tango
    ∧ φ ≠ .digest) : (s0.checkItems rid q).field φ = s0.field φ := by
  unfold State.checkItems
  simp only []
  repeat' split
  · simp [hφ]
  · simp [hφ]
  · simp [hφ]
  · rfl
  · simp [hφ]
  · simp [hφ]
  · simp [hφ]
  · simp [hφ]
  · simp [hφ]
  · simp [hφ]
@[simp] theorem State.checkOn_field (s : State) (rid : Nat) (hφ : φ ≠ .reqs ∧ φ ≠ .lanes ∧ φ ≠ .keys ∧ φ ≠ .tango ∧ φ ≠
    .digest) : (s.checkOn rid).field φ = s.field φ := by
  unfold State.checkOn
  repeat' split
  · rfl
  · rfl
  · rfl
  · simp [hφ, field_of_snd ‹State.assocKey _ _ = _›]
  · simp [hφ, field_of_snd ‹State.assocKey _ _ = _›]
  · simp [hφ, field_of_snd ‹State.assocKey _ _ = _›]
  · rfl
  · simp [hφ]
@[simp] theorem State.seamIntegrity_field (s : State) (rid : Nat) (q : Req) (hφ : φ ≠ .ident ∧ φ ≠ .engine ∧ φ ≠ .reqs ∧ φ ≠
    .lanes ∧ φ ≠ .keys ∧ φ ≠ .digest ∧ φ ≠ .pke ∧ φ ≠ .rng ∧ φ ≠ .fifos ∧ φ ≠ .lc ∧ φ ≠ .start ∧ φ ≠ .link ∧ φ ≠ .events) :
    (s.seamIntegrity rid q).field φ = s.field φ := by
  simp [State.seamIntegrity, hφ]
@[simp] theorem State.poisonEnd_field (s : State) (rid : Nat) (hφ : φ ≠ .reqs ∧ φ ≠ .lanes ∧ φ ≠ .keys ∧ φ ≠ .digest) :
    (s.poisonEnd rid).field φ = s.field φ := by
  simp [State.poisonEnd, hφ]
@[simp] theorem State.stageOn_field (s : State) (rid : Nat) (hφ : φ ≠ .reqs ∧ φ ≠ .lanes) : (s.stageOn rid).field φ = s.field φ
    := by
  unfold State.stageOn
  split
  · rfl
  · simp only [hφ, ne_eq, not_false_eq_true, field_ite, ite_self, field_set_lanes, State.putReq_field]
@[simp] theorem State.lengthEnd_field (s : State) (rid : Nat) (hφ : φ ≠ .reqs ∧ φ ≠ .lanes ∧ φ ≠ .keys ∧ φ ≠ .digest) :
    (s.lengthEnd rid).field φ = s.field φ := by
  unfold State.lengthEnd
  (repeat' split) <;> simp [hφ]
@[simp] theorem execHeadArrival_field (rid : Nat) (s : State) (hφ : φ ≠ .ident ∧ φ ≠ .engine ∧ φ ≠ .reqs ∧ φ ≠ .lanes ∧ φ ≠
    .keys ∧ φ ≠ .tango ∧ φ ≠ .digest ∧ φ ≠ .pke ∧ φ ≠ .rng ∧ φ ≠ .fifos ∧ φ ≠ .slices ∧ φ ≠ .access ∧ φ ≠ .port ∧ φ ≠ .memory ∧
    φ ≠ .lc ∧ φ ≠ .start ∧ φ ≠ .link ∧ φ ≠ .events) : (execHeadArrival rid s).keeps φ s := by
  unfold execHeadArrival
  simp only []
  (repeat' split) <;> simp [hφ]
@[simp] theorem State.strayBeat_field (s : State) (rid : Nat) (tag : U64) (hφ : φ ≠ .ident ∧ φ ≠ .engine ∧ φ ≠ .reqs ∧ φ ≠
    .lanes ∧ φ ≠ .keys ∧ φ ≠ .digest ∧ φ ≠ .pke ∧ φ ≠ .rng ∧ φ ≠ .fifos ∧ φ ≠ .lc ∧ φ ≠ .start ∧ φ ≠ .link ∧ φ ≠ .events) :
    (s.strayBeat rid tag).field φ = s.field φ := by
  simp [State.strayBeat, hφ]
@[simp] theorem execInwardBeatArrival_field (tag : U64) (s : State) (hφ : φ ≠ .ident ∧ φ ≠ .engine ∧ φ ≠ .reqs ∧ φ ≠ .lanes ∧ φ
    ≠ .keys ∧ φ ≠ .tango ∧ φ ≠ .digest ∧ φ ≠ .pke ∧ φ ≠ .rng ∧ φ ≠ .fifos ∧ φ ≠ .lc ∧ φ ≠ .start ∧ φ ≠ .link ∧ φ ≠ .events) :
    (execInwardBeatArrival tag s).keeps φ s := by
  unfold execInwardBeatArrival
  rw [Out.keeps_next]
  split
  · simp only [hφ, ne_eq, not_false_eq_true, and_self, State.strayBeat_field]
  · split
    · simp only [hφ, ne_eq, not_false_eq_true, and_self, field_ite, ite_self, State.strayBeat_field]
    · split <;> simp only [hφ, ne_eq, not_false_eq_true, and_self, field_ite, ite_self, State.onReq_field, State.checkOn_field,
        State.seamIntegrity_field, State.poisonEnd_field, State.stageOn_field, State.lengthEnd_field]
@[simp] theorem execCancel_field (rid : Nat) (s : State) (hφ : φ ≠ .reqs ∧ φ ≠ .lanes ∧ φ ≠ .keys ∧ φ ≠ .digest) : (execCancel
    rid s).keeps φ s := by
  unfold execCancel
  (repeat' split) <;> simp [hφ]

/-! ## Keys -/

@[simp] theorem State.internalDraw_field (s : State) (n : Nat) (hφ : φ ≠ .rng) : (s.internalDraw n).2.field φ = s.field φ := by
  simp [State.internalDraw, hφ]
@[simp] theorem State.roll_field (s : State) (n : Nat) (hφ : φ ≠ .keys) : (s.roll n).field φ = s.field φ := by
  simp [State.roll, hφ]
@[simp] theorem State.autoRoll_field (s : State) (n : Nat) (hφ : φ ≠ .keys ∧ φ ≠ .events) : (s.autoRoll n).field φ = s.field φ
    := by
  unfold State.autoRoll
  split <;> simp [hφ]
@[simp] theorem State.takeValue_field (s : State) (n : Nat) (hφ : φ ≠ .keys ∧ φ ≠ .events) : (s.takeValue n).2.2.field φ =
    s.field φ := by
  simp [State.takeValue, hφ]
@[simp] theorem State.applyLoad_field (s0 : State) (l : Load) (hφ : φ ≠ .keys ∧ φ ≠ .tango) : (s0.applyLoad l).field φ =
    s0.field φ := by
  simp [State.applyLoad, hφ]
@[simp] theorem State.onKw_field (s : State) (o : Nat) (f : KeyWindow → KeyWindow) (hφ : φ ≠ .keys) : (s.onKw o f).field φ =
    s.field φ := by
  simp [State.onKw, hφ]
@[simp] theorem State.kwAccess_field (s : State) (b : Bus) (o : Nat) (hφ : φ ≠ .ident ∧ φ ≠ .engine ∧ φ ≠ .reqs ∧ φ ≠ .lanes ∧
    φ ≠ .keys ∧ φ ≠ .digest ∧ φ ≠ .pke ∧ φ ≠ .rng ∧ φ ≠ .fifos ∧ φ ≠ .lc ∧ φ ≠ .start ∧ φ ≠ .pins ∧ φ ≠ .link ∧ φ ≠ .events) :
    (s.kwAccess b o).2.field φ = s.field φ := by
  unfold State.kwAccess
  (repeat' split) <;> simp [hφ, field_of_snd ‹State.htAccess _ _ = _›]
@[simp] theorem execKwCommitLoad_field (b : Bus) (owner : Nat) (s : State) (hφ : φ ≠ .ident ∧ φ ≠ .engine ∧ φ ≠ .reqs ∧ φ ≠
    .lanes ∧ φ ≠ .keys ∧ φ ≠ .digest ∧ φ ≠ .pke ∧ φ ≠ .rng ∧ φ ≠ .fifos ∧ φ ≠ .memory ∧ φ ≠ .lc ∧ φ ≠ .start ∧ φ ≠ .pins ∧ φ ≠
    .link ∧ φ ≠ .events) : (execKwCommitLoad b owner s).keeps φ s := by
  unfold execKwCommitLoad
  rw [Out.keeps_next]
  split
  · simp only [hφ, ne_eq, not_false_eq_true, and_self, State.kwAccess_field, field_of_snd ‹State.kwAccess _ _ _ = _›]
  · next s1 h1 =>
    simp only []
    split
    · simp only [hφ, ne_eq, not_false_eq_true, and_self, State.kwAccess_field, field_of_snd h1]
    · split <;> simp only [hφ, ne_eq, not_false_eq_true, and_self, State.onKeys_field, State.verifySlot_field,
        State.onKw_field, State.kwAccess_field, field_of_snd h1]
@[simp] theorem execKwCommitClear_field (b : Bus) (owner : Nat) (s : State) (hφ : φ ≠ .ident ∧ φ ≠ .engine ∧ φ ≠ .reqs ∧ φ ≠
    .lanes ∧ φ ≠ .keys ∧ φ ≠ .digest ∧ φ ≠ .pke ∧ φ ≠ .rng ∧ φ ≠ .fifos ∧ φ ≠ .lc ∧ φ ≠ .start ∧ φ ≠ .pins ∧ φ ≠ .link ∧ φ ≠
    .events) : (execKwCommitClear b owner s).keeps φ s := by
  unfold execKwCommitClear
  (repeat' split) <;> simp [hφ, field_of_snd ‹State.kwAccess _ _ _ = _›]
@[simp] theorem execLoadInForce_field (slot : Nat) (s : State) (hφ : φ ≠ .reqs ∧ φ ≠ .lanes ∧ φ ≠ .keys ∧ φ ≠ .tango ∧ φ ≠
    .digest) : (execLoadInForce slot s).keeps φ s := by
  unfold execLoadInForce
  simp only []
  (repeat' split) <;> simp [hφ]
@[simp] theorem State.dissolve_field (s : State) (n : Nat) (hφ : φ ≠ .keys) : (s.dissolve n).field φ = s.field φ := by
  simp [State.dissolve, hφ]
@[simp] theorem State.beginErase_field (s : State) (n rid : Nat) (hφ : φ ≠ .keys) : (s.beginErase n rid).field φ = s.field φ :=
    by
  simp [State.beginErase, hφ]
@[simp] theorem execEraseComplete_field (slot : Nat) (s : State) (hφ : φ ≠ .reqs ∧ φ ≠ .lanes ∧ φ ≠ .keys ∧ φ ≠ .digest) :
    (execEraseComplete slot s).keeps φ s := by
  unfold execEraseComplete
  split <;> simp [hφ]
@[simp] theorem execEraseLimitExpiry_field (slot : Nat) (s : State) (hφ : φ ≠ .reqs ∧ φ ≠ .lanes ∧ φ ≠ .keys ∧ φ ≠ .digest) :
    (execEraseLimitExpiry slot s).keeps φ s := by
  unfold execEraseLimitExpiry
  refine (Out.keeps_unit _ _ _ _).mpr fun _ => ?_
  split
  · rfl
  · split
    · rfl
    · simp only [hφ, ne_eq, not_false_eq_true, and_self, implies_true, field_foldl, field_set_digest, State.onReq_field,
        State.onKeys_field, State.stopRequest_field]
@[simp] theorem State.acted_field (s : State) (rid : Nat) (hφ : φ ≠ .reqs) : (s.acted rid).field φ = s.field φ := by
  simp [State.acted, hφ]
@[simp] theorem State.form_field (s : State) (n w : Nat) (hφ : φ ≠ .keys) : (s.form n w).field φ = s.field φ := by
  simp [State.form, hφ]
@[simp] theorem State.assocAct_field (s : State) (rid : Nat) (q : Req) (hφ : φ ≠ .reqs ∧ φ ≠ .lanes ∧ φ ≠ .keys ∧ φ ≠ .digest)
    : (s.assocAct rid q).field φ = s.field φ := by
  unfold State.assocAct
  simp only []
  (repeat' split) <;> simp [hφ]
@[simp] theorem State.loadAct_field (s : State) (rid : Nat) (q : Req) (hφ : φ ≠ .reqs ∧ φ ≠ .lanes ∧ φ ≠ .keys ∧ φ ≠ .digest ∧
    φ ≠ .rng) : (s.loadAct rid q).field φ = s.field φ := by
  unfold State.loadAct
  simp only []
  repeat' split
  · simp [hφ]
  · simp [hφ]
  · simp [hφ]
  · simp [hφ]
  · simp [hφ]
  · rfl
  · simp [hφ]
  · simp [hφ]
@[simp] theorem State.eraseAct_field (s : State) (rid : Nat) (q : Req) (hφ : φ ≠ .reqs ∧ φ ≠ .lanes ∧ φ ≠ .keys ∧ φ ≠ .digest)
    : (s.eraseAct rid q).field φ = s.field φ := by
  unfold State.eraseAct
  (repeat' split) <;> simp [hφ]
@[simp] theorem State.exportAct_field (s : State) (rid : Nat) (q : Req) (hφ : φ ≠ .reqs ∧ φ ≠ .lanes ∧ φ ≠ .keys ∧ φ ≠ .tango ∧
    φ ≠ .digest) : (s.exportAct rid q).field φ = s.field φ := by
  unfold State.exportAct
  split <;> simp [hφ]
@[simp] theorem State.keyAct_field (s0 : State) (rid : Nat) (hφ : φ ≠ .ident ∧ φ ≠ .engine ∧ φ ≠ .reqs ∧ φ ≠ .lanes ∧ φ ≠ .keys
    ∧ φ ≠ .tango ∧ φ ≠ .digest ∧ φ ≠ .pke ∧ φ ≠ .rng ∧ φ ≠ .fifos ∧ φ ≠ .memory ∧ φ ≠ .lc ∧ φ ≠ .start ∧ φ ≠ .link ∧ φ ≠
    .events) : (s0.keyAct rid).field φ = s0.field φ := by
  unfold State.keyAct
  (repeat' split) <;> simp [hφ]
@[simp] theorem State.keyOp_field (s : State) (rid op : Nat) (p : Req → Bool) (hφ : φ ≠ .ident ∧ φ ≠ .engine ∧ φ ≠ .reqs ∧ φ ≠
    .lanes ∧ φ ≠ .keys ∧ φ ≠ .tango ∧ φ ≠ .digest ∧ φ ≠ .pke ∧ φ ≠ .rng ∧ φ ≠ .fifos ∧ φ ≠ .memory ∧ φ ≠ .lc ∧ φ ≠ .start ∧ φ ≠
    .link ∧ φ ≠ .events) : (s.keyOp rid op p).field φ = s.field φ := by
  unfold State.keyOp
  split <;> simp [hφ]
@[simp] theorem execKeyLoadWrapped_field (rid : Nat) (s : State) (hφ : φ ≠ .ident ∧ φ ≠ .engine ∧ φ ≠ .reqs ∧ φ ≠ .lanes ∧ φ ≠
    .keys ∧ φ ≠ .tango ∧ φ ≠ .digest ∧ φ ≠ .pke ∧ φ ≠ .rng ∧ φ ≠ .fifos ∧ φ ≠ .memory ∧ φ ≠ .lc ∧ φ ≠ .start ∧ φ ≠ .link ∧ φ ≠
    .events) : (execKeyLoadWrapped rid s).keeps φ s := by
  simp [execKeyLoadWrapped, hφ]
@[simp] theorem execKeyErase_field (rid : Nat) (s : State) (hφ : φ ≠ .ident ∧ φ ≠ .engine ∧ φ ≠ .reqs ∧ φ ≠ .lanes ∧ φ ≠ .keys
    ∧ φ ≠ .tango ∧ φ ≠ .digest ∧ φ ≠ .pke ∧ φ ≠ .rng ∧ φ ≠ .fifos ∧ φ ≠ .memory ∧ φ ≠ .lc ∧ φ ≠ .start ∧ φ ≠ .link ∧ φ ≠
    .events) : (execKeyErase rid s).keeps φ s := by
  simp [execKeyErase, hφ]
@[simp] theorem execKeyGen_field (rid : Nat) (s : State) (hφ : φ ≠ .ident ∧ φ ≠ .engine ∧ φ ≠ .reqs ∧ φ ≠ .lanes ∧ φ ≠ .keys ∧
    φ ≠ .tango ∧ φ ≠ .digest ∧ φ ≠ .pke ∧ φ ≠ .rng ∧ φ ≠ .fifos ∧ φ ≠ .memory ∧ φ ≠ .lc ∧ φ ≠ .start ∧ φ ≠ .link ∧ φ ≠ .events)
    : (execKeyGen rid s).keeps φ s := by
  simp [execKeyGen, hφ]
@[simp] theorem execKeyExportWrapped_field (rid : Nat) (s : State) (hφ : φ ≠ .ident ∧ φ ≠ .engine ∧ φ ≠ .reqs ∧ φ ≠ .lanes ∧ φ
    ≠ .keys ∧ φ ≠ .tango ∧ φ ≠ .digest ∧ φ ≠ .pke ∧ φ ≠ .rng ∧ φ ≠ .fifos ∧ φ ≠ .memory ∧ φ ≠ .lc ∧ φ ≠ .start ∧ φ ≠ .link ∧ φ
    ≠ .events) : (execKeyExportWrapped rid s).keeps φ s := by
  simp [execKeyExportWrapped, hφ]
@[simp] theorem execAssocRollRoll_field (rid : Nat) (s : State) (hφ : φ ≠ .ident ∧ φ ≠ .engine ∧ φ ≠ .reqs ∧ φ ≠ .lanes ∧ φ ≠
    .keys ∧ φ ≠ .tango ∧ φ ≠ .digest ∧ φ ≠ .pke ∧ φ ≠ .rng ∧ φ ≠ .fifos ∧ φ ≠ .memory ∧ φ ≠ .lc ∧ φ ≠ .start ∧ φ ≠ .link ∧ φ ≠
    .events) : (execAssocRollRoll rid s).keeps φ s := by
  simp [execAssocRollRoll, hφ]
@[simp] theorem execAssocRollForm_field (rid : Nat) (s : State) (hφ : φ ≠ .ident ∧ φ ≠ .engine ∧ φ ≠ .reqs ∧ φ ≠ .lanes ∧ φ ≠
    .keys ∧ φ ≠ .tango ∧ φ ≠ .digest ∧ φ ≠ .pke ∧ φ ≠ .rng ∧ φ ≠ .fifos ∧ φ ≠ .memory ∧ φ ≠ .lc ∧ φ ≠ .start ∧ φ ≠ .link ∧ φ ≠
    .events) : (execAssocRollForm rid s).keeps φ s := by
  simp [execAssocRollForm, hφ]
@[simp] theorem execAssocRollDissolve_field (rid : Nat) (s : State) (hφ : φ ≠ .ident ∧ φ ≠ .engine ∧ φ ≠ .reqs ∧ φ ≠ .lanes ∧ φ
    ≠ .keys ∧ φ ≠ .tango ∧ φ ≠ .digest ∧ φ ≠ .pke ∧ φ ≠ .rng ∧ φ ≠ .fifos ∧ φ ≠ .memory ∧ φ ≠ .lc ∧ φ ≠ .start ∧ φ ≠ .link ∧ φ
    ≠ .events) : (execAssocRollDissolve rid s).keeps φ s := by
  simp [execAssocRollDissolve, hφ]
@[simp] theorem execAllotCommit_field (s : State) (hφ : φ ≠ .keys) : (execAllotCommit s).keeps φ s := by
  simp [execAllotCommit, hφ]
@[simp] theorem execColdCacheSlots_field (v : U32) (s : State) (hφ : φ ≠ .keys) : (execColdCacheSlots v s).keeps φ s := by
  simp [execColdCacheSlots, hφ]

/-! ## Seal -/

@[simp] theorem State.sealDone_field (s : State) (hφ : φ ≠ .ident ∧ φ ≠ .events) : (s.sealDone).field φ = s.field φ := by
  simp [State.sealDone, hφ]
@[simp] theorem execSealDigestDone_field (s : State) (hφ : φ ≠ .ident ∧ φ ≠ .events) : (execSealDigestDone s).keeps φ s := by
  simp [execSealDigestDone, hφ]

/-! ## Lanes -/

@[simp] theorem State.laneSettle_field (s : State) (n : Nat) (hφ : φ ≠ .lanes) : (s.laneSettle n).field φ = s.field φ := by
  simp [State.laneSettle, hφ]
@[simp] theorem State.lanesSettle_field (s : State) (hφ : φ ≠ .lanes) : (s.lanesSettle).field φ = s.field φ := by
  simp [State.lanesSettle, hφ]
@[simp] theorem State.enterLane_field (s : State) (n rid : Nat) (seq_ : Bool) (hφ : φ ≠ .lanes) : (s.enterLane n rid
    seq_).field φ = s.field φ := by
  simp [State.enterLane, hφ]
@[simp] theorem State.countReplay_field (s : State) (detail : Nat) (lost : Bool) (hφ : φ ≠ .lanes) : (s.countReplay detail
    lost).field φ = s.field φ := by
  simp [State.countReplay, hφ]
@[simp] theorem State.replayCommit_field (s0 : State) (q : Req) (hφ : φ ≠ .ident ∧ φ ≠ .engine ∧ φ ≠ .reqs ∧ φ ≠ .lanes ∧ φ ≠
    .keys ∧ φ ≠ .digest ∧ φ ≠ .pke ∧ φ ≠ .rng ∧ φ ≠ .fifos ∧ φ ≠ .memory ∧ φ ≠ .lc ∧ φ ≠ .start ∧ φ ≠ .link ∧ φ ≠ .events) :
    (s0.replayCommit q).2.field φ = s0.field φ := by
  unfold State.replayCommit
  simp only []
  repeat' split
  · rfl
  · rfl
  · simp [hφ]
  · rfl
  · simp [hφ]
  · simp [hφ]
  · simp [hφ]
  · simp [hφ]
  · simp [hφ]
  · rfl
  · simp [hφ]
  · rfl
  · rfl
  · simp [hφ]
@[simp] theorem State.readPn_field (s : State) (rid : Nat) (q : Req) (x : Slot) (hφ : φ ≠ .reqs) : (s.readPn rid q x).field φ =
    s.field φ := by
  simp [State.readPn, hφ]
@[simp] theorem State.dispatchRefuse_field (s : State) (rid : Nat) (q : Req) (n : Nat) (e : Ending) (hφ : φ ≠ .reqs ∧ φ ≠
    .lanes ∧ φ ≠ .keys ∧ φ ≠ .digest) : (s.dispatchRefuse rid q n e).field φ = s.field φ := by
  simp [State.dispatchRefuse, hφ]
@[simp] theorem State.countWait_field (s : State) (rid : Nat) (q : Req) (hφ : φ ≠ .reqs ∧ φ ≠ .lanes) : (s.countWait rid
    q).field φ = s.field φ := by
  simp [State.countWait, hφ]
@[simp] theorem State.countOrder_field (s : State) (rid : Nat) (q : Req) (hφ : φ ≠ .reqs ∧ φ ≠ .order) : (s.countOrder rid
    q).field φ = s.field φ := by
  simp [State.countOrder, hφ]
@[simp] theorem State.openChainOn_field (s : State) (n op : Nat) (tag : U64) (hφ : φ ≠ .keys) : (s.openChainOn n op tag).field
    φ = s.field φ := by
  simp [State.openChainOn, hφ]
@[simp] theorem State.chainStart_field (s : State) (q : Req) (slot : Option Nat) (gen : BitVec 12) (an : Nat) (tag : U64) (took
    : Bool) (iv : Bytes) (hφ : φ ≠ .keys) : (s.chainStart q slot gen an tag took iv).2.field φ = s.field φ := by
  unfold State.chainStart
  (repeat' split) <;> simp [hφ]
@[simp] theorem State.captureOn_field (s : State) (rid lane : Nat) (q : Req) (k : KeyCopy) (hφ : φ ≠ .reqs ∧ φ ≠ .lanes ∧ φ ≠
    .keys ∧ φ ≠ .rng ∧ φ ≠ .events) : (s.captureOn rid lane q k).field φ = s.field φ := by
  simp only [State.captureOn, apply_ite Prod.snd, hφ, ne_eq, not_false_eq_true, and_self, field_ite, ite_self,
      field_set_lanes_rng, State.onReq_field, State.internalDraw_field, State.takeValue_field, State.enterLane_field,
      State.chainStart_field]
@[simp] theorem State.assignLane_field (s : State) (rid : Nat) (q : Req) (k : KeyCopy) (hφ : φ ≠ .reqs ∧ φ ≠ .lanes ∧ φ ≠ .keys
    ∧ φ ≠ .digest ∧ φ ≠ .rng ∧ φ ≠ .events) : (s.assignLane rid q k).field φ = s.field φ := by
  unfold State.assignLane
  (repeat' split) <;> simp [hφ]
@[simp] theorem State.laneDispatch_field (s0 : State) (rid : Nat) (hφ : φ ≠ .ident ∧ φ ≠ .engine ∧ φ ≠ .reqs ∧ φ ≠ .order ∧ φ ≠
    .lanes ∧ φ ≠ .keys ∧ φ ≠ .digest ∧ φ ≠ .pke ∧ φ ≠ .rng ∧ φ ≠ .fifos ∧ φ ≠ .memory ∧ φ ≠ .lc ∧ φ ≠ .start ∧ φ ≠ .link ∧ φ ≠
    .events) : (s0.laneDispatch rid).field φ = s0.field φ := by
  unfold State.laneDispatch
  simp only []
  repeat' split
  · rfl
  · rfl
  · simp [hφ]
  · simp [hφ]
  · simp [hφ]
  · simp [hφ]
  · simp [hφ]
  · simp [hφ]
  · simp [hφ]
  · simp [hφ]
  · simp [hφ]
  · simp [hφ]
@[simp] theorem State.issueSeg_field (s : State) (rid : Nat) (hφ : φ ≠ .reqs ∧ φ ≠ .lanes ∧ φ ≠ .keys ∧ φ ≠ .digest) :
    (s.issueSeg rid).field φ = s.field φ := by
  unfold State.issueSeg
  split <;> simp [hφ]
@[simp] theorem execLaneTurn_field (lane : Nat) (s : State) (hφ : φ ≠ .reqs ∧ φ ≠ .lanes ∧ φ ≠ .keys ∧ φ ≠ .digest) :
    (execLaneTurn lane s).keeps φ s := by
  unfold execLaneTurn
  simp only []
  (repeat' split) <;> simp [hφ]
@[simp] theorem State.countBlocks_field (s : State) (lane posture bulk control : Nat) (hφ : φ ≠ .lanes ∧ φ ≠ .tango) :
    (s.countBlocks lane posture bulk control).field φ = s.field φ := by
  simp [State.countBlocks, hφ]
@[simp] theorem State.runSegment_field (s : State) (rid op : Nat) (hφ : φ ≠ .reqs ∧ φ ≠ .lanes ∧ φ ≠ .keys ∧ φ ≠ .tango ∧ φ ≠
    .digest) : (s.runSegment rid op).field φ = s.field φ := by
  unfold State.runSegment
  simp only []
  repeat' split
  · rfl
  · rfl
  · simp [hφ]
  · rfl
  · simp [hφ]
  · rfl
  · simp [hφ]
  · simp [hφ]
  · simp [hφ]
  · simp [hφ]
  · simp [hφ]
  · simp [hφ]
  · simp [hφ]
  · simp [hφ]
  · rfl
@[simp] theorem execAeadSeal_field (rid : Nat) (s : State) (hφ : φ ≠ .reqs ∧ φ ≠ .lanes ∧ φ ≠ .keys ∧ φ ≠ .tango ∧ φ ≠ .digest)
    : (execAeadSeal rid s).keeps φ s := by
  simp [execAeadSeal, hφ]
@[simp] theorem execAeadOpen_field (rid : Nat) (s : State) (hφ : φ ≠ .reqs ∧ φ ≠ .lanes ∧ φ ≠ .keys ∧ φ ≠ .tango ∧ φ ≠ .digest)
    : (execAeadOpen rid s).keeps φ s := by
  simp [execAeadOpen, hφ]
@[simp] theorem execCipherEnc_field (rid : Nat) (s : State) (hφ : φ ≠ .reqs ∧ φ ≠ .lanes ∧ φ ≠ .keys ∧ φ ≠ .tango ∧ φ ≠
    .digest) : (execCipherEnc rid s).keeps φ s := by
  simp [execCipherEnc, hφ]
@[simp] theorem execCipherDec_field (rid : Nat) (s : State) (hφ : φ ≠ .reqs ∧ φ ≠ .lanes ∧ φ ≠ .keys ∧ φ ≠ .tango ∧ φ ≠
    .digest) : (execCipherDec rid s).keeps φ s := by
  simp [execCipherDec, hφ]
@[simp] theorem execMacGen_field (rid : Nat) (s : State) (hφ : φ ≠ .reqs ∧ φ ≠ .lanes ∧ φ ≠ .keys ∧ φ ≠ .tango ∧ φ ≠ .digest) :
    (execMacGen rid s).keeps φ s := by
  simp [execMacGen, hφ]
@[simp] theorem execMacVerify_field (rid : Nat) (s : State) (hφ : φ ≠ .reqs ∧ φ ≠ .lanes ∧ φ ≠ .keys ∧ φ ≠ .tango ∧ φ ≠
    .digest) : (execMacVerify rid s).keeps φ s := by
  simp [execMacVerify, hφ]
@[simp] theorem State.chainWriteOn_field (s : State) (rid : Nat) (q : Req) (hφ : φ ≠ .reqs ∧ φ ≠ .keys ∧ φ ≠ .tango) :
    (s.chainWriteOn rid q).field φ = s.field φ := by
  unfold State.chainWriteOn
  split <;> simp [hφ]
@[simp] theorem State.closeGood_field (s : State) (rid : Nat) (q : Req) (icv : Bytes) (hφ : φ ≠ .reqs ∧ φ ≠ .lanes ∧ φ ≠ .keys
    ∧ φ ≠ .tango ∧ φ ≠ .digest) : (s.closeGood rid q icv).field φ = s.field φ := by
  simp [State.closeGood, hφ]
@[simp] theorem State.laneClose_field (s : State) (rid : Nat) (hφ : φ ≠ .ident ∧ φ ≠ .engine ∧ φ ≠ .reqs ∧ φ ≠ .lanes ∧ φ ≠
    .keys ∧ φ ≠ .tango ∧ φ ≠ .digest ∧ φ ≠ .pke ∧ φ ≠ .rng ∧ φ ≠ .fifos ∧ φ ≠ .memory ∧ φ ≠ .lc ∧ φ ≠ .start ∧ φ ≠ .link ∧ φ ≠
    .events) : (s.laneClose rid).field φ = s.field φ := by
  unfold State.laneClose
  repeat' split
  · rfl
  · rfl
  · simp [hφ]
  · simp [hφ]
  · simp [hφ, field_of_snd ‹State.replayCommit _ _ = _›]
  · simp [hφ, field_of_snd ‹State.replayCommit _ _ = _›]
@[simp] theorem State.releaseTo_field (s : State) (rid n : Nat) (hφ : φ ≠ .reqs) : (s.releaseTo rid n).field φ = s.field φ := by
  simp [State.releaseTo, hφ]
@[simp] theorem State.releaseSeg_field (s : State) (rid : Nat) (hφ : φ ≠ .reqs) : (s.releaseSeg rid).field φ = s.field φ := by
  simp [State.releaseSeg, hφ]

/-! ## Units -/

@[simp] theorem State.retryImpossible_field (s : State) (rid detail : Nat) (hφ : φ ≠ .reqs ∧ φ ≠ .lanes ∧ φ ≠ .keys ∧ φ ≠
    .tango ∧ φ ≠ .digest) : (s.retryImpossible rid detail).field φ = s.field φ := by
  simp [State.retryImpossible, hφ]
@[simp] theorem State.onPage_field (s : State) (o : Nat) (f : DigestPage → DigestPage) (hφ : φ ≠ .digest) : (s.onPage o
    f).field φ = s.field φ := by
  simp [State.onPage, hφ]
@[simp] theorem State.addBlocks_field (s : State) (u n : Nat) (hφ : φ ≠ .digest) : (s.addBlocks u n).field φ = s.field φ := by
  simp [State.addBlocks, hφ]
@[simp] theorem State.unitSettle_field (s : State) (u : Nat) (hφ : φ ≠ .digest) : (s.unitSettle u).field φ = s.field φ := by
  simp [State.unitSettle, hφ]
@[simp] theorem State.assignCtx_field (s : State) (u : Nat) (c : UnitCtx) (hφ : φ ≠ .digest) : (s.assignCtx u c).field φ =
    s.field φ := by
  simp [State.assignCtx, hφ]
@[simp] theorem State.enterUnit_field (s : State) (u rid : Nat) (hφ : φ ≠ .digest) : (s.enterUnit u rid).field φ = s.field φ :=
    by
  simp [State.enterUnit, hφ]
@[simp] theorem State.enterPage_field (s : State) (u o : Nat) (hφ : φ ≠ .digest) : (s.enterPage u o).field φ = s.field φ := by
  simp [State.enterPage, hφ]
@[simp] theorem State.leavePage_field (s : State) (o : Nat) (hφ : φ ≠ .digest) : (s.leavePage o).field φ = s.field φ := by
  simp [State.leavePage, hφ]
@[simp] theorem State.internalPut_field (s : State) (j : Internal) (hφ : φ ≠ .digest) : (s.internalPut j).field φ = s.field φ
    := by
  unfold State.internalPut
  split <;> simp [hφ]
@[simp] theorem State.internalStart_field (s : State) (rid n : Nat) (hφ : φ ≠ .digest) : (s.internalStart rid n).field φ =
    s.field φ := by
  simp [State.internalStart, hφ]
@[simp] theorem State.internalFree_field (s : State) (u : Nat) (hφ : φ ≠ .digest) : (s.internalFree u).field φ = s.field φ := by
  unfold State.internalFree
  simp only []
  (repeat' split) <;> simp [hφ]
@[simp] theorem State.internalDrop_field (s : State) (rid : Nat) (hφ : φ ≠ .digest) : (s.internalDrop rid).field φ = s.field φ
    := by
  simp [State.internalDrop, hφ]
@[simp] theorem State.internalOn_field (s : State) (u n : Nat) (hφ : φ ≠ .digest) : (s.internalOn u n).field φ = s.field φ := by
  simp [State.internalOn, hφ]
@[simp] theorem State.internalRan_field (s : State) (n : Nat) (hφ : φ ≠ .digest) : (s.internalRan n).field φ = s.field φ := by
  simp [State.internalRan, hφ]
@[simp] theorem State.turnOn_field (s : State) (u : Nat) (c : UnitCtx) (hφ : φ ≠ .digest) : (s.turnOn u c).field φ = s.field φ
    := by
  simp [State.turnOn, hφ]
@[simp] theorem State.turnOff_field (s : State) (u : Nat) (hφ : φ ≠ .digest) : (s.turnOff u).field φ = s.field φ := by
  simp [State.turnOff, hφ]
@[simp] theorem State.internalRun_field (s : State) (u n : Nat) (hφ : φ ≠ .digest) : (s.internalRun u n).field φ = s.field φ :=
    by
  unfold State.internalRun
  split <;> simp [hφ]
@[simp] theorem State.unitMismatch_field (s : State) (u : Nat) (hφ : φ ≠ .digest ∧ φ ≠ .events) : (s.unitMismatch u).field φ =
    s.field φ := by
  simp [State.unitMismatch, hφ]
@[simp] theorem State.countRecomputed_field (s : State) (hφ : φ ≠ .digest) : (s.countRecomputed).field φ = s.field φ := by
  simp [State.countRecomputed, hφ]
@[simp] theorem State.digestRun_field (s : State) (rid u n : Nat) (hφ : φ ≠ .reqs ∧ φ ≠ .digest) : (s.digestRun rid u n).field
    φ = s.field φ := by
  unfold State.digestRun
  split <;> simp [hφ]
@[simp] theorem State.digestMismatch_field (s : State) (rid : Nat) (q : Req) (hφ : φ ≠ .reqs ∧ φ ≠ .lanes ∧ φ ≠ .keys ∧ φ ≠
    .tango ∧ φ ≠ .digest ∧ φ ≠ .events) : (s.digestMismatch rid q).field φ = s.field φ := by
  unfold State.digestMismatch
  simp only []
  repeat' split
  · rfl
  · simp [hφ]
  · simp [hφ]
  · simp [hφ]
@[simp] theorem State.internalMismatch_field (s : State) (u : Nat) (j : Internal) (hφ : φ ≠ .reqs ∧ φ ≠ .tango ∧ φ ≠ .digest ∧
    φ ≠ .events) : (s.internalMismatch u j).field φ = s.field φ := by
  unfold State.internalMismatch
  split <;> simp [hφ]
@[simp] theorem execUnitRetest_field (mask : BitVec 8) (s : State) (hφ : φ ≠ .digest) : (execUnitRetest mask s).keeps φ s := by
  simp [execUnitRetest, hφ]
@[simp] theorem execUnitRetestDone_field (unit_ : Nat) (passed : Bool) (s : State) (hφ : φ ≠ .digest) : (execUnitRetestDone
    unit_ passed s).keeps φ s := by
  simp [execUnitRetestDone, hφ]

/-! ## Tango -/

@[simp] theorem execTangoPass_field (rid : Nat) (s : State) (hφ : φ ≠ .ident ∧ φ ≠ .engine ∧ φ ≠ .reqs ∧ φ ≠ .lanes ∧ φ ≠ .keys
    ∧ φ ≠ .tango ∧ φ ≠ .digest ∧ φ ≠ .pke ∧ φ ≠ .rng ∧ φ ≠ .fifos ∧ φ ≠ .memory ∧ φ ≠ .lc ∧ φ ≠ .start ∧ φ ≠ .link ∧ φ ≠
    .events) : (execTangoPass rid s).keeps φ s := by
  unfold execTangoPass
  (repeat' split) <;> simp [hφ]
@[simp] theorem State.laneMismatch_field (s : State) (n rid : Nat) (hφ : φ ≠ .lanes ∧ φ ≠ .tango ∧ φ ≠ .events) :
    (s.laneMismatch n rid).field φ = s.field φ := by
  simp [State.laneMismatch, hφ]
@[simp] theorem State.recover_field (s : State) (rid : Nat) (q : Req) (k : KeyCopy) (excluded : List Nat) (close : Bool) (hφ :
    φ ≠ .reqs ∧ φ ≠ .lanes ∧ φ ≠ .keys ∧ φ ≠ .tango ∧ φ ≠ .digest) : (s.recover rid q k excluded close).field φ = s.field φ :=
    by
  unfold State.recover
  (repeat' split) <;> simp [hφ]
@[simp] theorem State.paceLate_field (s : State) (hφ : φ ≠ .tango ∧ φ ≠ .events) : (s.paceLate).field φ = s.field φ := by
  simp [State.paceLate, hφ]
@[simp] theorem State.laneFail_field (s : State) (rid n : Nat) (q : Req) (k : KeyCopy) (at_ : MismatchAt) (passed : Nat) (hφ :
    φ ≠ .reqs ∧ φ ≠ .lanes ∧ φ ≠ .keys ∧ φ ≠ .tango ∧ φ ≠ .digest ∧ φ ≠ .events) : (s.laneFail rid n q k at_ passed).field φ =
    s.field φ := by
  simp [State.laneFail, hφ]
@[simp] theorem State.keyMismatch_field (s : State) (again : Bool) (hφ : φ ≠ .tango) : (s.keyMismatch again).field φ = s.field
    φ := by
  simp [State.keyMismatch, hφ]
@[simp] theorem State.loadFail_field (s : State) (l : Load) (hφ : φ ≠ .reqs ∧ φ ≠ .lanes ∧ φ ≠ .keys ∧ φ ≠ .tango ∧ φ ≠
    .digest) : (s.loadFail l).field φ = s.field φ := by
  simp only [State.loadFail, hφ, ne_eq, not_false_eq_true, and_self, field_ite, ite_self, field_set_tango, State.onReq_field,
      State.onKeys_field, State.onKw_field, State.retryImpossible_field, State.keyMismatch_field]
@[simp] theorem State.keyFail_field (s : State) (rid : Nat) (q : Req) (hφ : φ ≠ .reqs ∧ φ ≠ .lanes ∧ φ ≠ .keys ∧ φ ≠ .tango ∧ φ
    ≠ .digest) : (s.keyFail rid q).field φ = s.field φ := by
  unfold State.keyFail
  split <;> simp [hφ]
@[simp] theorem State.reqFail_field (s : State) (rid : Nat) (q : Req) (at_ : MismatchAt) (passed : Nat) (hφ : φ ≠ .reqs ∧ φ ≠
    .lanes ∧ φ ≠ .keys ∧ φ ≠ .tango ∧ φ ≠ .digest ∧ φ ≠ .events) : (s.reqFail rid q at_ passed).field φ = s.field φ := by
  unfold State.reqFail
  simp only []
  repeat' split
  · rfl
  · simp [hφ]
  · rfl
  · simp [hφ]
  · simp [hφ]
  · simp [hφ]
  · simp [hφ]
  · rfl
  · simp [hφ]
  · simp [hφ]
  · rfl
@[simp] theorem execTangoMismatch_field (rid : Nat) (at_ : MismatchAt) (passed : Nat) (s : State) (hφ : φ ≠ .reqs ∧ φ ≠ .lanes
    ∧ φ ≠ .keys ∧ φ ≠ .tango ∧ φ ≠ .digest ∧ φ ≠ .events) : (execTangoMismatch rid at_ passed s).keeps φ s := by
  unfold execTangoMismatch
  (repeat' split) <;> simp [hφ]
@[simp] theorem execLaneRetest_field (mask : BitVec 16) (s : State) (hφ : φ ≠ .lanes) : (execLaneRetest mask s).keeps φ s := by
  simp [execLaneRetest, hφ]
@[simp] theorem execLaneRetestDone_field (lane : Nat) (passed : Bool) (s : State) (hφ : φ ≠ .lanes) : (execLaneRetestDone lane
    passed s).keeps φ s := by
  simp [execLaneRetestDone, hφ]
@[simp] theorem State.writePosture_field (s : State) (code : Nat) (hφ : φ ≠ .ident ∧ φ ≠ .lanes ∧ φ ≠ .tango ∧ φ ≠ .pins) :
    (s.writePosture code).2.field φ = s.field φ := by
  unfold State.writePosture
  (repeat' split) <;> simp [hφ]
@[simp] theorem execPosture_field (code : Nat) (s : State) (hφ : φ ≠ .ident ∧ φ ≠ .lanes ∧ φ ≠ .tango ∧ φ ≠ .pins) :
    (execPosture code s).keeps φ s := by
  simp [execPosture, hφ]
@[simp] theorem execLanesDrainedForLean_field (s : State) (hφ : φ ≠ .tango ∧ φ ≠ .pins) : (execLanesDrainedForLean s).keeps φ s
    := by
  simp [execLanesDrainedForLean, hφ]
@[simp] theorem execPostureSettled_field (s : State) (hφ : φ ≠ .ident ∧ φ ≠ .tango) : (execPostureSettled s).keeps φ s := by
  simp [execPostureSettled, hφ]
@[simp] theorem State.powerLanes_field (s : State) (hφ : φ ≠ .lanes ∧ φ ≠ .tango) : (s.powerLanes).field φ = s.field φ := by
  simp [State.powerLanes, hφ]
@[simp] theorem execSupplyReached_field (s : State) (hφ : φ ≠ .lanes ∧ φ ≠ .tango ∧ φ ≠ .pins) : (execSupplyReached s).keeps φ
    s := by
  simp [execSupplyReached, hφ]
@[simp] theorem execVreqLimitExpiry_field (s : State) (hφ : φ ≠ .lanes ∧ φ ≠ .tango ∧ φ ≠ .pins) : (execVreqLimitExpiry
    s).keeps φ s := by
  simp [execVreqLimitExpiry, hφ]

/-! ## Digest -/

@[simp] theorem State.enterDigest_field (s : State) (rid : Nat) (q : Req) (key : Option KeyCopy) (hφ : φ ≠ .reqs ∧ φ ≠ .lanes ∧
    φ ≠ .keys ∧ φ ≠ .digest ∧ φ ≠ .rng) : (s.enterDigest rid q key).field φ = s.field φ := by
  unfold State.enterDigest
  simp only []
  (repeat' split) <;> simp [hφ]
@[simp] theorem State.digestDispatch_field (s0 : State) (rid : Nat) (hφ : φ ≠ .ident ∧ φ ≠ .engine ∧ φ ≠ .reqs ∧ φ ≠ .order ∧ φ
    ≠ .lanes ∧ φ ≠ .keys ∧ φ ≠ .digest ∧ φ ≠ .pke ∧ φ ≠ .rng ∧ φ ≠ .fifos ∧ φ ≠ .memory ∧ φ ≠ .lc ∧ φ ≠ .start ∧ φ ≠ .link ∧ φ
    ≠ .events) : (s0.digestDispatch rid).field φ = s0.field φ := by
  unfold State.digestDispatch
  simp only []
  repeat' split
  · rfl
  · rfl
  · simp [hφ]
  · simp [hφ]
  · simp [hφ]
  · simp [hφ]
  · simp [hφ]
  · simp [hφ]
@[simp] theorem State.digestFinish_field (s : State) (rid u : Nat) (q : Req) (hφ : φ ≠ .reqs ∧ φ ≠ .lanes ∧ φ ≠ .keys ∧ φ ≠
    .tango ∧ φ ≠ .digest) : (s.digestFinish rid u q).field φ = s.field φ := by
  simp [State.digestFinish, hφ]
@[simp] theorem State.digestSegDone_field (s : State) (rid u : Nat) (hφ : φ ≠ .reqs ∧ φ ≠ .lanes ∧ φ ≠ .keys ∧ φ ≠ .tango ∧ φ ≠
    .digest) : (s.digestSegDone rid u).field φ = s.field φ := by
  unfold State.digestSegDone
  (repeat' split) <;> simp [hφ]
@[simp] theorem State.digestTurn_field (s : State) (rid op : Nat) (hφ : φ ≠ .reqs ∧ φ ≠ .lanes ∧ φ ≠ .keys ∧ φ ≠ .tango ∧ φ ≠
    .digest) : (s.digestTurn rid op).field φ = s.field φ := by
  unfold State.digestTurn
  split <;> simp [hφ]
@[simp] theorem execDigest_field (rid : Nat) (s : State) (hφ : φ ≠ .reqs ∧ φ ≠ .lanes ∧ φ ≠ .keys ∧ φ ≠ .tango ∧ φ ≠ .digest) :
    (execDigest rid s).keeps φ s := by
  simp [execDigest, hφ]
@[simp] theorem execHmac_field (rid : Nat) (s : State) (hφ : φ ≠ .reqs ∧ φ ≠ .lanes ∧ φ ≠ .keys ∧ φ ≠ .tango ∧ φ ≠ .digest) :
    (execHmac rid s).keeps φ s := by
  simp [execHmac, hφ]
@[simp] theorem execDigestSave_field (rid : Nat) (s : State) (hφ : φ ≠ .reqs ∧ φ ≠ .lanes ∧ φ ≠ .keys ∧ φ ≠ .tango ∧ φ ≠
    .digest) : (execDigestSave rid s).keeps φ s := by
  simp [execDigestSave, hφ]
@[simp] theorem execDigestResume_field (rid : Nat) (s : State) (hφ : φ ≠ .reqs ∧ φ ≠ .lanes ∧ φ ≠ .keys ∧ φ ≠ .tango ∧ φ ≠
    .digest) : (execDigestResume rid s).keeps φ s := by
  simp [execDigestResume, hφ]
@[simp] theorem State.closePage_field (s : State) (o : Nat) (hφ : φ ≠ .digest) : (s.closePage o).field φ = s.field φ := by
  simp [State.closePage, hφ]
@[simp] theorem State.dgConfig_field (s : State) (o v : Nat) (hφ : φ ≠ .digest) : (s.dgConfig o v).field φ = s.field φ := by
  unfold State.dgConfig
  simp only []
  (repeat' split) <;> simp [hφ]
@[simp] theorem execDgConfig_field (b : Bus) (owner : Nat) (v : U64) (s : State) (hφ : φ ≠ .digest ∧ φ ≠ .slices ∧ φ ≠ .pins ∧
    φ ≠ .events) : (execDgConfig b owner v s).keeps φ s := by
  simp [execDgConfig, hφ]
@[simp] theorem State.pageKey_field (s0 : State) (o : Nat) (hφ : φ ≠ .ident ∧ φ ≠ .engine ∧ φ ≠ .reqs ∧ φ ≠ .lanes ∧ φ ≠ .keys
    ∧ φ ≠ .digest ∧ φ ≠ .pke ∧ φ ≠ .rng ∧ φ ≠ .fifos ∧ φ ≠ .memory ∧ φ ≠ .lc ∧ φ ≠ .start ∧ φ ≠ .link ∧ φ ≠ .events) :
    (s0.pageKey o).2.field φ = s0.field φ := by
  unfold State.pageKey
  simp only []
  (repeat' split) <;> simp [hφ]
@[simp] theorem State.pageBegin_field (s : State) (o : Nat) (fresh : Bool) (hφ : φ ≠ .ident ∧ φ ≠ .engine ∧ φ ≠ .reqs ∧ φ ≠
    .lanes ∧ φ ≠ .keys ∧ φ ≠ .digest ∧ φ ≠ .pke ∧ φ ≠ .rng ∧ φ ≠ .fifos ∧ φ ≠ .memory ∧ φ ≠ .lc ∧ φ ≠ .start ∧ φ ≠ .link ∧ φ ≠
    .events) : (s.pageBegin o fresh).field φ = s.field φ := by
  unfold State.pageBegin
  simp only []
  repeat' split
  · rfl
  · simp [hφ, field_of_snd ‹State.pageKey _ _ = _›]
  · simp [hφ, field_of_snd ‹State.pageKey _ _ = _›]
  · simp [hφ]
  · simp [hφ]
@[simp] theorem State.pageAbsorb_field (s : State) (o fuel : Nat) (hφ : φ ≠ .digest) : (s.pageAbsorb o fuel).field φ = s.field
    φ := by
  simp [State.pageAbsorb, hφ]
theorem State.movePage_field (s : State) (o : Nat) (excluded : List Nat) (hφ : φ ≠ .digest) {t : State} (ht : s.movePage o
    excluded = some t) : t.field φ = s.field φ := by
  simp only [State.movePage, Option.map_eq_some_iff] at ht
  obtain ⟨u, -, rfl⟩ := ht
  simp only [hφ, ne_eq, not_false_eq_true, State.enterPage_field, State.leavePage_field]
@[simp] theorem State.pageHome_field (s : State) (o : Nat) (hφ : φ ≠ .digest) : (s.pageHome o).field φ = s.field φ := by
  unfold State.pageHome
  split
  · rfl
  · cases hm : s.movePage o [] with
    | none => rfl
    | some t => exact State.movePage_field _ _ _ hφ hm
@[simp] theorem State.pageFinish_field (s0 : State) (o : Nat) (hφ : φ ≠ .digest) : (s0.pageFinish o).field φ = s0.field φ := by
  simp [State.pageFinish, hφ]
@[simp] theorem State.pageData_field (s0 : State) (o : Nat) (bs : Bytes) (hφ : φ ≠ .ident ∧ φ ≠ .engine ∧ φ ≠ .reqs ∧ φ ≠
    .lanes ∧ φ ≠ .keys ∧ φ ≠ .digest ∧ φ ≠ .pke ∧ φ ≠ .rng ∧ φ ≠ .fifos ∧ φ ≠ .memory ∧ φ ≠ .lc ∧ φ ≠ .start ∧ φ ≠ .link ∧ φ ≠
    .events) : (s0.pageData o bs).field φ = s0.field φ := by
  simp [State.pageData, hφ]
@[simp] theorem execDigestData_field (b : Bus) (owner : Nat) (v : U64) (s : State) (hφ : φ ≠ .ident ∧ φ ≠ .engine ∧ φ ≠ .reqs ∧
    φ ≠ .lanes ∧ φ ≠ .keys ∧ φ ≠ .digest ∧ φ ≠ .pke ∧ φ ≠ .rng ∧ φ ≠ .fifos ∧ φ ≠ .slices ∧ φ ≠ .memory ∧ φ ≠ .lc ∧ φ ≠ .start
    ∧ φ ≠ .pins ∧ φ ≠ .link ∧ φ ≠ .events) : (execDigestData b owner v s).keeps φ s := by
  simp [execDigestData, hφ]
@[simp] theorem execDigestLast_field (b : Bus) (owner : Nat) (off : Nat) (v : U64) (s : State) (hφ : φ ≠ .ident ∧ φ ≠ .engine ∧
    φ ≠ .reqs ∧ φ ≠ .lanes ∧ φ ≠ .keys ∧ φ ≠ .digest ∧ φ ≠ .pke ∧ φ ≠ .rng ∧ φ ≠ .fifos ∧ φ ≠ .slices ∧ φ ≠ .memory ∧ φ ≠ .lc ∧
    φ ≠ .start ∧ φ ≠ .pins ∧ φ ≠ .link ∧ φ ≠ .events) : (execDigestLast b owner off v s).keeps φ s := by
  simp [execDigestLast, hφ]
@[simp] theorem execDigestFinishDone_field (owner : Nat) (s : State) (hφ : φ ≠ .digest) : (execDigestFinishDone owner s).keeps
    φ s := by
  simp [execDigestFinishDone, hφ]
@[simp] theorem State.pageMismatch_field (s : State) (owner : Nat) (hφ : φ ≠ .digest ∧ φ ≠ .events) : (s.pageMismatch
    owner).field φ = s.field φ := by
  unfold State.pageMismatch
  simp only []
  split
  · simp only [hφ, ne_eq, not_false_eq_true, and_self, State.onPage_field, State.unitMismatch_field]
  · split
    · simp only [hφ, ne_eq, not_false_eq_true, and_self, State.onPage_field, State.unitMismatch_field]
    · simp only [hφ, ne_eq, not_false_eq_true, and_self, State.onPage_field, State.unitMismatch_field, State.countRecomputed_field, State.movePage_field (ht := ‹State.movePage _ _ _ = _›)]
@[simp] theorem State.unitRun_field (s : State) (u n : Nat) (last : BlockEnd) (hφ : φ ≠ .reqs ∧ φ ≠ .lanes ∧ φ ≠ .keys ∧ φ ≠
    .tango ∧ φ ≠ .digest ∧ φ ≠ .events) : (s.unitRun u n last).field φ = s.field φ := by
  unfold State.unitRun
  simp only []
  repeat' split
  · rfl
  · simp [hφ]
  · simp [hφ]
  · simp [hφ]
  · simp [hφ]
  · simp [hφ]
  · simp [hφ]
  · simp [hφ]
  · simp [hφ]
  · simp [hφ]
  · simp [hφ]
  · simp [hφ]
  · simp [hφ]
@[simp] theorem execDigestBlockDone_field (u : Nat) (done : BlocksDone) (s : State) (hφ : φ ≠ .reqs ∧ φ ≠ .lanes ∧ φ ≠ .keys ∧
    φ ≠ .tango ∧ φ ≠ .digest ∧ φ ≠ .events) : (execDigestBlockDone u done s).keeps φ s := by
  simp [execDigestBlockDone, hφ]
@[simp] theorem execDgCmdSave_field (b : Bus) (owner : Nat) (s : State) (hφ : φ ≠ .ident ∧ φ ≠ .engine ∧ φ ≠ .reqs ∧ φ ≠ .lanes
    ∧ φ ≠ .keys ∧ φ ≠ .tango ∧ φ ≠ .digest ∧ φ ≠ .pke ∧ φ ≠ .rng ∧ φ ≠ .fifos ∧ φ ≠ .slices ∧ φ ≠ .memory ∧ φ ≠ .lc ∧ φ ≠
    .start ∧ φ ≠ .pins ∧ φ ≠ .link ∧ φ ≠ .events) : (execDgCmdSave b owner s).keeps φ s := by
  simp [execDgCmdSave, hφ]
@[simp] theorem execDgCmdRestore_field (b : Bus) (owner : Nat) (s : State) (hφ : φ ≠ .ident ∧ φ ≠ .engine ∧ φ ≠ .reqs ∧ φ ≠
    .lanes ∧ φ ≠ .keys ∧ φ ≠ .tango ∧ φ ≠ .digest ∧ φ ≠ .pke ∧ φ ≠ .rng ∧ φ ≠ .fifos ∧ φ ≠ .slices ∧ φ ≠ .memory ∧ φ ≠ .lc ∧ φ
    ≠ .start ∧ φ ≠ .pins ∧ φ ≠ .link ∧ φ ≠ .events) : (execDgCmdRestore b owner s).keeps φ s := by
  unfold execDgCmdRestore
  rw [Out.keeps_next, State.pageWrite_field _ _ _ _ (by simp [hφ])]
  intro t
  simp only []
  split
  · rfl
  · have h1 : (((t.onPage owner DigestPage.abandon).pageBegin owner false).countControl
        (if (t.page owner).keyed then wrapBlocks 224 else 0)).field φ = t.field φ := by simp [hφ]
    generalize ((t.onPage owner DigestPage.abandon).pageBegin owner false).countControl _ = t1 at h1 ⊢
    split
    · exact h1
    · split <;> simp only [hφ, ne_eq, not_false_eq_true, field_set_digest, State.onPage_field, h1]
@[simp] theorem execDgCmdAbandon_field (b : Bus) (owner : Nat) (s : State) (hφ : φ ≠ .digest ∧ φ ≠ .slices ∧ φ ≠ .pins ∧ φ ≠
    .events) : (execDgCmdAbandon b owner s).keeps φ s := by
  simp [execDgCmdAbandon, hφ]

/-! ## Engine -/

@[simp] theorem State.engineRun_field (s : State) (e n : Nat) (q : Req) (j : Job) (hφ : φ ≠ .pke) : (s.engineRun e n q j).field
    φ = s.field φ := by
  simp [State.engineRun, hφ]
@[simp] theorem State.zeroContext_field (s : State) (e c : Nat) (hφ : φ ≠ .pke) : (s.zeroContext e c).field φ = s.field φ := by
  simp [State.zeroContext, hφ]

/-! ## Pke -/

@[simp] theorem State.engineSettle_field (s : State) (e : Nat) (hφ : φ ≠ .pke) : (s.engineSettle e).field φ = s.field φ := by
  simp [State.engineSettle, hφ]
@[simp] theorem State.yield_field (s : State) (e : Nat) (h : Option Job) (hφ : φ ≠ .pke) : (s.yield e h).field φ = s.field φ :=
    by
  simp [State.yield, hφ]
@[simp] theorem State.enterEngine_field (s : State) (e : Nat) (j : Job) (hφ : φ ≠ .pke) : (s.enterEngine e j).field φ = s.field
    φ := by
  simp [State.enterEngine, hφ]
@[simp] theorem State.leaveEngine_field (s : State) (e rid : Nat) (atYield : Bool) (hφ : φ ≠ .digest ∧ φ ≠ .pke) :
    (s.leaveEngine e rid atYield).field φ = s.field φ := by
  simp [State.leaveEngine, hφ]
@[simp] theorem State.releaseFifo_field (s : State) (q : Req) (hφ : φ ≠ .fifos) : (s.releaseFifo q).field φ = s.field φ := by
  simp [State.releaseFifo, hφ]
@[simp] theorem State.jobEnd_field (s : State) (e rid : Nat) (q : Req) (en : Ending) (atYield : Bool) (hφ : φ ≠ .reqs ∧ φ ≠
    .lanes ∧ φ ≠ .keys ∧ φ ≠ .digest ∧ φ ≠ .pke ∧ φ ≠ .fifos) : (s.jobEnd e rid q en atYield).field φ = s.field φ := by
  simp [State.jobEnd, hφ]
@[simp] theorem State.pkeWait_field (s : State) (rid : Nat) (q : Req) (hφ : φ ≠ .reqs ∧ φ ≠ .pke) : (s.pkeWait rid q).field φ =
    s.field φ := by
  simp [State.pkeWait, hφ]
@[simp] theorem State.startJob_field (s : State) (rid e : Nat) (q : Req) (key : Option KeyCopy) (hφ : φ ≠ .reqs ∧ φ ≠ .digest ∧
    φ ≠ .pke ∧ φ ≠ .rng ∧ φ ≠ .fifos) : (s.startJob rid e q key).field φ = s.field φ := by
  unfold State.startJob
  simp only []
  (repeat' split) <;> simp [hφ]
@[simp] theorem State.assignEngine_field (s : State) (rid : Nat) (q : Req) (key : Option KeyCopy) (hφ : φ ≠ .reqs ∧ φ ≠ .lanes
    ∧ φ ≠ .keys ∧ φ ≠ .digest ∧ φ ≠ .pke ∧ φ ≠ .rng ∧ φ ≠ .fifos) : (s.assignEngine rid q key).field φ = s.field φ := by
  unfold State.assignEngine
  simp only []
  repeat' split
  · simp [hφ]
  · simp [hφ]
  · rfl
  · simp [hφ]
  · simp [hφ]
  · simp [hφ]
  · simp [hφ]
@[simp] theorem State.pkeDispatch_field (s0 : State) (rid : Nat) (hφ : φ ≠ .ident ∧ φ ≠ .engine ∧ φ ≠ .reqs ∧ φ ≠ .order ∧ φ ≠
    .lanes ∧ φ ≠ .keys ∧ φ ≠ .digest ∧ φ ≠ .pke ∧ φ ≠ .rng ∧ φ ≠ .fifos ∧ φ ≠ .memory ∧ φ ≠ .lc ∧ φ ≠ .start ∧ φ ≠ .link ∧ φ ≠
    .events) : (s0.pkeDispatch rid).field φ = s0.field φ := by
  unfold State.pkeDispatch
  simp only []
  repeat' split
  · rfl
  · rfl
  · simp [hφ]
  · simp [hφ]
  · rfl
  · simp [hφ]
  · simp [hφ]
  · simp [hφ]
  · simp [hφ]
  · simp [hφ]
  · simp [hφ]
@[simp] theorem execPkeRun_field (rid : Nat) (s : State) (hφ : φ ≠ .ident ∧ φ ≠ .engine ∧ φ ≠ .reqs ∧ φ ≠ .order ∧ φ ≠ .lanes ∧
    φ ≠ .keys ∧ φ ≠ .digest ∧ φ ≠ .pke ∧ φ ≠ .rng ∧ φ ≠ .fifos ∧ φ ≠ .memory ∧ φ ≠ .lc ∧ φ ≠ .start ∧ φ ≠ .link ∧ φ ≠ .events)
    : (execPkeRun rid s).keeps φ s := by
  unfold execPkeRun
  split <;> simp [hφ]
@[simp] theorem State.jobSteps_field (s : State) (e n : Nat) (q : Req) (h : Job) (hφ : φ ≠ .pke) : (s.jobSteps e n q h).field φ
    = s.field φ := by
  simp [State.jobSteps, hφ]
@[simp] theorem execYieldPoint_field (engine : Nat) (s : State) (hφ : φ ≠ .reqs ∧ φ ≠ .lanes ∧ φ ≠ .keys ∧ φ ≠ .digest ∧ φ ≠
    .pke ∧ φ ≠ .fifos) : (execYieldPoint engine s).keeps φ s := by
  unfold execYieldPoint
  (repeat' split) <;> simp [hφ]
@[simp] theorem State.keyRecord_field (s : State) (t : Nat) (secret body : Bytes) (hφ : φ ≠ .keys) : (s.keyRecord t secret
    body).2.field φ = s.field φ := by
  simp [State.keyRecord, hφ]
@[simp] theorem State.pkeOutput_field (s : State) (q : Req) (j : Job) (hφ : φ ≠ .keys) : (s.pkeOutput q j).2.field φ = s.field
    φ := by
  unfold State.pkeOutput
  simp only []
  repeat' split
  · simp [hφ]
  · simp [hφ]
  · simp [hφ]
  · rfl
  · rfl
  · rfl
  · rfl
  · rfl
  · rfl
  · rfl
@[simp] theorem State.pushPacket_field (s : State) (q : Req) (out : Bytes) (hφ : φ ≠ .fifos ∧ φ ≠ .slices ∧ φ ≠ .access ∧ φ ≠
    .port ∧ φ ≠ .events) : (s.pushPacket q out).field φ = s.field φ := by
  simp [State.pushPacket, hφ]
@[simp] theorem State.jobRelease_field (s : State) (rid : Nat) (q : Req) (out : Bytes) (hφ : φ ≠ .reqs ∧ φ ≠ .fifos ∧ φ ≠
    .slices ∧ φ ≠ .access ∧ φ ≠ .port ∧ φ ≠ .events) : (s.jobRelease rid q out).field φ = s.field φ := by
  simp [State.jobRelease, hφ]
@[simp] theorem State.jobGood_field (s : State) (e rid : Nat) (q : Req) (j : Job) (hφ : φ ≠ .reqs ∧ φ ≠ .lanes ∧ φ ≠ .keys ∧ φ
    ≠ .tango ∧ φ ≠ .digest ∧ φ ≠ .pke ∧ φ ≠ .fifos ∧ φ ≠ .slices ∧ φ ≠ .access ∧ φ ≠ .port ∧ φ ≠ .events) : (s.jobGood e rid q
    j).field φ = s.field φ := by
  unfold State.jobGood
  simp only []
  (repeat' split) <;> simp [hφ]
@[simp] theorem State.jobCounts_field (s : State) (q : Req) (j : Job) (hφ : φ ≠ .digest ∧ φ ≠ .pke) : (s.jobCounts q j).field φ
    = s.field φ := by
  simp [State.jobCounts, hφ]
@[simp] theorem execPkeJobEnd_field (engine : Nat) (invariantsHold : Bool) (s : State) (hφ : φ ≠ .reqs ∧ φ ≠ .lanes ∧ φ ≠ .keys
    ∧ φ ≠ .tango ∧ φ ≠ .digest ∧ φ ≠ .pke ∧ φ ≠ .fifos ∧ φ ≠ .slices ∧ φ ≠ .access ∧ φ ≠ .port ∧ φ ≠ .events) : (execPkeJobEnd
    engine invariantsHold s).keeps φ s := by
  unfold execPkeJobEnd
  (repeat' split) <;> simp [hφ]
@[simp] theorem execPkeContextZeroed_field (engine rid : Nat) (s : State) (hφ : φ ≠ .pke) : (execPkeContextZeroed engine rid
    s).keeps φ s := by
  unfold execPkeContextZeroed
  split <;> simp [hφ]
@[simp] theorem State.engineMismatch_field (s : State) (e : Nat) (hφ : φ ≠ .pke ∧ φ ≠ .events) : (s.engineMismatch e).field φ =
    s.field φ := by
  simp [State.engineMismatch, hφ]
@[simp] theorem State.restartJob_field (s : State) (j : Job) (failing : Option Nat) (hφ : φ ≠ .reqs ∧ φ ≠ .lanes ∧ φ ≠ .keys ∧
    φ ≠ .tango ∧ φ ≠ .digest ∧ φ ≠ .pke ∧ φ ≠ .fifos) : (s.restartJob j failing).field φ = s.field φ := by
  unfold State.restartJob
  (repeat' split) <;> simp [hφ]
@[simp] theorem execEngineMismatch_field (engine : Nat) (s : State) (hφ : φ ≠ .reqs ∧ φ ≠ .lanes ∧ φ ≠ .keys ∧ φ ≠ .tango ∧ φ ≠
    .digest ∧ φ ≠ .pke ∧ φ ≠ .fifos ∧ φ ≠ .events) : (execEngineMismatch engine s).keeps φ s := by
  unfold execEngineMismatch
  split <;> simp [hφ]
@[simp] theorem execEngineRetest_field (mask : BitVec 4) (s : State) (hφ : φ ≠ .pke) : (execEngineRetest mask s).keeps φ s := by
  simp [execEngineRetest, hφ]
@[simp] theorem execEngineRetestDone_field (engine : Nat) (passed : Bool) (s : State) (hφ : φ ≠ .pke) : (execEngineRetestDone
    engine passed s).keeps φ s := by
  simp [execEngineRetestDone, hφ]
@[simp] theorem State.endAllJobs_field (s : State) (hφ : φ ≠ .reqs ∧ φ ≠ .lanes ∧ φ ≠ .keys ∧ φ ≠ .digest ∧ φ ≠ .pke ∧ φ ≠
    .fifos) : (s.endAllJobs).field φ = s.field φ := by
  unfold State.endAllJobs
  refine field_foldl s _ (fun t e => field_foldl t _ (fun u j => ?_) _) _
  split <;> simp only [hφ, ne_eq, not_false_eq_true, and_self, State.leaveEngine_field, State.jobEnd_field]
@[simp] theorem State.callerFaulted_field (s : State) (hφ : φ ≠ .pke ∧ φ ≠ .events) : (s.callerFaulted).field φ = s.field φ :=
    by
  simp [State.callerFaulted, hφ]
@[simp] theorem State.lockstepFault_field (s : State) (hφ : φ ≠ .reqs ∧ φ ≠ .lanes ∧ φ ≠ .keys ∧ φ ≠ .digest ∧ φ ≠ .pke ∧ φ ≠
    .fifos ∧ φ ≠ .events) : (s.lockstepFault).field φ = s.field φ := by
  simp [State.lockstepFault, hφ]
@[simp] theorem execLockstepFault_field (s : State) (hφ : φ ≠ .reqs ∧ φ ≠ .lanes ∧ φ ≠ .keys ∧ φ ≠ .digest ∧ φ ≠ .pke ∧ φ ≠
    .fifos ∧ φ ≠ .events) : (execLockstepFault s).keeps φ s := by
  simp [execLockstepFault, hφ]
@[simp] theorem execCallerRecovered_field (matches_ : Bool) (s : State) (hφ : φ ≠ .pke ∧ φ ≠ .events) : (execCallerRecovered
    matches_ s).keeps φ s := by
  simp [execCallerRecovered, hφ]

/-! ## Starting -/

@[simp] theorem State.unpower_field (s : State) (hφ : φ ≠ .lanes ∧ φ ≠ .digest ∧ φ ≠ .pke ∧ φ ≠ .rng) : (s.unpower).field φ =
    s.field φ := by
  simp [State.unpower, hφ]
@[simp] theorem State.recordFailure_field (s : State) (reason detail : Nat) (hφ : φ ≠ .start) : (s.recordFailure reason
    detail).field φ = s.field φ := by
  simp [State.recordFailure, hφ]
@[simp] theorem State.pavane_field (s : State) (hφ : φ ≠ .lanes ∧ φ ≠ .digest ∧ φ ≠ .pke ∧ φ ≠ .rng ∧ φ ≠ .start) :
    (s.pavane).field φ = s.field φ := by
  simp [State.pavane, hφ]
@[simp] theorem State.enterPavane_field (s : State) (reason detail : Nat) (hφ : φ ≠ .lanes ∧ φ ≠ .digest ∧ φ ≠ .pke ∧ φ ≠ .rng
    ∧ φ ≠ .start ∧ φ ≠ .events) : (s.enterPavane reason detail).field φ = s.field φ := by
  simp [State.enterPavane, hφ]
@[simp] theorem State.startFail_field (s : State) (reason detail : Nat) (hφ : φ ≠ .lanes ∧ φ ≠ .digest ∧ φ ≠ .pke ∧ φ ≠ .rng ∧
    φ ≠ .start ∧ φ ≠ .events) : (s.startFail reason detail).field φ = s.field φ := by
  simp [State.startFail, hφ]
@[simp] theorem State.pavaneTest_field (s : State) (n : Nat) (passed : Bool) (hφ : φ ≠ .start) : (s.pavaneTest n passed).field
    φ = s.field φ := by
  simp [State.pavaneTest, hφ]
@[simp] theorem State.stepThree_field (s : State) (hφ : φ ≠ .start) : (s.stepThree).field φ = s.field φ := by
  simp [State.stepThree, hφ]
@[simp] theorem State.stepDone_field (s : State) (n : Nat) (hφ : φ ≠ .start) : (s.stepDone n).field φ = s.field φ := by
  simp [State.stepDone, hφ]
@[simp] theorem State.readPiece_field (s : State) (addr off len : Nat) (hφ : φ ≠ .slices ∧ φ ≠ .access ∧ φ ≠ .port ∧ φ ≠ .start
    ∧ φ ≠ .events) : (s.readPiece addr off len).field φ = s.field φ := by
  simp [State.readPiece, hφ]
@[simp] theorem State.readImage_field (s : State) (hφ : φ ≠ .pke ∧ φ ≠ .slices ∧ φ ≠ .access ∧ φ ≠ .port ∧ φ ≠ .start ∧ φ ≠
    .events) : (s.readImage).field φ = s.field φ := by
  simp [State.readImage, hφ]
@[simp] theorem State.beginImage_field (s : State) (hφ : φ ≠ .lanes ∧ φ ≠ .digest ∧ φ ≠ .pke ∧ φ ≠ .rng ∧ φ ≠ .slices ∧ φ ≠
    .access ∧ φ ≠ .port ∧ φ ≠ .start ∧ φ ≠ .events) : (s.beginImage).field φ = s.field φ := by
  simp [State.beginImage, hφ]

/-! ## Rng -/

@[simp] theorem State.onRng_field (s : State) (f : Rng → Rng) (hφ : φ ≠ .rng) : (s.onRng f).field φ = s.field φ := by
  simp [State.onRng, hφ]
@[simp] theorem State.onNoise_field (s : State) (n : Nat) (f : Noise → Noise) (hφ : φ ≠ .rng) : (s.onNoise n f).field φ =
    s.field φ := by
  simp [State.onNoise, hφ]
@[simp] theorem State.fillsEnd_field (s : State) (detail : Nat) (hφ : φ ≠ .reqs ∧ φ ≠ .lanes ∧ φ ≠ .keys ∧ φ ≠ .digest ∧ φ ≠
    .rng) : (s.fillsEnd detail).field φ = s.field φ := by
  simp [State.fillsEnd, hφ]
@[simp] theorem State.rngZero_field (s : State) (hφ : φ ≠ .rng ∧ φ ≠ .fifos) : (s.rngZero).field φ = s.field φ := by
  rw [State.rngZero, field_set_fifos _ _ hφ.2, State.onRng_field _ _ hφ.1]
@[simp] theorem State.rngStop_field (s : State) (cause source : Nat) (hφ : φ ≠ .reqs ∧ φ ≠ .lanes ∧ φ ≠ .keys ∧ φ ≠ .digest ∧ φ
    ≠ .pke ∧ φ ≠ .rng ∧ φ ≠ .fifos ∧ φ ≠ .start ∧ φ ≠ .events) : (s.rngStop cause source).field φ = s.field φ := by
  simp [State.rngStop, hφ]
@[simp] theorem State.switchSource_field (s : State) (n m : Nat) (hφ : φ ≠ .rng) : (s.switchSource n m).field φ = s.field φ :=
    by
  simp [State.switchSource, hφ]
@[simp] theorem State.noiseFailed_field (s : State) (n : Nat) (was : SourceRole) (cause : Nat) (hφ : φ ≠ .reqs ∧ φ ≠ .lanes ∧ φ
    ≠ .keys ∧ φ ≠ .digest ∧ φ ≠ .pke ∧ φ ≠ .rng ∧ φ ≠ .fifos ∧ φ ≠ .start ∧ φ ≠ .events) : (s.noiseFailed n was cause).field φ
    = s.field φ := by
  unfold State.noiseFailed
  (repeat' split) <;> simp [hφ]
@[simp] theorem State.condition_field (s : State) (n : Nat) (v : Bool) (hφ : φ ≠ .rng) : (s.condition n v).field φ = s.field φ
    := by
  unfold State.condition
  split
  · rfl
  · simp only []
    split <;> simp only [hφ, ne_eq, not_false_eq_true, field_ite, ite_self, State.onRng_field, State.onNoise_field]
@[simp] theorem execNoiseSample_field (source : Nat) (v : Bool) (s : State) (hφ : φ ≠ .reqs ∧ φ ≠ .lanes ∧ φ ≠ .keys ∧ φ ≠
    .digest ∧ φ ≠ .pke ∧ φ ≠ .rng ∧ φ ≠ .fifos ∧ φ ≠ .start ∧ φ ≠ .events) : (execNoiseSample source v s).keeps φ s := by
  simp [execNoiseSample, hφ]
@[simp] theorem State.testSources_field (s : State) (hφ : φ ≠ .rng) : (s.testSources).field φ = s.field φ := by
  simp [State.testSources, hφ]
@[simp] theorem State.rngStartFail_field (s : State) (cause detail : Nat) (hφ : φ ≠ .reqs ∧ φ ≠ .lanes ∧ φ ≠ .keys ∧ φ ≠
    .digest ∧ φ ≠ .pke ∧ φ ≠ .rng ∧ φ ≠ .start ∧ φ ≠ .events) : (s.rngStartFail cause detail).field φ = s.field φ := by
  simp [State.rngStartFail, hφ]
@[simp] theorem execSettlingEnd_field (katOk : Bool) (s : State) (hφ : φ ≠ .reqs ∧ φ ≠ .lanes ∧ φ ≠ .keys ∧ φ ≠ .digest ∧ φ ≠
    .pke ∧ φ ≠ .rng ∧ φ ≠ .start ∧ φ ≠ .events) : (execSettlingEnd katOk s).keeps φ s := by
  unfold execSettlingEnd
  simp only []
  (repeat' split) <;> simp [hφ]
@[simp] theorem execStartupTestDone_field (s : State) (hφ : φ ≠ .reqs ∧ φ ≠ .lanes ∧ φ ≠ .keys ∧ φ ≠ .digest ∧ φ ≠ .pke ∧ φ ≠
    .rng ∧ φ ≠ .start ∧ φ ≠ .events) : (execStartupTestDone s).keeps φ s := by
  simp [execStartupTestDone, hφ]
@[simp] theorem execPoolEntry_field (s : State) (hφ : φ ≠ .rng) : (execPoolEntry s).keeps φ s := by
  unfold execPoolEntry
  split <;> simp [hφ]
@[simp] theorem State.wantRefill_field (s : State) (o : Nat) (hφ : φ ≠ .rng) : (s.wantRefill o).field φ = s.field φ := by
  simp [State.wantRefill, hφ]
@[simp] theorem State.wantRefills_field (s : State) (hφ : φ ≠ .rng) : (s.wantRefills).field φ = s.field φ := by
  simp [State.wantRefills, hφ]
@[simp] theorem State.emptyPort_field (s : State) (o : Nat) (hφ : φ ≠ .rng ∧ φ ≠ .fifos) : (s.emptyPort o).field φ = s.field φ
    := by
  simp [State.emptyPort, hφ]
@[simp] theorem execDrbgInstantiate_field (s : State) (hφ : φ ≠ .keys ∧ φ ≠ .dir ∧ φ ≠ .rng ∧ φ ≠ .start) :
    (execDrbgInstantiate s).keeps φ s := by
  unfold execDrbgInstantiate
  rw [Out.keeps_next]
  simp only [hφ, ne_eq, not_false_eq_true, and_self, field_ite, ite_self, field_set_keys_dir, State.internalDraw_field,
      State.pavaneTest_field, State.stepThree_field, State.onRng_field, State.wantRefills_field]
@[simp] theorem execReseed_field (s : State) (hφ : φ ≠ .rng) : (execReseed s).keeps φ s := by
  simp [execReseed, hφ]
@[simp] theorem State.servePort_field (s : State) (o : Nat) (hφ : φ ≠ .rng ∧ φ ≠ .fifos) : (s.servePort o).field φ = s.field φ
    := by
  simp [State.servePort, hφ]
@[simp] theorem State.serveFill_field (s : State) (rid : Nat) (q : Req) (hφ : φ ≠ .reqs ∧ φ ≠ .lanes ∧ φ ≠ .keys ∧ φ ≠ .digest
    ∧ φ ≠ .rng) : (s.serveFill rid q).field φ = s.field φ := by
  simp [State.serveFill, hφ]
@[simp] theorem State.serveSoftware_field (s : State) (hφ : φ ≠ .reqs ∧ φ ≠ .lanes ∧ φ ≠ .keys ∧ φ ≠ .digest ∧ φ ≠ .rng ∧ φ ≠
    .fifos) : (s.serveSoftware).field φ = s.field φ := by
  unfold State.serveSoftware
  (repeat' split) <;> simp [hφ]
@[simp] theorem execGenerateCall_field (c : Draw) (s : State) (hφ : φ ≠ .reqs ∧ φ ≠ .lanes ∧ φ ≠ .keys ∧ φ ≠ .tango ∧ φ ≠
    .digest ∧ φ ≠ .rng ∧ φ ≠ .fifos) : (execGenerateCall c s).keeps φ s := by
  unfold execGenerateCall
  split <;> simp [hφ]
@[simp] theorem execPortRefill_field (owner : Nat) (s : State) (hφ : φ ≠ .reqs ∧ φ ≠ .lanes ∧ φ ≠ .keys ∧ φ ≠ .digest ∧ φ ≠
    .rng ∧ φ ≠ .fifos) : (execPortRefill owner s).keeps φ s := by
  unfold execPortRefill
  split <;> simp [hφ]
@[simp] theorem State.fillDispatch_field (s : State) (rid : Nat) (hφ : φ ≠ .reqs ∧ φ ≠ .lanes ∧ φ ≠ .keys ∧ φ ≠ .digest ∧ φ ≠
    .rng) : (s.fillDispatch rid).field φ = s.field φ := by
  unfold State.fillDispatch
  (repeat' split) <;> simp [hφ]
@[simp] theorem execRngFill_field (rid : Nat) (s : State) (hφ : φ ≠ .reqs ∧ φ ≠ .lanes ∧ φ ≠ .keys ∧ φ ≠ .digest ∧ φ ≠ .rng ∧ φ
    ≠ .fifos) : (execRngFill rid s).keeps φ s := by
  unfold execRngFill
  simp only []
  (repeat' split) <;> simp [hφ]
@[simp] theorem execDrbgMismatch_field (s : State) (hφ : φ ≠ .reqs ∧ φ ≠ .lanes ∧ φ ≠ .keys ∧ φ ≠ .digest ∧ φ ≠ .pke ∧ φ ≠ .rng
    ∧ φ ≠ .fifos ∧ φ ≠ .start ∧ φ ≠ .events) : (execDrbgMismatch s).keeps φ s := by
  simp [execDrbgMismatch, hφ]
@[simp] theorem execRngFailMode_field (compat : Bool) (s : State) (hφ : φ ≠ .ident ∧ φ ≠ .rng) : (execRngFailMode compat
    s).keeps φ s := by
  simp [execRngFailMode, hφ]
@[simp] theorem State.rawFeed_field (n : Nat) (s : State) (hφ : φ ≠ .rng ∧ φ ≠ .fifos) : (State.rawFeed n s).field φ = s.field φ := by
  induction n generalizing s with
  | zero => rfl
  | succ n ih =>
    rw [State.rawFeed]
    split
    · rfl
    · simp only [ih, hφ, ne_eq, not_false_eq_true, State.onRng_field, State.putFifo_field]
@[simp] theorem State.rawOn_field (s : State) (hφ : φ ≠ .rng ∧ φ ≠ .fifos) : (s.rawOn).field φ = s.field φ := by
  simp [State.rawOn, hφ]
@[simp] theorem State.rawEnter_field (s : State) (hφ : φ ≠ .ident ∧ φ ≠ .reqs ∧ φ ≠ .lanes ∧ φ ≠ .keys ∧ φ ≠ .digest ∧ φ ≠ .rng
    ∧ φ ≠ .fifos) : (s.rawEnter).field φ = s.field φ := by
  simp [State.rawEnter, hφ]
@[simp] theorem State.rawExit_field (s : State) (hφ : φ ≠ .ident ∧ φ ≠ .rng) : (s.rawExit).field φ = s.field φ := by
  unfold State.rawExit
  simp only []
  (repeat' split) <;> simp [hφ]
@[simp] theorem State.writeRawMode_field (s : State) (on : Bool) (hφ : φ ≠ .ident ∧ φ ≠ .reqs ∧ φ ≠ .lanes ∧ φ ≠ .keys ∧ φ ≠
    .digest ∧ φ ≠ .rng ∧ φ ≠ .fifos) : (s.writeRawMode on).2.field φ = s.field φ := by
  unfold State.writeRawMode
  (repeat' split) <;> simp [hφ]
@[simp] theorem State.rawLapse_field (s : State) (hφ : φ ≠ .ident ∧ φ ≠ .rng) : (s.rawLapse).field φ = s.field φ := by
  simp [State.rawLapse, hφ]
@[simp] theorem execRawModeEnter_field (s : State) (hφ : φ ≠ .ident ∧ φ ≠ .reqs ∧ φ ≠ .lanes ∧ φ ≠ .keys ∧ φ ≠ .digest ∧ φ ≠
    .rng ∧ φ ≠ .fifos) : (execRawModeEnter s).keeps φ s := by
  simp [execRawModeEnter, hφ]
@[simp] theorem execRawModeExit_field (s : State) (hφ : φ ≠ .ident ∧ φ ≠ .reqs ∧ φ ≠ .lanes ∧ φ ≠ .keys ∧ φ ≠ .digest ∧ φ ≠
    .rng ∧ φ ≠ .fifos) : (execRawModeExit s).keeps φ s := by
  simp [execRawModeExit, hφ]
@[simp] theorem execRawRunCaptured_field (run : Bytes) (s : State) (hφ : φ ≠ .rng ∧ φ ≠ .fifos) : (execRawRunCaptured run
    s).keeps φ s := by
  simp [execRawRunCaptured, hφ]
@[simp] theorem execRngWord_field (b : Bus) (owner : Nat) (s : State) (hφ : φ ≠ .rng ∧ φ ≠ .fifos ∧ φ ≠ .slices ∧ φ ≠ .access ∧
    φ ≠ .port ∧ φ ≠ .pins ∧ φ ≠ .events) : (execRngWord b owner s).keeps φ s := by
  simp [execRngWord, hφ]

/-! ## Station -/

@[simp] theorem execDispatch_field (rid : Nat) (s : State) (hφ : φ ≠ .ident ∧ φ ≠ .engine ∧ φ ≠ .reqs ∧ φ ≠ .order ∧ φ ≠ .lanes
    ∧ φ ≠ .keys ∧ φ ≠ .tango ∧ φ ≠ .digest ∧ φ ≠ .pke ∧ φ ≠ .rng ∧ φ ≠ .fifos ∧ φ ≠ .memory ∧ φ ≠ .lc ∧ φ ≠ .start ∧ φ ≠ .link
    ∧ φ ≠ .events) : (execDispatch rid s).keeps φ s := by
  unfold execDispatch
  split <;> simp [hφ]
@[simp] theorem execAbort_field (rid : Nat) (s : State) (hφ : φ ≠ .reqs) : (execAbort rid s).keeps φ s := by
  unfold execAbort
  (repeat' split) <;> simp [hφ]
@[simp] theorem State.forwardAbort_field (s : State) (rid : Nat) (q : Req) (hφ : φ ≠ .reqs ∧ φ ≠ .link) : (s.forwardAbort rid
    q).field φ = s.field φ := by
  unfold State.forwardAbort
  split <;> simp [hφ]
@[simp] theorem execAbortAtDecisionPoint_field (rid : Nat) (s : State) (hφ : φ ≠ .reqs ∧ φ ≠ .lanes ∧ φ ≠ .keys ∧ φ ≠ .digest ∧
    φ ≠ .link) : (execAbortAtDecisionPoint rid s).keeps φ s := by
  unfold execAbortAtDecisionPoint
  (repeat' split) <;> simp [hφ]

/-! ## Port -/

@[simp] theorem State.promLost_field (s : State) (o : Nat) (hφ : φ ≠ .slices ∧ φ ≠ .events) : (s.promLost o).field φ = s.field
    φ := by
  simp [State.promLost, hφ]
@[simp] theorem State.recordDiscard_field (s : State) (key rid ord : Nat) (hφ : φ ≠ .engine ∧ φ ≠ .reqs ∧ φ ≠ .events) :
    (s.recordDiscard key rid ord).field φ = s.field φ := by
  simp [State.recordDiscard, hφ]
@[simp] theorem State.keepEnded_field (s : State) (a : Acc) (hφ : φ ≠ .port) : (s.keepEnded a).field φ = s.field φ := by
  simp [State.keepEnded, hφ]
@[simp] theorem State.imageBody_field (s : State) (a : Acc) (hφ : φ ≠ .slices ∧ φ ≠ .access ∧ φ ≠ .port ∧ φ ≠ .start ∧ φ ≠
    .events) : (s.imageBody a).field φ = s.field φ := by
  simp [State.imageBody, hφ]
@[simp] theorem State.writeDone_field (s : State) (a : Acc) (hφ : φ ≠ .engine ∧ φ ≠ .reqs ∧ φ ≠ .slices ∧ φ ≠ .port ∧ φ ≠
    .start ∧ φ ≠ .events) : (s.writeDone a).field φ = s.field φ := by
  unfold State.writeDone
  (repeat' split) <;> simp [hφ]
@[simp] theorem State.readDone_field (s : State) (a : Acc) (hφ : φ ≠ .engine ∧ φ ≠ .reqs ∧ φ ≠ .spread ∧ φ ≠ .slices ∧ φ ≠
    .access ∧ φ ≠ .port ∧ φ ≠ .start ∧ φ ≠ .events) : (s.readDone a).field φ = s.field φ := by
  unfold State.readDone
  split <;> simp [hφ]
@[simp] theorem State.accDone_field (s : State) (a : Acc) (hφ : φ ≠ .engine ∧ φ ≠ .reqs ∧ φ ≠ .spread ∧ φ ≠ .slices ∧ φ ≠
    .access ∧ φ ≠ .port ∧ φ ≠ .start ∧ φ ≠ .events) : (s.accDone a).field φ = s.field φ := by
  simp [State.accDone, hφ]
@[simp] theorem State.onPart_field (s : State) (a : Acc) (tag : Nat) (err : Bool) (f : Part → Part) (hφ : φ ≠ .engine ∧ φ ≠
    .reqs ∧ φ ≠ .spread ∧ φ ≠ .slices ∧ φ ≠ .access ∧ φ ≠ .port ∧ φ ≠ .start ∧ φ ≠ .events) : (s.onPart a tag err f).field φ =
    s.field φ := by
  simp [State.onPart, hφ]
@[simp] theorem State.lateResponse_field (s : State) (chan tag : Nat) (last : Bool) (hφ : φ ≠ .port) : (s.lateResponse chan tag
    last).field φ = s.field φ := by
  simp [State.lateResponse, hφ]
@[simp] theorem execWriteResponse_field (chan tag : Nat) (err : Bool) (s : State) (hφ : φ ≠ .engine ∧ φ ≠ .reqs ∧ φ ≠ .spread ∧
    φ ≠ .slices ∧ φ ≠ .access ∧ φ ≠ .port ∧ φ ≠ .start ∧ φ ≠ .events) : (execWriteResponse chan tag err s).keeps φ s := by
  unfold execWriteResponse
  split <;> simp [hφ]
@[simp] theorem execReadDataBeat_field (chan tag : Nat) (data : Bytes) (last err : Bool) (s : State) (hφ : φ ≠ .engine ∧ φ ≠
    .reqs ∧ φ ≠ .spread ∧ φ ≠ .slices ∧ φ ≠ .access ∧ φ ≠ .port ∧ φ ≠ .start ∧ φ ≠ .events) : (execReadDataBeat chan tag data
    last err s).keeps φ s := by
  unfold execReadDataBeat
  split <;> simp [hφ]
@[simp] theorem execSpResponseTimeout_field (chan tag : Nat) (s : State) (hφ : φ ≠ .engine ∧ φ ≠ .reqs ∧ φ ≠ .spread ∧ φ ≠
    .slices ∧ φ ≠ .access ∧ φ ≠ .port ∧ φ ≠ .start ∧ φ ≠ .events) : (execSpResponseTimeout chan tag s).keeps φ s := by
  unfold execSpResponseTimeout
  split <;> simp [hφ]

/-! ## Deliver -/

@[simp] theorem execStatArrival_field (rid : Nat) (s : State) (hφ : φ ≠ .reqs ∧ φ ≠ .dir ∧ φ ≠ .events) : (execStatArrival rid
    s).keeps φ s := by
  unfold execStatArrival
  (repeat' split) <;> simp [hφ]
@[simp] theorem State.writeChain_field (s : State) (rid : Nat) (q : Req) (hφ : φ ≠ .reqs ∧ φ ≠ .slices ∧ φ ≠ .access ∧ φ ≠
    .port ∧ φ ≠ .events) : (s.writeChain rid q).field φ = s.field φ := by
  unfold State.writeChain
  repeat' split
  · rfl
  · rfl
  · simp [hφ, field_of_snd ‹State.issue _ _ = _›]
  · simp [hφ, field_of_snd ‹State.issue _ _ = _›]
@[simp] theorem execOutputWriteIssue_field (rid : Nat) (s : State) (hφ : φ ≠ .reqs ∧ φ ≠ .slices ∧ φ ≠ .access ∧ φ ≠ .port ∧ φ
    ≠ .events) : (execOutputWriteIssue rid s).keeps φ s := by
  unfold execOutputWriteIssue
  simp only []
  repeat' split
  · simp
  · simp
  · simp [hφ]
  · simp
  · simp
  · simp [hφ, field_of_snd ‹State.issue _ _ = _›]
  · simp [hφ, field_of_snd ‹State.issue _ _ = _›]
@[simp] theorem State.journalLose_field (s : State) (rid : Nat) (hφ : φ ≠ .reqs ∧ φ ≠ .start) : (s.journalLose rid).field φ =
    s.field φ := by
  simp [State.journalLose, hφ]
@[simp] theorem execJournalWrite_field (rid : Nat) (s : State) (hφ : φ ≠ .engine ∧ φ ≠ .reqs ∧ φ ≠ .slices ∧ φ ≠ .access ∧ φ ≠
    .port ∧ φ ≠ .start ∧ φ ≠ .events) : (execJournalWrite rid s).keeps φ s := by
  unfold execJournalWrite
  simp only []
  repeat' split
  · simp
  · simp
  · simp
  · simp [hφ]
  · simp
  · simp [hφ, field_of_snd ‹State.issue _ _ = _›]
  · simp [hφ, field_of_snd ‹State.issue _ _ = _›]
@[simp] theorem State.countRecord_field (s : State) (q : Req) (t : Stat) (hφ : φ ≠ .keys ∧ φ ≠ .tango ∧ φ ≠ .pke ∧ φ ≠ .rng) :
    (s.countRecord q t).field φ = s.field φ := by
  simp [State.countRecord, hφ]
@[simp] theorem State.chainEnd_field (s : State) (q : Req) (t : Stat) (hφ : φ ≠ .keys) : (s.chainEnd q t).field φ = s.field φ
    := by
  simp [State.chainEnd, hφ]
@[simp] theorem State.recordWrite_field (s : State) (rid : Nat) (q : Req) (t : Stat) (hφ : φ ≠ .engine ∧ φ ≠ .reqs ∧ φ ≠
    .slices ∧ φ ≠ .access ∧ φ ≠ .port ∧ φ ≠ .events) : (s.recordWrite rid q t).field φ = s.field φ := by
  unfold State.recordWrite
  simp only []
  repeat' split
  · simp [hφ]
  · simp [hφ, field_of_snd ‹State.issue _ _ = _›]
  · simp [hφ, field_of_snd ‹State.issue _ _ = _›]
@[simp] theorem State.countRetryHold_field (s : State) (rid : Nat) (q : Req) (hφ : φ ≠ .reqs ∧ φ ≠ .order) : (s.countRetryHold
    rid q).field φ = s.field φ := by
  simp [State.countRetryHold, hφ]
@[simp] theorem execCompletionRecordIssue_field (rid : Nat) (s : State) (hφ : φ ≠ .engine ∧ φ ≠ .reqs ∧ φ ≠ .order ∧ φ ≠ .keys
    ∧ φ ≠ .tango ∧ φ ≠ .pke ∧ φ ≠ .rng ∧ φ ≠ .slices ∧ φ ≠ .access ∧ φ ≠ .port ∧ φ ≠ .link ∧ φ ≠ .events) :
    (execCompletionRecordIssue rid s).keeps φ s := by
  unfold execCompletionRecordIssue
  (repeat' split) <;> simp [hφ]
@[simp] theorem execCompletionRecordAck_field (rid : Nat) (s : State) (hφ : φ ≠ .engine ∧ φ ≠ .reqs ∧ φ ≠ .port) :
    (execCompletionRecordAck rid s).keeps φ s := by
  unfold execCompletionRecordAck
  repeat' split
  · simp
  · simp [hφ, State.takeEnded_field (ht := ‹State.takeEnded _ _ = _›)]
@[simp] theorem execTailWriteIssue_field (owner n : Nat) (s : State) (hφ : φ ≠ .engine ∧ φ ≠ .slices ∧ φ ≠ .access ∧ φ ≠ .port
    ∧ φ ≠ .events) : (execTailWriteIssue owner n s).keeps φ s := by
  unfold execTailWriteIssue
  simp only []
  repeat' split
  · simp
  · simp [hφ, field_of_snd ‹State.issue _ _ = _›]
  · simp [hφ, field_of_snd ‹State.issue _ _ = _›]
@[simp] theorem State.notifyPair_field (s : State) (owner n : Nat) (hφ : φ ≠ .engine ∧ φ ≠ .slices ∧ φ ≠ .access ∧ φ ≠ .port ∧
    φ ≠ .events) : (s.notifyPair owner n).field φ = s.field φ := by
  unfold State.notifyPair
  simp only []
  (repeat' split) <;> simp [hφ, field_of_snd ‹State.issue _ _ = _›]
@[simp] theorem execTailWriteAck_field (owner n : Nat) (s : State) (hφ : φ ≠ .engine ∧ φ ≠ .slices ∧ φ ≠ .access ∧ φ ≠ .port ∧
    φ ≠ .events) : (execTailWriteAck owner n s).keeps φ s := by
  unfold execTailWriteAck
  refine (Out.keeps_unit _ _ _ _).mpr fun _ => ?_
  split
  · rfl
  · simp only [hφ, ne_eq, not_false_eq_true, and_self, field_ite, ite_self, State.onRing_field, State.notifyPair_field,
      State.takeEnded_field (ht := ‹State.takeEnded _ _ = _›)]
@[simp] theorem execCoalTimeExpiry_field (owner n : Nat) (s : State) (hφ : φ ≠ .engine ∧ φ ≠ .slices ∧ φ ≠ .access ∧ φ ≠ .port
    ∧ φ ≠ .events) : (execCoalTimeExpiry owner n s).keeps φ s := by
  simp [execCoalTimeExpiry, hφ]

/-! ## Spread -/

@[simp] theorem State.sendSetup_field (s : State) (i : Nat) (hφ : φ ≠ .rng ∧ φ ≠ .link) : (s.sendSetup i).field φ = s.field φ
    := by
  unfold State.sendSetup
  (repeat' split) <;> simp [hφ]
@[simp] theorem State.onSpread_field (s : State) (nn : Nat) (f : Spread → Spread) (hφ : φ ≠ .spread) : (s.onSpread nn f).field
    φ = s.field φ := by
  simp [State.onSpread, hφ]
@[simp] theorem State.spreadSettle_field (s : State) (nn : Nat) (hφ : φ ≠ .spread) : (s.spreadSettle nn).field φ = s.field φ :=
    by
  simp [State.spreadSettle, hφ]
@[simp] theorem State.sendConfig_field (s : State) (nn i : Nat) (hφ : φ ≠ .link) : (s.sendConfig nn i).field φ = s.field φ := by
  simp [State.sendConfig, hφ]
@[simp] theorem State.writeSpreadEnable_field (s : State) (nn : Nat) (on : Bool) (hφ : φ ≠ .spread ∧ φ ≠ .rng ∧ φ ≠ .link) :
    (s.writeSpreadEnable nn on).field φ = s.field φ := by
  simp [State.writeSpreadEnable, hφ]
@[simp] theorem State.grantKey_field (s : State) (q : Req) (hφ : φ ≠ .keys ∧ φ ≠ .tango) : (s.grantKey q).2.field φ = s.field φ
    := by
  unfold State.grantKey
  (repeat' split) <;> simp [hφ]
@[simp] theorem State.sendKeyx_field (s : State) (nn inst : Nat) (q : Req) (k : KeyCopy) (tk : Bytes) (hφ : φ ≠ .link) :
    (s.sendKeyx nn inst q k tk).field φ = s.field φ := by
  simp [State.sendKeyx, hφ]
@[simp] theorem State.sendGrant_field (s : State) (nn i rid : Nat) (q : Req) (keyx : Bool) (hφ : φ ≠ .reqs ∧ φ ≠ .spread ∧ φ ≠
    .link) : (s.sendGrant nn i rid q keyx).field φ = s.field φ := by
  simp [State.sendGrant, hφ]
@[simp] theorem State.grantRemote_field (s : State) (nn i rid : Nat) (q : Req) (hφ : φ ≠ .reqs ∧ φ ≠ .spread ∧ φ ≠ .keys ∧ φ ≠
    .tango ∧ φ ≠ .slices ∧ φ ≠ .access ∧ φ ≠ .port ∧ φ ≠ .link ∧ φ ≠ .events) : (s.grantRemote nn i rid q).field φ = s.field φ
    := by
  unfold State.grantRemote
  simp only []
  split
  · simp only [hφ, ne_eq, not_false_eq_true, and_self, field_ite, ite_self, State.onKeys_field, State.sendConfig_field, State.sendGrant_field]
  · split
    · split <;> simp only [hφ, ne_eq, not_false_eq_true, and_self, State.gatherRead_field]
    · split
      · simp only [hφ, ne_eq, not_false_eq_true, and_self, field_ite, ite_self, State.onReq_field, State.sendConfig_field,
          State.grantKey_field, field_of_snd ‹State.grantKey _ _ = _›]
      · split <;> simp only [hφ, ne_eq, not_false_eq_true, and_self, field_ite, ite_self, State.sendConfig_field,
          State.grantKey_field, State.sendKeyx_field, State.sendGrant_field, field_of_snd ‹State.grantKey _ _ = _›]
@[simp] theorem execSpreadGrant_field (rid : Nat) (s : State) (hφ : φ ≠ .reqs ∧ φ ≠ .spread ∧ φ ≠ .keys ∧ φ ≠ .tango ∧ φ ≠
    .slices ∧ φ ≠ .access ∧ φ ≠ .port ∧ φ ≠ .link ∧ φ ≠ .events) : (execSpreadGrant rid s).keeps φ s := by
  unfold execSpreadGrant
  (repeat' split) <;> simp [hφ]
@[simp] theorem execMemberLost_field (nn i : Nat) (s : State) (hφ : φ ≠ .reqs ∧ φ ≠ .spread) : (execMemberLost nn i s).keeps φ
    s := by
  unfold execMemberLost
  refine (Out.keeps_unit _ _ _ _).mpr fun _ => ?_
  split
  · rfl
  · simp only [hφ, ne_eq, not_false_eq_true, field_ite, ite_self, implies_true, field_foldl, State.onReq_field,
      State.onSpread_field]
@[simp] theorem execToken_field (m : Msg) (s : State) (hφ : φ ≠ .reqs ∧ φ ≠ .dir ∧ φ ≠ .link ∧ φ ≠ .dict ∧ φ ≠ .events) :
    (execToken m s).keeps φ s := by
  unfold execToken
  rw [Out.keeps_next]
  split
  · simp only [hφ, ne_eq, not_false_eq_true, and_self, State.undelivered_field]
  · next s1 h1 =>
    simp only []
    split
    · simp only [hφ, ne_eq, not_false_eq_true, and_self, State.raise_field, State.deliverMsg_field (ht := h1)]
    · split <;> simp only [hφ, ne_eq, not_false_eq_true, and_self, State.putReq_field, State.learnCommit_field, State.deliverMsg_field (ht := h1)]
@[simp] theorem State.takeGrant_field (s : State) (r : MemberRing) (m : Msg) (hφ : φ ≠ .reqs ∧ φ ≠ .link ∧ φ ≠ .events) :
    (s.takeGrant r m).field φ = s.field φ := by
  unfold State.takeGrant
  split <;> simp [hφ]
@[simp] theorem State.onMemberRing_field (s : State) (home nn : Nat) (f : MemberRing → MemberRing) (hφ : φ ≠ .link) :
    (s.onMemberRing home nn f).field φ = s.field φ := by
  simp [State.onMemberRing, hφ]
@[simp] theorem State.takeGrants_field (n : Nat) (s : State) (home nn : Nat) (hφ : φ ≠ .reqs ∧ φ ≠ .link ∧ φ ≠ .events) :
    (State.takeGrants n s home nn).field φ = s.field φ := by
  induction n generalizing s with
  | zero => rfl
  | succ n ih =>
    rw [State.takeGrants]
    (repeat' split) <;> first
      | rfl
      | simp only [ih, hφ, ne_eq, not_false_eq_true, and_self, State.onMemberRing_field, State.takeGrant_field]
@[simp] theorem execGrant_field (m : Msg) (s : State) (hφ : φ ≠ .reqs ∧ φ ≠ .link ∧ φ ≠ .dict ∧ φ ≠ .events) : (execGrant m
    s).keeps φ s := by
  unfold execGrant
  rw [Out.keeps_next]
  split
  · simp only [hφ, ne_eq, not_false_eq_true, and_self, State.undelivered_field]
  · next s1 h1 =>
    simp only []
    split <;> simp only [hφ, ne_eq, not_false_eq_true, and_self, State.onMemberRing_field, State.takeGrants_field,
        State.deliverMsg_field (ht := h1)]
@[simp] theorem execKeyx_field (m : Msg) (s : State) (hφ : φ ≠ .link ∧ φ ≠ .dict) : (execKeyx m s).keeps φ s := by
  unfold execKeyx
  repeat' split
  · simp [hφ]
  · simp [hφ, State.deliverMsg_field (ht := ‹State.deliverMsg _ _ _ = _›)]
@[simp] theorem State.settleSpreads_field (s : State) (hφ : φ ≠ .spread) : (s.settleSpreads).field φ = s.field φ := by
  simp [State.settleSpreads, hφ]
@[simp] theorem execKeyxSetup_field (m : Msg) (s : State) (hφ : φ ≠ .spread ∧ φ ≠ .rng ∧ φ ≠ .link ∧ φ ≠ .dict) :
    (execKeyxSetup m s).keeps φ s := by
  unfold execKeyxSetup
  repeat' split
  · simp [hφ]
  · simp [hφ, State.deliverMsg_field (ht := ‹State.deliverMsg _ _ _ = _›)]
@[simp] theorem State.takeConfig_field (s : State) (m : Msg) (nn : Nat) (hφ : φ ≠ .link) : (s.takeConfig m nn).field φ =
    s.field φ := by
  simp [State.takeConfig, hφ]
@[simp] theorem State.takeAbort_field (s : State) (m : Msg) (nn : Nat) (hφ : φ ≠ .reqs ∧ φ ≠ .lanes ∧ φ ≠ .keys ∧ φ ≠ .digest ∧
    φ ≠ .link) : (s.takeAbort m nn).field φ = s.field φ := by
  unfold State.takeAbort
  simp only []
  (repeat' split) <;> simp [hφ]
@[simp] theorem State.takeQuiesce_field (s : State) (m : Msg) (nn : Nat) (cancel : Bool) (hφ : φ ≠ .reqs ∧ φ ≠ .lanes ∧ φ ≠
    .keys ∧ φ ≠ .digest) : (s.takeQuiesce m nn cancel).field φ = s.field φ := by
  simp [State.takeQuiesce, hφ]
@[simp] theorem State.abortOutcome_field (s : State) (m : Msg) (nn d : Nat) (hφ : φ ≠ .reqs) : (s.abortOutcome m nn d).field φ
    = s.field φ := by
  unfold State.abortOutcome
  simp only []
  repeat' split
  · rfl
  · rfl
  · simp [hφ]
@[simp] theorem execSpreadCtl_field (m : Msg) (s : State) (hφ : φ ≠ .engine ∧ φ ≠ .reqs ∧ φ ≠ .spread ∧ φ ≠ .lanes ∧ φ ≠ .keys
    ∧ φ ≠ .digest ∧ φ ≠ .link ∧ φ ≠ .dict ∧ φ ≠ .events) : (execSpreadCtl m s).keeps φ s := by
  unfold execSpreadCtl
  repeat' split
  · simp [hφ]
  · simp [hφ, State.deliverMsg_field (ht := ‹State.deliverMsg _ _ _ = _›)]

/-! ## Slices -/

@[simp] theorem State.cmdRefused_field (s : State) (n : Nat) (c : CmdStatus) (hφ : φ ≠ .slices) : (s.cmdRefused n c).2.field φ
    = s.field φ := by
  simp [State.cmdRefused, hφ]
@[simp] theorem State.sliceCreate_field (s : State) (n : Nat) (hφ : φ ≠ .slices) : (s.sliceCreate n).2.field φ = s.field φ := by
  unfold State.sliceCreate
  (repeat' split) <;> simp [hφ]
@[simp] theorem State.forwardQuiesce_field (s : State) (n : Nat) (cancel : Bool) (hφ : φ ≠ .link) : (s.forwardQuiesce n
    cancel).field φ = s.field φ := by
  unfold State.forwardQuiesce
  refine field_foldl s _ (fun t x => field_foldl t _ (fun u i => ?_) _) _
  split <;> simp only [hφ, ne_eq, not_false_eq_true, State.sendMsg_field]
@[simp] theorem State.quiesceRequests_field (s : State) (n : Nat) (cancel : Bool) (hφ : φ ≠ .reqs ∧ φ ≠ .lanes ∧ φ ≠ .keys ∧ φ
    ≠ .digest) : (s.quiesceRequests n cancel).field φ = s.field φ := by
  simp [State.quiesceRequests, hφ]
@[simp] theorem State.releasePage_field (s : State) (o : Nat) (hφ : φ ≠ .digest) : (s.releasePage o).field φ = s.field φ := by
  simp [State.releasePage, hφ]
@[simp] theorem State.sliceQuiesce_field (s : State) (n : Nat) (hφ : φ ≠ .reqs ∧ φ ≠ .lanes ∧ φ ≠ .keys ∧ φ ≠ .digest ∧ φ ≠
    .slices ∧ φ ≠ .link) : (s.sliceQuiesce n).2.field φ = s.field φ := by
  unfold State.sliceQuiesce
  simp only []
  repeat' split
  · rfl
  · simp [hφ]
  · simp [hφ]
  · simp [hφ]
@[simp] theorem State.sliceResume_field (s : State) (n : Nat) (hφ : φ ≠ .slices) : (s.sliceResume n).2.field φ = s.field φ := by
  unfold State.sliceResume
  simp only []
  repeat' split
  · rfl
  · simp [hφ]
  · simp [hφ]
@[simp] theorem State.sliceReset_field (s : State) (n : Nat) (into : SliceState) (hφ : φ ≠ .slices) : (s.sliceReset n
    into).2.field φ = s.field φ := by
  unfold State.sliceReset
  simp only []
  repeat' split
  · rfl
  · simp [hφ]
  · simp [hφ]
@[simp] theorem execCreate_field (slice : Nat) (s : State) (hφ : φ ≠ .slices) : (execCreate slice s).keeps φ s := by
  simp [execCreate, hφ]
@[simp] theorem execQuiesce_field (slice : Nat) (s : State) (hφ : φ ≠ .reqs ∧ φ ≠ .lanes ∧ φ ≠ .keys ∧ φ ≠ .digest ∧ φ ≠
    .slices ∧ φ ≠ .link) : (execQuiesce slice s).keeps φ s := by
  simp [execQuiesce, hφ]
@[simp] theorem execResume_field (slice : Nat) (s : State) (hφ : φ ≠ .slices) : (execResume slice s).keeps φ s := by
  simp [execResume, hφ]
@[simp] theorem execReset_field (slice : Nat) (s : State) (hφ : φ ≠ .slices) : (execReset slice s).keeps φ s := by
  simp [execReset, hφ]
@[simp] theorem execRemove_field (slice : Nat) (s : State) (hφ : φ ≠ .slices) : (execRemove slice s).keeps φ s := by
  simp [execRemove, hφ]
@[simp] theorem State.clearPage_field (s : State) (n : Nat) (hφ : φ ≠ .engine ∧ φ ≠ .keys ∧ φ ≠ .dir ∧ φ ≠ .digest ∧ φ ≠ .rng ∧
    φ ≠ .fifos ∧ φ ≠ .slices) : (s.clearPage n).field φ = s.field φ := by
  simp [State.clearPage, hφ]
@[simp] theorem execCreateComplete_field (slice : Nat) (s : State) (hφ : φ ≠ .engine ∧ φ ≠ .keys ∧ φ ≠ .dir ∧ φ ≠ .digest ∧ φ ≠
    .rng ∧ φ ≠ .fifos ∧ φ ≠ .slices ∧ φ ≠ .start) : (execCreateComplete slice s).keeps φ s := by
  simp [execCreateComplete, hφ]
@[simp] theorem execQuiesceDone_field (slice : Nat) (s : State) (hφ : φ ≠ .slices ∧ φ ≠ .events) : (execQuiesceDone slice
    s).keeps φ s := by
  simp [execQuiesceDone, hφ]
@[simp] theorem execQuiesceLimitExpiry_field (slice : Nat) (s : State) (hφ : φ ≠ .reqs ∧ φ ≠ .lanes ∧ φ ≠ .keys ∧ φ ≠ .digest ∧
    φ ≠ .slices ∧ φ ≠ .link) : (execQuiesceLimitExpiry slice s).keeps φ s := by
  simp [execQuiesceLimitExpiry, hφ]
@[simp] theorem State.removeScopes_field (s : State) (n : Nat) (hφ : φ ≠ .dir) : (s.removeScopes n).field φ = s.field φ := by
  simp [State.removeScopes, hφ]
@[simp] theorem execSliceResetComplete_field (slice : Nat) (s : State) (hφ : φ ≠ .engine ∧ φ ≠ .keys ∧ φ ≠ .dir ∧ φ ≠ .digest ∧
    φ ≠ .rng ∧ φ ≠ .fifos ∧ φ ≠ .slices ∧ φ ≠ .start) : (execSliceResetComplete slice s).keeps φ s := by
  unfold execSliceResetComplete
  refine (Out.keeps_unit _ _ _ _).mpr fun _ => ?_
  simp only [hφ, ne_eq, not_false_eq_true, and_self, field_ite, ite_self, implies_true, field_foldl, field_set_keys_start,
      State.onSlot_field, State.onSlice_field, State.wantRefill_field, State.clearPage_field, State.removeScopes_field]
@[simp] theorem State.writePromEnable_field (s : State) (n : Nat) (on : Bool) (hφ : φ ≠ .slices) : (s.writePromEnable n
    on).field φ = s.field φ := by
  simp [State.writePromEnable, hφ]
@[simp] theorem execPromEnable_field (slice : Nat) (on : Bool) (s : State) (hφ : φ ≠ .slices) : (execPromEnable slice on
    s).keeps φ s := by
  simp [execPromEnable, hφ]
@[simp] theorem State.promNext_field (s : State) (n chan : Nat) (hφ : φ ≠ .slices ∧ φ ≠ .access ∧ φ ≠ .port ∧ φ ≠ .events) :
    (s.promNext n chan).field φ = s.field φ := by
  unfold State.promNext
  simp only []
  repeat' split
  · rfl
  · rfl
  · simp [hφ, field_of_snd ‹State.issue _ _ = _›]
  · simp [hφ, field_of_snd ‹State.issue _ _ = _›]
@[simp] theorem execPromLogWrite_field (slice chan : Nat) (s : State) (hφ : φ ≠ .slices ∧ φ ≠ .access ∧ φ ≠ .port ∧ φ ≠
    .events) : (execPromLogWrite slice chan s).keeps φ s := by
  unfold execPromLogWrite
  split
  · exact (Out.keeps_fault _ _).mpr trivial
  · refine (Out.keeps_unit _ _ _ _).mpr fun _ => ?_
    split
    · simp only [hφ, ne_eq, not_false_eq_true, State.takeEnded_field (ht := ‹State.takeEnded _ _ = _›)]
    · split
      · next a s1 h1 =>
        simp only []
        split
        · simp only [hφ, ne_eq, not_false_eq_true, State.takeEnded_field (ht := h1)]
        · split
          · rfl
          · split <;> simp only [hφ, ne_eq, not_false_eq_true, and_self, State.issue_field, State.promLost_field, field_of_snd ‹State.issue _ _ = _›, State.takeEnded_field (ht := h1)]
      · simp only [hφ, ne_eq, not_false_eq_true, and_self, State.promNext_field]
@[simp] theorem State.promSwap_field (s : State) (n : Nat) (hφ : φ ≠ .slices) : (s.promSwap n).2.field φ = s.field φ := by
  unfold State.promSwap
  simp only []
  repeat' split
  · rfl
  · simp [hφ]
@[simp] theorem execPromSwap_field (slice : Nat) (s : State) (hφ : φ ≠ .slices) : (execPromSwap slice s).keeps φ s := by
  simp [execPromSwap, hφ]
@[simp] theorem execPromSwapDone_field (slice : Nat) (s : State) (hφ : φ ≠ .slices) : (execPromSwapDone slice s).keeps φ s := by
  simp [execPromSwapDone, hφ]

/-! ## Access -/

@[simp] theorem State.onAccess_field (s : State) (f : Access → Access) (hφ : φ ≠ .access) : (s.onAccess f).field φ = s.field φ
    := by
  simp [State.onAccess, hφ]
@[simp] theorem State.ruleCommit_field (s : State) (hφ : φ ≠ .access) : (s.ruleCommit).2.field φ = s.field φ := by
  unfold State.ruleCommit
  split <;> simp [hφ]
@[simp] theorem execRuleCommit_field (s : State) (hφ : φ ≠ .access) : (execRuleCommit s).keeps φ s := by
  simp [execRuleCommit, hφ]
@[simp] theorem execCommitValidated_field (s : State) (hφ : φ ≠ .access ∧ φ ≠ .events) : (execCommitValidated s).keeps φ s := by
  unfold execCommitValidated
  (repeat' split) <;> simp [hφ]
@[simp] theorem execEpochSwitch_field (s : State) (hφ : φ ≠ .access ∧ φ ≠ .events) : (execEpochSwitch s).keeps φ s := by
  simp [execEpochSwitch, hφ]
@[simp] theorem execEpochDrained_field (s : State) (hφ : φ ≠ .access) : (execEpochDrained s).keeps φ s := by
  simp [execEpochDrained, hφ]
@[simp] theorem execDrainWarnExpiry_field (s : State) (hφ : φ ≠ .access ∧ φ ≠ .events) : (execDrainWarnExpiry s).keeps φ s := by
  simp [execDrainWarnExpiry, hφ]

/-! ## Events -/

@[simp] theorem State.onSource_field (s : State) (i : Nat) (f : Source → Source) (hφ : φ ≠ .events) : (s.onSource i f).field φ
    = s.field φ := by
  simp [State.onSource, hφ]
@[simp] theorem State.queueWord_field (s : State) (w : BitVec 48) (hφ : φ ≠ .fifos) : (s.queueWord w).field φ = s.field φ := by
  simp [State.queueWord, hφ]
@[simp] theorem State.queueEntry_field (s : State) (e : Entry3) (hφ : φ ≠ .fifos ∧ φ ≠ .slices ∧ φ ≠ .access ∧ φ ≠ .port ∧ φ ≠
    .events) : (s.queueEntry e).field φ = s.field φ := by
  simp [State.queueEntry, hφ]
@[simp] theorem State.linkRoute_field (s : State) (e : Entry3) (hφ : φ ≠ .link ∧ φ ≠ .events) : (s.linkRoute e).field φ =
    s.field φ := by
  simp [State.linkRoute, hφ]
@[simp] theorem State.accept_field (s : State) (o : Occ) (hφ : φ ≠ .fifos ∧ φ ≠ .slices ∧ φ ≠ .access ∧ φ ≠ .port ∧ φ ≠ .link ∧
    φ ≠ .events) : (s.accept o).field φ = s.field φ := by
  unfold State.accept
  split <;> simp [hφ]
@[simp] theorem execEventAccepted_field (s : State) (hφ : φ ≠ .fifos ∧ φ ≠ .slices ∧ φ ≠ .access ∧ φ ≠ .port ∧ φ ≠ .link ∧ φ ≠
    .events) : (execEventAccepted s).keeps φ s := by
  unfold execEventAccepted
  split <;> simp [hφ]
@[simp] theorem execStatusClear_field (b : Bus) (word : Nat) (v : U64) (s : State) (hφ : φ ≠ .slices ∧ φ ≠ .pins ∧ φ ≠ .events)
    : (execStatusClear b word v s).keeps φ s := by
  unfold execStatusClear
  rw [Out.keeps_unit, State.pageWrite_field _ _ _ _ (by simp [hφ])]
  · exact fun _ => rfl
  · exact fun t => field_foldl t _ (fun u i => by split <;> simp only [hφ, ne_eq, not_false_eq_true, State.onSource_field]) _
@[simp] theorem State.forceEvent_field (s : State) (i : Nat) (hφ : φ ≠ .events) : (s.forceEvent i).2.field φ = s.field φ := by
  unfold State.forceEvent
  split <;> simp [hφ]
@[simp] theorem execForcedOccurrence_field (source : Nat) (s : State) (hφ : φ ≠ .events) : (execForcedOccurrence source
    s).keeps φ s := by
  simp [execForcedOccurrence, hφ]
@[simp] theorem execRemotePending_field (b : Bus) (v : U64) (s : State) (hφ : φ ≠ .slices ∧ φ ≠ .pins ∧ φ ≠ .events) :
    (execRemotePending b v s).keeps φ s := by
  simp [execRemotePending, hφ]
@[simp] theorem execEvent_field (m : Msg) (s : State) (hφ : φ ≠ .fifos ∧ φ ≠ .slices ∧ φ ≠ .access ∧ φ ≠ .port ∧ φ ≠ .link ∧ φ
    ≠ .events) : (execEvent m s).keeps φ s := by
  unfold execEvent
  repeat' split
  · simp
  · simp
  · simp [hφ, State.takeMsg_field (ht := ‹State.takeMsg _ _ _ _ = _›)]

/-! ## Memory -/

@[simp] theorem State.stagingLost_field (s : State) (line : Nat) (hφ : φ ≠ .reqs ∧ φ ≠ .lanes ∧ φ ≠ .keys ∧ φ ≠ .digest) :
    (s.stagingLost line).field φ = s.field φ := by
  unfold State.stagingLost
  simp only []
  repeat' split
  · rfl
  · simp [hφ]
  · simp [hφ]
  · simp [hφ]
@[simp] theorem State.operandLost_field (s : State) (line : Nat) (hφ : φ ≠ .reqs ∧ φ ≠ .lanes ∧ φ ≠ .keys ∧ φ ≠ .tango ∧ φ ≠
    .digest ∧ φ ≠ .pke ∧ φ ≠ .fifos) : (s.operandLost line).field φ = s.field φ := by
  unfold State.operandLost
  simp only []
  repeat' split
  · rfl
  · simp [hφ]
@[simp] theorem State.trieLost_field (s : State) (line : Nat) (hφ : φ ≠ .dir ∧ φ ≠ .memory) : (s.trieLost line).field φ =
    s.field φ := by
  unfold State.trieLost
  simp only []
  repeat' split
  · rfl
  · simp [hφ]
  · simp [hφ]
@[simp] theorem State.tableLost_field (s : State) (line : Nat) (lost : List Nat) (hφ : φ ≠ .reqs) : (s.tableLost line
    lost).field φ = s.field φ := by
  simp [State.tableLost, hφ]
@[simp] theorem State.lostOutcome_field (s : State) (store line : Nat) (lost : List Nat) (hφ : φ ≠ .reqs ∧ φ ≠ .lanes ∧ φ ≠
    .keys ∧ φ ≠ .dir ∧ φ ≠ .tango ∧ φ ≠ .digest ∧ φ ≠ .pke ∧ φ ≠ .fifos ∧ φ ≠ .memory ∧ φ ≠ .events) : (s.lostOutcome store
    line lost).field φ = s.field φ := by
  unfold State.lostOutcome
  split <;> simp [hφ]
@[simp] theorem State.scrubLine_field (s : State) (store line : Nat) (hφ : φ ≠ .reqs ∧ φ ≠ .lanes ∧ φ ≠ .keys ∧ φ ≠ .dir ∧ φ ≠
    .tango ∧ φ ≠ .digest ∧ φ ≠ .pke ∧ φ ≠ .fifos ∧ φ ≠ .memory ∧ φ ≠ .events) : (s.scrubLine store line).field φ = s.field φ :=
    by
  unfold State.scrubLine
  repeat' split
  · simp [hφ]
  · simp [hφ]
  · simp [hφ, field_of_snd ‹State.lineRead _ _ _ _ = _›]
  · simp [hφ, field_of_snd ‹State.lineRead _ _ _ _ = _›]
@[simp] theorem execScrubLineRead_field (store : Nat) (s : State) (hφ : φ ≠ .reqs ∧ φ ≠ .lanes ∧ φ ≠ .keys ∧ φ ≠ .dir ∧ φ ≠
    .tango ∧ φ ≠ .digest ∧ φ ≠ .pke ∧ φ ≠ .fifos ∧ φ ≠ .memory ∧ φ ≠ .events) : (execScrubLineRead store s).keeps φ s := by
  simp [execScrubLineRead, hφ]
@[simp] theorem State.eccInject_field (s : State) (hφ : φ ≠ .memory) : (s.eccInject).2.field φ = s.field φ := by
  unfold State.eccInject
  simp only []
  repeat' split
  · rfl
  · rfl
  · rfl
  · simp [hφ]
@[simp] theorem execEccInject_field (s : State) (hφ : φ ≠ .memory) : (execEccInject s).keeps φ s := by
  simp [execEccInject, hφ]

/-! ## LifeCycle -/

@[simp] theorem State.lcVote_field (s : State) (hφ : φ ≠ .lc ∧ φ ≠ .events) : (s.lcVote).field φ = s.field φ := by
  simp [State.lcVote, hφ]
@[simp] theorem State.onLc_field (s : State) (f : LifeCycle → LifeCycle) (hφ : φ ≠ .lc) : (s.onLc f).field φ = s.field φ := by
  simp [State.onLc, hφ]
@[simp] theorem State.program_field (s : State) (target : Nat) (todo : List FusePlace) (root : Bytes) (hφ : φ ≠ .lc) :
    (s.program target todo root).field φ = s.field φ := by
  simp [State.program, hφ]
@[simp] theorem State.lcRefuse_field (s : State) (status : Nat) (hφ : φ ≠ .lc) : (s.lcRefuse status).2.field φ = s.field φ := by
  simp [State.lcRefuse, hφ]
@[simp] theorem State.programRoot_field (s : State) (r target field : Nat) (hφ : φ ≠ .rng ∧ φ ≠ .lc) : (s.programRoot r target
    field).2.field φ = s.field φ := by
  unfold State.programRoot
  (repeat' split) <;> simp [hφ]
@[simp] theorem State.unlock_field (s : State) (hφ : φ ≠ .lc) : (s.unlock).2.field φ = s.field φ := by
  unfold State.unlock
  split
  · simp only [hφ, ne_eq, not_false_eq_true, State.lcRefuse_field]
  · simp only [apply_ite Prod.snd, hφ, ne_eq, not_false_eq_true, field_ite, ite_self, State.onLc_field, State.program_field,
      State.lcRefuse_field]
@[simp] theorem State.transition_field (s : State) (code : Nat) (hφ : φ ≠ .rng ∧ φ ≠ .lc) : (s.transition code).2.field φ =
    s.field φ := by
  unfold State.transition
  split <;> simp [hφ]
@[simp] theorem State.repair_field (s : State) (hφ : φ ≠ .lc) : (s.repair).field φ = s.field φ := by
  simp [State.repair, hφ]
@[simp] theorem State.lcRequest_field (s : State) (code : Nat) (hφ : φ ≠ .rng ∧ φ ≠ .lc) : (s.lcRequest code).2.field φ =
    s.field φ := by
  unfold State.lcRequest
  simp only []
  (repeat' split) <;> simp [hφ]
@[simp] theorem execLcRequestTransition_field (code : Nat) (s : State) (hφ : φ ≠ .rng ∧ φ ≠ .lc) : (execLcRequestTransition
    code s).keeps φ s := by
  simp [execLcRequestTransition, hφ]
@[simp] theorem execLcUnlock_field (s : State) (hφ : φ ≠ .rng ∧ φ ≠ .lc) : (execLcUnlock s).keeps φ s := by
  simp [execLcUnlock, hφ]
@[simp] theorem execLcRepair_field (s : State) (hφ : φ ≠ .rng ∧ φ ≠ .lc) : (execLcRepair s).keeps φ s := by
  simp [execLcRepair, hφ]
@[simp] theorem execLcScrap_field (s : State) (hφ : φ ≠ .rng ∧ φ ≠ .lc) : (execLcScrap s).keeps φ s := by
  simp [execLcScrap, hφ]
@[simp] theorem State.orderlyBegin_field (s : State) (hφ : φ ≠ .engine ∧ φ ≠ .reqs ∧ φ ≠ .lanes ∧ φ ≠ .keys ∧ φ ≠ .digest ∧ φ ≠
    .start) : (s.orderlyBegin).field φ = s.field φ := by
  simp [State.orderlyBegin, hφ]
@[simp] theorem State.orderlyOn_field (s : State) (hφ : φ ≠ .engine ∧ φ ≠ .reqs ∧ φ ≠ .lanes ∧ φ ≠ .keys ∧ φ ≠ .digest ∧ φ ≠
    .start) : (s.orderlyOn).field φ = s.field φ := by
  simp [State.orderlyOn, hφ]
@[simp] theorem State.fieldGood_field (s : State) (p : Programming) (x : FusePlace) (rest : List FusePlace) (hφ : φ ≠ .lc) :
    (s.fieldGood p x rest).field φ = s.field φ := by
  simp [State.fieldGood, hφ]
@[simp] theorem execLcFieldVerified_field (ok : Bool) (s : State) (hφ : φ ≠ .engine ∧ φ ≠ .reqs ∧ φ ≠ .lanes ∧ φ ≠ .keys ∧ φ ≠
    .digest ∧ φ ≠ .lc ∧ φ ≠ .start ∧ φ ≠ .events) : (execLcFieldVerified ok s).keeps φ s := by
  unfold execLcFieldVerified
  (repeat' split) <;> simp [hφ]
@[simp] theorem State.debugNonceReq_field (s : State) (hφ : φ ≠ .rng ∧ φ ≠ .lc) : (s.debugNonceReq).field φ = s.field φ := by
  simp [State.debugNonceReq, hφ]
@[simp] theorem execDebugNonceReq_field (s : State) (hφ : φ ≠ .rng ∧ φ ≠ .lc) : (execDebugNonceReq s).keeps φ s := by
  simp [execDebugNonceReq, hφ]
@[simp] theorem State.debugSubmit_field (s : State) (hφ : φ ≠ .lc) : (s.debugSubmit).2.field φ = s.field φ := by
  unfold State.debugSubmit
  split <;> simp [hφ]
@[simp] theorem execDebugSubmit_field (s : State) (hφ : φ ≠ .lc) : (execDebugSubmit s).keeps φ s := by
  simp [execDebugSubmit, hφ]
@[simp] theorem State.setRights_field (s : State) (r : BitVec 32) (hφ : φ ≠ .ident ∧ φ ≠ .rng ∧ φ ≠ .lc) : (s.setRights
    r).field φ = s.field φ := by
  simp [State.setRights, hφ]
@[simp] theorem State.certDone_field (s : State) (hφ : φ ≠ .ident ∧ φ ≠ .digest ∧ φ ≠ .rng ∧ φ ≠ .lc ∧ φ ≠ .events) :
    (s.certDone).field φ = s.field φ := by
  simp [State.certDone, hφ]
@[simp] theorem execCertCheckDone_field (s : State) (hφ : φ ≠ .ident ∧ φ ≠ .digest ∧ φ ≠ .rng ∧ φ ≠ .lc ∧ φ ≠ .events) :
    (execCertCheckDone s).keeps φ s := by
  simp [execCertCheckDone, hφ]
@[simp] theorem execDebugEnd_field (s : State) (hφ : φ ≠ .ident ∧ φ ≠ .rng ∧ φ ≠ .lc) : (execDebugEnd s).keeps φ s := by
  simp [execDebugEnd, hφ]
@[simp] theorem State.debugRevoke_field (s : State) (hφ : φ ≠ .ident ∧ φ ≠ .rng ∧ φ ≠ .lc) : (s.debugRevoke).field φ = s.field
    φ := by
  simp [State.debugRevoke, hφ]
@[simp] theorem execDebugRevoke_field (s : State) (hφ : φ ≠ .ident ∧ φ ≠ .rng ∧ φ ≠ .lc) : (execDebugRevoke s).keeps φ s := by
  simp [execDebugRevoke, hφ]
@[simp] theorem State.deriveDevice_field (s : State) (hφ : φ ≠ .digest ∧ φ ≠ .lc) : (s.deriveDevice).field φ = s.field φ := by
  simp [State.deriveDevice, hφ]
@[simp] theorem State.deriveAlias_field (s : State) (hφ : φ ≠ .digest ∧ φ ≠ .lc) : (s.deriveAlias).field φ = s.field φ := by
  simp [State.deriveAlias, hφ]
@[simp] theorem State.attestRequest_field (s : State) (hφ : φ ≠ .lc) : (s.attestRequest).2.field φ = s.field φ := by
  unfold State.attestRequest
  (repeat' split) <;> simp [hφ]
@[simp] theorem execAttestRequest_field (s : State) (hφ : φ ≠ .lc) : (execAttestRequest s).keeps φ s := by
  simp [execAttestRequest, hφ]
@[simp] theorem execAttestDone_field (s : State) (hφ : φ ≠ .digest ∧ φ ≠ .lc) : (execAttestDone s).keeps φ s := by
  simp [execAttestDone, hφ]

/-! ## Start -/

@[simp] theorem State.orderly_field (s : State) (hφ : φ ≠ .engine ∧ φ ≠ .reqs ∧ φ ≠ .lanes ∧ φ ≠ .keys ∧ φ ≠ .digest ∧ φ ≠
    .start) : (s.orderly).field φ = s.field φ := by
  simp [State.orderly, hφ]
@[simp] theorem execResetRequestOrderly_field (s : State) (hφ : φ ≠ .engine ∧ φ ≠ .reqs ∧ φ ≠ .lanes ∧ φ ≠ .keys ∧ φ ≠ .digest
    ∧ φ ≠ .start) : (execResetRequestOrderly s).keeps φ s := by
  simp [execResetRequestOrderly, hφ]
@[simp] theorem State.proceed_field (s : State) (hφ : φ ≠ .lanes ∧ φ ≠ .digest ∧ φ ≠ .pke ∧ φ ≠ .rng ∧ φ ≠ .start ∧ φ ≠
    .events) : (s.proceed).field φ = s.field φ := by
  simp [State.proceed, hφ]
@[simp] theorem State.stepZero_field (s : State) (counterOk : Bool) (hφ : φ ≠ .ident ∧ φ ≠ .lanes ∧ φ ≠ .digest ∧ φ ≠ .pke ∧ φ
    ≠ .rng ∧ φ ≠ .lc ∧ φ ≠ .start ∧ φ ≠ .events) : (s.stepZero counterOk).field φ = s.field φ := by
  unfold State.stepZero
  simp only []
  (repeat' split) <;> simp only [hφ, ne_eq, not_false_eq_true, and_self, field_set_ident_start, field_set_ident_start,
      State.unpower_field, State.recordFailure_field, State.lcVote_field, State.proceed_field]
@[simp] theorem execLcDecode_field (counterOk : Bool) (s : State) (hφ : φ ≠ .ident ∧ φ ≠ .lanes ∧ φ ≠ .digest ∧ φ ≠ .pke ∧ φ ≠
    .rng ∧ φ ≠ .lc ∧ φ ≠ .start ∧ φ ≠ .events) : (execLcDecode counterOk s).keeps φ s := by
  simp [execLcDecode, hφ]
@[simp] theorem execSelfTestDone_field (step : Nat) (failure : Option (Nat × Nat)) (s : State) (hφ : φ ≠ .lanes ∧ φ ≠ .digest ∧
    φ ≠ .pke ∧ φ ≠ .rng ∧ φ ≠ .start ∧ φ ≠ .events) : (execSelfTestDone step failure s).keeps φ s := by
  unfold execSelfTestDone
  (repeat' split) <;> simp [hφ]
@[simp] theorem State.clearSlices_field (s : State) (hφ : φ ≠ .keys ∧ φ ≠ .slices ∧ φ ≠ .start) : (s.clearSlices).field φ =
    s.field φ := by
  simp [State.clearSlices, hφ]
@[simp] theorem State.eraseVault_field (s : State) (hφ : φ ≠ .keys ∧ φ ≠ .slices ∧ φ ≠ .start) : (s.eraseVault).field φ =
    s.field φ := by
  simp [State.eraseVault, hφ]
@[simp] theorem State.rootChange_field (s : State) (hφ : φ ≠ .keys ∧ φ ≠ .slices ∧ φ ≠ .lc ∧ φ ≠ .start) : (s.rootChange).field
    φ = s.field φ := by
  simp [State.rootChange, hφ]
theorem State.managerSeed_field (s : State) (hφ : φ ≠ .rng ∧ φ ≠ .start) {t : State} (ht : s.managerSeed = .ok t) : t.field φ =
    s.field φ := by
  unfold State.managerSeed at ht
  (repeat' split at ht) <;> cases ht <;> simp only [hφ, ne_eq, not_false_eq_true, field_set_start, State.internalDraw_field]
@[simp] theorem State.stepFour_field (s : State) (hφ : φ ≠ .lanes ∧ φ ≠ .keys ∧ φ ≠ .digest ∧ φ ≠ .pke ∧ φ ≠ .rng ∧ φ ≠ .slices
    ∧ φ ≠ .access ∧ φ ≠ .port ∧ φ ≠ .lc ∧ φ ≠ .start ∧ φ ≠ .events) : (s.stepFour).field φ = s.field φ := by
  unfold State.stepFour
  simp only []
  split
  · simp only [hφ, ne_eq, not_false_eq_true, and_self, State.startFail_field, State.rootChange_field]
  · split
    · simp only [hφ, ne_eq, not_false_eq_true, and_self, field_set_start, State.startFail_field, State.rootChange_field]
    · simp only [hφ, ne_eq, not_false_eq_true, and_self, field_set_start, State.internalRan_field, State.stepDone_field,
        State.beginImage_field, State.deriveDevice_field, State.rootChange_field, State.managerSeed_field (ht :=
        ‹State.managerSeed _ = _›)]
@[simp] theorem execVaultCheckDone_field (repairs : Nat) (damaged : Option Nat) (s : State) (hφ : φ ≠ .lanes ∧ φ ≠ .keys ∧ φ ≠
    .digest ∧ φ ≠ .pke ∧ φ ≠ .rng ∧ φ ≠ .slices ∧ φ ≠ .access ∧ φ ≠ .port ∧ φ ≠ .lc ∧ φ ≠ .start ∧ φ ≠ .events) :
    (execVaultCheckDone repairs damaged s).keeps φ s := by
  unfold execVaultCheckDone
  split <;> simp [hφ]
@[simp] theorem State.takeImage_field (s : State) (image : Bytes) (signed : Bool) (hφ : φ ≠ .ident ∧ φ ≠ .pke) : (s.takeImage
    image signed).field φ = s.field φ := by
  simp [State.takeImage, hφ]
@[simp] theorem State.startComplete_field (s : State) (hφ : φ ≠ .pke ∧ φ ≠ .fifos ∧ φ ≠ .slices ∧ φ ≠ .access ∧ φ ≠ .port ∧ φ ≠
    .start ∧ φ ≠ .events) : (s.startComplete).field φ = s.field φ := by
  simp [State.startComplete, hφ]
@[simp] theorem State.imageHashed_field (s : State) (image : Bytes) (hφ : φ ≠ .digest) : (s.imageHashed image).field φ =
    s.field φ := by
  simp [State.imageHashed, hφ]
@[simp] theorem State.stepFive_field (s : State) (image : Bytes) (hφ : φ ≠ .ident ∧ φ ≠ .lanes ∧ φ ≠ .digest ∧ φ ≠ .pke ∧ φ ≠
    .rng ∧ φ ≠ .fifos ∧ φ ≠ .slices ∧ φ ≠ .access ∧ φ ≠ .port ∧ φ ≠ .lc ∧ φ ≠ .start ∧ φ ≠ .events) : (s.stepFive image).field
    φ = s.field φ := by
  unfold State.stepFive
  (repeat' split) <;> simp [hφ]
@[simp] theorem State.recoveryImage_field (s : State) (image : Bytes) (hφ : φ ≠ .ident ∧ φ ≠ .pke) : (s.recoveryImage
    image).field φ = s.field φ := by
  simp [State.recoveryImage, hφ]
@[simp] theorem State.forgetImage_field (s : State) (hφ : φ ≠ .port) : (s.forgetImage).field φ = s.field φ := by
  simp [State.forgetImage, hφ]
@[simp] theorem execCallerImageCheckDone_field (s : State) (hφ : φ ≠ .ident ∧ φ ≠ .lanes ∧ φ ≠ .digest ∧ φ ≠ .pke ∧ φ ≠ .rng ∧
    φ ≠ .fifos ∧ φ ≠ .slices ∧ φ ≠ .access ∧ φ ≠ .port ∧ φ ≠ .lc ∧ φ ≠ .start ∧ φ ≠ .events) : (execCallerImageCheckDone
    s).keeps φ s := by
  simp [execCallerImageCheckDone, hφ]
@[simp] theorem State.rerunTests_field (s : State) (mask : Nat) (hφ : φ ≠ .rng ∧ φ ≠ .start) : (s.rerunTests mask).2.field φ =
    s.field φ := by
  unfold State.rerunTests
  split <;> simp [hφ]
@[simp] theorem execPavaneTests_field (mask : BitVec 8) (s : State) (hφ : φ ≠ .rng ∧ φ ≠ .start) : (execPavaneTests mask
    s).keeps φ s := by
  simp [execPavaneTests, hφ]
@[simp] theorem State.tamperInput_field (s : State) (t lines : Nat) (hφ : φ ≠ .ident ∧ φ ≠ .engine ∧ φ ≠ .reqs ∧ φ ≠ .lanes ∧ φ
    ≠ .keys ∧ φ ≠ .digest ∧ φ ≠ .pke ∧ φ ≠ .rng ∧ φ ≠ .fifos ∧ φ ≠ .lc ∧ φ ≠ .start ∧ φ ≠ .pins ∧ φ ≠ .link ∧ φ ≠ .events) :
    (s.tamperInput t lines).field φ = s.field φ := by
  simp [State.tamperInput, hφ]
@[simp] theorem execTamperAlarm_field (input lines : Nat) (s : State) (hφ : φ ≠ .ident ∧ φ ≠ .engine ∧ φ ≠ .reqs ∧ φ ≠ .lanes ∧
    φ ≠ .keys ∧ φ ≠ .digest ∧ φ ≠ .pke ∧ φ ≠ .rng ∧ φ ≠ .fifos ∧ φ ≠ .lc ∧ φ ≠ .start ∧ φ ≠ .pins ∧ φ ≠ .link ∧ φ ≠ .events) :
    (execTamperAlarm input lines s).keeps φ s := by
  simp [execTamperAlarm, hφ]
@[simp] theorem execTamperHold_field (s : State) (hφ : φ ≠ .keys ∧ φ ≠ .slices ∧ φ ≠ .start) : (execTamperHold s).keeps φ s :=
    by
  simp [execTamperHold, hφ]
@[simp] theorem execTamperWaitEnd_field (s : State) (hφ : φ ≠ .lanes ∧ φ ≠ .digest ∧ φ ≠ .pke ∧ φ ≠ .rng ∧ φ ≠ .start ∧ φ ≠
    .pins ∧ φ ≠ .events) : (execTamperWaitEnd s).keeps φ s := by
  simp [execTamperWaitEnd, hφ]
@[simp] theorem execMeshPatternChange_field (openLines crossLines : BitVec 20) (s : State) (hφ : φ ≠ .ident ∧ φ ≠ .engine ∧ φ ≠
    .reqs ∧ φ ≠ .lanes ∧ φ ≠ .keys ∧ φ ≠ .digest ∧ φ ≠ .pke ∧ φ ≠ .rng ∧ φ ≠ .fifos ∧ φ ≠ .lc ∧ φ ≠ .start ∧ φ ≠ .pins ∧ φ ≠
    .link ∧ φ ≠ .events) : (execMeshPatternChange openLines crossLines s).keeps φ s := by
  simp [execMeshPatternChange, hφ]
@[simp] theorem execMeshReseed_field (s : State) (hφ : φ ≠ .rng ∧ φ ≠ .pins) : (execMeshReseed s).keeps φ s := by
  simp [execMeshReseed, hφ]
@[simp] theorem execVoltageDetectorsArmed_field (s : State) (hφ : φ ≠ .pins) : (execVoltageDetectorsArmed s).keeps φ s := by
  simp [execVoltageDetectorsArmed, hφ]
@[simp] theorem execClockStopped_field (clock : Nat) (s : State) (hφ : φ ≠ .pins) : (execClockStopped clock s).keeps φ s := by
  simp [execClockStopped, hφ]
@[simp] theorem execClockReturned_field (clock : Nat) (s : State) (hφ : φ ≠ .pke ∧ φ ≠ .slices ∧ φ ≠ .access ∧ φ ≠ .port ∧ φ ≠
    .start ∧ φ ≠ .pins ∧ φ ≠ .events) : (execClockReturned clock s).keeps φ s := by
  simp [execClockReturned, hφ]

/-! ## Dictionary -/

@[simp] theorem State.onDict_field (s : State) (f : Dict → Dict) (hφ : φ ≠ .dict) : (s.onDict f).field φ = s.field φ := by
  simp [State.onDict, hφ]
@[simp] theorem State.dictIndex_field (s : State) (v : U64) (hφ : φ ≠ .link ∧ φ ≠ .dict) : (s.dictIndex v).field φ = s.field φ
    := by
  simp [State.dictIndex, hφ]
@[simp] theorem execDictRead_field (b : Bus) (v : U64) (s : State) (hφ : φ ≠ .slices ∧ φ ≠ .pins ∧ φ ≠ .link ∧ φ ≠ .dict ∧ φ ≠
    .events) : (execDictRead b v s).keeps φ s := by
  simp [execDictRead, hφ]
@[simp] theorem execDictWrite_field (b : Bus) (v : U64) (s : State) (hφ : φ ≠ .slices ∧ φ ≠ .pins ∧ φ ≠ .link ∧ φ ≠ .dict ∧ φ ≠
    .events) : (execDictWrite b v s).keeps φ s := by
  simp [execDictWrite, hφ]
@[simp] theorem execDictDescribe_field (b : Bus) (v : U64) (s : State) (hφ : φ ≠ .slices ∧ φ ≠ .pins ∧ φ ≠ .link ∧ φ ≠ .dict ∧
    φ ≠ .events) : (execDictDescribe b v s).keeps φ s := by
  simp [execDictDescribe, hφ]
@[simp] theorem execDictRemoteTimeExpiry_field (s : State) (hφ : φ ≠ .dict) : (execDictRemoteTimeExpiry s).keeps φ s := by
  unfold execDictRemoteTimeExpiry
  split <;> simp [hφ]
@[simp] theorem execDictResp_field (m : Msg) (s : State) (hφ : φ ≠ .link ∧ φ ≠ .dict) : (execDictResp m s).keeps φ s := by
  unfold execDictResp
  repeat' split
  · simp [hφ]
  · simp [hφ, State.deliverMsg_field (ht := ‹State.deliverMsg _ _ _ = _›)]
  · simp [hφ, State.deliverMsg_field (ht := ‹State.deliverMsg _ _ _ = _›)]
  · simp [hφ, State.deliverMsg_field (ht := ‹State.deliverMsg _ _ _ = _›)]

end

end Sys2Proof.Machine
end

section
/-!
SUPPORT. The frames of the commands, family by family, from the frames of their meanings.
-/
namespace Sys2Proof.Machine

/-- A command whose meaning keeps every field but `ps` has `ps` as its frame. -/
theorem keepsAllBut_of_keeps {ps : List Field} {c : Instr} (h : ∀ s φ, φ ∉ ps → Out.keeps φ s (exec c s)) : keepsAllBut ps c :=
  fun s t ht φ hφ => (φ.same_iff s t).mpr (h s φ hφ t ht)

/-- Settles O56: each command's frame is the frame of its meaning. -/
theorem frameOfRingAndDeliveryCommands : Obligations.FrameOfRingAndDeliveryCommands := by
  unfold Obligations.FrameOfRingAndDeliveryCommands
  and_intros <;> intros <;> refine keepsAllBut_of_keeps fun s φ hφ => ?_ <;>
    simp only [List.mem_cons, List.not_mem_nil, or_false, not_or] at hφ <;> simp [exec, hφ]

/-- Settles O57: each command's frame is the frame of its meaning. -/
theorem frameOfCipherKeyAndDirectoryCommands : Obligations.FrameOfCipherKeyAndDirectoryCommands := by
  unfold Obligations.FrameOfCipherKeyAndDirectoryCommands
  and_intros <;> intros <;> refine keepsAllBut_of_keeps fun s φ hφ => ?_ <;>
    simp only [List.mem_cons, List.not_mem_nil, or_false, not_or] at hφ <;> simp [exec, hφ]

/-- Settles O58: each command's frame is the frame of its meaning. -/
theorem frameOfDigestPkeFifoAndRngCommands : Obligations.FrameOfDigestPkeFifoAndRngCommands := by
  unfold Obligations.FrameOfDigestPkeFifoAndRngCommands
  and_intros <;> intros <;> refine keepsAllBut_of_keeps fun s φ hφ => ?_ <;>
    simp only [List.mem_cons, List.not_mem_nil, or_false, not_or] at hφ <;> simp [exec, hφ]

/-- Settles O59: each command's frame is the frame of its meaning. -/
theorem frameOfSliceAccessAndStartCommands : Obligations.FrameOfSliceAccessAndStartCommands := by
  unfold Obligations.FrameOfSliceAccessAndStartCommands
  and_intros <;> intros <;> refine keepsAllBut_of_keeps fun s φ hφ => ?_ <;>
    simp only [List.mem_cons, List.not_mem_nil, or_false, not_or] at hφ <;> simp [exec, hφ]

/-- Settles O60: each command's frame is the frame of its meaning. -/
theorem frameOfLinkDictionaryAndEventCommands : Obligations.FrameOfLinkDictionaryAndEventCommands := by
  unfold Obligations.FrameOfLinkDictionaryAndEventCommands
  and_intros <;> intros <;> refine keepsAllBut_of_keeps fun s φ hφ => ?_ <;>
    simp only [List.mem_cons, List.not_mem_nil, or_false, not_or] at hφ <;> simp [exec, hφ]

end Sys2Proof.Machine
end

section
/-!
SUPPORT. No well-formed command stops: its meaning gives a next state, by a command of a unit that the T9 has.
-/
namespace Sys2Proof.Machine

/-- Does a meaning give a next state? -/
def Out.runs (o : Out) : Prop := ∃ t, o = .next t

@[simp] theorem Out.runs_next (t : State) : Out.runs (.next t) := ⟨t, rfl⟩

@[simp] theorem Out.runs_unit (i n : Nat) (t : State) : (unit i n t).runs ↔ i < n := by
  by_cases h : i < n <;> simp [Out.runs, unit, h]

theorem pos_ite (p : Prop) [Decidable p] : (0 < if p then 1 else 0) ↔ p := by split <;> simp [*]

@[simp] theorem hasReader_pos (kind o : Nat) : 0 < hasReader kind o ↔ isReader kind o = true := by
  unfold hasReader isReader
  split <;> simp_all [pos_ite]
  exact Iff.rfl

@[simp] theorem hasWriter_pos (kind o : Nat) : 0 < hasWriter kind o ↔ isWriter kind o = true := by
  simp [hasWriter, isWriter, Nat.pos_iff_ne_zero]

/-! ## Registers by address: a register that has a command of its own goes to that command's meaning -/

/-- The two commands that name a register by its address. -/
def byAddress : Instr → Bool
  | .registerWrite .. => true
  | .registerRead .. => true
  | _ => false

/-- A choice of outcomes has what both have. -/
theorem Out.ite_elim {P : Out → Prop} {p : Prop} [Decidable p] {a b : Out} (ha : p → P a) (hb : ¬ p → P b) :
    P (if p then a else b) := by
  split
  · exact ha ‹_›
  · exact hb ‹_›

/-- The commands of the registers that a write by address may reach, for the access `b`. -/
inductive WritesFor (b : Bus) : Instr → Prop
  | kwCommitLoad (o : Nat) : WritesFor b (.kwCommitLoad b o)
  | kwCommitClear (o : Nat) : WritesFor b (.kwCommitClear b o)
  | dgConfig (o : Nat) (v : U64) : WritesFor b (.dgConfig b o v)
  | digestData (o : Nat) (v : U64) : WritesFor b (.digestData b o v)
  | digestLast (o : Nat) (v : U64) : WritesFor b (.digestLast b o 0x18 v)
  | dgCmdSave (o : Nat) : WritesFor b (.dgCmdSave b o)
  | dgCmdRestore (o : Nat) : WritesFor b (.dgCmdRestore b o)
  | dgCmdAbandon (o : Nat) : WritesFor b (.dgCmdAbandon b o)
  | fifoSetMark (kind o : Nat) : WritesFor b (.fifoSetMark b kind o)
  | fifoRewind (kind o : Nat) : WritesFor b (.fifoRewind b kind o)
  | fifoClearMark (kind o : Nat) : WritesFor b (.fifoClearMark b kind o)
  | send (kind o : Nat) (v : U64) : WritesFor b (.send b kind o v)
  | sendCmdOpen (kind o : Nat) : WritesFor b (.sendCmdOpen b kind o)
  | sendCmdAbandon (kind o : Nat) : WritesFor b (.sendCmdAbandon b kind o)
  | sendClose (kind o : Nat) (v : U64) : WritesFor b (.sendClose b kind o v)
  | statusClear (word : Nat) (v : U64) : WritesFor b (.statusClear b word v)
  | remotePending (v : U64) : WritesFor b (.remotePending b v)
  | doorbellWindowWrite (addr : Nat) (v : U64) : WritesFor b (.doorbellWindowWrite b addr v)

/-- The commands of the registers that a read by address may reach, for the access `b`. -/
inductive ReadsFor (b : Bus) : Instr → Prop
  | pkFifoData (o : Nat) : ReadsFor b (.pkFifoData b o)
  | rngWord (o : Nat) : ReadsFor b (.rngWord b o)
  | fifoData (kind o : Nat) : ReadsFor b (.fifoData b kind o)

theorem WritesFor.not_byAddress {b : Bus} {c : Instr} (h : WritesFor b c) : byAddress c = false := by
  cases h <;> rfl

theorem ReadsFor.not_byAddress {b : Bus} {c : Instr} (h : ReadsFor b c) : byAddress c = false := by
  cases h <;> rfl

section
variable {P : Out → Prop} {s : State} {b : Bus}

section
variable (hcmd : ∀ c : Instr, WritesFor b c → c.wf = true → P (exec c s))
include hcmd

/-- What the commands of a FIFO reader have, and a write without effect, a write of its command register has. -/
theorem readerCmd_elim {kind o pg : Nat} (n : Nat) (h : isReader kind o = true)
    (hid : P (.next (s.pageWrite b pg id))) :
    P (match n with
      | 1 => execFifoSetMark b kind o s
      | 2 => execFifoRewind b kind o s
      | 3 => execFifoClearMark b kind o s
      | _ => .next (s.pageWrite b pg id)) := by
  split
  · exact hcmd _ (.fifoSetMark kind o) (decide_eq_true h)
  · exact hcmd _ (.fifoRewind kind o) (decide_eq_true h)
  · exact hcmd _ (.fifoClearMark kind o) (decide_eq_true h)
  · exact hid

theorem writerCmd_elim {kind o pg : Nat} (n : Nat) (h : isWriter kind o = true)
    (hid : P (.next (s.pageWrite b pg id))) :
    P (match n with
      | 1 => execSendCmdOpen b kind o s
      | 2 => execSendCmdAbandon b kind o s
      | _ => .next (s.pageWrite b pg id)) := by
  split
  · exact hcmd _ (.sendCmdOpen kind o) (decide_eq_true h)
  · exact hcmd _ (.sendCmdAbandon kind o) (decide_eq_true h)
  · exact hid

theorem digestCmd_elim {o : Nat} (n : Nat) (h : o ≤ 512) (hid : P (.next (s.pageWrite b o id))) :
    P (match n with
      | 1 => execDgCmdSave b o s
      | 2 => execDgCmdRestore b o s
      | 3 => execDgCmdAbandon b o s
      | _ => .next (s.pageWrite b o id)) := by
  split
  · exact hcmd _ (.dgCmdSave o) (decide_eq_true h)
  · exact hcmd _ (.dgCmdRestore o) (decide_eq_true h)
  · exact hcmd _ (.dgCmdAbandon o) (decide_eq_true h)
  · exact hid

theorem writeOnPage_elim {o : Nat} (off : Nat) (v : U64) (h : o ≤ 512)
    (hkw : P (.next (s.kwAccess b o).2))
    (hkwSet : P (.next (match s.kwAccess b o with
      | (false, s1) => s1
      | (true, s1) => if (s1.kw o).busy then s1 else s1.onKw o (fun w => w.write (off - 0x1000) v))))
    (hset : P (.next (s.pageWrite b o (fun t => t.pageSet o off v)))) (hid : P (.next (s.pageWrite b o id))) :
    P (writeOnPage b o off v s) := by
  have hreader : isReader 0 o = true := by simp [isReader, h]
  have hw : decide (o ≤ 512) = true := decide_eq_true h
  have hslice : ¬ o = mgr → o < 512 := fun hne => Nat.lt_of_le_of_ne h hne
  unfold writeOnPage
  refine Out.ite_elim (fun _ => ?_) fun _ => ?_
  · refine Out.ite_elim (fun _ => ?_) fun _ => hkwSet
    refine Out.ite_elim (fun _ => hcmd _ (.kwCommitLoad o) hw) fun _ => ?_
    exact Out.ite_elim (fun _ => hcmd _ (.kwCommitClear o) hw) fun _ => hkw
  refine Out.ite_elim (fun _ => hcmd _ (.dgConfig o v) hw) fun _ => ?_
  refine Out.ite_elim (fun _ => hcmd _ (.digestData o v) hw) fun _ => ?_
  refine Out.ite_elim (fun _ => hcmd _ (.digestLast o v) (by simp [Instr.wf, h])) fun _ => ?_
  refine Out.ite_elim (fun _ => digestCmd_elim hcmd _ h hid) fun _ => ?_
  refine Out.ite_elim (fun _ => readerCmd_elim hcmd _ hreader hid) fun _ => ?_
  refine Out.ite_elim (fun _ => hset) fun hne => ?_
  have hmail : isWriter 2 o = true := by simp [isWriter, hslice hne]
  have hread : isReader 3 o = true := by simp [isReader, hslice hne]
  refine Out.ite_elim (fun _ => hcmd _ (.send 2 o v) (decide_eq_true hmail)) fun _ => ?_
  refine Out.ite_elim (fun _ => writerCmd_elim hcmd _ hmail hid) fun _ => ?_
  refine Out.ite_elim (fun _ => hcmd _ (.sendClose 2 o v) (decide_eq_true hmail)) fun _ => ?_
  exact Out.ite_elim (fun _ => readerCmd_elim hcmd _ hread hid) fun _ => hset

theorem writeReader_elim {kind o : Nat} (off : Nat) (v : U64) (h : isReader kind o = true)
    (hlevel : P (.next (s.pageWrite b mgr (fun t => t.writeLevel kind o (fld v.toNat 0 13)))))
    (hid : P (.next (s.pageWrite b mgr id))) : P (writeReader b kind o off v s) := by
  unfold writeReader
  refine Out.ite_elim (fun _ => readerCmd_elim hcmd _ h hid) fun _ => ?_
  exact Out.ite_elim (fun _ => hlevel) fun _ => hid

theorem writeWriter_elim {kind o : Nat} (off : Nat) (v : U64) (h : isWriter kind o = true)
    (hid : P (.next (s.pageWrite b mgr id))) : P (writeWriter b kind o off v s) := by
  unfold writeWriter
  refine Out.ite_elim (fun _ => hcmd _ (.send kind o v) (decide_eq_true h)) fun _ => ?_
  refine Out.ite_elim (fun _ => writerCmd_elim hcmd _ h hid) fun _ => ?_
  exact Out.ite_elim (fun _ => hcmd _ (.sendClose kind o v) (decide_eq_true h)) fun _ => hid

/-- What every command of the registers has, and every plain access of a page, a write by address has. -/
theorem execRegisterWrite_elim {addr : Nat} (v : U64) (haddr : htSpan ≤ addr → P (.fault .noSuchUnit))
    (hkw : ∀ o, P (.next (s.kwAccess b o).2))
    (hkwSet : ∀ o off, P (.next (match s.kwAccess b o with
      | (false, s1) => s1
      | (true, s1) => if (s1.kw o).busy then s1 else s1.onKw o (fun w => w.write (off - 0x1000) v))))
    (hset : ∀ o off, P (.next (s.pageWrite b o (fun t => t.pageSet o off v))))
    (hdict : ∀ off, P (.next (s.pageWrite b mgr (fun t => t.dictSet off v))))
    (hlevel : ∀ kind o, P (.next (s.pageWrite b mgr (fun t => t.writeLevel kind o (fld v.toNat 0 13)))))
    (hid : ∀ o, P (.next (s.pageWrite b o id))) : P (execRegisterWrite b addr v s) := by
  have hpage : ∀ {o} off, o ≤ 512 → P (writeOnPage b o off v s) := fun off h =>
    writeOnPage_elim hcmd off v h (hkw _) (hkwSet _ off) (hset _ off) (hid _)
  unfold execRegisterWrite
  refine Out.ite_elim haddr fun hlt => ?_
  have hspan : addr / 8 * 8 < 2 ^ 26 := by unfold htSpan at hlt; omega
  refine Out.ite_elim (fun _ => hdict _) fun _ => ?_
  refine Out.ite_elim (fun _ => hpage _ (Nat.le_refl _)) fun _ => ?_
  refine Out.ite_elim (fun h => ?_) fun _ => ?_
  · have hn : (addr / 8 * 8 - 0x200000) / 0x100 < 512 := by omega
    refine Out.ite_elim (fun _ => writeReader_elim hcmd _ v ?_ (hlevel _ _) (hid _)) fun _ =>
      writeWriter_elim hcmd _ v ?_ (hid _)
    · simpa [isReader] using hn
    · simpa [isWriter] using hn
  refine Out.ite_elim (fun _ => writeReader_elim hcmd _ v rfl (hlevel _ _) (hid _)) fun _ => ?_
  refine Out.ite_elim (fun h => hcmd _ (.statusClear _ v) (decide_eq_true (by omega))) fun _ => ?_
  refine Out.ite_elim (fun _ => hcmd _ (.remotePending v) rfl) fun _ => ?_
  refine Out.ite_elim (fun h => hpage _ (by omega)) fun _ => ?_
  refine Out.ite_elim (fun h => hcmd _ (.doorbellWindowWrite _ v) (by simp [Instr.wf]; omega)) fun _ => hid _

end

section
variable (hcmd : ∀ c : Instr, ReadsFor b c → c.wf = true → P (exec c s))
include hcmd

theorem readOnPage_elim {o : Nat} (off : Nat) (h : o ≤ 512)
    (hkw : P (.next (match s.kwAccess b o with
      | (false, s1) => { s1 with pins := { s1.pins with htData := 0 } }
      | (true, s1) => { s1 with pins := { s1.pins with htData := BitVec.ofNat 64 ((s1.kw o).word (off - 0x1000)) } })))
    (hread : P (.next (s.pageRead b o (fun t => (pageWord t o off, t.pageAfterRead o off))))) : P (readOnPage b o off s) := by
  have hw : decide (o ≤ 512) = true := decide_eq_true h
  unfold readOnPage
  refine Out.ite_elim (fun _ => hkw) fun _ => ?_
  refine Out.ite_elim (fun _ => hcmd _ (.pkFifoData o) hw) fun _ => ?_
  refine Out.ite_elim (fun _ => hcmd _ (.rngWord o) hw) fun _ => ?_
  refine Out.ite_elim (fun hm => hcmd _ (.fifoData 3 o) ?_) fun _ => hread
  simp [Instr.wf, isReader, Nat.lt_of_le_of_ne h hm.2]

/-- What every command of the registers has, and every plain read of a page, a read by address has. -/
theorem execRegisterRead_elim {addr : Nat} (haddr : htSpan ≤ addr → P (.fault .noSuchUnit))
    (hkw : ∀ o off, P (.next (match s.kwAccess b o with
      | (false, s1) => { s1 with pins := { s1.pins with htData := 0 } }
      | (true, s1) => { s1 with pins := { s1.pins with htData := BitVec.ofNat 64 ((s1.kw o).word (off - 0x1000)) } })))
    (hread : ∀ o off, P (.next (s.pageRead b o (fun t => (pageWord t o off, t.pageAfterRead o off)))))
    (hword : ∀ f : State → Nat, P (.next (s.pageRead b mgr (fun t => (f t, t)))))
    (hzero : P (.next ({ (s.htAccess b).2 with pins := { (s.htAccess b).2.pins with htData := 0 } }))) :
    P (execRegisterRead b addr s) := by
  have hpage : ∀ {o} off, o ≤ 512 → P (readOnPage b o off s) := fun off h =>
    readOnPage_elim hcmd off h (hkw _ off) (hread _ off)
  unfold execRegisterRead
  refine Out.ite_elim haddr fun hlt => ?_
  have hspan : addr / 8 * 8 < 2 ^ 26 := by unfold htSpan at hlt; omega
  refine Out.ite_elim (fun _ => hword _) fun _ => ?_
  refine Out.ite_elim (fun _ => hpage _ (Nat.le_refl _)) fun _ => ?_
  refine Out.ite_elim (fun h => ?_) fun _ => ?_
  · have hn : (addr / 8 * 8 - 0x200000) / 0x100 < 512 := by omega
    refine Out.ite_elim (fun _ => hcmd _ (.fifoData 2 _) ?_) fun _ => ?_
    · simpa [Instr.wf, isReader] using hn
    exact Out.ite_elim (fun _ => hword _) fun _ => hword _
  refine Out.ite_elim (fun _ => hcmd _ (.fifoData 4 mgr) rfl) fun _ => ?_
  refine Out.ite_elim (fun _ => hword _) fun _ => ?_
  refine Out.ite_elim (fun _ => hword _) fun _ => ?_
  refine Out.ite_elim (fun _ => hword _) fun _ => ?_
  refine Out.ite_elim (fun _ => hword _) fun _ => ?_
  refine Out.ite_elim (fun h => hpage _ (by omega)) fun _ => ?_
  exact Out.ite_elim (fun _ => hzero) fun _ => hword _

end

end

/-! ## Every command -/

theorem isReader_zero (o : Nat) : isReader 0 o = decide (o ≤ 512) := by simp [isReader]

theorem execRegisterWrite_runs (b : Bus) {addr : Nat} (v : U64) (s : State) (h : addr < 2 ^ 26)
    (hcmd : ∀ c : Instr, c.wf = true → byAddress c = false → Out.runs (exec c s)) : (execRegisterWrite b addr v s).runs :=
  execRegisterWrite_elim (P := Out.runs) (fun c hc hwf => hcmd c hwf hc.not_byAddress) v (fun hle => absurd h (Nat.not_lt.mpr hle)) (fun _ => ⟨_, rfl⟩)
    (fun _ _ => ⟨_, rfl⟩) (fun _ _ => ⟨_, rfl⟩) (fun _ => ⟨_, rfl⟩) (fun _ _ => ⟨_, rfl⟩) fun _ => ⟨_, rfl⟩

theorem execRegisterRead_runs (b : Bus) {addr : Nat} (s : State) (h : addr < 2 ^ 26)
    (hcmd : ∀ c : Instr, c.wf = true → byAddress c = false → Out.runs (exec c s)) : (execRegisterRead b addr s).runs :=
  execRegisterRead_elim (P := Out.runs) (fun c hc hwf => hcmd c hwf hc.not_byAddress) (fun hle => absurd h (Nat.not_lt.mpr hle)) (fun _ _ => ⟨_, rfl⟩)
    (fun _ _ => ⟨_, rfl⟩) (fun _ => ⟨_, rfl⟩) ⟨_, rfl⟩

theorem execTangoMismatch_runs (rid : Nat) {at_ : MismatchAt} (passed : Nat) (s : State) (h : mismatchOk at_ = true) :
    (execTangoMismatch rid at_ passed s).runs := by
  cases at_ <;> simp_all [execTangoMismatch, mismatchOk]

theorem execGenerateCall_runs {c : Draw} (s : State) (h : drawOk c = true) : (execGenerateCall c s).runs := by
  cases c <;> simp_all [execGenerateCall, drawOk]

theorem execPromLogWrite_runs {slice chan : Nat} (s : State) (hs : slice < 512) (hc : chan < 4) :
    (execPromLogWrite slice chan s).runs := by
  rw [execPromLogWrite, if_neg (Nat.not_le.mpr hs)]
  exact (Out.runs_unit ..).mpr hc

/-- A command that names no address runs when it is well formed: a unit that it names is one of the T9's. -/
theorem exec_runs_of_not_byAddress {c : Instr} (s : State) (hwf : c.wf = true) (hc : byAddress c = false) : Out.runs (exec c s) := by
  cases c with
  | tangoMismatch rid at_ passed => exact execTangoMismatch_runs rid passed s (Bool.and_eq_true_iff.mp hwf).1
  | generateCall consumer => exact execGenerateCall_runs s (of_decide_eq_true hwf)
  | promLogWrite slice chan => exact execPromLogWrite_runs s (of_decide_eq_true hwf).1 (of_decide_eq_true hwf).2
  | registerWrite b addr v => cases hc
  | registerRead b addr => cases hc
  | _ =>
    first
    | exact ⟨_, rfl⟩
    | simp only [Instr.wf, decide_eq_true_eq] at hwf
      simp [exec, hwf, isReader_zero, execRqTail, execCqHead, execRingEnable, execRingDisable, execLaneTurn, execWriteResponse, execReadDataBeat,
      execSpResponseTimeout, execLoadInForce, execEraseComplete, execEraseLimitExpiry, execSweepVisit,
      execExceptionEntryWrite, execLaneRetestDone, execDigestBlockDone, execUnitRetestDone, execYieldPoint,
      execPkeJobEnd, execEngineMismatch, execPkeContextZeroed, execEngineRetestDone, execPkFifoData, execFifoSetMark,
      execFifoRewind, execFifoClearMark, execFifoData, execSend, execSendCmdOpen, execSendCmdAbandon, execSendClose,
      execNoiseSample, execPortRefill, execRngWord, execCreate, execQuiesce, execQuiesceDone, execQuiesceLimitExpiry,
      execResume, execReset, execRemove, execSliceResetComplete, execPromEnable, execPromSwap, execPromSwapDone,
      execScrubLineRead, execTamperAlarm, execPortEnable, execLanesClassified, execTrainingTrial, execTrainingEnd,
      execAlignDone, execPortUp, execPortDown, execRelock, execPhyReady, execFrameReceive, execControlFrame,
      execReplayTimeExpiry, execControlFramePeriod, execIdent, execIdentPeriod, execMap, execTime, execEcho,
      execEchoRenewal, execE2eTimeExpiry, execAckE2ePeriod, execDestLost, execMessageForward, execStatusClear,
      execForcedOccurrence, execClockStopped, execCreateComplete, execRingDrained, execDescriptorArrival,
      execDescSingleReread, execTailWriteIssue, execTailWriteAck, execCoalTimeExpiry, execMemberLost,
      execClockReturned]
      try omega

/-- Settles O52: a write or a read by address goes to a command of its own or to a plain access of a page, and every other
command runs when the units that it names are the T9's. -/
theorem wellFormedCommandsNeverStop : Obligations.WellFormedCommandsNeverStop := by
  unfold Obligations.WellFormedCommandsNeverStop
  intro c s hwf
  by_cases hc : byAddress c = false
  · exact exec_runs_of_not_byAddress s hwf hc
  · cases c with
    | registerWrite b addr v =>
      exact execRegisterWrite_runs b v s (of_decide_eq_true hwf) fun _ => exec_runs_of_not_byAddress s
    | registerRead b addr => exact execRegisterRead_runs b s (of_decide_eq_true hwf) fun _ => exec_runs_of_not_byAddress s
    | _ => exact absurd rfl hc

/-- Settles O51: by the two cases of the queue. -/
theorem stepRunsFrontCommand : Obligations.StepRunsFrontCommand := by
  unfold Obligations.StepRunsFrontCommand
  exact ⟨fun c rest s h => by simp only [step, h], fun s h => by simp only [step, h]⟩

/-- Settles O55: no operation is in progress, and the counters and DICT_INDEX are zero. -/
theorem resetWindowIsConsistent : Obligations.ResetWindowIsConsistent := by
  unfold Obligations.ResetWindowIsConsistent windowInv
  simp [State.reset]

end Sys2Proof.Machine
end

section
/-!
SUPPORT. What every step keeps: the queue's rest, and the consistency of the dictionary window (R613, R614). A meaning is
`steady` when it does both; most are because they touch neither the queue nor the dictionary.
-/
namespace Sys2Proof.Machine

/-- The later state has the same queue, and a consistent window where the earlier one has. -/
def steady (s t : State) : Prop := t.pending = s.pending ∧ (windowInv s → windowInv t)

theorem steady.refl (s : State) : steady s s := ⟨rfl, id⟩

theorem steady.trans {s t u : State} (h : steady s t) (k : steady t u) : steady s u := ⟨k.1.trans h.1, k.2 ∘ h.2⟩

/-- A change of neither the queue nor the dictionary is steady. -/
theorem steady_of_field {s t : State} (h : ∀ φ, φ = .pending ∨ φ = .dict → t.field φ = s.field φ) : steady s t := by
  have hdict : t.dict = s.dict := h .dict (.inr rfl)
  exact ⟨h .pending (.inl rfl), by simp only [windowInv, hdict]; exact id⟩

theorem steady_of_fields {s t : State} (hp : t.field .pending = s.field .pending) (hd : t.field .dict = s.field .dict) :
    steady s t :=
  steady_of_field fun φ hφ => by rcases hφ with rfl | rfl <;> assumption

/-- A steady change followed by one of neither the queue nor the dictionary. -/
theorem steady.then_field {s t u : State} (h : steady s t) (hp : u.field .pending = t.field .pending)
    (hd : u.field .dict = t.field .dict) : steady s u :=
  h.trans (steady_of_fields hp hd)

/-! ## The window's own changes -/

/-- A change of the window that leaves the operation under way as it is. -/
theorem steady_onDict {s : State} {f : Dict → Dict} (hb : (f s.dict).busy = s.dict.busy)
    (hc : (f s.dict).current = s.dict.current) (ha : (f s.dict).awaiting = s.dict.awaiting)
    (ho : (f s.dict).ops = s.dict.ops) (ht : (f s.dict).tag = s.dict.tag) (hi : (f s.dict).indexReg = s.dict.indexReg) :
    steady s (s.onDict f) := by
  refine ⟨rfl, fun h => ?_⟩
  simpa only [windowInv, State.onDict, hb, hc, ha, ho, ht, hi] using h

/-- An operation that ends leaves the window free (R614). -/
theorem finish_consistent {s : State} (op : Nat) (r : DictResult) (f : Dict → Dict)
    (hf : ∀ d : Dict, (f d).busy = d.busy ∧ (f d).current = d.current ∧ (f d).awaiting = d.awaiting ∧ (f d).ops = d.ops ∧
      (f d).tag = d.tag ∧ (f d).indexReg = d.indexReg) :
    steady s (s.onDict (fun d => f (d.finish op r))) := by
  refine ⟨rfl, fun ⟨_, _, _, _, htag, hindex⟩ => ?_⟩
  obtain ⟨hb, hc, ha, ho, ht, hi⟩ := hf (s.dict.finish op r)
  have hkept : (s.dict.finish op r).tag = s.dict.tag ∧ (s.dict.finish op r).indexReg = s.dict.indexReg := by
    unfold Dict.finish Dict.tally Dict.putSegment
    split <;> exact ⟨rfl, rfl⟩
  have hops : (s.dict.finish op r).ops < 256 := Nat.mod_lt _ (by decide)
  simp only [windowInv, State.onDict, hb, hc, ha, ho, ht, hi, hkept]
  exact ⟨rfl, by simp [Dict.finish], by simp [Dict.finish], hops, htag, hindex⟩

theorem steady_finish {s : State} (op : Nat) (r : DictResult) : steady s (s.onDict (fun d => d.finish op r)) :=
  finish_consistent op r id fun _ => ⟨rfl, rfl, rfl, rfl, rfl, rfl⟩

/-- The window captures an operation (R614): it becomes busy. -/
theorem steady_capture {s : State} {f : Dict → Dict} {o : DictOp} {early : Option DictResult} {v : U64} (ho : o.op ≠ 0)
    (hb : (f s.dict).busy = true) (hc : (f s.dict).current = some (o, early)) (hops : (f s.dict).ops = s.dict.ops)
    (ht : s.dict.tag < 256 → (f s.dict).tag < 256) (hi : (f s.dict).indexReg = v &&& indexMask) : steady s (s.onDict f) := by
  refine ⟨rfl, fun ⟨_, _, _, h, htag, _⟩ => ?_⟩
  simp only [windowInv, State.onDict, hb, hc, hops, hi]
  refine ⟨rfl, fun _ => rfl, ?_, h, ht htag, ?_⟩
  · rintro x ⟨⟩
    exact ho
  · rw [BitVec.and_assoc, BitVec.and_self]

/-- A write of DICT_INDEX (R614, R623). -/
theorem State.dictIndex_steady (s : State) (v : U64) : steady s (s.dictIndex v) := by
  unfold State.dictIndex
  split
  · exact steady_onDict rfl rfl rfl rfl rfl rfl
  simp only []
  split
  · refine ⟨rfl, fun ⟨h1, h2, h3, h4, h5, _⟩ => ⟨h1, h2, h3, h4, h5, ?_⟩⟩
    simp only [State.onDict, BitVec.and_assoc, BitVec.and_self]
  rename_i hop
  split
  · exact steady_capture (s := s) (f := fun d => { d with indexReg := v &&& indexMask, busy := true, current := some (_, none) })
      hop rfl rfl rfl id rfl
  split
  · exact steady_capture (s := s) (f := fun d => { d with indexReg := v &&& indexMask, busy := true, current := some (_, some _) })
      hop rfl rfl rfl id rfl
  · refine steady.then_field (steady_capture (s := s) (f := fun d =>
        { d with indexReg := v &&& indexMask, busy := true, current := some (_, none), awaiting := some d.tag
                 tag := (d.tag + 1) % 256, opsRemote := d.opsRemote + 1 })
      hop rfl rfl rfl (fun _ => Nat.mod_lt _ (by decide)) rfl) ?_ ?_
    · exact State.sendMsg_field _ _ _ _ (by simp)
    · exact State.sendMsg_field _ _ _ _ (by simp)

/-- A write of a register of the window (R613, R614). -/
theorem State.dictSet_steady (s : State) (off : Nat) (v : U64) : steady s (s.dictSet off v) := by
  unfold State.dictSet
  split
  · exact s.dictIndex_steady v
  split
  · exact steady_onDict (by split <;> rfl) (by split <;> rfl) (by split <;> rfl) (by split <;> rfl) (by split <;> rfl)
      (by split <;> rfl)
  · exact steady.refl s

/-! ## Messages in order -/

theorem State.dictEmptied_steady (s : State) (src : Nat) : steady s (s.dictEmptied src) := by
  unfold State.dictEmptied
  split
  · exact steady_onDict (s := s)
      (f := fun d => { d with snapshot := Tab.del d.snapshot 1, segments := Tab.del d.segments 1 }) rfl rfl rfl rfl rfl rfl
  · exact steady.refl s

theorem State.acceptOrdered_steady (s : State) (m : Msg) : steady s (s.acceptOrdered m).1 := by
  by_cases hr : m.restart = true
  · simp only [State.acceptOrdered, hr, if_true]
    refine steady.trans ?_ (State.dictEmptied_steady _ _)
    exact steady_of_fields rfl rfl
  · refine steady_of_field fun φ hφ => ?_
    have hr' : m.restart = false := by simpa using hr
    simp only [State.acceptOrdered, hr', Bool.false_eq_true, if_false]
    rcases hφ with rfl | rfl <;> (repeat' split) <;> first | rfl | simp

theorem State.deliverMsg_steady {s t : State} {m : Msg} {kind : Nat} (ht : s.deliverMsg m kind = some t) : steady s t := by
  have hafter (r : State × Bool) (h : steady s r.1) :
      steady s (if 256 ≤ (r.1.peer m.src).delivered then (r.1.sendAck m.src, r.2) else r).1 := by
    split
    · exact h.then_field (State.sendAck_field _ _ (by simp)) (State.sendAck_field _ _ (by simp))
    · exact h
  simp only [State.deliverMsg] at ht
  split at ht
  · cases ht
  split at ht
  · obtain ⟨_, ⟨⟩⟩ := Option.ite_none_right_eq_some.mp ht
    exact hafter _ (s.acceptOrdered_steady m)
  split at ht
  · cases ht
  · obtain ⟨_, ⟨⟩⟩ := Option.ite_none_right_eq_some.mp ht
    exact hafter _ ((steady_of_fields (State.popRx_field _ _ (by simp)) (State.popRx_field _ _ (by simp))).trans
      (State.acceptOrdered_steady _ m))

theorem State.undelivered_steady (s : State) (m : Msg) (kind : Nat) : steady s (s.undelivered m kind) := by
  unfold State.undelivered
  repeat' split
  · exact steady.refl s
  · exact steady.refl s
  · exact (steady_of_fields (State.popRx_field _ _ (by simp)) (State.popRx_field _ _ (by simp))).trans
      (State.acceptOrdered_steady _ m)

/-! ## Resets -/

/-- A state whose window is that of reset is consistent. -/
theorem steady_of_reset {s t : State} (hp : t.pending = s.pending) (hd : t.dict = State.reset.dict) : steady s t :=
  ⟨hp, fun _ => by simp only [windowInv, hd]; exact resetWindowIsConsistent⟩

theorem State.restart_steady (s : State) (kind : ResetKind) (x : Straps) : steady s (s.restart kind x) :=
  steady_of_reset rfl rfl

theorem State.hold_steady (s : State) (kind : ResetKind) (x : Straps) : steady s (s.hold kind x) := steady_of_reset rfl rfl

theorem State.released_field {φ : Field} (s : State) (hφ : φ ≠ .start ∧ φ ≠ .link ∧ φ ≠ .events) :
    s.released.field φ = s.field φ := by
  unfold State.released
  simp [hφ]

@[simp] theorem State.reboot_steady (s : State) (kind : ResetKind) (x : Straps) : steady s (s.reboot kind x) :=
  (s.restart_steady kind x).then_field (State.released_field _ (by simp)) (State.released_field _ (by simp))

@[simp] theorem State.pavaneExit_steady (s : State) (x : Straps) : steady s (s.pavaneExit x).2 := by
  have hstart (u : State) (h : steady s u) : steady s (u.reboot .immediate x) := h.trans (u.reboot_steady _ _)
  unfold State.pavaneExit
  split
  · exact steady.refl s
  · dsimp only
    apply hstart
    exact steady_of_fields (field_set_start s _ (by simp)) (field_set_start s _ (by simp))

end Sys2Proof.Machine
end

section
/-!
SUPPORT. A write of a dictionary sub-entry is steady: by the kind of the sub-entry, then object by object.
-/
namespace Sys2Proof.Machine

/-- A write of a sub-entry, accepted or refused, is steady. -/
def writesSteady (x : Option Sub) : Prop := ∀ q ∈ x, ∀ (v : Bytes) (s : State), steady s (q.put v s).2

section
variable (s : State)

@[simp] theorem writesSteady_none : writesSteady none := fun q hq => by cases hq

@[simp] theorem writesSteady_some (q : Sub) : writesSteady (some q) ↔ ∀ v s, steady s (q.put v s).2 := by simp [writesSteady]

@[simp] theorem writesSteady_ite (p : Prop) [Decidable p] (x y : Option Sub) :
    writesSteady (if p then x else y) ↔ (p → writesSteady x) ∧ (¬ p → writesSteady y) := by split <;> simp [*]

theorem Sub.ro_steady (type size dflt : Nat) (v : Bytes) : writesSteady (Sub.ro type size dflt v) :=
  (writesSteady_some _).mpr fun _ s => steady.refl s

@[simp] theorem roU8_steady (v d : Nat) : writesSteady (roU8 v d) := Sub.ro_steady _ _ _ _
@[simp] theorem roU16_steady (v d : Nat) : writesSteady (roU16 v d) := Sub.ro_steady _ _ _ _
@[simp] theorem roU32_steady (v d : Nat) : writesSteady (roU32 v d) := Sub.ro_steady _ _ _ _
@[simp] theorem roU64_steady (v d : Nat) : writesSteady (roU64 v d) := Sub.ro_steady _ _ _ _
@[simp] theorem roBool_steady (v : Bool) (d : Nat) : writesSteady (roBool v d) := Sub.ro_steady _ _ _ _
@[simp] theorem roBits_steady (n v d : Nat) : writesSteady (roBits n v d) := Sub.ro_steady _ _ _ _
@[simp] theorem roEnum_steady (v d : Nat) : writesSteady (roEnum v d) := Sub.ro_steady _ _ _ _
@[simp] theorem roOctets_steady (v : Bytes) : writesSteady (roOctets v) := Sub.ro_steady _ _ _ _
@[simp] theorem roDomain_steady (v : Bytes) : writesSteady (roDomain v) := Sub.ro_steady _ _ _ _
@[simp] theorem cnt32_steady (v : U32) : writesSteady (cnt32 v) := roU32_steady _ _
@[simp] theorem cnt64_steady (v : U64) : writesSteady (cnt64 v) := roU64_steady _ _

section
variable {acc type size dflt least most mask v : Nat}

@[simp] theorem num_steady (f : Nat → State → Nat × State) :
    writesSteady (num acc type size dflt least most v f) ↔ ∀ (b : Bytes) s, steady s (f (leNat b) s).2 := writesSteady_some _

@[simp] theorem numOk_steady (p : Nat → Bool) (x : Option Sub) : writesSteady (numOk p x) ↔ writesSteady x := by
  cases x with
  | none => rfl
  | some q => exact (writesSteady_some _).trans (writesSteady_some q).symm

@[simp] theorem bits_steady (f : Nat → State → Nat × State) :
    writesSteady (bits acc size dflt mask v f) ↔ ∀ (b : Bytes) s, steady s (f (leNat b) s).2 := writesSteady_some _

@[simp] theorem octetsSub_steady (b : Bytes) (ok : Bytes → Bool) (f : Bytes → State → Nat × State) :
    writesSteady (octetsSub acc b ok f) ↔ ∀ b s, steady s (f b s).2 := writesSteady_some _

@[simp] theorem mgrU32_steady (f : Nat → State → State) :
    writesSteady (mgrU32 dflt least most v f) ↔ ∀ (b : Bytes) s, steady s (f (leNat b) s) := num_steady _
@[simp] theorem mgrU8_steady (f : Nat → State → State) :
    writesSteady (mgrU8 dflt least most v f) ↔ ∀ (b : Bytes) s, steady s (f (leNat b) s) := num_steady _
@[simp] theorem mgrU16_steady (f : Nat → State → State) :
    writesSteady (mgrU16 dflt least most v f) ↔ ∀ (b : Bytes) s, steady s (f (leNat b) s) := num_steady _
@[simp] theorem mgrBool_steady (x : Bool) (f : Bool → State → State) :
    writesSteady (mgrBool dflt x f) ↔ ∀ (b : Bytes) s, steady s (f (leNat b == 1) s) := num_steady _
@[simp] theorem mgrEnum_steady (f : Nat → State → State) :
    writesSteady (mgrEnum dflt most v f) ↔ ∀ (b : Bytes) s, steady s (f (leNat b) s) := num_steady _

end

/-! ## The wrappers of a write's effect -/

@[simp] theorem sets_state (f : Nat → State → State) (n : Nat) : (sets f n s).2 = f n s := rfl

@[simp] theorem setsIf_state (c : Bool) (f : Nat → State → State) (n : Nat) : (setsIf c f n s).2 = if c then f n s else s := by
  unfold setsIf
  split <;> rfl

@[simp] theorem acts_state (f : State → Nat × State) (n : Nat) : (acts f n s).2 = if n = 1 then (f s).2 else s := by
  unfold acts
  split <;> rfl

@[simp] theorem orRefused_state (r : Bool × State) : (orRefused r).2 = r.2 := rfl

@[simp] theorem staged_state (f : Nat → State → State) (n : Nat) :
    (staged f n s).2 = if s.access.commitState = .idle then f n s else s := by
  unfold staged
  split <;> rfl

@[simp] theorem portSet_state (p : Nat) (f : Nat → LinePort → LinePort) (n : Nat) :
    (portSet p f n s).2 = s.onLinePort p (f n) := rfl

@[simp] theorem steady_self : steady s s := steady.refl s

@[simp] theorem steady_ite (p : Prop) [Decidable p] (x y : State) :
    steady s (if p then x else y) ↔ (p → steady s x) ∧ (¬ p → steady s y) := by split <;> simp [*]

section
variable {φ : Field}

@[simp] theorem scopeWide_field (p : Nat) (f : Nat → LinePort → LinePort) (n : Nat) (hφ : φ ≠ .dir) :
    (scopeWide p f n s).2.field φ = s.field φ := by
  unfold scopeWide
  simp only []
  repeat' split
  · rfl
  · simp [hφ]
  · rfl

theorem cmdResult_state (r : Option CmdStatus × State) : (cmdResult r).2 = r.2 := by
  unfold cmdResult
  split <;> rfl

@[simp] theorem sliceCmd_steady (n code : Nat) : steady s (sliceCmd n code s).2 := by
  unfold sliceCmd
  split <;> exact steady_of_fields (by simp [cmdResult_state]) (by simp [cmdResult_state])

theorem nextOf_field {o : Out} (h : o.keeps φ s) : (nextOf s o).field φ = s.field φ := by
  unfold nextOf
  split
  · exact h _ rfl
  · rfl

end

@[simp] theorem nextOf_steady {o : Out} (hp : o.keeps .pending s) (hd : o.keeps .dict s) : steady s (nextOf s o) :=
  steady_of_fields (nextOf_field s hp) (nextOf_field s hd)

@[simp] theorem State.onStart_field {φ : Field} (f : Start → Start) (hφ : φ ≠ .start) : (s.onStart f).field φ = s.field φ :=
  field_set_start s _ hφ

theorem State.writeCascadeSize_field {φ : Field} (n : Nat) (hφ : φ ≠ .link ∧ φ ≠ .events) :
    (s.writeCascadeSize n).field φ = s.field φ := by
  unfold State.writeCascadeSize
  simp only []
  repeat' split
  · rfl
  · rw [field_foldl _ _ fun t p => State.onLport_field _ _ _ hφ.1]
    exact State.onLink_field _ _ hφ.1
  · simp [hφ]

@[simp] theorem State.writeCascadeSize_steady (n : Nat) : steady s (s.writeCascadeSize n) :=
  steady_of_fields (s.writeCascadeSize_field n (by simp)) (s.writeCascadeSize_field n (by simp))

@[simp] theorem lcWrite_steady (code : Nat) : steady s (lcWrite code s).2 :=
  steady_of_fields (State.lcRequest_field s code (by simp)) (State.lcRequest_field s code (by simp))

@[simp] theorem engines_steady (x : Pke) : steady s ((List.range 4).foldl State.engineSettle { s with pke := x }) :=
  (steady_of_fields (field_set_pke s x (by simp)) (field_set_pke s x (by simp))).trans
    (steady_of_fields (field_foldl _ _ (by simp) _) (field_foldl _ _ (by simp) _))

@[simp] theorem units_steady (x : Digest) : steady s ((List.range 8).foldl State.unitSettle { s with digest := x }) :=
  (steady_of_fields (field_set_digest s x (by simp)) (field_set_digest s x (by simp))).trans
    (steady_of_fields (field_foldl _ _ (by simp) _) (field_foldl _ _ (by simp) _))

@[simp] theorem onDict_enumCursor_steady (n : U32) : steady s { s with dict := { s.dict with enumCursor := n } } :=
  steady_onDict (f := fun d => { d with enumCursor := n }) rfl rfl rfl rfl rfl rfl

@[simp] theorem onDict_remoteTime_steady (n : U32) : steady s { s with dict := { s.dict with remoteTime := n } } :=
  steady_onDict (f := fun d => { d with remoteTime := n }) rfl rfl rfl rfl rfl rfl

end

/-! ## The fields of ring pairs, spread rings and the Promenade log -/

section
variable (s : State)

@[simp] theorem ringField_steady (key type size dflt least most v : Nat) (f : Nat → Ring → Ring) :
    writesSteady (ringField s key type size dflt least most v f) := by simp [ringField, steady_of_fields]

@[simp] theorem ringSub_steady (key f : Nat) : writesSteady (ringSub s key f) := by
  unfold ringSub
  simp only []
  split <;> simp [steady_of_fields]

@[simp] theorem journalSub_steady (key f : Nat) : writesSteady (journalSub s key f) := by
  unfold journalSub
  simp only []
  split <;> simp [steady_of_fields]

@[simp] theorem pairSub_steady (o sub : Nat) : writesSteady (pairSub s o sub) := by simp [pairSub]

@[simp] theorem spreadField_steady (nn type size dflt least most v : Nat) (f : Nat → Spread → Spread) :
    writesSteady (spreadField s nn type size dflt least most v f) := by simp [spreadField, steady_of_fields]

@[simp] theorem promField_steady (n type size least most v : Nat) (f : Nat → Prom → Prom) :
    writesSteady (promField s n type size least most v f) := by simp [promField, steady_of_fields]

end

/-! ## The objects -/

@[simp] theorem obj0000_steady (s : State) (sub : Nat) : writesSteady (obj0000 s sub) := by
  unfold obj0000
  simp only []
  split <;> simp
@[simp] theorem objType_steady (t sub : Nat) : writesSteady (objType t sub) := by
  unfold objType
  split <;> simp
@[simp] theorem obj1000_steady (s : State) (sub : Nat) : writesSteady (obj1000 s sub) := by
  unfold obj1000
  simp only []
  split <;> simp
@[simp] theorem obj1100_steady (s : State) (sub : Nat) : writesSteady (obj1100 s sub) := by
  unfold obj1100
  simp only []
  split <;> simp [steady_of_fields]
@[simp] theorem obj1101_steady (s : State) (sub : Nat) : writesSteady (obj1101 s sub) := by
  unfold obj1101
  simp only []
  split <;> simp [steady_of_fields]
@[simp] theorem obj1102_steady (s : State) (sub : Nat) : writesSteady (obj1102 s sub) := by
  unfold obj1102
  simp only []
  split <;> simp [steady_of_fields]
@[simp] theorem obj1200_steady (s : State) (sub : Nat) : writesSteady (obj1200 s sub) := by
  unfold obj1200
  simp only []
  split <;> simp [steady_of_fields]
@[simp] theorem obj1201_steady (s : State) (sub : Nat) : writesSteady (obj1201 s sub) := by
  unfold obj1201
  split <;> simp
@[simp] theorem objSlice_steady (s : State) (n sub : Nat) : writesSteady (objSlice s n sub) := by
  unfold objSlice
  simp only []
  split <;> simp [steady_of_fields]
@[simp] theorem obj2020_steady (s : State) (sub : Nat) : writesSteady (obj2020 s sub) := by
  unfold obj2020
  simp only []
  split <;> simp [steady_of_fields]
@[simp] theorem obj2200_steady (s : State) (sub : Nat) : writesSteady (obj2200 s sub) := by
  unfold obj2200
  simp only []
  split <;> simp [steady_of_fields]
@[simp] theorem objSpread_steady (s : State) (nn sub : Nat) : writesSteady (objSpread s nn sub) := by
  unfold objSpread
  simp only []
  split <;> simp [steady_of_fields, apply_ite Prod.snd]
@[simp] theorem obj3000_steady (s : State) (sub : Nat) : writesSteady (obj3000 s sub) := by
  unfold obj3000
  simp only []
  split <;> simp [steady_of_fields]
@[simp] theorem obj3001_steady (s : State) (sub : Nat) : writesSteady (obj3001 s sub) := by
  unfold obj3001
  simp only []
  split <;> simp
@[simp] theorem obj3002_steady (s : State) (sub : Nat) : writesSteady (obj3002 s sub) := by
  unfold obj3002
  split <;> simp
@[simp] theorem objRule_steady (s : State) (r sub : Nat) : writesSteady (objRule s r sub) := by
  unfold objRule
  simp only []
  split <;> simp [steady_of_fields]
@[simp] theorem objWindow_steady (s : State) (w sub : Nat) : writesSteady (objWindow s w sub) := by
  unfold objWindow
  simp only []
  split <;> simp [steady_of_fields]
@[simp] theorem obj4000_steady (s : State) (sub : Nat) : writesSteady (obj4000 s sub) := by
  unfold obj4000
  simp only []
  split <;> simp [steady_of_fields]
@[simp] theorem obj4001_steady (s : State) (sub : Nat) : writesSteady (obj4001 s sub) := by
  unfold obj4001
  simp only []
  split <;> simp
@[simp] theorem objLinePort_steady (s : State) (p sub : Nat) : writesSteady (objLinePort s p sub) := by
  unfold objLinePort
  simp only []
  split <;> simp [steady_of_fields]
@[simp] theorem obj5000_steady (s : State) (sub : Nat) : writesSteady (obj5000 s sub) := by
  unfold obj5000
  simp only []
  split <;> simp [steady_of_fields]
@[simp] theorem obj5001_steady (s : State) (sub : Nat) : writesSteady (obj5001 s sub) := by
  unfold obj5001
  simp only []
  split <;> simp
@[simp] theorem objMap_steady (s : State) (i sub : Nat) : writesSteady (objMap s i sub) := by
  unfold objMap
  simp only []
  split <;> simp
@[simp] theorem objLink_steady (s : State) (p sub : Nat) : writesSteady (objLink s p sub) := by
  unfold objLink
  simp only []
  split <;> simp [steady_of_fields]
@[simp] theorem objSource_steady (s : State) (i sub : Nat) : writesSteady (objSource s i sub) := by
  unfold objSource
  simp only []
  split <;> simp [steady_of_fields, apply_ite Prod.snd]
@[simp] theorem objStore_steady (s : State) (n sub : Nat) : writesSteady (objStore s n sub) := by
  unfold objStore
  simp only []
  split <;> simp [steady_of_fields]
@[simp] theorem obj8000_steady (s : State) (sub : Nat) : writesSteady (obj8000 s sub) := by
  unfold obj8000
  split <;> simp
@[simp] theorem objFifo_steady (s : State) (k sub : Nat) : writesSteady (objFifo s k sub) := by
  unfold objFifo
  simp only []
  split <;> simp [steady_of_fields]
@[simp] theorem obj9000_steady (s : State) (sub : Nat) : writesSteady (obj9000 s sub) := by
  unfold obj9000
  simp only []
  split <;> simp [steady_of_fields, apply_ite Prod.snd]
@[simp] theorem obj9001_steady (s : State) (sub : Nat) : writesSteady (obj9001 s sub) := by
  unfold obj9001
  simp only []
  split <;> simp [steady_of_fields]
@[simp] theorem obj9002_steady (s : State) (sub : Nat) : writesSteady (obj9002 s sub) := by
  unfold obj9002
  simp only []
  split <;> simp [steady_of_fields, apply_ite Prod.snd]
@[simp] theorem obj9003_steady (s : State) (sub : Nat) : writesSteady (obj9003 s sub) := by
  unfold obj9003
  simp only []
  split <;> simp [steady_of_fields]
@[simp] theorem obj9004_steady (s : State) (sub : Nat) : writesSteady (obj9004 s sub) := by
  unfold obj9004
  split <;> simp
@[simp] theorem obj7000_steady (s : State) (sub : Nat) : writesSteady (obj7000 s sub) := by
  unfold obj7000
  simp only []
  split <;> simp [steady_of_fields]
@[simp] theorem obj7001_steady (s : State) (sub : Nat) : writesSteady (obj7001 s sub) := by
  unfold obj7001
  simp only []
  split <;> simp [steady_of_fields, apply_ite Prod.snd]
@[simp] theorem obj7002_steady (s : State) (sub : Nat) : writesSteady (obj7002 s sub) := by
  unfold obj7002
  simp only []
  split <;> simp [steady_of_fields]
@[simp] theorem obj7100_steady (s : State) (sub : Nat) : writesSteady (obj7100 s sub) := by
  unfold obj7100
  simp only []
  split <;> simp [steady_of_fields, apply_ite Prod.snd]
@[simp] theorem obj7101_steady (s : State) (sub : Nat) : writesSteady (obj7101 s sub) := by
  unfold obj7101
  simp only []
  split <;> simp [steady_of_fields]
@[simp] theorem obj7102_steady (s : State) (sub : Nat) : writesSteady (obj7102 s sub) := by
  unfold obj7102
  simp only []
  split <;> simp [steady_of_fields]
@[simp] theorem obj7103_steady (s : State) (sub : Nat) : writesSteady (obj7103 s sub) := by
  unfold obj7103
  simp only []
  split <;> simp
@[simp] theorem obj7104_steady (s : State) (sub : Nat) : writesSteady (obj7104 s sub) := by
  unfold obj7104
  split <;> simp
@[simp] theorem obj7105_steady (s : State) (sub : Nat) : writesSteady (obj7105 s sub) := by
  unfold obj7105
  simp only []
  split <;> simp
@[simp] theorem obj7200_steady (s : State) (sub : Nat) : writesSteady (obj7200 s sub) := by
  unfold obj7200
  simp only []
  split <;> simp [steady_of_fields]
@[simp] theorem obj7201_steady (sub : Nat) : writesSteady (obj7201 sub) := by
  unfold obj7201
  split <;> simp
@[simp] theorem obj7202_steady (s : State) (sub : Nat) : writesSteady (obj7202 s sub) := by
  unfold obj7202
  simp only []
  split <;> simp
@[simp] theorem objNoise_steady (s : State) (n sub : Nat) : writesSteady (objNoise s n sub) := by
  unfold objNoise
  simp only []
  split <;> simp
@[simp] theorem obj7300_steady (s : State) (sub : Nat) : writesSteady (obj7300 s sub) := by
  unfold obj7300
  simp only []
  split <;> simp [steady_of_fields, apply_ite Prod.snd]
@[simp] theorem obj7301_steady (s : State) (sub : Nat) : writesSteady (obj7301 s sub) := by
  unfold obj7301
  simp only []
  split <;> simp [steady_of_fields]
@[simp] theorem obj7302_steady (s : State) (sub : Nat) : writesSteady (obj7302 s sub) := by
  unfold obj7302
  simp only []
  split <;> simp
@[simp] theorem objEngine_steady (s : State) (e sub : Nat) : writesSteady (objEngine s e sub) := by
  unfold objEngine
  simp only []
  split <;> simp
@[simp] theorem obj7400_steady (s : State) (sub : Nat) : writesSteady (obj7400 s sub) := by
  unfold obj7400
  simp only []
  split <;> simp [apply_ite Prod.snd]
@[simp] theorem obj7401_steady (s : State) (sub : Nat) : writesSteady (obj7401 s sub) := by
  unfold obj7401
  simp only []
  split <;> simp
@[simp] theorem objUnit_steady (s : State) (u sub : Nat) : writesSteady (objUnit s u sub) := by
  unfold objUnit
  simp only []
  split <;> simp
@[simp] theorem obj7500_steady (s : State) (sub : Nat) : writesSteady (obj7500 s sub) := by
  unfold obj7500
  simp only []
  split <;> simp [steady_of_fields]
@[simp] theorem obj7501_steady (s : State) (sub : Nat) : writesSteady (obj7501 s sub) := by
  unfold obj7501
  simp only []
  split <;> simp
@[simp] theorem objLane_steady (s : State) (n sub : Nat) : writesSteady (objLane s n sub) := by
  unfold objLane
  simp only []
  split <;> simp
@[simp] theorem obj7520_steady (s : State) (sub : Nat) : writesSteady (obj7520 s sub) := by
  unfold obj7520
  simp only []
  split <;> simp [steady_of_fields]
@[simp] theorem obj7530_steady (s : State) (sub : Nat) : writesSteady (obj7530 s sub) := by
  unfold obj7530
  split <;> simp
@[simp] theorem obj7600_steady (s : State) (sub : Nat) : writesSteady (obj7600 s sub) := by
  unfold obj7600
  simp only []
  split <;> simp [steady_of_fields]

/-! ## Finding a sub-entry, and an operation -/

theorem lookupOuter_steady (s : State) (index sub : Nat) : writesSteady (lookupOuter s index sub) := by
  unfold lookupOuter
  repeat' refine (writesSteady_ite _ _ _).mpr ⟨fun _ => ?_, fun _ => ?_⟩
  all_goals simp

theorem lookupMyeno_steady (s : State) (index sub : Nat) : writesSteady (lookupMyeno s index sub) := by
  unfold lookupMyeno
  repeat' refine (writesSteady_ite _ _ _).mpr ⟨fun _ => ?_, fun _ => ?_⟩
  all_goals simp

theorem subEntry_steady {s : State} {index sub : Nat} {q : Sub} (h : subEntry s index sub = .ok q) (v : Bytes) (t : State) :
    steady t (q.put v t).2 := by
  have hfound : ∀ x : Option Sub, writesSteady x → (match x with | none => .error 0x02 | some q => .ok q : Except Nat Sub) = .ok q →
      steady t (q.put v t).2 := by
    intro x hx hq
    cases x with
    | none => cases hq
    | some y =>
      cases hq
      exact hx q rfl v t
  unfold subEntry at h
  split at h
  · cases h
  · refine hfound _ ?_ h
    simp [lookupOuter_steady, lookupMyeno_steady]

theorem State.setSegments_steady (s : State) (src : Nat) (v : Nat × Bytes) : steady s (s.setSegments src v) :=
  steady_onDict (s := s) (f := fun d => { d with segments := Tab.set noTransfer d.segments src v }) rfl rfl rfl rfl rfl rfl

theorem Sub.accept_steady {q : Sub} (hq : ∀ v s, steady s (q.put v s).2) (v : Bytes) (s : State) :
    steady s (q.accept v s).2 := by
  unfold Sub.accept
  split
  · exact steady.refl s
  · exact hq v s

theorem State.dictRead_steady (s : State) (o : DictOp) (src : Nat) (q : Sub) : steady s (s.dictRead o src q).2 := by
  have hsnapshot (t : Tab (Nat × Bytes)) : steady s { s with dict := { s.dict with snapshot := t } } :=
    steady_onDict (f := fun d => { d with snapshot := t }) rfl rfl rfl rfl rfl rfl
  unfold State.dictRead
  simp only [apply_ite Prod.snd]
  simp [hsnapshot]

theorem State.dictWrite_steady (s : State) (o : DictOp) (src : Nat) {q : Sub} (hq : ∀ v s, steady s (q.put v s).2) :
    steady s (s.dictWrite o src q).2 := by
  unfold State.dictWrite
  simp only [apply_ite Prod.snd]
  simp only [steady_ite, steady_self, s.setSegments_steady, Sub.accept_steady hq, implies_true, true_and]
  exact fun _ _ _ _ _ _ _ => (s.setSegments_steady src _).trans (Sub.accept_steady hq _ _)

theorem State.dictRun_steady (s : State) (o : DictOp) (src : Nat) : steady s (s.dictRun o src).2.2 := by
  unfold State.dictRun
  split
  · exact steady.refl s
  split
  · exact steady.refl s
  rename_i q hq
  simp only []
  split
  · exact steady.refl s
  split
  · exact s.dictRead_steady o src q
  · exact s.dictWrite_steady o src (subEntry_steady hq)

end Sys2Proof.Machine
end

section
/-!
SUPPORT. Every command is steady, and so every step keeps the queue's rest and the window's consistency.
-/
namespace Sys2Proof.Machine

/-- A meaning is steady when each next state of it is. -/
def Out.steady (s : State) (o : Out) : Prop := ∀ t, o = .next t → Machine.steady s t

@[simp] theorem Out.steady_next (s t : State) : Out.steady s (.next t) ↔ Machine.steady s t := by simp [Out.steady]

@[simp] theorem Out.steady_fault (s : State) (r : Fault) : Out.steady s (.fault r) := fun _ h => by cases h

theorem Out.steady_of_keeps {s : State} {o : Out} (h : ∀ φ, φ = .pending ∨ φ = .dict → o.keeps φ s) : o.steady s :=
  fun t ht => steady_of_field fun φ hφ => h φ hφ t ht

/-! ## Accesses of a page -/

theorem State.pageWrite_steady (s : State) (b : Bus) (o : Nat) {f : State → State} (hf : ∀ t, Machine.steady t (f t)) :
    Machine.steady s (s.pageWrite b o f) := by
  have hht (x : Bool) (t : State) (h : s.htAccess b = (x, t)) : Machine.steady s t :=
    steady_of_fields ((field_of_snd h).trans (by simp)) ((field_of_snd h).trans (by simp))
  have hpage (u : State) (x : Bool) (t : State) (h : u.pageAccess b o = (x, t)) : Machine.steady u t :=
    steady_of_fields ((field_of_snd h).trans (by simp)) ((field_of_snd h).trans (by simp))
  unfold State.pageWrite
  split
  · exact hht _ _ ‹_›
  split
  · exact (hht _ _ ‹_›).trans (hpage _ _ _ ‹_›)
  split
  · exact (hht _ _ ‹_›).trans (hpage _ _ _ ‹_›)
  · exact ((hht _ _ ‹_›).trans (hpage _ _ _ ‹_›)).trans (hf _)

/-! ## Messages in order -/

/-- A message that is delivered to a steady meaning, or held. -/
theorem delivered_steady (s : State) (m : Msg) (kind : Nat) {f : State → State} (hf : ∀ t, Machine.steady t (f t)) :
    Out.steady s (.next (match s.deliverMsg m kind with | none => s.undelivered m kind | some t => f t)) := by
  refine (Out.steady_next s _).mpr ?_
  split
  · exact s.undelivered_steady m kind
  · exact (State.deliverMsg_steady ‹_›).trans (hf _)

theorem execGrant_steady (m : Msg) (s : State) : (execGrant m s).steady s := by
  refine delivered_steady s m kGrant fun t => ?_
  refine steady_of_field fun φ hφ => ?_
  rcases hφ with rfl | rfl <;> (simp only []; split) <;> simp

theorem execDoorbell_steady (m : Msg) (s : State) : (execDoorbell m s).steady s := by
  refine delivered_steady s m kDoorbell fun t => ?_
  refine steady_of_field fun φ hφ => ?_
  simp only []
  split
  · rw [field_of_snd ‹_›]
    rcases hφ with rfl | rfl <;> simp
  · rw [field_ite]
    rcases hφ with rfl | rfl <;> simp [field_of_snd ‹State.pageAccess _ _ _ = _›]

theorem execToken_steady (m : Msg) (s : State) : (execToken m s).steady s := by
  refine delivered_steady s m kToken fun t => ?_
  refine steady_of_field fun φ hφ => ?_
  simp only []
  rcases hφ with rfl | rfl <;> (repeat' split) <;> simp

theorem execSpreadCtl_steady (m : Msg) (s : State) : (execSpreadCtl m s).steady s := by
  refine delivered_steady s m kSpreadCtl fun t => ?_
  refine steady_of_field fun φ hφ => ?_
  simp only []
  rcases hφ with rfl | rfl <;> (repeat' split) <;> simp

theorem execKeyx_steady (m : Msg) (s : State) : (execKeyx m s).steady s := by
  refine delivered_steady s m kKeyx fun t => ?_
  exact steady_of_fields (State.onLink_field _ _ (by simp)) (State.onLink_field _ _ (by simp))

theorem execKeyxSetup_steady (m : Msg) (s : State) : (execKeyxSetup m s).steady s := by
  refine delivered_steady s m kKeyxSetup fun t => ?_
  refine steady_of_field fun φ hφ => ?_
  simp only []
  rcases hφ with rfl | rfl <;> (repeat' split) <;> simp

theorem execDictResp_steady (m : Msg) (s : State) : (execDictResp m s).steady s := by
  refine delivered_steady s m kDictResp fun t => ?_
  have hlate : Machine.steady t (t.onDict (fun d => { d with lateResponses := d.lateResponses + 1 })) :=
    steady_onDict rfl rfl rfl rfl rfl rfl
  split
  · split
    · exact steady_finish _ _
    · exact hlate
  · exact hlate

/-- The head's request has been carried out here: it is counted and answered (R625). -/
theorem answered_steady (s : State) (code dest : Nat) (body : Bytes) :
    Machine.steady s
      ((s.onDict (fun d => { d.tally code with opsLocal := d.opsLocal + 1 })).sendMsg kDictResp dest body) :=
  steady.then_field (t := s.onDict (fun d => { d.tally code with opsLocal := d.opsLocal + 1 }))
    (steady_onDict rfl rfl rfl rfl rfl rfl) (State.sendMsg_field _ _ _ _ (by simp)) (State.sendMsg_field _ _ _ _ (by simp))

theorem execDictReq_steady (m : Msg) (s : State) : (execDictReq m s).steady s := by
  refine (Out.steady_next s _).mpr ?_
  split
  · exact steady.refl s
  split
  · exact s.undelivered_steady m kDictReq
  rename_i t ht
  refine (State.deliverMsg_steady ht).trans ?_
  split
  · refine steady.then_field (t := t.onDict (fun d => { d with remoteDiscarded := d.remoteDiscarded + 1 }))
      (steady_onDict rfl rfl rfl rfl rfl rfl) ?_ ?_ <;> simp
  simp only []
  split
  · exact steady.refl t
  split
  · exact t.dictRun_steady _ _
  · exact (t.dictRun_steady _ _).trans (answered_steady _ _ _ _)

/-! ## The dictionary window -/

theorem execDictOperationEnd_steady (s : State) : (execDictOperationEnd s).steady s := by
  refine (Out.steady_next s _).mpr ?_
  split
  · split
    · exact steady.refl s
    split
    · exact steady_finish _ _
    simp only []
    split
    · exact s.dictRun_steady _ _
    · exact (s.dictRun_steady _ _).trans (finish_consistent _ _ (fun d => { d with opsLocal := _ }) fun _ => ⟨rfl, rfl, rfl, rfl, rfl, rfl⟩)
  · exact steady.refl s

theorem execDictRemoteTimeExpiry_steady (s : State) : (execDictRemoteTimeExpiry s).steady s := by
  refine (Out.steady_next s _).mpr ?_
  split
  · exact finish_consistent _ _ (fun d => { d with noResponses := d.noResponses + 1 }) fun _ => ⟨rfl, rfl, rfl, rfl, rfl, rfl⟩
  · exact steady.refl s

/-! ## Resets -/

/-- A reset of a state that differs from `s` in neither the queue nor the dictionary. -/
theorem steady_reboot {s u : State} (h : Machine.steady s u) (kind : ResetKind) (x : Straps) :
    Machine.steady s (u.reboot kind x) := h.trans (u.reboot_steady kind x)

theorem steady_hold {s u : State} (h : Machine.steady s u) (kind : ResetKind) (x : Straps) : Machine.steady s (u.hold kind x) :=
  h.trans (u.hold_steady kind x)

theorem execPowerOn_steady (x : Straps) (s : State) : (execPowerOn x s).steady s := by
  have hpower (y : Start) : Machine.steady s { s with start := y } :=
    steady_of_fields (field_set_start s y (by simp)) (field_set_start s y (by simp))
  refine (Out.steady_next s _).mpr ?_
  split
  · exact steady_hold (hpower _) _ _
  · exact steady_reboot (hpower _) _ _

theorem execPwrGoodFall_steady (s : State) : (execPwrGoodFall s).steady s := by
  refine (Out.steady_next s _).mpr (steady_hold ?_ _ _)
  exact steady_of_fields (field_set_start s _ (by simp)) (field_set_start s _ (by simp))

theorem execIso_steady (level : Bool) (x : Straps) (s : State) : (execIso level x s).steady s := by
  have hiso (y : Pins) : Machine.steady s { s with pins := y } :=
    steady_of_fields (field_set_pins s y (by simp)) (field_set_pins s y (by simp))
  refine (Out.steady_next s _).mpr ?_
  split
  · exact hiso _
  split
  · exact steady_hold (hiso _) _ _
  · exact steady_reboot (hiso _) _ _

/-! ## Every command -/

/-- A command that names no address is steady. -/
theorem exec_steady_of_not_byAddress {c : Instr} (s : State) (hc : byAddress c = false) : Out.steady s (exec c s) := by
  cases c with
  | doorbell m => exact execDoorbell_steady m s
  | grant m => exact execGrant_steady m s
  | token m => exact execToken_steady m s
  | spreadCtl m => exact execSpreadCtl_steady m s
  | keyx m => exact execKeyx_steady m s
  | keyxSetup m => exact execKeyxSetup_steady m s
  | dictReq m => exact execDictReq_steady m s
  | dictResp m => exact execDictResp_steady m s
  | dictRead b v => exact (Out.steady_next s _).mpr (s.pageWrite_steady b mgr fun t => t.dictIndex_steady _)
  | dictWrite b v => exact (Out.steady_next s _).mpr (s.pageWrite_steady b mgr fun t => t.dictIndex_steady _)
  | dictDescribe b v => exact (Out.steady_next s _).mpr (s.pageWrite_steady b mgr fun t => t.dictIndex_steady _)
  | dictOperationEnd => exact execDictOperationEnd_steady s
  | dictRemoteTimeExpiry => exact execDictRemoteTimeExpiry_steady s
  | powerOn x => exact execPowerOn_steady x s
  | pwrGoodFall => exact execPwrGoodFall_steady s
  | iso level x => exact execIso_steady level x s
  | pin x => simp [exec, execPin]
  | resetRequestImmediate x => simp [exec, execResetRequestImmediate]
  | orderlyResetTakesPlace x => simp [exec, execOrderlyResetTakesPlace]
  | resetDrainLimitExpiry x => simp [exec, execResetDrainLimitExpiry]
  | startRetryTimeExpiry x => simp [exec, execStartRetryTimeExpiry]
  | pavaneExit x => simp [exec, execPavaneExit]
  | registerWrite b addr v => cases hc
  | registerRead b addr => cases hc
  | _ => exact Out.steady_of_keeps fun φ hφ => by rcases hφ with rfl | rfl <;> simp [exec]

/-! ## Registers by address -/

@[simp] theorem State.ringSet_field {φ : Field} (s : State) (key off : Nat) (v : U64)
    (hφ : φ ≠ .engine ∧ φ ≠ .spread ∧ φ ≠ .events) :
    (s.ringSet key off v).field φ = s.field φ := by
  unfold State.ringSet
  (repeat' split) <;> simp [hφ]

theorem State.pageSet_steady (s : State) (o off : Nat) (v : U64) : Machine.steady s (s.pageSet o off v) := by
  unfold State.pageSet
  (repeat' split) <;> exact steady_of_fields (by simp) (by simp)

theorem State.pageAfterRead_steady (s : State) (o off : Nat) : Machine.steady s (s.pageAfterRead o off) := by
  unfold State.pageAfterRead
  split
  · exact steady_of_fields (by simp) (by simp)
  · exact steady.refl s

theorem State.pageRead_steady (s : State) (b : Bus) (o : Nat) {f : State → Nat × State}
    (hf : ∀ t, Machine.steady t (f t).2) : Machine.steady s (s.pageRead b o f) := by
  have hht (x : Bool) (t : State) (h : s.htAccess b = (x, t)) : Machine.steady s t :=
    steady_of_fields ((field_of_snd h).trans (by simp)) ((field_of_snd h).trans (by simp))
  have hpage (u : State) (x : Bool) (t : State) (h : u.pageAccess b o = (x, t)) : Machine.steady u t :=
    steady_of_fields ((field_of_snd h).trans (by simp)) ((field_of_snd h).trans (by simp))
  have hpins (u : State) (x : Pins) : Machine.steady u { u with pins := x } :=
    steady_of_fields (field_set_pins u x (by simp)) (field_set_pins u x (by simp))
  unfold State.pageRead
  split
  · exact (hht _ _ ‹_›).trans (hpins _ _)
  split
  · exact ((hht _ _ ‹_›).trans (hpage _ _ _ ‹_›)).trans (hpins _ _)
  split
  · exact ((hht _ _ ‹_›).trans (hpage _ _ _ ‹_›)).trans (hpins _ _)
  · exact (((hht _ _ ‹_›).trans (hpage _ _ _ ‹_›)).trans (hf _)).trans (hpins _ _)

theorem State.kwAccess_steady (s : State) (b : Bus) (o : Nat) (x : Bool) (t : State) (h : s.kwAccess b o = (x, t)) :
    Machine.steady s t :=
  steady_of_fields ((field_of_snd h).trans (by simp)) ((field_of_snd h).trans (by simp))

theorem execRegisterWrite_steady (b : Bus) (addr : Nat) (v : U64) (s : State) : (execRegisterWrite b addr v s).steady s := by
  refine execRegisterWrite_elim (P := Out.steady s) (fun _ hc _ => exec_steady_of_not_byAddress s hc.not_byAddress) v
    (fun _ => Out.steady_fault s _) (fun o => ?_) (fun o off => ?_)
    (fun o off => (Out.steady_next s _).mpr (s.pageWrite_steady b o fun t => t.pageSet_steady o off v))
    (fun off => (Out.steady_next s _).mpr (s.pageWrite_steady b mgr fun t => t.dictSet_steady off v))
    (fun kind o => (Out.steady_next s _).mpr (s.pageWrite_steady b mgr fun t => ?_))
    (fun o => (Out.steady_next s _).mpr (s.pageWrite_steady b o steady.refl))
  · exact (Out.steady_next s _).mpr (s.kwAccess_steady b o _ _ rfl)
  · refine (Out.steady_next s _).mpr ?_
    split
    · exact s.kwAccess_steady b o _ _ ‹_›
    split
    · exact s.kwAccess_steady b o _ _ ‹_›
    · exact (s.kwAccess_steady b o _ _ ‹_›).trans (steady_of_fields (by simp) (by simp))
  · exact steady_of_fields (by simp) (by simp)

theorem execRegisterRead_steady (b : Bus) (addr : Nat) (s : State) : (execRegisterRead b addr s).steady s := by
  have hpins (u : State) (x : Pins) : Machine.steady u { u with pins := x } :=
    steady_of_fields (field_set_pins u x (by simp)) (field_set_pins u x (by simp))
  refine execRegisterRead_elim (P := Out.steady s) (fun _ hc _ => exec_steady_of_not_byAddress s hc.not_byAddress)
    (fun _ => Out.steady_fault s _) (fun o off => ?_)
    (fun o off => (Out.steady_next s _).mpr (s.pageRead_steady b o fun t => t.pageAfterRead_steady o off))
    (fun f => (Out.steady_next s _).mpr (s.pageRead_steady b mgr fun t => steady.refl t)) ?_
  · refine (Out.steady_next s _).mpr ?_
    split <;> exact (s.kwAccess_steady b o _ _ ‹_›).trans (hpins _ _)
  · exact (Out.steady_next s _).mpr ((steady_of_fields (by simp) (by simp)).trans (hpins _ _))

/-- Every command keeps the queue that it is given, and the consistency of the window. -/
theorem exec_steady (c : Instr) (s : State) : Out.steady s (exec c s) := by
  by_cases hc : byAddress c = false
  · exact exec_steady_of_not_byAddress s hc
  · cases c with
    | registerWrite b addr v => exact execRegisterWrite_steady b addr v s
    | registerRead b addr => exact execRegisterRead_steady b addr s
    | _ => exact absurd rfl hc

/-! ## Steps -/

theorem State.pinsOn_field {φ : Field} (s : State) (hφ : φ ≠ .pins) : s.pinsOn.field φ = s.field φ := field_set_pins s _ hφ

theorem State.countOn_field {φ : Field} (s : State) (hφ : φ ≠ .now ∧ φ ≠ .link) : s.countOn.field φ = s.field φ := by
  unfold State.countOn
  simp only []
  cases φ <;> first | (repeat' split) <;> rfl | simp at hφ

theorem State.idleTick_field {φ : Field} (s : State)
    (hφ : φ ≠ .pins ∧ φ ≠ .now ∧ φ ≠ .link ∧ φ ≠ .lanes ∧ φ ≠ .ident ∧ φ ≠ .tango) : s.idleTick.field φ = s.field φ := by
  obtain ⟨hpins, hnow, hlink, hlanes, hident, htango⟩ := hφ
  unfold State.idleTick
  split
  · exact s.pinsOn_field hpins
  extract_lets s1 busy s2 idle s3 n filled
  have h2 : s2.field φ = s.field φ :=
    (field_foldl _ _ (fun t n => State.onLane_field _ _ _ hlanes) _).trans
      ((State.countOn_field _ ⟨hnow, hlink⟩).trans (s.pinsOn_field hpins))
  have h3 : s3.field φ = s2.field φ := by
    unfold s3
    split
    · exact field_set_ident s2 _ hident
    · rfl
  split
  · exact (field_set_tango s3 _ htango).trans (h3.trans h2)
  · exact h3.trans h2

theorem State.idleTick_steady (s : State) : Machine.steady s s.idleTick :=
  steady_of_fields (s.idleTick_field (by simp)) (s.idleTick_field (by simp))

/-- Settles O53: on an empty queue nothing is queued, and a command leaves the queue's rest as it finds it. -/
theorem queueIsWorkedOffInOrder : Obligations.QueueIsWorkedOffInOrder := by
  unfold Obligations.QueueIsWorkedOffInOrder
  intro s t h
  unfold step at h
  split at h
  case h_1 hq =>
    cases h
    rw [s.idleTick_steady.1, hq, List.tail_nil]
  case h_2 c rest hq =>
    rw [(exec_steady c _ t h).1, hq, List.tail_cons]

/-- Settles O54: an idle cycle and every command are steady. -/
theorem everyStepKeepsWindowConsistent : Obligations.EveryStepKeepsWindowConsistent := by
  unfold Obligations.EveryStepKeepsWindowConsistent
  intro s t hs h
  unfold step at h
  split at h
  case h_1 =>
    cases h
    exact s.idleTick_steady.2 hs
  case h_2 c rest hq => exact (exec_steady c _ t h).2 hs

end Sys2Proof.Machine
end

section
/-!
SUPPORT. The life of a ring pair (Table 2-1): what ENABLE = 1, ENABLE = 0 and the end of its work do to it.
-/
namespace Sys2Proof.Machine

/-- The owner and the number of a pair read back from its key. -/
theorem pairOwner_pairKey (o n : Nat) (ho : o ≤ 512) (hn : n < 8) : pairOwner (pairKey o n) = o ∧ pairKey o n % 8 = n := by
  unfold pairOwner pairKey mgr
  by_cases hm : o = 512
  · simp only [hm, if_true, if_pos hn, true_and]
    omega
  · rw [if_neg hm, if_neg (by omega)]
    omega

/-- A pair that its owner has (R465). -/
theorem pair_owned {s : State} {o n : Nat} (ho : o ≤ 512) (hn : n < 8) (h : o = 512 ∨ n < (s.slice o).ringPairs) :
    ¬ (pairOwner (pairKey o n) ≠ mgr ∧ (s.slice (pairOwner (pairKey o n))).ringPairs ≤ pairKey o n % 8) := by
  obtain ⟨howner, hnumber⟩ := pairOwner_pairKey o n ho hn
  rw [howner, hnumber, mgr]
  omega

/-- A valid DISABLED pair is enabled with its pointers at zero, and no other pair changes. -/
theorem State.enablePair_valid (s : State) {k : Nat}
    (ho : ¬ (pairOwner k ≠ mgr ∧ (s.slice (pairOwner k)).ringPairs ≤ k % 8)) (hd : (s.ring k).state = .disabled)
    (hc : configBad s k = false) : ∀ j, (s.enablePair k).ring j = (s.onRing k Ring.start).ring j := by
  intro j
  simp only [State.enablePair, if_neg ho, hd, hc, Bool.false_eq_true, if_false]
  split <;> rfl

/-- A DISABLED pair whose configuration is not valid is faulted. -/
theorem State.enablePair_invalid (s : State) {k : Nat}
    (ho : ¬ (pairOwner k ≠ mgr ∧ (s.slice (pairOwner k)).ringPairs ≤ k % 8)) (hd : (s.ring k).state = .disabled)
    (hc : configBad s k = true) :
    s.enablePair k = (s.onRing k (fun r => { r with enable := true })).ringFault k badConfig 0 := by
  simp only [State.enablePair, if_neg ho, hd, hc, if_true]

/-- ENABLE = 0 drains a pair that is ENABLED or FAULTED. -/
theorem State.disablePair_drains (s : State) {k : Nat} (h : (s.ring k).state = .enabled ∨ (s.ring k).state = .faulted) :
    s.disablePair k = s.onRing k (fun r => { r with enable := false, state := .draining }) := by
  rcases h with h | h <;> simp only [State.disablePair, h]

/-- Settles O3: the pages accept the writes, and ENABLE then meets the pair in each state of Table 2-1. -/
theorem ringPairEnablesDrainsAndStops : Obligations.RingPairEnablesDrainsAndStops := by
  intro s b o n ho hn
  have henable (ha : accepts s b o = true) : exec (.ringEnable b o n) s = .next (s.enablePair (pairKey o n)) := by
    change execRingEnable b o n s = _
    rw [execRingEnable, State.pageWrite_accepts s b o _ ha, unit_next _ hn]
  refine ⟨fun ha hown hd hc => ?_, fun ha hown hd hc => ?_, fun ha hstate => ?_, fun hd hq => ?_, fun hq => ?_⟩
  · have hring := s.enablePair_valid (pair_owned ho hn hown) hd hc
    refine ⟨_, henable ha, ?_⟩
    simp only [hring, State.ring_onRing_same]
    exact ⟨rfl, rfl, rfl, rfl, rfl, rfl, fun j hj => State.ring_onRing_other _ _ _ _ hj⟩
  · refine ⟨_, henable ha, ?_⟩
    rw [s.enablePair_invalid (pair_owned ho hn hown) hd hc]
    obtain ⟨hfaulted, hcode, -⟩ := State.ringFault_state (s.onRing (pairKey o n) (fun r => { r with enable := true }))
      (pairKey o n) badConfig 0 (by simp [hd]) (by simp [hd])
    exact ⟨hfaulted, hcode, State.ringFault_waits _ _ _ _⟩
  · change execRingDisable b o n s = _
    rw [execRingDisable, State.pageWrite_accepts s b o _ ha, unit_next _ hn, s.disablePair_drains hstate]
  · change execRingDrained o n s = _
    simp only [execRingDrained, unit_next _ hn, hd, hq, and_self, if_true]
  · change execRingDrained o n s = _
    simp only [execRingDrained, unit_next _ hn, hq, Bool.false_eq_true, and_false, if_false]

end Sys2Proof.Machine
end

section
/-!
SUPPORT. What a frame tells of a reading, and the accesses of the system port: one that is permitted is outstanding with what it
asked for, one that is not leaves the port; an ended access is taken once.
-/
namespace Sys2Proof.Machine

/-! ## Readings of a field that a change leaves -/

section
variable {s t : State}

theorem req_of_field (h : t.field .reqs = s.field .reqs) (rid : Nat) : t.req rid = s.req rid :=
  congrArg (fun x => findReq x rid) h

theorem ring_of_field (h : t.field .engine = s.field .engine) (k : Nat) : t.ring k = s.ring k :=
  congrArg (fun x : RingEngine => Tab.get Ring.dflt x.pairs k) h

theorem permitted_of_field (h : t.field .access = s.field .access) (cls : AccClass) (o : Nat) (w : Bool) (addr len : Nat) :
    permitted t cls o w addr len ↔ permitted s cls o w addr len := by
  have haccess : t.access = s.access := h
  simp only [permitted, haccess]

end

/-! ## Accesses issued -/

/-- The access that stands for an ask. -/
structure Ask.issuedAs (k : Ask) (s : State) (a : Acc) : Prop where
  id : a.id = s.port.nextId
  chan : a.chan = k.chan
  kind : a.kind = k.kind
  cls : a.cls = k.cls
  owner : a.owner = k.owner
  req : a.req = k.req
  pair : a.pair = k.pair
  write : a.write = k.write
  addr : a.addr = k.addr
  len : a.len = k.len
  off : a.off = k.off
  data : a.data = k.data
  epoch : a.epoch = s.access.epochNow

variable (s : State) (k : Ask)

theorem State.issue_iff : (s.issue k).1 = true ↔ permitted s k.cls k.owner k.write k.addr k.len := by
  simp only [State.issue_permits, permitted, List.all_eq_true]

/-- A permitted access is issued. -/
theorem State.issue_of_permitted {s : State} {k : Ask} (h : permitted s k.cls k.owner k.write k.addr k.len) :
    s.issue k = (true, (s.issue k).2) := Prod.ext ((s.issue_iff k).mpr h) rfl

/-- An access that is not permitted is not issued. -/
theorem State.issue_of_not_permitted {s : State} {k : Ask} (h : ¬ permitted s k.cls k.owner k.write k.addr k.len) :
    s.issue k = (false, (s.issue k).2) :=
  Prod.ext (Bool.eq_false_iff.mpr fun hi => h ((s.issue_iff k).mp hi)) rfl

/-- An issued access is outstanding, after those that are already. -/
theorem State.issue_outstanding {s : State} {k : Ask} (h : (s.issue k).1 = true) :
    ∃ a, k.issuedAs s a ∧
      (s.issue k).2.port = { s.port with outstanding := s.port.outstanding ++ [a], nextId := s.port.nextId + 1 } := by
  rw [State.issue_permits] at h
  unfold State.issue
  simp only [List.all_map, Function.comp_def, h, if_true]
  by_cases hs : 1 < (partsOf k.addr k.len).length <;> by_cases hw : (k.write && k.kind.logged) = true <;>
    simp only [hs, hw, decide_true, decide_false, if_true, if_false, State.logPages_port, Bool.false_eq_true] <;>
    exact ⟨_, ⟨rfl, rfl, rfl, rfl, rfl, rfl, rfl, rfl, rfl, rfl, rfl, rfl, rfl⟩, rfl⟩

@[simp] theorem State.ring_issue (j : Nat) : (s.issue k).2.ring j = s.ring j := ring_of_field (by simp) j

@[simp] theorem State.req_issue (rid : Nat) : (s.issue k).2.req rid = s.req rid := req_of_field (by simp) rid

/-! ## Accesses that have ended -/

/-- The first ended access of a kind is taken from the port. -/
theorem State.takeEnded_of_find {s : State} {p : Acc → Bool} {a : Acc} (h : s.port.ended.find? p = some a) :
    s.takeEnded p = some (a, s.taken a) := by
  unfold State.takeEnded
  rw [h]
  rfl

theorem State.takeEnded_none {s : State} {p : Acc → Bool} (h : s.port.ended.find? p = none) : s.takeEnded p = none := by
  unfold State.takeEnded
  rw [h]

@[simp] theorem State.taken_field {φ : Field} (a : Acc) (hφ : φ ≠ .port) : (s.taken a).field φ = s.field φ :=
  field_set_port s _ hφ

@[simp] theorem State.ring_taken (a : Acc) (j : Nat) : (s.taken a).ring j = s.ring j := rfl

@[simp] theorem State.req_taken (a : Acc) (rid : Nat) : (s.taken a).req rid = s.req rid := rfl

end Sys2Proof.Machine
end

section
/-!
SUPPORT. Fetch (chapter 2): what a turn gives the requests that it assigns, and what the descriptor of a read does to its
request and its pair.
-/
namespace Sys2Proof.Machine

/-! ## Requests assigned for a turn -/

/-- A request as a turn on pair `key` assigns it. -/
structure Req.assignedTo (q : Req) (key chan : Nat) : Prop where
  owner : q.owner = pairOwner key
  ring : q.ring = key % 8
  stage : q.stage = .descRead
  chan : q.chan = chan

theorem State.assign_cons (s : State) (key chan rid : Nat) (l : List Nat) (i : Nat) :
    ∃ u : State, s.assign key chan (rid :: l) i = u.assign key chan l (i + 1) ∧
      u.ring key = { s.ring key with nextOrder := (s.ring key).nextOrder + 1 } ∧
      (∃ q, u.req rid = some q ∧ q.assignedTo key chan) ∧ ∀ j, j ≠ rid → u.req j = s.req j := by
  rw [State.assign]
  simp only []
  split <;> refine ⟨_, rfl, State.ring_onRing_same _ _ _, ⟨_, State.req_putReq_same _ _ _, ⟨rfl, rfl, rfl, rfl⟩⟩, fun j hj => ?_⟩ <;>
    exact State.req_putReq_other _ _ _ _ hj

theorem State.req_assign_other (s : State) (key chan : Nat) (l : List Nat) (i j : Nat) (h : j ∉ l) :
    (s.assign key chan l i).req j = s.req j := by
  induction l generalizing s i with
  | nil => rfl
  | cons rid l ih =>
    obtain ⟨u, hu, -, -, hother⟩ := s.assign_cons key chan rid l i
    rw [hu, ih u (i + 1) fun hj => h (List.mem_cons_of_mem _ hj), hother j fun hj => h (hj ▸ List.mem_cons_self)]

theorem State.req_assign (s : State) (key chan : Nat) (l : List Nat) (i : Nat) {j : Nat} (h : j ∈ l) :
    ∃ q, (s.assign key chan l i).req j = some q ∧ q.assignedTo key chan := by
  induction l generalizing s i with
  | nil => cases h
  | cons rid l ih =>
    obtain ⟨u, hu, -, ⟨q, hq, hassigned⟩, -⟩ := s.assign_cons key chan rid l i
    rw [hu]
    by_cases hj : j ∈ l
    · exact ih u (i + 1) hj
    · have hrid : j = rid := (List.mem_cons.mp h).resolve_right hj
      exact ⟨q, by rw [u.req_assign_other key chan l (i + 1) j hj, hrid, hq], hassigned⟩

/-- A turn's assignment changes nothing of its pair but the next place in ring order. -/
theorem State.ring_assign (s : State) (key chan : Nat) (l : List Nat) (i : Nat) :
    (s.assign key chan l i).ring key = { s.ring key with nextOrder := (s.ring key).nextOrder + l.length } := by
  induction l generalizing s i with
  | nil => rfl
  | cons rid l ih =>
    obtain ⟨u, hu, hring, -, -⟩ := s.assign_cons key chan rid l i
    rw [hu, ih u (i + 1), hring, List.length_cons]
    simp only [Nat.add_assoc, Nat.add_comm 1]

/-! ## The fetch turn (R65) -/

/-- The state in which a turn asks for the descriptors of its read. -/
def State.turnAssigned (s : State) (key : Nat) (ids : List Nat) : State :=
  let s1 := (s.assign key (pickChannel s) ids 0).onRing key (fun r => { r with descOut := true })
  { s1 with engine := { s1.engine with turn := key + 1 } }

theorem State.turn_onRing (s : State) (k : Nat) (f : Ring → Ring) : (s.onRing k f).engine.turn = s.engine.turn := rfl

theorem State.turn_issue (s : State) (k : Ask) : (s.issue k).2.engine.turn = s.engine.turn :=
  congrArg RingEngine.turn (State.issue_field (φ := .engine) s k (by simp))

/-- The ask of a turn. -/
def State.turnAsk (s : State) (key : Nat) (ids : List Nat) : Ask :=
  descAsk (s.turnAssigned key ids) key (pickChannel s) (turnSize s key) (s.ring key).rqHead (ids.headD 0)

theorem execFetchTurn_ready {s : State} {rids : List Nat} {key : Nat} (hn : nextReady s = some key)
    (hf : freeIds s rids (turnSize s key) = true) (hr : roomFor s (pickChannel s) 2 = true) :
    exec (.fetchTurn rids) s = .next
      (match (s.turnAssigned key (rids.take (turnSize s key))).issue (s.turnAsk key (rids.take (turnSize s key))) with
      | (true, t) => t
      | (false, t) => t.descReadLost key (rids.take (turnSize s key))) := by
  simp only [exec, execFetchTurn, hn, hf, hr, Bool.and_self, if_true]
  rfl

theorem State.turnAssigned_ring (s : State) (key : Nat) (ids : List Nat) :
    (s.turnAssigned key ids).ring key
      = { s.ring key with nextOrder := (s.ring key).nextOrder + ids.length, descOut := true } := by
  have h := State.ring_onRing_same (s.assign key (pickChannel s) ids 0) key (fun r => { r with descOut := true })
  rw [State.ring_assign] at h
  exact h

theorem State.turnAssigned_field {φ : Field} (s : State) (key : Nat) (ids : List Nat)
    (hφ : φ ≠ .engine ∧ φ ≠ .reqs ∧ φ ≠ .spread) : (s.turnAssigned key ids).field φ = s.field φ := by
  simp [State.turnAssigned, hφ]

/-- The address of a turn's read (R65). -/
def State.turnAddr (s : State) (key : Nat) : Nat :=
  ((s.ring key).rqBase.toNat + 64 * ((s.ring key).rqHead % 2 ^ (s.ring key).rqLog2)) % 2 ^ 64

theorem State.turnAsk_addr (s : State) (key : Nat) (ids : List Nat) : (s.turnAsk key ids).addr = s.turnAddr key := by
  simp only [State.turnAsk, descAsk, State.turnAssigned_ring, State.turnAddr]

theorem State.turnAsk_permitted (s : State) (key : Nat) (ids : List Nat) :
    permitted (s.turnAssigned key ids) (s.turnAsk key ids).cls (s.turnAsk key ids).owner (s.turnAsk key ids).write
        (s.turnAsk key ids).addr (s.turnAsk key ids).len ↔
      permitted s (classOf (pairOwner key)) (pairOwner key) false (s.turnAddr key) (64 * turnSize s key) := by
  rw [permitted_of_field (s.turnAssigned_field key ids (by simp)), State.turnAsk_addr]
  rfl

theorem freeIds_length {s : State} {rids : List Nat} {n : Nat} (h : freeIds s rids n = true) : (rids.take n).length = n := by
  simp only [freeIds, Bool.and_eq_true, beq_iff_eq] at h
  exact h.1.1

theorem fetchTurn_reads (s : State) (rids : List Nat) (key : Nat) (hn : nextReady s = some key)
    (hf : freeIds s rids (turnSize s key) = true) (hr : roomFor s (pickChannel s) 2 = true)
    (hp : permitted s (classOf (pairOwner key)) (pairOwner key) false (s.turnAddr key) (64 * turnSize s key)) :
    ∃ t, exec (.fetchTurn rids) s = .next t ∧ t.engine.turn = key + 1 ∧ (t.ring key).descOut = true ∧
      (∃ a ∈ t.port.outstanding, a.kind = .descriptor ∧ a.pair = key ∧ a.write = false ∧ a.chan = pickChannel s ∧
        a.len = 64 * turnSize s key ∧ a.addr = s.turnAddr key) ∧
      ∀ rid ∈ rids.take (turnSize s key),
        ∃ q, t.req rid = some q ∧ q.owner = pairOwner key ∧ q.ring = key % 8 ∧ q.stage = .descRead ∧
          q.chan = pickChannel s := by
  have hissue := State.issue_of_permitted ((s.turnAsk_permitted key (rids.take (turnSize s key))).mpr hp)
  obtain ⟨a, ha, hport⟩ := State.issue_outstanding (congrArg Prod.fst hissue)
  refine ⟨_, (execFetchTurn_ready hn hf hr).trans (by rw [hissue]), ?_, ?_, ⟨a, ?_, ha.kind, ha.pair, ha.write, ha.chan, ha.len,
    ha.addr.trans (s.turnAsk_addr _ _)⟩, fun rid hrid => ?_⟩
  · rw [State.turn_issue]
    rfl
  · rw [State.ring_issue, State.turnAssigned_ring]
  · rw [hport]
    exact List.mem_append_right _ (List.mem_singleton_self a)
  · obtain ⟨q, hq, hassigned⟩ := s.req_assign key (pickChannel s) (rids.take (turnSize s key)) 0 hrid
    exact ⟨q, (State.req_issue _ _ _).trans hq, hassigned.owner, hassigned.ring, hassigned.stage, hassigned.chan⟩

theorem fetchTurn_denied (s : State) (rids : List Nat) (key : Nat) (hn : nextReady s = some key)
    (hf : freeIds s rids (turnSize s key) = true) (hr : roomFor s (pickChannel s) 2 = true)
    (hp : ¬ permitted s (classOf (pairOwner key)) (pairOwner key) false (s.turnAddr key) (64 * turnSize s key))
    (hsize : 2 ≤ turnSize s key) :
    ∃ t, exec (.fetchTurn rids) s = .next t ∧ t.engine.turn = key + 1 ∧ (t.ring key).descOut = false ∧
      (t.ring key).reread = rids.take (turnSize s key) ∧ t.port = s.port := by
  have hissue := State.issue_of_not_permitted (mt (s.turnAsk_permitted key (rids.take (turnSize s key))).mp hp)
  have hlen := freeIds_length hf
  have hlost (u : State) : u.descReadLost key (rids.take (turnSize s key))
      = u.onRing key (fun r => { r with descOut := false, reread := rids.take (turnSize s key) }) := by
    unfold State.descReadLost
    split
    next h => simp [h] at hlen; omega
    · rfl
  have hexec : exec (.fetchTurn rids) s = .next (((s.turnAssigned key (rids.take (turnSize s key))).issue
      (s.turnAsk key (rids.take (turnSize s key)))).2.onRing key
        (fun r => { r with descOut := false, reread := rids.take (turnSize s key) })) := by
    rw [execFetchTurn_ready hn hf hr, hissue]
    exact congrArg Host.Outcome.next (hlost _)
  refine ⟨_, hexec, ?_, ?_, ?_, ?_⟩
  · rw [State.turn_onRing, State.turn_issue]
    rfl
  · rw [State.ring_onRing_same]
  · rw [State.ring_onRing_same]
  · rw [State.onRing_port, State.issue_denied _ _ (congrArg Prod.fst hissue)]
    exact s.turnAssigned_field (φ := .port) key _ (by simp)

/-! ## The one descriptor of a read arrives (R76, R36, R116) -/

/-- The ending of a request at Fetch: its slice is stopping, or the descriptor is wrong. -/
def fetchFailed (s : State) (q : Req) (d : Desc) : Option Ending :=
  if stopping s q.owner then some (ends .quiesced 0x01)
  else fetchCheck q.cls (portConfigured s q.owner d.linePort) s.pke.routineSet d

/-- A request that no ABORT waits for, with the descriptor that has arrived for it and what Fetch found. -/
def Req.arrived (q : Req) (d : Desc) (ep : Nat) (failed : Option Ending) : Req :=
  let q1 := { q with d := d, handle := d.handle, ord := fetchKey d, epochs := { q.epochs with desc := ep % 16 }, abortWaiting := [] }
  match failed with
  | some e => q1.endOuter e
  | none =>
    if d.opcode = 0x71 then { q1 with stage := .abortWait, ord := .null }
    else if needsResolve d then { q1 with stage := .resolve }
    else { q1 with stage := .gate }

theorem State.takeDescriptor_eq (s : State) {rid : Nat} {q : Req} (ep : Nat) (bs : Bytes) (hq : s.req rid = some q)
    (haborts : q.abortWaiting = []) :
    s.takeDescriptor rid ep bs = s.putReq rid (q.arrived (parseDesc bs) ep (fetchFailed s q (parseDesc bs))) := by
  simp only [State.takeDescriptor, hq, haborts, State.settleAborts, List.foldl_nil, ite_self, Req.arrived, fetchFailed] <;> rfl

theorem Req.arrived_desc (q : Req) (d : Desc) (ep : Nat) (failed : Option Ending) :
    (q.arrived d ep failed).d = d ∧ (q.arrived d ep failed).epochs.desc = ep % 16 := by
  unfold Req.arrived Req.endOuter
  simp only []
  repeat' split
  all_goals exact ⟨rfl, rfl⟩

theorem Req.arrived_passed (q : Req) (d : Desc) (ep : Nat) (hstat : q.stat = none) :
    (q.arrived d ep none).stat = none ∧
      (q.arrived d ep none).stage = if d.opcode = 0x71 then .abortWait else if needsResolve d then .resolve else .gate := by
  simp only [Req.arrived]
  repeat' split
  all_goals exact ⟨hstat, rfl⟩

theorem Req.arrived_failed (q : Req) (d : Desc) (ep : Nat) (e : Ending) (hstat : q.stat = none) :
    (q.arrived d ep (some e)).stage = .over ∧ (q.arrived d ep (some e)).outerEnded = true ∧
      (q.arrived d ep (some e)).stat.map Stat.ending = some e := by
  simp [Req.arrived, Req.endOuter, hstat]

theorem descriptorArrival_one (s : State) (o n rid : Nat) (a : Acc) (q : Req) (hn : n < 8)
    (hfind : (s.port.ended.find? (fun a => decide (a.kind = .descriptor) && a.pair == pairKey o n && !a.write)) = some a)
    (hone : ((s.ring (pairKey o n)).reread = [] ∧ inOrder s (reading s (pairKey o n)) = [rid]) ∨
      (s.ring (pairKey o n)).reread = [rid]) (hq : s.req rid = some q) (haborts : q.abortWaiting = []) :
    ∃ t, exec (.descriptorArrival o n) s = .next t ∧
      t.req rid = some (q.arrived (parseDesc (cut a.data 0 64)) a.epoch.toNat (fetchFailed s q (parseDesc (cut a.data 0 64)))) ∧
      t.ring (pairKey o n) = { s.ring (pairKey o n) with
        descOut := false, reread := []
        rqHead := ptrAdd (s.ring (pairKey o n)).rqHead 1 (s.ring (pairKey o n)).rqLog2 } := by
  have hrids : (if (!(s.ring (pairKey o n)).reread.isEmpty) = true then (s.ring (pairKey o n)).reread.take 1
      else inOrder s (reading s (pairKey o n))) = [rid] := by
    rcases hone with ⟨h, hin⟩ | h <;> simp [h]
    exact hin
  have hdrop : (s.ring (pairKey o n)).reread.drop 1 = [] := by rcases hone with ⟨h, -⟩ | h <;> simp [h]
  change ∃ t, execDescriptorArrival o n s = .next t ∧ _
  simp only [execDescriptorArrival, unit_next _ hn, State.takeEnded_of_find hfind, hrids, State.takeDescriptors, List.length_singleton,
    Nat.mul_zero]
  refine ⟨_, congrArg Host.Outcome.next (State.takeDescriptor_eq _ _ _ hq haborts), State.req_putReq_same _ _ _, ?_⟩
  refine (State.ring_onRing_same _ _ _).trans ?_
  rw [State.ring_taken, hdrop]

/-! ## A descriptor of a denied read is read again by itself (R498) -/

theorem descSingleReread_reads (s : State) (o n rid : Nat) (rest : List Nat) (q : Req) (hn : n < 8)
    (hreread : (s.ring (pairKey o n)).reread = rid :: rest) (hout : (s.ring (pairKey o n)).descOut = false)
    (hq : s.req rid = some q) (hroom : roomFor s q.chan 2 = true)
    (hp : permitted s (classOf (pairOwner (pairKey o n))) (pairOwner (pairKey o n)) false
      (((s.ring (pairKey o n)).rqBase.toNat + 64 * (q.pos % 2 ^ (s.ring (pairKey o n)).rqLog2)) % 2 ^ 64) 64) :
    ∃ t a, exec (.descSingleReread o n) s = .next t ∧ (t.ring (pairKey o n)).descOut = true ∧
      t.port.outstanding = s.port.outstanding ++ [a] ∧ a.kind = .descriptor ∧ a.req = rid ∧ a.len = 64 ∧
      a.addr = ((s.ring (pairKey o n)).rqBase.toNat + 64 * (q.pos % 2 ^ (s.ring (pairKey o n)).rqLog2)) % 2 ^ 64 := by
  have hring := State.ring_onRing_same s (pairKey o n) (fun x => { x with descOut := true })
  have hissue := State.issue_of_permitted (s := s.onRing (pairKey o n) (fun x => { x with descOut := true }))
    (k := descAsk (s.onRing (pairKey o n) (fun x => { x with descOut := true })) (pairKey o n) q.chan 1 q.pos rid) (by
      simp only [descAsk, hring]
      exact hp)
  obtain ⟨a, ha, hport⟩ := State.issue_outstanding (congrArg Prod.fst hissue)
  have hexec : exec (.descSingleReread o n) s = .next ((s.onRing (pairKey o n) (fun x => { x with descOut := true })).issue
      (descAsk (s.onRing (pairKey o n) (fun x => { x with descOut := true })) (pairKey o n) q.chan 1 q.pos rid)).2 := by
    change execDescSingleReread o n s = _
    simp only [execDescSingleReread, unit_next _ hn, hreread, hq, Option.getD_some, hout, hroom, Bool.false_eq_true,
      Bool.true_eq_false, or_self, if_false]
    rw [hissue]
  refine ⟨_, a, hexec, by rw [State.ring_issue, hring], by rw [hport]; rfl, ha.kind, ha.req, ha.len, ha.addr.trans ?_⟩
  simp only [descAsk, hring]

/-- Settles O4: a turn's read issued or denied, the one descriptor of a read, and the reread by itself. -/
theorem descriptorsAreReadWholeOrSingly : Obligations.DescriptorsAreReadWholeOrSingly := by
  unfold Obligations.DescriptorsAreReadWholeOrSingly
  refine ⟨fun s rids key hn hf hr => ⟨fetchTurn_reads s rids key hn hf hr, fetchTurn_denied s rids key hn hf hr⟩,
    fun s o n rid a q hn => ?_, descSingleReread_reads⟩
  intro key r hfind hone hq hstat haborts d failed
  obtain ⟨t, hexec, hreq, hring⟩ := descriptorArrival_one s o n rid a q hn hfind hone hq haborts
  obtain ⟨hd, hepoch⟩ := q.arrived_desc d a.epoch.toNat failed
  refine ⟨t, _, hexec, hreq, by rw [hring], by rw [hring], by rw [hring], hd, hepoch, fun hnone => ?_, fun e he => ?_⟩
  · have h := q.arrived_passed d a.epoch.toNat hstat
    rwa [← hnone] at h
  · rw [show fetchFailed s q (parseDesc (cut a.data 0 64)) = some e from he]
    exact q.arrived_failed d a.epoch.toNat e hstat

end Sys2Proof.Machine
end

section
/-!
SUPPORT. The Seam gate, Resolve and the arrivals of octets (chapters 1 and 3).
-/
namespace Sys2Proof.Machine

/-- A change of a request in flight is its recording. -/
theorem State.onReq_of_req {s : State} {rid : Nat} {q : Req} (f : Req → Req) (h : s.req rid = some q) :
    s.onReq rid f = s.putReq rid (f q) := by
  unfold State.onReq
  rw [h]

section
variable {s : State} {rid : Nat} {q : Req} (hq : s.req rid = some q)
include hq

/-! ## The gate (R123, R124, R127, R148) -/

theorem State.gateTry_held (hg : q.stage = .gate) (hh : gateHeld s q = true) : s.gateTry rid = s.countHold rid q := by
  simp only [State.gateTry, hq, hg, hh, ne_eq, not_true_eq_false, if_false, if_true]

theorem State.gateTry_fence (hg : q.stage = .gate) (hh : gateHeld s q = false) (ht : inTurn s q = true) (hop : q.d.opcode = 0x70) :
    s.gateTry rid = s.putReq rid (q.endOuter (ends .ok 0)) := by
  simp [State.gateTry, hq, hg, hh, ht, hop, State.onReq_of_req]

theorem State.gateTry_gather (hg : q.stage = .gate) (hh : gateHeld s q = false) (ht : inTurn s q = true)
    (hop : q.d.opcode ≠ 0x70) (hs : q.homeGrant.isSome ∨ spreadOf s (pairKey q.owner q.ring) = none) :
    s.gateTry rid = s.gatherStart rid := by
  have hhome : ¬ (q.homeGrant.isNone = true ∧ (spreadOf s (pairKey q.owner q.ring)).isSome = true) := by
    rintro ⟨hnone, hspread⟩
    rcases hs with h | h <;> simp_all
  simp only [State.gateTry, hq, hg, hh, ht, ne_eq, not_true_eq_false, if_false, Bool.false_eq_true, Bool.not_true, if_neg hop,
    if_neg hhome]

theorem State.gateTry_granted (hg : q.stage = .gate) (hh : gateHeld s q = false) (ht : inTurn s q = true)
    (hop : q.d.opcode ≠ 0x70) (hhome : q.homeGrant = none) (hs : (spreadOf s (pairKey q.owner q.ring)).isSome = true) :
    s.gateTry rid = s.putReq rid { q with stage := .granted } := by
  simp [State.gateTry, hq, hg, hh, ht, hop, hhome, hs, State.onReq_of_req]

/-! ## Resolve (R269) -/

theorem execResolve_of_found (hst : q.stage = .resolve) (hd : dirAhead s q = false) {e : Entry} (hf : q.found = some e) :
    exec (.resolve rid) s = .next (s.commitFound rid q e) := by
  simp [exec, execResolve, hq, hst, hd, hf]

theorem execResolve_of_lookup (hst : q.stage = .resolve) (hd : dirAhead s q = false) (hf : q.found = none)
    (hl : ∀ n, lookupOf (s.linePort q.d.linePort) q.d q.inData ≠ .needInput n) :
    exec (.resolve rid) s = .next (s.lookup rid q (lookupOf (s.linePort q.d.linePort) q.d q.inData)) := by
  simp only [exec, execResolve, hq, hst, hd, hf, ne_eq, not_true_eq_false, Bool.false_eq_true, or_self, if_false]

omit hq in
/-- Only the lookups of Tables 7-3 and 7-4 need octets of the input, and no DIR opcode makes one of those. -/
theorem opcode_of_needInput {l : LinePort} {d : Desc} {input : Bytes} {n : Nat} (h : lookupOf l d input = .needInput n) :
    d.opcode ≠ 0x30 := by
  intro hop
  simp only [lookupOf, hop, Nat.reduceEqDiff, or_self, false_and, if_false] at h
  split at h
  · split at h <;> cases h
  · cases h

theorem execResolve_of_needInput (hst : q.stage = .resolve) (hd : dirAhead s q = false) (hf : q.found = none) {n a left : Nat}
    (hl : lookupOf (s.linePort q.d.linePort) q.d q.inData = .needInput n) (hlist : q.d.fragList = false)
    (hmore : q.inData.length < min n q.d.inLen) (hoff : q.readOff = q.inData.length)
    (hreg : regionAt q.inRegions q.readOff = some (a, left))
    (hstage : stagingRoom s q (q.readOff + min (min 128 left) (q.d.inLen - q.readOff)) = true)
    (hroom : roomFor s q.chan 2 = true)
    (hp : permitted s (classOf q.owner) q.owner false (a % 2 ^ 64) (min (min 128 left) (q.d.inLen - q.readOff))) :
    ∃ t x, exec (.resolve rid) s = .next t ∧ t.port.outstanding = s.port.outstanding ++ [x] ∧ x.kind = .input ∧
      x.write = false ∧ x.req = rid ∧ x.addr = a % 2 ^ 64 ∧ x.len = min (min 128 left) (q.d.inLen - q.readOff) ∧
      x.off = q.readOff ∧ t.req rid = some { q with readOff := q.readOff + min (min 128 left) (q.d.inLen - q.readOff) } := by
  have htotal : q.inputTotal = some q.d.inLen := by simp [Req.inputTotal, opcode_of_needInput hl, hlist]
  have hissue := State.issue_of_permitted
    (k := q.ask rid .input false a (min (min 128 left) (q.d.inLen - q.readOff)) q.readOff []) hp
  obtain ⟨x, hx, hport⟩ := State.issue_outstanding (congrArg Prod.fst hissue)
  have hread : s.gatherRead rid (q.ask rid .input false a (min (min 128 left) (q.d.inLen - q.readOff)) q.readOff [])
      = (true, (s.issue (q.ask rid .input false a (min (min 128 left) (q.d.inLen - q.readOff)) q.readOff [])).2) := by
    unfold State.gatherRead
    rw [hissue]
  have hexec : exec (.resolve rid) s = .next ((s.issue (q.ask rid .input false a
      (min (min 128 left) (q.d.inLen - q.readOff)) q.readOff [])).2.onReq rid
        (fun r => { r with readOff := r.readOff + min (min 128 left) (q.d.inLen - q.readOff) })) := by
    simp only [exec, execResolve, hq, hst, hd, hf, hl, ne_eq, not_true_eq_false, Bool.false_eq_true, or_self, if_false, hlist,
      false_and, htotal, Option.getD_some, if_neg (Nat.not_le.mpr hmore), if_neg (not_not.mpr hoff), hreg, hstage, hroom,
      Bool.not_true, hread]
  refine ⟨_, x, hexec, ?_, hx.kind, hx.write, hx.req, hx.addr, hx.len, hx.off, ?_⟩
  · exact (congrArg Port.outstanding (State.onReq_field (φ := .port) _ _ _ (by simp))).trans (congrArg Port.outstanding hport)
  · rw [State.req_onReq_same, State.req_issue, hq]
    rfl

end

/-! ## Octets that arrive (R81, R38, R39) -/

theorem execFragmentListArrival_of_find {s : State} {rid : Nat} {q : Req} {a : Acc} (hq : s.req rid = some q)
    (h : s.port.ended.find? (fun a => decide (a.kind = .fragList) && a.req == rid) = some a) :
    exec (.fragmentListArrival rid) s
      = .next (((s.taken a).putReq rid
          { q with
            frags := q.frags ++ (List.range (a.len / 16)).map (fun i => ((fragEntry a.data i).1, (fragEntry a.data i).2.1))
            fragsRead := q.fragsRead + a.len / 16
            listDone := decide (q.d.fragCount ≤ q.fragsRead + a.len / 16) }).gatherOn rid) := by
  have htaken : (s.taken a).req rid = some q := hq
  simp only [exec, execFragmentListArrival, State.takeEnded_of_find h, State.onReq_of_req _ htaken, List.map_map,
    List.length_map, List.length_range]
  rfl

theorem execInputDataArrival_of_side {s : State} {rid : Nat} {q : Req} {a : Acc} (hq : s.req rid = some q)
    (h : s.port.ended.find? (fun a => decide (a.kind = .side) && a.req == rid && a.off == q.side.length) = some a) :
    exec (.inputDataArrival rid) s
      = .next (((s.taken a).putReq rid
          { q with
            side := q.side ++ a.data
            sideDone := decide (sideLen q.d ≤ q.side.length + a.data.length)
            epochs := { q.epochs with side := q.epochs.side ++ [(a.data.length, a.epoch.toNat % 16)] } }).gatherOn rid) := by
  have htaken : (s.taken a).req rid = some q := hq
  simp only [exec, execInputDataArrival, hq, State.takeEnded_of_find h, State.onReq_of_req _ htaken]

theorem execInputDataArrival_of_input {s : State} {rid : Nat} {q : Req} {a : Acc} (hq : s.req rid = some q)
    (hnone : s.port.ended.find? (fun a => decide (a.kind = .side) && a.req == rid && a.off == q.side.length) = none)
    (h : s.port.ended.find? (fun a => decide (a.kind = .input) && a.req == rid && a.off == q.inData.length) = some a) :
    exec (.inputDataArrival rid) s
      = .next (((s.taken a).putReq rid
          { q with
            inData := q.inData ++ a.data
            epochs := { q.epochs with input := q.epochs.input ++ [(a.data.length, a.epoch.toNat % 16)] } }).gatherOn rid) := by
  have htaken : (s.taken a).req rid = some q := hq
  simp only [exec, execInputDataArrival, hq, State.takeEnded_none hnone, State.takeEnded_of_find h, State.onReq_of_req _ htaken]

theorem execBlobReadArrival_of_find {s : State} {rid : Nat} {q : Req} {a : Acc} (hq : s.req rid = some q)
    (h : s.port.ended.find? (fun a => decide (a.kind = .blob) && a.req == rid) = some a) (hst : q.stage = .blobRead) :
    exec (.blobReadArrival rid) s
      = .next ((s.taken a).putReq rid
          { q with blob := a.data, stage := .gate, epochs := { q.epochs with blob := a.epoch.toNat % 16 } }) := by
  have htaken : (s.taken a).req rid = some q := hq
  simp only [exec, execBlobReadArrival, State.takeEnded_of_find h, State.onReq_of_req _ htaken, hst, if_true]

theorem execNopFence_eq {s : State} {rid : Nat} {q : Req} (hq : s.req rid = some q) (hop : q.d.opcode = 0x70) :
    exec (.nopFence rid) s = .next (s.gateTry rid) := by
  simp only [exec, execNopFence, hq, hop, if_true]

/-- Settles O5: the gate in each of its cases, the three turns of Resolve, and each arrival. -/
theorem gateResolverAndArrivalsServeRequests : Obligations.GateResolverAndArrivalsServeRequests := by
  unfold Obligations.GateResolverAndArrivalsServeRequests
  refine ⟨fun s rid q hq hg => ⟨fun hh => ?_, fun hh ht hop => ⟨fun hs => ?_, fun hhome hs => ?_⟩, fun hh ht hop hstat => ?_,
    fun hh hop => ?_⟩, fun s rid q hq => ⟨fun hst hd => ⟨fun e hf => ?_, fun hf hl => ?_, ?_⟩, fun a h hst => ?_⟩,
    fun s rid q a hq => ⟨?_, ?_, ?_⟩⟩
  · exact congrArg Host.Outcome.next (State.gateTry_held hq hg hh)
  · exact congrArg Host.Outcome.next (State.gateTry_gather hq hg hh ht hop hs)
  · exact congrArg Host.Outcome.next (State.gateTry_granted hq hg hh ht hop hhome hs)
  · refine ⟨_, q.endOuter (ends .ok 0), execNopFence_eq hq hop, rfl, ?_, ?_⟩
    · rw [State.gateTry_fence hq hg hh ht hop, State.req_putReq_same]
    · simp [Req.endOuter, hstat, ends]
  · rw [execNopFence_eq hq hop, State.gateTry_held hq hg hh]
  · exact execResolve_of_found hq hst hd hf
  · exact execResolve_of_lookup hq hst hd hf hl
  · intro n a left hf hl hlist hmore hoff hreg k
    exact execResolve_of_needInput hq hst hd hf hl hlist hmore hoff hreg
  · exact execBlobReadArrival_of_find hq h hst
  · exact execFragmentListArrival_of_find hq
  · exact execInputDataArrival_of_side hq
  · exact execInputDataArrival_of_input hq

end Sys2Proof.Machine
end

section
/-!
SUPPORT. The beats of the Seam that reach Myeno (chapter 1): HEAD, inward DATA and CANCEL.
-/
namespace Sys2Proof.Machine

/-! ## Recording a request twice -/

theorem Tab.ins_ins {α : Type} (t : Tab α) (k : Nat) (v w : α) : Tab.ins (Tab.ins t k v) k w = Tab.ins t k w := by
  induction t with
  | nil => simp [Tab.ins]
  | cons e t ih =>
    obtain ⟨j, x⟩ := e
    by_cases hlt : k < j
    · simp [Tab.ins, hlt]
    · by_cases heq : j = k
      · simp [Tab.ins, heq]
      · simp [Tab.ins, hlt, heq, ih]

@[simp] theorem State.putReq_putReq (s : State) (rid : Nat) (q r : Req) : (s.putReq rid q).putReq rid r = s.putReq rid r := by
  simp only [State.putReq, Tab.ins_ins]

/-! ## HEAD (R42, R43) -/

/-- A request after its HEAD has been taken in the state `v` in which its slots are verified. -/
def Req.headTaken (q : Req) (v : State) (b : Beat) (rest : List Beat) : Req :=
  { q with
    seam := rest
    m := { q.m with
      headSeen := true, headTag := b.tag, lastSeen := b.tag.getLsbD 53
      exhaustedAtCheck := (namedSlots q).filter (fun n => decide ((v.slot n).state = .exhausted))
      totalWrong := if b.tag.getLsbD 53 then q.lengthWrong else none } }

/-- What the checks of a HEAD find in the state after it (R42, R43). -/
def headVerdict (t : State) (q : Req) : Option Ending :=
  match refusedOutright t with
  | some e => some e
  | none =>
    if t.start.state == StartState.resetting then some (ends .partialEnd 0x02)
    else if isLaneOp q.d.opcode ∧ q.entry.isSome then none else headChecks t q

/-- A request that Myeno does not refuse outright, while no reset drains it: the checks of its kind decide. -/
theorem headVerdict_of_passed {v : State} {rid : Nat} {q r : Req} (hnot : refusedOutright (v.putReq rid r) = none)
    (hstate : v.start.state ≠ .resetting) :
    headVerdict (v.putReq rid r) q
      = if isLaneOp q.d.opcode ∧ q.entry.isSome then none else headChecks (v.putReq rid r) q := by
  have hrunning : ((v.putReq rid r).start.state == StartState.resetting) = false := by simpa using hstate
  simp only [headVerdict, hnot, hrunning, Bool.false_eq_true, if_false]

section
variable {s v : State} {rid : Nat} {q : Req} {b : Beat} {rest : List Beat} (hq : s.req rid = some q) (hseam : q.seam = b :: rest)
  (hkind : b.kind = BeatKind.head.code) (hseen : q.m.headSeen = false) (hv : v = (namedSlots q).foldl State.verifySlot s)
  (hvq : v.req rid = some q)
include hq hseam hkind hseen hv hvq

theorem execHeadArrival_refused {e : Ending} (he : e.st ≠ .partialEnd)
    (h : headVerdict (v.putReq rid (q.headTaken v b rest)) q = some e) :
    exec (.headArrival rid) s = .next ((v.putReq rid (q.headTaken v b rest)).checkFail rid e) := by
  have hst : (e.st == Status.partialEnd) = false := by simpa using he
  simp only [exec, execHeadArrival, hq, hseam, hkind, hseen, ne_eq, not_true_eq_false, Bool.false_eq_true, or_self, if_false,
    ← hv, State.onReq_of_req _ hvq]
  change Host.Outcome.next (match headVerdict (v.putReq rid (q.headTaken v b rest)) q with | some e => _ | none => _) = _
  rw [h]
  simp only [hst, Bool.false_eq_true, if_false]
  rfl

theorem execHeadArrival_passed (h : headVerdict (v.putReq rid (q.headTaken v b rest)) q = none) :
    exec (.headArrival rid) s
      = .next (((((v.putReq rid (q.headTaken v b rest)).checkOn rid).stageOn rid).lengthEnd rid).readOutList rid) := by
  simp only [exec, execHeadArrival, hq, hseam, hkind, hseen, ne_eq, not_true_eq_false, Bool.false_eq_true, or_self, if_false,
    ← hv, State.onReq_of_req _ hvq]
  change Host.Outcome.next (match headVerdict (v.putReq rid (q.headTaken v b rest)) q with | some e => _ | none => _) = _
  rw [h]
  rfl

end

/-! ## Inward DATA (R26, R27, R45) -/

/-- Bit 59 of a tag is POISON: a tag without it is the tag that was sent. -/
theorem tag_without_poison {tag : U64} (h : tag.getLsbD 59 = false) : tag &&& ~~~(0x0800000000000000#64) = tag := by
  have hbit : (0x0800000000000000#64 : U64) = BitVec.twoPow 64 59 := by decide
  refine BitVec.eq_of_getLsbD_eq fun i hi => ?_
  by_cases h59 : i = 59
  · rw [h59, BitVec.getLsbD_and, h, Bool.false_and]
  · rw [hbit, BitVec.getLsbD_and, BitVec.getLsbD_not, BitVec.getLsbD_twoPow]
    simp [hi, Ne.symm h59]

section
variable {s : State} {tag : U64} {q : Req} {b : Beat} {rest : List Beat} (hq : s.req (fld tag.toNat 0 16) = some q)
  (hseam : q.seam = b :: rest) (hseen : q.m.headSeen = true) (hhead : b.kind ≠ BeatKind.head.code)
  (hcancel : b.kind ≠ BeatKind.cancel.code)
include hq hseam hseen hhead hcancel

theorem execInwardBeat_disagrees (h : r26Fields tag ≠ r26Fields q.m.headTag) :
    exec (.inwardBeatArrival tag) s
      = .next ((s.putReq (fld tag.toNat 0 16) { q with seam := rest }).seamIntegrity (fld tag.toNat 0 16) q) := by
  simp only [exec, execInwardBeatArrival, hq, hseam, hseen, Bool.not_true, Bool.false_eq_true, if_false, hhead, hcancel, or_self,
    ne_eq, h, not_false_eq_true, if_true, State.onReq_of_req _ hq]

/-- Myeno's record after a beat of the request. -/
def Req.beatSeen (q : Req) (tag : U64) : Myeno :=
  { q.m with
    lastSeen := q.m.lastSeen || tag.getLsbD 53
    totalWrong := if tag.getLsbD 53 then q.lengthWrong else q.m.totalWrong }

variable (hfields : r26Fields tag = r26Fields q.m.headTag) (hending : q.m.ending = none)
include hfields hending

theorem execInwardBeat_taken (htag : tag = b.tag) (hpoison : tag.getLsbD 59 = false) :
    exec (.inwardBeatArrival tag) s
      = .next ((((s.putReq (fld tag.toNat 0 16)
          { q with seam := rest, m := { q.beatSeen tag with beats := q.m.beats ++ [b] } }).checkOn (fld tag.toNat 0 16)).stageOn
            (fld tag.toNat 0 16)).lengthEnd (fld tag.toNat 0 16)) := by
  simp only [exec, execInwardBeatArrival, hq, hseam, hseen, Bool.not_true, Bool.false_eq_true, if_false, hhead, hcancel, or_self,
    ne_eq, hfields, not_true_eq_false, (tag_without_poison hpoison).trans htag, hending, Option.isSome_none, hpoison,
    State.onReq_of_req _ hq, State.onReq_of_req _ (State.req_putReq_same _ _ _), State.putReq_putReq,
    Req.beatSeen, Myeno.take, Req.lengthWrong]

theorem execInwardBeat_poisoned (htag : tag &&& ~~~(0x0800000000000000#64) = b.tag) (hpoison : tag.getLsbD 59 = true) :
    exec (.inwardBeatArrival tag) s
      = .next ((s.putReq (fld tag.toNat 0 16) { q with seam := rest, m := q.beatSeen tag }).poisonEnd (fld tag.toNat 0 16)) := by
  simp only [exec, execInwardBeatArrival, hq, hseam, hseen, Bool.not_true, Bool.false_eq_true, if_false, hhead, hcancel, or_self,
    ne_eq, hfields, not_true_eq_false, htag, hending, Option.isSome_none, hpoison, if_true,
    State.onReq_of_req _ hq, State.onReq_of_req _ (State.req_putReq_same _ _ _), State.putReq_putReq,
    Req.beatSeen, Myeno.take, Req.lengthWrong]

end

/-! ## CANCEL (R41) -/

/-- The status of a CANCEL beat is read back from its code. -/
theorem status_of_code (st : Status) :
    ([Status.ok, .okAbortLate, .partialEnd, .lengthMismatch, .fragmentFault, .accessFault, .requestInvalid,
      .keyStale, .keyAbsent, .keyNotOwned, .nonceExhausted, .authFail, .keyPoisoned, .notPermitted,
      .rngUnavailable, .pkeReject, .aborted, .quiesced, .retryImpossible, .directoryMiss].find?
        (fun x => x.code == st.code)).getD .internal = st := by
  cases st <;> rfl

theorem execCancel_taken {s : State} {rid : Nat} {q : Req} {b : Beat} {rest : List Beat} {e : Ending} (hq : s.req rid = some q)
    (hseam : q.seam = b :: rest) (hseen : q.m.headSeen = true) (hkind : b.kind = BeatKind.cancel.code)
    (hst : leNat (cut b.data 0 1) = e.st.code) (hdetail : leNat (cut b.data 1 1) = e.detail) :
    exec (.cancel rid) s
      = .next ((s.putReq rid { q with seam := rest, m := { q.m with cancel := some e, lastSeen := true } }).stopRequest rid e e) := by
  have he : ends e.st e.detail = e := rfl
  simp only [exec, execCancel, hq, hseam, hkind, hseen, Bool.not_true, Bool.false_eq_true, ne_eq, not_true_eq_false, or_self,
    if_false, hst, status_of_code, hdetail, he, State.onReq_of_req _ hq]

/-- Settles O6: HEAD with what its checks find, an inward beat by its tag, and CANCEL. -/
theorem headAndInwardBeatsReachMyeno : Obligations.HeadAndInwardBeatsReachMyeno := by
  unfold Obligations.HeadAndInwardBeatsReachMyeno
  refine ⟨?_, ?_, fun s rid q b rest e hq hseam hseen hkind hst hdetail =>
    execCancel_taken hq hseam hseen hkind hst hdetail⟩
  · intro s v rid q b rest hq hseam hkind hseen hv hvq taken
    refine ⟨fun e he hrefused => ?_, fun hnot hstate => ⟨fun e he hlane hcheck => ?_, fun hpass => ?_⟩⟩
    · refine execHeadArrival_refused hq hseam hkind hseen hv hvq he ?_
      simp only [headVerdict, show refusedOutright (v.putReq rid (q.headTaken v b rest)) = some e from hrefused]
    · refine execHeadArrival_refused hq hseam hkind hseen hv hvq he ?_
      rw [headVerdict_of_passed (rid := rid) (r := q.headTaken v b rest) hnot hstate,
        if_neg (by rcases hlane with h | h <;> simp [h])]
      exact hcheck
    · refine execHeadArrival_passed hq hseam hkind hseen hv hvq ?_
      rw [headVerdict_of_passed (rid := rid) (r := q.headTaken v b rest) hnot hstate]
      split
      · rfl
      · exact hpass.resolve_left ‹_›
  · intro s tag rid
    refine ⟨fun hq => ?_, fun q b rest hq hseam hseen hhead hcancel => ⟨fun hfields => ?_, fun hfields hending => ⟨?_, ?_⟩⟩⟩
    · simp only [exec, execInwardBeatArrival, show s.req (fld tag.toNat 0 16) = none from hq]
      rfl
    · exact execInwardBeat_disagrees hq hseam hseen hhead hcancel hfields
    · exact fun htag hpoison => execInwardBeat_taken hq hseam hseen hhead hcancel hfields hending htag hpoison
    · exact fun htag hpoison => execInwardBeat_poisoned hq hseam hseen hhead hcancel hfields hending htag hpoison

end Sys2Proof.Machine
end

section
/-!
SUPPORT. The end of the outward stream and the writes of the output and of the chain state (chapters 1, 2 and 7).
-/
namespace Sys2Proof.Machine

section
variable {s : State} {rid : Nat} {q : Req} (hq : s.req rid = some q)
include hq

theorem execStatArrival_ready {st : Stat} (hsent : q.m.statSent = some st) (hstat : q.stat = none) (hready : q.statReady = true) :
    exec (.statArrival rid) s
      = .next ((s.putReq rid
          { q with
            stat := some st
            stage := if isDirOp q.d.opcode && st.ending.st.good then .gather else .over
            outerEnded := !q.m.dispatched && q.m.cancel.isSome && q.m.cancel == some st.ending }).learnCommit rid q
              st.ending.st.good) := by
  simp only [exec, execStatArrival, hq, hsent, hstat, hready, Option.isSome_none, Bool.not_true, Bool.false_eq_true, or_self,
    if_false, State.onReq_of_req _ hq]

/-! ## Writes of the output (R51, R52, R572) -/

/-- The ask of the next write of a request's output, of the `room` octets at `addr` at most. -/
def Req.outAsk (q : Req) (rid addr room : Nat) : Ask :=
  q.ask rid .output true addr (min q.nextOut room) q.outOff (cut q.out q.outOff (min q.nextOut room))

variable {addr room : Nat} (hend : q.outEnd = none) (hrecord : q.recordIssued = false)

section
variable (hnext : q.nextOut ≠ 0) (hpending : q.outPending < 64)
  (hroom : roomFor s q.chan 2 = true) (hat : q.outAt q.outOff = some (addr, room))
include hend hrecord hnext hpending hroom hat

theorem execOutputWriteIssue_eq :
    exec (.outputWriteIssue rid) s = .next
      (match s.issue (q.outAsk rid addr room) with
      | (true, t) =>
        t.onReq rid (fun r =>
          { r with
            outOff := r.outOff + min q.nextOut room
            pieces := r.pieces ++ [{ off := r.outOff, len := min q.nextOut room, acked := false, ended := false }] })
      | (false, t) => t.onReq rid (Req.outFail (ends .accessFault 0x05) 0 addr)) := by
  simp only [exec, execOutputWriteIssue, hq, hend, hrecord, if_neg hnext, Nat.not_le.mpr hpending, hroom, hat,
    Option.isSome_none, Bool.not_true, Bool.false_eq_true, or_self, if_false]
  rfl

theorem outputWrite_issued (hp : permitted s (classOf q.owner) q.owner true (addr % 2 ^ 64) (min q.nextOut room)) :
    ∃ t a, exec (.outputWriteIssue rid) s = .next t ∧ t.port.outstanding = s.port.outstanding ++ [a] ∧
      a.kind = .output ∧ a.write = true ∧ a.chan = q.chan ∧ a.addr = addr % 2 ^ 64 ∧ a.len = min q.nextOut room ∧
      a.data = cut q.out q.outOff (min q.nextOut room) ∧
      t.req rid = some
        { q with
          outOff := q.outOff + min q.nextOut room
          pieces := q.pieces ++ [{ off := q.outOff, len := min q.nextOut room, acked := false, ended := false }] } := by
  have hissue := State.issue_of_permitted (k := q.outAsk rid addr room) hp
  obtain ⟨a, ha, hport⟩ := State.issue_outstanding (congrArg Prod.fst hissue)
  have hreq : (s.issue (q.outAsk rid addr room)).2.req rid = some q := (State.req_issue _ _ _).trans hq
  have hexec := execOutputWriteIssue_eq hq hend hrecord hnext hpending hroom hat
  rw [hissue] at hexec
  simp only [State.onReq_of_req _ hreq] at hexec
  exact ⟨_, a, hexec, by rw [State.putReq_port, hport], ha.kind, ha.write, ha.chan, ha.addr, ha.len, ha.data,
    State.req_putReq_same _ _ _⟩

theorem outputWrite_denied (hp : ¬ permitted s (classOf q.owner) q.owner true (addr % 2 ^ 64) (min q.nextOut room)) :
    ∃ t q', exec (.outputWriteIssue rid) s = .next t ∧ t.req rid = some q' ∧
      q'.outEnd = some { st := .accessFault, detail := 5 } ∧ q'.outOff = q.outOff := by
  have hissue := State.issue_of_not_permitted (k := q.outAsk rid addr room) hp
  have hreq : (s.issue (q.outAsk rid addr room)).2.req rid = some q := (State.req_issue _ _ _).trans hq
  have hexec := execOutputWriteIssue_eq hq hend hrecord hnext hpending hroom hat
  rw [hissue] at hexec
  simp only [State.onReq_of_req _ hreq] at hexec
  refine ⟨_, _, hexec, State.req_putReq_same _ _ _, ?_, ?_⟩ <;> simp [Req.outFail, hend, ends]

end

/-! ## The chain state (R95) -/

include hend hrecord in
theorem chainWrite_issued {bs : Bytes} (hnext : q.nextOut = 0) (hchain : q.chainWrite = some bs) (hout : q.chainWriteOut = false)
    (hcomplete : q.outComplete = true) (hoff : q.outOff = q.out.length) (hroom : roomFor s q.chan 2 = true)
    (hp : permitted s (classOf q.owner) q.owner true (chainAddr q.d % 2 ^ 64) 128) :
    ∃ t a, exec (.outputWriteIssue rid) s = .next t ∧ t.port.outstanding = s.port.outstanding ++ [a] ∧
      a.kind = .chainState ∧ a.write = true ∧ a.addr = chainAddr q.d % 2 ^ 64 ∧ a.len = 128 ∧ a.data = bs ∧
      t.req rid = some { q with chainWriteOut := true } := by
  have hissue := State.issue_of_permitted (k := q.ask rid .chainState true (chainAddr q.d) 128 0 bs) hp
  obtain ⟨a, ha, hport⟩ := State.issue_outstanding (congrArg Prod.fst hissue)
  have hreq : (s.issue (q.ask rid .chainState true (chainAddr q.d) 128 0 bs)).2.req rid = some q :=
    (State.req_issue _ _ _).trans hq
  have hexec : exec (.outputWriteIssue rid) s = .next (s.writeChain rid q) := by
    simp only [exec, execOutputWriteIssue, hq, hend, hrecord, hnext, Option.isSome_none, Bool.false_eq_true, or_self, if_false,
      if_true]
  have hwrite : ¬ (q.chainWriteOut = true ∨ (!q.outComplete) = true ∨ q.outOff ≠ q.out.length ∨ (!(roomFor s q.chan 2)) = true) := by
    simp [hout, hcomplete, hoff, hroom]
  simp only [State.writeChain, hchain, if_neg hwrite] at hexec
  rw [hissue] at hexec
  simp only [State.onReq_of_req _ hreq] at hexec
  exact ⟨_, a, hexec, by rw [State.putReq_port, hport], ha.kind, ha.write, ha.addr, ha.len, ha.data, State.req_putReq_same _ _ _⟩

end

/-- Settles O7: STAT, a write of the output issued or denied, and the chain state after the last. -/
theorem outwardStreamCompletesAndIsWritten : Obligations.OutwardStreamCompletesAndIsWritten := by
  unfold Obligations.OutwardStreamCompletesAndIsWritten
  refine ⟨fun s rid q st hq hsent hstat hready => execStatArrival_ready hq hsent hstat hready,
    fun s rid q addr room hq hend hrecord hnext hpending hroom hat =>
      ⟨fun hp => outputWrite_issued hq hend hrecord hnext hpending hroom hat hp,
        fun hp => outputWrite_denied hq hend hrecord hnext hpending hroom hat hp⟩,
    fun s rid q bs hq hend hrecord hnext hchain hout hcomplete hoff hroom hp =>
      chainWrite_issued hq hend hrecord hnext hchain hout hcomplete hoff hroom hp⟩

end Sys2Proof.Machine
end

section
/-!
SUPPORT. Responses of the system port (21 R651, R652): the last part of an access ends it, and a retired tag is freed.
-/
namespace Sys2Proof.Machine

/-- The port without an access that has ended. -/
def State.closed (s : State) (a : Acc) : State :=
  { s with port := { s.port with outstanding := s.port.outstanding.filter (fun x => x.id != a.id) } }

/-- The one part of an access that waits for a response under `tag`. -/
theorem part_of_accWith {s : State} {chan tag : Nat} {a : Acc} {p : Part} (h : accWith s chan tag = some a)
    (hp : a.parts = [p]) : p.tag = tag ∧ p.done = false := by
  have ha := List.find?_some h
  simp only [hp, List.any_cons, List.any_nil, Bool.or_false, Bool.and_eq_true, beq_iff_eq, Bool.not_eq_true'] at ha
  exact ha.2

/-- The last response of an access of one part ends it. -/
theorem State.onPart_last (s : State) {chan tag : Nat} {a : Acc} {p : Part} (h : accWith s chan tag = some a)
    (hp : a.parts = [p]) (herr : a.err = false) (f : Part → Part) (hf : (f p).done = true) :
    s.onPart a tag false f = (s.closed a).accDone { a with parts := [f p], err := false } := by
  obtain ⟨htag, hdone⟩ := part_of_accWith h hp
  simp [State.onPart, hp, htag, hdone, hf, herr, State.closed]

theorem writeResponse_output {s : State} {chan tag : Nat} {a : Acc} {p : Part} {q : Req} (hc : chan < 4)
    (h : accWith s chan tag = some a) (hw : a.write = true) (hk : a.kind = .output) (herr : a.err = false) (hp : a.parts = [p])
    (hq : s.req a.req = some q) :
    exec (.writeResponse chan tag false) s
      = .next ((s.closed a).putReq a.req { q with pieces := endPiece a.off true q.pieces }) := by
  have hreq : (s.closed a).req a.req = some q := hq
  simp only [exec, execWriteResponse, unit_next _ hc, h, hw, if_true, s.onPart_last h hp herr (fun p => { p with done := true }) rfl]
  simp [State.accDone, State.writeDone, hk, State.onReq_of_req _ hreq]

theorem readDataBeat_input {s : State} {chan tag : Nat} {a : Acc} {p : Part} (data : Bytes) (hc : chan < 4)
    (h : accWith s chan tag = some a) (hw : a.write = false) (hk : a.kind = .input) (herr : a.err = false) (hp : a.parts = [p])
    (hon : readsOn s a.req = true) :
    exec (.readDataBeat chan tag data true false) s
      = .next ((s.closed a).keepEnded
          { a with parts := [{ p.takeBeat data with done := true }], err := false, data := (p.takeBeat data).data }) := by
  have hreads : readsOn (s.closed a) a.req = true := hon
  simp only [exec, execReadDataBeat, unit_next _ hc, h, hw, Bool.false_eq_true, if_false,
    s.onPart_last h hp herr (fun p => { p.takeBeat data with done := true }) rfl]
  simp [State.accDone, State.readDone, hk, hreads]

/-- A late response frees its tag (R652). -/
theorem State.lateResponse_last {s : State} {chan tag : Nat} (h : (chan, tag) ∈ s.port.late) :
    s.lateResponse chan tag true = { s with port := { s.port with
      lateResponses := s.port.lateResponses + 1, late := s.port.late.filter (fun e => e != (chan, tag)) } } := by
  simp [State.lateResponse, h]

/-- Settles O8: the last response of an access of one part, the time limit, and a response to a retired tag. -/
theorem responsesEndAccesses : Obligations.ResponsesEndAccesses := by
  unfold Obligations.ResponsesEndAccesses
  refine ⟨fun s chan tag a hc h => ⟨fun p q hw hk herr hp hq => ?_, fun p data hw hk herr hp hon => ?_, ?_⟩,
    fun s chan tag hc h hlate => ⟨fun err => ?_, fun data err => ?_, ?_⟩⟩
  · exact ⟨_, writeResponse_output hc h hw hk herr hp hq, rfl, State.req_putReq_same _ _ _⟩
  · exact ⟨_, _, readDataBeat_input data hc h hw hk herr hp hon, rfl, rfl, rfl, rfl, rfl⟩
  · simp only [exec, execSpResponseTimeout, unit_next _ hc, h]
  · simp only [exec, execWriteResponse, unit_next _ hc, h, State.lateResponse_last hlate]
  · simp only [exec, execReadDataBeat, unit_next _ hc, h, State.lateResponse_last hlate]
  · simp only [exec, execSpResponseTimeout, unit_next _ hc, h]

end Sys2Proof.Machine
end

section
/-!
SUPPORT. Journal entries and completion records (chapters 2, 3 and 17).
-/
namespace Sys2Proof.Machine

/-! ## Releases (R34) -/

theorem State.req_releaseReq (s : State) (rid : Nat) : (s.releaseReq rid).req rid = none := by
  unfold State.releaseReq
  split
  · exact ‹_›
  · exact State.req_release_same _ _

@[simp] theorem State.ring_releaseReq (s : State) (rid k : Nat) : (s.releaseReq rid).ring k = s.ring k :=
  ring_of_field (State.releaseReq_field s rid (by simp)) k

theorem State.req_onRing (s : State) (k : Nat) (f : Ring → Ring) (rid : Nat) : (s.onRing k f).req rid = s.req rid := rfl

/-! ## The journal (R571) -/

section
variable {s : State} {rid : Nat} {q : Req} {st : Stat} (hq : s.req rid = some q) (hcontent : q.content = some st)
  (hpartial : st.ending.st = .partialEnd) (hdue : q.journal = .notDue) (hdone : q.contentDone = true) (hhome : q.homeGrant = none)
include hq hcontent hpartial hdue hdone hhome

theorem execJournalWrite_without (hlog : (s.ring (pairKey q.owner q.ring)).journalLog2 = 0) :
    exec (.journalWrite rid) s = .next (s.journalLose rid) := by
  simp only [exec, execJournalWrite, hq, hcontent, hpartial, hdue, hdone, hhome, ne_eq, not_true_eq_false, Option.isSome_none,
    Bool.not_true, Bool.false_eq_true, or_self, if_false, hlog, if_true]

theorem execJournalWrite_entry (hlog : (s.ring (pairKey q.owner q.ring)).journalLog2 ≠ 0) (hroom : roomFor s q.chan 2 = true) :
    exec (.journalWrite rid) s = .next
      (match s.issue (q.ask rid .journal true ((s.ring (pairKey q.owner q.ring)).journalBase.toNat +
          64 * ((s.ring (pairKey q.owner q.ring)).journalNext % 2 ^ (s.ring (pairKey q.owner q.ring)).journalLog2)) 64 0
            (journalEntry s q st)) with
      | (true, t) => (t.onReq rid (fun x => { x with journal := .written })).onRing (pairKey q.owner q.ring) (fun x =>
          { x with journalNext := (x.journalNext + 1) % 2 ^ x.journalLog2 })
      | (false, t) => t.journalLose rid) := by
  simp only [exec, execJournalWrite, hq, hcontent, hpartial, hdue, hdone, hhome, ne_eq, not_true_eq_false, Option.isSome_none,
    Bool.not_true, Bool.false_eq_true, or_self, if_false, hlog, hroom] <;> rfl

end

theorem State.journalLose_of_req {s : State} {rid : Nat} {q : Req} (hq : s.req rid = some q) :
    (s.journalLose rid).req rid = some { q with journal := .lost } ∧
      (s.journalLose rid).start.journalLost = s.start.journalLost + 1 := by
  unfold State.journalLose
  rw [State.onReq_of_req _ hq]
  exact ⟨State.req_putReq_same _ _ _, rfl⟩

theorem journalWrite_lost {s : State} {rid : Nat} {q : Req} {st : Stat} (hq : s.req rid = some q) (hcontent : q.content = some st)
    (hpartial : st.ending.st = .partialEnd) (hdue : q.journal = .notDue) (hdone : q.contentDone = true)
    (hhome : q.homeGrant = none) (hlog : (s.ring (pairKey q.owner q.ring)).journalLog2 = 0) :
    ∃ t, exec (.journalWrite rid) s = .next t ∧ t.req rid = some { q with journal := .lost } ∧
      t.start.journalLost = s.start.journalLost + 1 :=
  ⟨_, execJournalWrite_without hq hcontent hpartial hdue hdone hhome hlog, State.journalLose_of_req hq⟩

theorem journalWrite_issued {s : State} {rid : Nat} {q : Req} {st : Stat} (hq : s.req rid = some q)
    (hcontent : q.content = some st) (hpartial : st.ending.st = .partialEnd) (hdue : q.journal = .notDue)
    (hdone : q.contentDone = true) (hhome : q.homeGrant = none)
    (hlog : (s.ring (pairKey q.owner q.ring)).journalLog2 ≠ 0) (hroom : roomFor s q.chan 2 = true)
    (hp : permitted s (classOf q.owner) q.owner true (((s.ring (pairKey q.owner q.ring)).journalBase.toNat +
      64 * ((s.ring (pairKey q.owner q.ring)).journalNext % 2 ^ (s.ring (pairKey q.owner q.ring)).journalLog2)) % 2 ^ 64) 64) :
    ∃ t a, exec (.journalWrite rid) s = .next t ∧ t.port.outstanding = s.port.outstanding ++ [a] ∧ a.kind = .journal ∧
      a.addr = ((s.ring (pairKey q.owner q.ring)).journalBase.toNat +
        64 * ((s.ring (pairKey q.owner q.ring)).journalNext % 2 ^ (s.ring (pairKey q.owner q.ring)).journalLog2)) % 2 ^ 64 ∧
      a.len = 64 ∧ a.data = journalEntry s q st ∧ t.req rid = some { q with journal := .written } ∧
      (t.ring (pairKey q.owner q.ring)).journalNext
        = ((s.ring (pairKey q.owner q.ring)).journalNext + 1) % 2 ^ (s.ring (pairKey q.owner q.ring)).journalLog2 := by
  have hexec := execJournalWrite_entry hq hcontent hpartial hdue hdone hhome hlog hroom
  have hissue := State.issue_of_permitted (s := s) (k := q.ask rid .journal true _ 64 0 (journalEntry s q st)) hp
  obtain ⟨a, ha, hport⟩ := State.issue_outstanding (congrArg Prod.fst hissue)
  rw [hissue] at hexec
  simp only [State.onReq_of_req _ ((State.req_issue _ _ _).trans hq)] at hexec
  refine ⟨_, a, hexec, congrArg Port.outstanding hport, ha.kind, ha.addr, ha.len, ha.data, State.req_putReq_same _ _ _, ?_⟩
  rw [State.ring_onRing_same]
  exact congrArg (fun r : Ring => (r.journalNext + 1) % 2 ^ r.journalLog2) (State.ring_issue _ _ _)

/-! ## Completion records (R53, R55, R69) -/

section
variable {s : State} {rid : Nat} {q : Req} {st : Stat} (hq : s.req rid = some q) (hcontent : q.content = some st)
  (hissued : q.recordIssued = false) (hdone : q.contentDone = true) (hwait : q.waitRecords = [])
include hq hcontent hissued hdone hwait

theorem execCompletionRecordIssue_token {home nn : Nat} (hhome : q.homeGrant = some (home, nn)) :
    exec (.completionRecordIssue rid) s
      = .next ((((s.countRecord q st).chainEnd q st).sendMsg kToken home
          (tokenBody nn q.sseq (recordBytes s q st))).releaseReq rid) := by
  simp [exec, execCompletionRecordIssue, hq, hcontent, hissued, hdone, hwait, hhome]

theorem execCompletionRecordIssue_write (hhome : q.homeGrant = none)
    (hjournal : st.ending.st ≠ .partialEnd ∨ q.journal = .acked ∨ q.journal = .lost) (hturn : recordTurn s q = true)
    (hroom : roomFor s q.chan 2 = true) :
    exec (.completionRecordIssue rid) s = .next (((s.countRecord q st).chainEnd q st).recordWrite rid q st) := by
  have hj : (decide (st.ending.st ≠ .partialEnd) || (none : Option (Nat × Nat)).isSome || q.journal == .acked
      || q.journal == .lost) = true := by
    rcases hjournal with h | h | h <;> simp [h]
  simp only [exec, execCompletionRecordIssue, hq, hcontent, hissued, hdone, hwait, List.any_nil, hj, Bool.not_true,
    Bool.false_eq_true, or_self, if_false, hhome, hturn, hroom]

end

/-- A record says the same of a request while the ring pairs stand. -/
theorem recordBytes_of_field {s t : State} (h : t.field .engine = s.field .engine) (q : Req) (st : Stat) :
    recordBytes t q st = recordBytes s q st := by
  simp only [recordBytes, ringPos, ring_of_field h]

theorem State.recordWrite_lost {s : State} (rid : Nat) (q : Req) (st : Stat)
    (hlost : (s.ring (pairKey q.owner q.ring)).recordsLost = true) : s.recordWrite rid q st = s.releaseReq rid := by
  simp only [State.recordWrite, hlost, if_true]

theorem State.recordWrite_issued {s : State} {rid : Nat} {q : Req} {st : Stat} (hq : s.req rid = some q)
    (hlost : (s.ring (pairKey q.owner q.ring)).recordsLost = false)
    (hp : permitted s (classOf q.owner) q.owner true (((s.ring (pairKey q.owner q.ring)).cqBase.toNat +
      32 * (((s.ring (pairKey q.owner q.ring)).cqTail + (s.ring (pairKey q.owner q.ring)).cq.length) %
        2 ^ (s.ring (pairKey q.owner q.ring)).cqLog2)) % 2 ^ 64) 32) :
    ∃ a, (s.recordWrite rid q st).port.outstanding = s.port.outstanding ++ [a] ∧ a.kind = .record ∧ a.write = true ∧
      a.addr = ((s.ring (pairKey q.owner q.ring)).cqBase.toNat +
        32 * (((s.ring (pairKey q.owner q.ring)).cqTail + (s.ring (pairKey q.owner q.ring)).cq.length) %
          2 ^ (s.ring (pairKey q.owner q.ring)).cqLog2)) % 2 ^ 64 ∧
      a.len = 32 ∧ a.data = recordBytes s q st ∧ (s.recordWrite rid q st).req rid = some { q with recordIssued := true } ∧
      ((s.recordWrite rid q st).ring (pairKey q.owner q.ring)).cq
        = (s.ring (pairKey q.owner q.ring)).cq ++ [{ acked := false, notify := q.d.notify, chan := q.chan }] := by
  have hissue := State.issue_of_permitted (s := s) (k := { q.ask rid .record true
    ((s.ring (pairKey q.owner q.ring)).cqBase.toNat +
      32 * (((s.ring (pairKey q.owner q.ring)).cqTail + (s.ring (pairKey q.owner q.ring)).cq.length) %
        2 ^ (s.ring (pairKey q.owner q.ring)).cqLog2)) 32
    ((s.ring (pairKey q.owner q.ring)).completed.toNat + (s.ring (pairKey q.owner q.ring)).cq.length)
    (recordBytes s q st) with pair := pairKey q.owner q.ring }) hp
  obtain ⟨a, ha, hport⟩ := State.issue_outstanding (congrArg Prod.fst hissue)
  simp only [State.recordWrite, hlost, Bool.false_eq_true, if_false]
  rw [hissue]
  simp only [State.onReq_of_req _ ((State.req_issue _ _ _).trans hq)]
  refine ⟨a, congrArg Port.outstanding hport, ha.kind, ha.write, ha.addr, ha.len, ha.data, ?_, ?_⟩
  · rw [State.req_onRing, State.req_putReq_same]
  · rw [State.ring_onRing_same]
    exact congrArg (fun r : Ring => r.cq ++ [_]) (State.ring_issue _ _ _)

theorem execCompletionRecordAck_of_find {s : State} {rid : Nat} {a : Acc}
    (h : s.port.ended.find? (fun a => decide (a.kind = .record) && a.req == rid) = some a) :
    ∃ t, exec (.completionRecordAck rid) s = .next t ∧ t.req rid = none ∧
      t.ring a.pair = (s.ring a.pair).ackEntry a.off := by
  refine ⟨((s.taken a).onRing a.pair (Ring.ackEntry a.off)).releaseReq rid, ?_, State.req_releaseReq _ _, ?_⟩
  · simp only [exec, execCompletionRecordAck, State.takeEnded_of_find h]
  · rw [State.ring_releaseReq, State.ring_onRing_same, State.ring_taken]

/-- Settles O9: the entry of a request that ends PARTIAL, its record by its ring or its grant, and the acknowledgement. -/
theorem journalEntriesAndRecordsAreWritten : Obligations.JournalEntriesAndRecordsAreWritten := by
  unfold Obligations.JournalEntriesAndRecordsAreWritten
  refine ⟨?_, ?_, fun s rid a h => execCompletionRecordAck_of_find h⟩
  · intro s rid q st hq hcontent hpartial hdue hdone hhome r addr
    exact ⟨journalWrite_lost hq hcontent hpartial hdue hdone hhome,
      journalWrite_issued hq hcontent hpartial hdue hdone hhome⟩
  · intro s rid q st hq hcontent hissued hdone hwait
    refine ⟨fun home nn hhome => execCompletionRecordIssue_token hq hcontent hissued hdone hwait hhome, ?_⟩
    intro hhome hjournal hturn hroom r addr
    have hexec := execCompletionRecordIssue_write hq hcontent hissued hdone hwait hhome hjournal hturn hroom
    have hring : ((s.countRecord q st).chainEnd q st).ring (pairKey q.owner q.ring) = r := ring_of_field (by simp) _
    have hreq : ((s.countRecord q st).chainEnd q st).req rid = some q := (req_of_field (by simp) rid).trans hq
    refine ⟨fun hlost hp => ?_, fun hlost => ?_⟩
    · have h := State.recordWrite_issued (st := st) hreq (by rw [hring]; exact hlost)
        ((permitted_of_field (s := s) (by simp) _ _ _ _ _).mpr (by rw [hring]; exact hp))
      have hport : ((s.countRecord q st).chainEnd q st).port = s.port := State.chainEnd_field (φ := .port) _ _ _ (by simp)
      rw [hring, hport, recordBytes_of_field (s := s) (by simp)] at h
      obtain ⟨a, ha⟩ := h
      exact ⟨_, a, hexec, ha⟩
    · rw [hexec, State.recordWrite_lost _ _ _ (by rw [hring]; exact hlost)]

end Sys2Proof.Machine
end

section
/-!
SUPPORT. The tail word and the notification (chapter 2).
-/
namespace Sys2Proof.Machine

/-- Two changes that agree on a pair as it stands are the same change of it. -/
theorem State.onRing_congr (s : State) (k : Nat) {f g : Ring → Ring} (h : f (s.ring k) = g (s.ring k)) :
    s.onRing k f = s.onRing k g := by
  have hget : f (Tab.get Ring.dflt s.engine.pairs k) = g (Tab.get Ring.dflt s.engine.pairs k) := h
  simp only [State.onRing, Tab.upd, hget]

/-- The ask of the tail word over the acknowledged run of pair `n` of `o` (R66, R122). -/
def tailAsk (o n : Nat) (r : Ring) : Ask :=
  { chan := r.coverChan (ackedRun r.cq), kind := .tailWord, cls := classOf o, owner := o, req := 0, pair := pairKey o n
    write := true, addr := r.tailWordAddr.toNat, len := 8, off := 0
    data := leBytes 8 (tailWord (ptrAdd r.cqTail (ackedRun r.cq) r.cqLog2) r.rqHead) }

section
variable {s : State} {o n : Nat} (hn : n < 8)
include hn

theorem tailWrite_issued (hin : (s.ring (pairKey o n)).tailInFlight = 0) (hrun : ackedRun (s.ring (pairKey o n)).cq ≠ 0)
    (hroom : roomFor s ((s.ring (pairKey o n)).coverChan (ackedRun (s.ring (pairKey o n)).cq)) 2 = true)
    (hp : permitted s (classOf o) o true (s.ring (pairKey o n)).tailWordAddr.toNat 8) :
    ∃ t a, exec (.tailWriteIssue o n) s = .next t ∧ t.port.outstanding = s.port.outstanding ++ [a] ∧ a.kind = .tailWord ∧
      a.chan = (s.ring (pairKey o n)).coverChan (ackedRun (s.ring (pairKey o n)).cq) ∧
      a.addr = (s.ring (pairKey o n)).tailWordAddr.toNat ∧ a.len = 8 ∧
      a.data = leBytes 8 (tailWord (ptrAdd (s.ring (pairKey o n)).cqTail (ackedRun (s.ring (pairKey o n)).cq)
        (s.ring (pairKey o n)).cqLog2) (s.ring (pairKey o n)).rqHead) ∧
      (t.ring (pairKey o n)).tailInFlight = ackedRun (s.ring (pairKey o n)).cq := by
  have hissue := State.issue_of_permitted (s := s) (k := tailAsk o n (s.ring (pairKey o n))) hp
  obtain ⟨a, ha, hport⟩ := State.issue_outstanding (congrArg Prod.fst hissue)
  have hexec : exec (.tailWriteIssue o n) s = .next ((s.issue (tailAsk o n (s.ring (pairKey o n)))).2.onRing (pairKey o n)
      (fun x => { x with
        tailInFlight := ackedRun (s.ring (pairKey o n)).cq
        tailChan := (s.ring (pairKey o n)).coverChan (ackedRun (s.ring (pairKey o n)).cq) })) := by
    change execTailWriteIssue o n s = _
    simp only [execTailWriteIssue, unit_next _ hn, hin, hroom, hrun, ne_eq, not_true_eq_false, Bool.not_true, Bool.false_eq_true,
      or_self, if_false]
    change Host.Outcome.next (match s.issue (tailAsk o n (s.ring (pairKey o n))) with | (true, _) => _ | (false, _) => _) = _
    rw [hissue]
  exact ⟨_, a, hexec, congrArg Port.outstanding hport, ha.kind, ha.chan, ha.addr, ha.len, ha.data,
    congrArg Ring.tailInFlight (State.ring_onRing_same _ _ _)⟩

theorem tailWrite_acked {a : Acc}
    (h : s.port.ended.find? (fun a => decide (a.kind = .tailWord) && a.pair == pairKey o n) = some a)
    (hnotify : (s.ring (pairKey o n)).notifyAddr = 0) :
    exec (.tailWriteAck o n) s
      = .next ((s.taken a).onRing (pairKey o n) (fun r =>
          { r with
            cqTail := ptrAdd r.cqTail r.tailInFlight r.cqLog2
            completed := r.completed + BitVec.ofNat 64 r.tailInFlight, cq := r.cq.drop r.tailInFlight
            tailInFlight := 0, pendingNotes := 0 })) := by
  change execTailWriteAck o n s = _
  simp only [execTailWriteAck, unit_next _ hn, State.takeEnded_of_find h, State.ring_onRing_same]
  rw [if_neg (by simp [noteDue, hnotify])]
  exact congrArg Host.Outcome.next (State.onRing_congr _ _ (by simp [hnotify]))

theorem coalTimeExpiry_notifies (haddr : (s.ring (pairKey o n)).notifyAddr ≠ 0)
    (hpending : 0 < (s.ring (pairKey o n)).pendingNotes)
    (hp : permitted s .service o true (s.ring (pairKey o n)).notifyAddr.toNat 4) :
    ∃ t a, exec (.coalTimeExpiry o n) s = .next t ∧ t.port.outstanding = s.port.outstanding ++ [a] ∧
      a.kind = .notification ∧ a.chan = (s.ring (pairKey o n)).tailChan ∧
      a.addr = (s.ring (pairKey o n)).notifyAddr.toNat ∧ a.len = 4 ∧
      a.data = leBytes 4 (s.ring (pairKey o n)).notifyData.toNat ∧ (t.ring (pairKey o n)).pendingNotes = 0 := by
  have hissue := State.issue_of_permitted (s := s.onRing (pairKey o n) (fun x => { x with pendingNotes := 0 })) (k :=
    { chan := (s.ring (pairKey o n)).tailChan, kind := .notification, cls := .service, owner := o, req := 0
      pair := pairKey o n, write := true, addr := (s.ring (pairKey o n)).notifyAddr.toNat, len := 4, off := 0
      data := leBytes 4 (s.ring (pairKey o n)).notifyData.toNat }) hp
  obtain ⟨a, ha, hport⟩ := State.issue_outstanding (congrArg Prod.fst hissue)
  refine ⟨_, a, ?_, congrArg Port.outstanding hport, ha.kind, ha.chan, ha.addr, ha.len, ha.data, ?_⟩
  rotate_left
  · exact congrArg Ring.pendingNotes ((State.ring_issue _ _ _).trans (State.ring_onRing_same _ _ _))
  · change execCoalTimeExpiry o n s = _
    simp only [execCoalTimeExpiry, unit_next _ hn, ne_eq, haddr, not_false_eq_true, hpending, and_self, if_true, State.notifyPair]
    rw [hissue]

end

/-- Settles O10: the tail word is issued, its acknowledgement publishes the run, and a notification is due. -/
theorem tailWordPublishesAndNotifies : Obligations.TailWordPublishesAndNotifies := by
  unfold Obligations.TailWordPublishesAndNotifies
  intro s o n hn key r
  exact ⟨tailWrite_issued hn, fun a h hnotify => tailWrite_acked hn h hnotify, coalTimeExpiry_notifies hn⟩

end Sys2Proof.Machine
end

section
/-!
SUPPORT. The segments of the cipher lanes (O12): a lane's turn issues one, the lane opcode computes it, a passed
compare releases it.
-/
namespace Sys2Proof.Machine

section
variable {s : State} {rid : Nat} {q : Req}

theorem State.issueSeg_of_clean (hq : s.req rid = some q) (hclean : q.segPoison q.m.segIssued = false) :
    s.issueSeg rid = s.putReq rid q.issued := by
  simp [State.issueSeg, hq, hclean]

/-! ## The turn of a lane (R195) -/

/-- The state in which a lane's turn has gone to context `c`, before it issues the segment. -/
def State.turnTo (s : State) (lane : Nat) (c : Ctx) : State :=
  let s1 := s.onLane lane (fun x =>
    { x with
      current := some c.req
      next := x.ctxs.findIdx (fun y => y.req == c.req) + 1
      ctxs := x.ctxs.map (fun y => if y.req = c.req then { y with hadTurn := true } else y) })
  { s1 with
    lanes := { s1.lanes with
      segments := s1.lanes.segments + 1
      contextMoves :=
        if decide ((s.lane lane).current ≠ some c.req) then s1.lanes.contextMoves + 1 else s1.lanes.contextMoves } }

theorem execLaneTurn_of_turn {lane : Nat} {c : Ctx} (hlane : lane < 16) (hturn : nextTurn s (s.lane lane) = some c) :
    exec (.laneTurn lane) s = .next ((s.turnTo lane c).issueSeg c.req) := by
  simp only [exec, execLaneTurn, hturn]
  exact unit_next _ hlane

theorem State.lane_turnTo (s : State) (lane : Nat) (c : Ctx) : ((s.turnTo lane c).lane lane).current = some c.req :=
  congrArg Lane.current (State.lane_onLane_same s lane (fun x =>
    { x with
      current := some c.req
      next := x.ctxs.findIdx (fun y => y.req == c.req) + 1
      ctxs := x.ctxs.map (fun y => if y.req = c.req then { y with hadTurn := true } else y) }))

theorem laneTurn_issues {lane : Nat} {c : Ctx} (hlane : lane < 16) (hturn : nextTurn s (s.lane lane) = some c)
    (hq : s.req c.req = some q) (hclean : q.segPoison q.m.segIssued = false) :
    ∃ t, exec (.laneTurn lane) s = .next t ∧ t.lanes.segments = s.lanes.segments + 1 ∧
      t.lanes.contextMoves = (if (s.lane lane).current = some c.req then s.lanes.contextMoves else s.lanes.contextMoves + 1) ∧
      (t.lane lane).current = some c.req ∧
      t.req c.req = some { q with m := { q.m with segIssued := q.m.segIssued + 1 } } := by
  have hreq : (s.turnTo lane c).req c.req = some q := hq
  have hissue : (s.turnTo lane c).issueSeg c.req = (s.turnTo lane c).putReq c.req q.issued :=
    State.issueSeg_of_clean hreq hclean
  refine ⟨_, (execLaneTurn_of_turn hlane hturn).trans (congrArg Host.Outcome.next hissue), rfl, ?_, State.lane_turnTo s lane c,
    State.req_putReq_same _ _ _⟩
  by_cases hmoved : (s.lane lane).current = some c.req <;>
    simp [State.turnTo, State.onLane, hmoved]

/-! ## The lane opcodes (R167 to R175, R197) -/

variable {lane op : Nat} {k : KeyCopy}

/-- A request's segment under computation, as the lane holds it until the compare. -/
def Req.computed (q : Req) (op : Nat) (k : KeyCopy) : Req :=
  let n := q.m.segComputed
  let r := runText op k.transform k.secret q.m.work (if n = 0 then q.authAad k else []) (segText q n)
  let lead := if n = 0 ∧ q.d.profile = 7 ∧ q.d.opcode = 0x14 ∧ q.d.nonceHw then q.m.work.iv else []
  { q with m := { q.m with
      work := r.1, inLane := q.m.inLane ++ [{ out := lead ++ r.2, work := r.1 }], segComputed := n + 1 } }

theorem State.runSegment_computes (hq : s.req rid = some q) (hop : q.d.opcode = op) (hend : q.m.ending = none)
    (hkey : q.m.key = some k) (hlane : laneOf s rid = some lane) (hlt : q.m.segComputed < q.m.segIssued) :
    s.runSegment rid op =
      let n := segBlocks op k.transform (segText q q.m.segComputed).length (q.m.segComputed == 0 && !q.d.later)
        (q.finalSeg q.m.segComputed && closesTag q.d)
      (s.putReq rid (q.computed op k)).countBlocks lane q.m.posture n.1 n.2 := by
  have hne : q.m.segIssued ≠ q.m.segComputed := by omega
  have hle : ¬ q.m.segIssued ≤ q.m.segComputed := by omega
  subst hop
  simp only [State.runSegment, hq, hend, hkey, hlane, hne, hle, false_and, and_false, if_false, Option.isSome_none,
    Bool.false_eq_true, ne_eq, not_true_eq_false, or_self, State.onReq_of_req _ hq, Req.computed]

/-- R197: the opcode of a sequential mode issues the segment by itself, and then does as after a turn. -/
theorem State.runSegment_issues (hq : s.req rid = some q) (hop : q.d.opcode = op) (hend : q.m.ending = none)
    (hkey : q.m.key = some k) (hlane : laneOf s rid = some lane) (hseq : seqOp k.transform op = true)
    (heq : q.m.segIssued = q.m.segComputed) (hcan : q.canIssue = true) (hclean : q.segPoison q.m.segIssued = false) :
    s.runSegment rid op = (s.putReq rid q.issued).runSegment rid op := by
  have hissue : s.issueSeg rid = s.putReq rid q.issued := State.issueSeg_of_clean hq hclean
  have hlane' : laneOf (s.putReq rid q.issued) rid = some lane := hlane
  have hop' : q.issued.d.opcode = op := hop
  have hend' : q.issued.m.ending = none := hend
  have hkey' : q.issued.m.key = some k := hkey
  have hne' : q.issued.m.segIssued ≠ q.issued.m.segComputed := by
    show q.m.segIssued + 1 ≠ q.m.segComputed
    omega
  simp only [State.runSegment, hq, hop, hend, hkey, hlane, hseq, heq, hcan, and_self, if_true, Option.isSome_none,
    Bool.false_eq_true, ne_eq, not_true_eq_false, or_self, if_false, hissue, State.req_putReq_same, hop', hend', hkey', hlane',
    hne', false_and, and_false]

/-- The opcode's command is `runSegment` with its own number. -/
theorem exec_laneOpcode {i : Instr}
    (hi : (i, op) ∈ [(Instr.aeadSeal rid, 0x10), (.aeadOpen rid, 0x11), (.cipherEnc rid, 0x14), (.cipherDec rid, 0x15),
      (.macGen rid, 0x18), (.macVerify rid, 0x19)]) (t : State) : exec i t = .next (t.runSegment rid op) := by
  simp only [List.mem_cons, Prod.mk.injEq, List.not_mem_nil, or_false] at hi
  rcases hi with ⟨rfl, rfl⟩ | ⟨rfl, rfl⟩ | ⟨rfl, rfl⟩ | ⟨rfl, rfl⟩ | ⟨rfl, rfl⟩ | ⟨rfl, rfl⟩ <;> rfl

/-! ## The compare that passes (R49, R50, R92) -/

/-- The request whose oldest segment has passed its compare: the output released or held, its staging given up. -/
def Req.passed (q : Req) : Req :=
  let out := ((q.m.inLane.head?.map SegOut.out).getD []).drop q.m.outReleased
  let p := q.release out
  { p with
    m := { p.m with
      ckpt := (q.m.inLane.head?.map SegOut.work).getD q.m.work, inLane := q.m.inLane.drop 1, outReleased := 0
      tries := 0, excluded := [], recovering := false, segPassed := q.m.segPassed + 1 } }

theorem State.releaseSeg_of_req (hq : s.req rid = some q) : s.releaseSeg rid = s.putReq rid q.passed :=
  State.onReq_of_req _ hq

theorem Req.passed_totalWrong : q.passed.m.totalWrong = q.m.totalWrong := by
  simp only [Req.passed, Req.release, Req.putOut]
  split <;> rfl

theorem execTangoPass_of_computed (hq : s.req rid = some q) (hop : isLaneOp q.d.opcode = true) (hend : q.m.ending = none)
    (hlt : q.m.segPassed < q.m.segComputed) :
    exec (.tangoPass rid) s = .next (match q.m.stopAtSegment with
      | some e => if q.m.segIssued = q.m.segPassed + 1 then (s.putReq rid q.passed).myenoEnd rid e else s.putReq rid q.passed
      | none =>
        if q.finalSeg q.m.segPassed then (s.putReq rid q.passed).laneClose rid else (s.putReq rid q.passed).lengthEnd rid) := by
  have hle : ¬ q.m.segComputed ≤ q.m.segPassed := by omega
  simp only [exec, execTangoPass, hq, hop, hend, hle, Bool.not_true, Bool.false_eq_true, Option.isSome_none, or_self, if_false,
    State.releaseSeg_of_req hq] <;> rfl

theorem State.lengthEnd_of_totalRight (hq : s.req rid = some q) (htotal : q.m.totalWrong = none) : s.lengthEnd rid = s := by
  simp only [State.lengthEnd, hq, htotal]

theorem tangoPass_releases (hq : s.req rid = some q) (hop : isLaneOp q.d.opcode = true) (hend : q.m.ending = none)
    (hlt : q.m.segPassed < q.m.segComputed) :
    (q.m.stopAtSegment = none → q.finalSeg q.m.segPassed = false → q.m.totalWrong = none →
      exec (.tangoPass rid) s = .next (s.putReq rid q.passed)) ∧
    (∀ w, q.m.stopAtSegment = none → q.finalSeg q.m.segPassed = false → q.m.totalWrong = some w →
      exec (.tangoPass rid) s = .next ((s.putReq rid q.passed).lengthEnd rid)) ∧
    (q.m.stopAtSegment = none → q.finalSeg q.m.segPassed = true →
      exec (.tangoPass rid) s = .next ((s.putReq rid q.passed).laneClose rid)) ∧
    (∀ e, q.m.stopAtSegment = some e → exec (.tangoPass rid) s =
      .next (if q.m.segIssued = q.m.segPassed + 1 then (s.putReq rid q.passed).myenoEnd rid e else s.putReq rid q.passed)) := by
  have hexec := execTangoPass_of_computed hq hop hend hlt
  refine ⟨fun hstop hfinal htotal => ?_, fun w hstop hfinal _ => ?_, fun hstop hfinal => ?_, fun e hstop => ?_⟩
  · rw [hexec]
    simp only [hstop, hfinal, Bool.false_eq_true, if_false]
    rw [State.lengthEnd_of_totalRight (State.req_putReq_same _ _ _) (Req.passed_totalWrong.trans htotal)]
  · rw [hexec]
    simp only [hstop, hfinal, Bool.false_eq_true, if_false]
  · rw [hexec]
    simp only [hstop, hfinal, if_true]
  · rw [hexec]
    simp only [hstop]

end

/-- Settles O12: a lane's turn, the opcodes on the segment it issued, and the release after its compare. -/
theorem laneSegmentsAreComputedAndReleased : Obligations.LaneSegmentsAreComputedAndReleased := by
  unfold Obligations.LaneSegmentsAreComputedAndReleased
  refine ⟨fun s lane c q hlane hturn hq hclean => laneTurn_issues hlane hturn hq hclean,
    fun s rid lane op i q k hi hq hop hend hkey hlane => ⟨fun hlt => ?_, fun hseq heq hcan hclean => ?_⟩,
    fun s rid q hq hop hend hlt => tangoPass_releases hq hop hend hlt⟩
  · have hrun := State.runSegment_computes hq hop hend hkey hlane hlt
    refine ⟨_, (exec_laneOpcode hi s).trans (congrArg Host.Outcome.next hrun), ?_⟩
    exact State.req_putReq_same _ _ _
  · rw [exec_laneOpcode hi, exec_laneOpcode hi, State.runSegment_issues hq hop hend hkey hlane hseq heq hcan hclean]
    rfl

end Sys2Proof.Machine
end

section
/-!
SUPPORT. Mismatches and retests (O13): what a failed compare of a lane, of a digest unit or of the key-handling units leaves.
-/
namespace Sys2Proof.Machine

/-- A fold that acts on one entry at a time acts once on each entry of its list. -/
theorem foldl_each {σ α : Type} (get : σ → Nat → α) (f : σ → Nat → σ) (g : Nat → α → α)
    (hsame : ∀ t n, get (f t n) n = g n (get t n)) (hother : ∀ t n k, k ≠ n → get (f t n) k = get t k)
    (l : List Nat) (hl : l.Nodup) (s : σ) (n : Nat) :
    get (l.foldl f s) n = if n ∈ l then g n (get s n) else get s n := by
  induction l generalizing s with
  | nil => simp
  | cons a l ih =>
    obtain ⟨ha, hl⟩ := List.nodup_cons.mp hl
    rw [List.foldl_cons, ih hl]
    by_cases hn : n = a
    · subst hn
      simp [ha, hsame]
    · simp [hn, hother _ _ _ hn]

section
variable {s : State} {rid n passed : Nat} {q : Req} {k : KeyCopy}

/-! ## The mismatch of a lane (R303, R309, R318) -/

theorem State.laneMismatch_tango (s : State) (n rid : Nat) :
    (s.laneMismatch n rid).tango = { s.tango with mismatches := s.tango.mismatches + 1 } := by
  simp only [State.laneMismatch]
  split
  · simp
  · split
    · split <;> simp
    · simp

theorem State.req_laneMismatch (s : State) (n rid r : Nat) : (s.laneMismatch n rid).req r = s.req r :=
  req_of_field (State.laneMismatch_field (φ := .reqs) s n rid (by simp)) r

theorem State.req_leaveContext (s : State) (rid r : Nat) : (s.leaveContext rid).req r = s.req r :=
  req_of_field (State.leaveContext_field (φ := .reqs) s rid (by simp)) r

/-- What a lane's mismatch leaves before the request restarts: the verified results released, the context given up, the
mismatch counted. -/
def State.laneGivenUp (s : State) (rid n octets : Nat) : State :=
  ((s.releaseTo rid octets).leaveContext rid).laneMismatch n rid

theorem State.laneGivenUp_tango (s : State) (rid n octets : Nat) :
    (s.laneGivenUp rid n octets).tango = { s.tango with mismatches := s.tango.mismatches + 1 } := by
  have htango : ((s.releaseTo rid octets).leaveContext rid).tango = s.tango :=
    (State.leaveContext_field (φ := .tango) _ rid (by simp)).trans (State.releaseTo_field (φ := .tango) s rid octets (by simp))
  rw [State.laneGivenUp, State.laneMismatch_tango, htango]

/-- The request whose first `octets` of the oldest segment's output have been released. -/
def Req.releasedTo (octets : Nat) (q : Req) : Req :=
  let m := min octets q.m.laneOut.length
  let p := q.release ((q.m.laneOut.take m).drop q.m.outReleased)
  { p with m := { p.m with outReleased := max m q.m.outReleased } }

theorem State.releaseTo_of_req (hq : s.req rid = some q) (octets : Nat) :
    s.releaseTo rid octets = s.putReq rid (q.releasedTo octets) := by
  rw [State.releaseTo, State.onReq_of_req _ hq]
  rfl

theorem State.req_laneGivenUp (hq : s.req rid = some q) (octets : Nat) :
    (s.laneGivenUp rid n octets).req rid = some (q.releasedTo octets) := by
  rw [State.laneGivenUp, State.req_laneMismatch, State.req_leaveContext, State.releaseTo_of_req hq]
  exact State.req_putReq_same _ _ _

theorem Req.releasedTo_checkpoint (octets : Nat) :
    (q.releasedTo octets).m.ckpt = q.m.ckpt ∧ (q.releasedTo octets).m.tries = q.m.tries ∧
      (q.releasedTo octets).m.segPassed = q.m.segPassed := by
  simp only [Req.releasedTo, Req.release, Req.putOut]
  split <;> simp

theorem State.req_releaseTo_unheld (hq : s.req rid = some q) (hheld : q.m.held = false) (i : Nat) :
    (s.releaseTo rid i).req rid = some
      { q.putOut ((q.m.laneOut.take (min i q.m.laneOut.length)).drop q.m.outReleased) with
        m := { q.m with outReleased := max (min i q.m.laneOut.length) q.m.outReleased } } := by
  rw [State.releaseTo_of_req hq, State.req_putReq_same]
  simp [Req.releasedTo, Req.release, Req.putOut, hheld]

theorem execTangoMismatch_lane {at_ : MismatchAt} (hop : isLaneOp q.d.opcode = true)
    (hdisp : q.m.dispatched = true) (hend : q.m.ending = none) (hlt : q.m.segPassed < q.m.segComputed)
    (hkey : q.m.key = some k) (hlane : laneOf s rid = some n) (hmade : compareMade q at_ = true)
    (hreq : exec (.tangoMismatch rid at_ passed) s = .next (s.reqFail rid q at_ passed)) :
    exec (.tangoMismatch rid at_ passed) s = .next (s.laneFail rid n q k at_ passed) := by
  have hle : ¬ q.m.segComputed ≤ q.m.segPassed := by omega
  rw [hreq]
  simp only [State.reqFail, hop, hdisp, hkey, hlane, hend, hle, hmade, and_self, if_true, Option.isSome_none, Bool.false_eq_true,
    Bool.not_true, or_self, if_false]

/-- A block's mismatch: given up in its lane, the request is recovered on another. -/
theorem State.laneFail_block (s : State) (rid n : Nat) (q : Req) (k : KeyCopy) (passed : Nat) :
    s.laneFail rid n q k .block passed =
      (s.laneGivenUp rid n (passed * (if tChacha k.transform then 64 else 16))).recover rid q k (q.m.excluded ++ [n]) false := by
  simp only [State.laneFail, atClose, passedOctets, State.laneGivenUp, reduceCtorEq, if_false, Bool.false_eq_true, false_and]

/-- R309: on a lane that can take it the request restarts at its checkpoint. -/
theorem State.recover_restarts {r : Req} {m : Nat} {excluded : List Nat} (hr : s.req rid = some r) (hlost : q.m.lost = false)
    (htries : q.m.tries < 2) (hm : chooseLane s (needsInverse k.transform q.d.opcode) excluded = some m) :
    ∃ q', (s.recover rid q k excluded false).req rid = some q' ∧ q'.m.tries = r.m.tries + 1 ∧ q'.m.work = r.m.ckpt ∧
      q'.m.inLane = [] ∧ q'.m.segComputed = r.m.segPassed ∧ q'.m.segIssued = r.m.segPassed ∧ q'.m.retried = true ∧
      (s.recover rid q k excluded false).tango = { s.tango with recomputations := s.tango.recomputations + 1 } := by
  have hle : ¬ 2 ≤ q.m.tries := by omega
  simp only [State.recover, hlost, hle, hm, Bool.false_eq_true, if_false, State.onReq_of_req _ hr]
  exact ⟨_, State.req_putReq_same _ _ _, rfl, rfl, rfl, rfl, rfl, rfl, rfl⟩

/-! ## The key-handling units (R307, R316) -/

theorem State.myenoEnd_ending (hq : s.req rid = some q) (hend : q.m.ending = none) (e : Ending) :
    ∃ q', (s.myenoEnd rid e).req rid = some q' ∧ q'.m.ending = some e := by
  have hleft : (s.leaveContext rid).req rid = some q := (State.req_leaveContext s rid rid).trans hq
  simp only [State.myenoEnd, hq, hend, Option.isSome_none, Bool.false_eq_true, if_false, State.onReq_of_req _ hleft]
  refine ⟨{ q with m := q.m.close e (q.statOf e) q.inDoneOf }, ?_, rfl⟩
  split
  · exact State.req_putReq_same _ _ _
  · rw [req_of_field (State.closeChainOf_field (φ := .reqs) _ q (by simp))]
    exact State.req_putReq_same _ _ _

theorem State.retryImpossible_ending (hq : s.req rid = some q) (hend : q.m.ending = none) (detail : Nat) :
    ∃ q', (s.retryImpossible rid detail).req rid = some q' ∧ q'.m.ending = some (ends .retryImpossible detail) :=
  State.myenoEnd_ending hq hend _

theorem State.retryImpossible_mismatches (s : State) (rid detail : Nat) :
    (s.retryImpossible rid detail).tango.mismatches = s.tango.mismatches := by
  have htango : (s.myenoEnd rid (ends .retryImpossible detail)).tango = s.tango :=
    State.myenoEnd_field (φ := .tango) s rid _ (by simp)
  simp only [State.retryImpossible, htango]

theorem execTangoMismatch_key (hq : s.req rid = some q) (hop : isLaneOp q.d.opcode = false)
    (hdigest : isDigestOp q.d.opcode = false) (hwork : keyWork s q = true)
    (hload : s.keys.loads.find? (fun l => l.source != 0 && l.source != 3 && l.req == rid) = none) :
    exec (.tangoMismatch rid .block passed) s = .next (
      if q.m.tries < 2 then
        (s.keyMismatch true).putReq rid { q with m := { q.m with tries := q.m.tries + 1, retried := true, recovering := true } }
      else (s.keyMismatch false).retryImpossible rid 2) := by
  have hreq : (s.keyMismatch true).req rid = some q := hq
  simp only [exec, execTangoMismatch, hq, State.reqFail, hop, hdigest, hwork, State.keyFail, hload, Bool.false_eq_true, false_and,
    if_false, true_or, if_true, Bool.not_true, State.onReq_of_req _ hreq, reduceCtorEq]

theorem execTangoMismatch_keyWindow {o : Nat} {l : Load}
    (hl : s.keys.loads.find? (fun l => l.source == 0 && l.page == o) = some l) :
    exec (.tangoMismatch rid (.keyWindow o) passed) s = .next (s.loadFail l) := by
  simp only [exec, execTangoMismatch, hl]

theorem State.loadFail_again {l : Load} (hsource : l.source = 0) (htries : l.tries < 2) :
    s.loadFail l = (s.keyMismatch true).onKeys (fun k =>
      { k with loads := k.loads.map (fun x => if x = l then { x with tries := x.tries + 1 } else x) }) := by
  simp [State.loadFail, hsource, htries]

theorem State.loadFail_window {l : Load} (hsource : l.source = 0) (htries : 2 ≤ l.tries) :
    ∃ t, s.loadFail l = t ∧ t.keys.loads = s.keys.loads.erase l ∧ t.keys.slots = s.keys.slots ∧
      t.kw l.page = KeyWindow.done (ends .retryImpossible 2) 0 (s.kw l.page) ∧
      t.tango.retryNoLane = s.tango.retryNoLane + 1 := by
  have hlt : ¬ l.tries < 2 := by omega
  refine ⟨_, rfl, ?_⟩
  simp only [State.loadFail, hsource, hlt, decide_false, Bool.false_eq_true, if_false, if_true]
  exact ⟨rfl, rfl, Tab.get_upd_same _ _ _ _, rfl⟩

/-! ## Retests of lanes (R320) -/

/-- Whether a retest under the mask begins on lane `n`, and what it does to it. -/
def retestLane (mask : BitVec 16) (n : Nat) (l : Lane) : Lane :=
  if mask.getLsbD n = true ∧ l.state = .outOfService then { l with retesting := true } else l

theorem execLaneRetest_lane (s : State) (mask : BitVec 16) :
    ∃ t, exec (.laneRetest mask) s = .next t ∧
      ∀ n, t.lane n =
        if n < 16 ∧ mask.getLsbD n = true ∧ (s.lane n).state = .outOfService then { s.lane n with retesting := true }
        else s.lane n := by
  refine ⟨_, rfl, fun n => ?_⟩
  rw [foldl_each State.lane _ (retestLane mask) (fun t n => ?_) (fun t n k hk => ?_) _ List.nodup_range]
  · by_cases hn : n < 16 <;> simp [retestLane, hn]
  · simp only [retestLane]
    split <;> simp
  · split
    · exact State.lane_onLane_other _ _ _ _ hk
    · rfl

theorem execLaneRetestDone_passed {lane : Nat} (hlane : lane < 16) (hretest : (s.lane lane).retesting = true)
    (hen : s.lanes.enable.getLsbD lane = true) (hpow : s.lanes.powered.getLsbD lane = true) (hctxs : (s.lane lane).ctxs = []) :
    ∃ t, exec (.laneRetestDone lane true) s = .next t ∧
      t.lane lane =
        { s.lane lane with retesting := false, retestFailed := false, recent := [], cause := 0, state := .idle } := by
  refine ⟨_, (unit_next _ hlane : exec (.laneRetestDone lane true) s = _), ?_⟩
  · have hcause : ∀ f, laneCause (s.onLane lane f) lane = 0 := fun f => by
      show (if !(s.lanes.enable.getLsbD lane) then 1 else if !(s.lanes.powered.getLsbD lane) then 2 else 0) = 0
      simp [hen, hpow]
    simp [State.laneSettle, hretest, hcause, hctxs]

theorem execLaneRetestDone_failed {lane : Nat} (hlane : lane < 16) (hretest : (s.lane lane).retesting = true) :
    ∃ t, exec (.laneRetestDone lane false) s = .next t ∧
      t.lane lane = { s.lane lane with retesting := false, retestFailed := true } := by
  refine ⟨_, (unit_next _ hlane : exec (.laneRetestDone lane false) s = _), ?_⟩
  simp [hretest]

theorem execLaneRetestDone_idle {lane : Nat} (hlane : lane < 16) (hretest : (s.lane lane).retesting = false) (passed : Bool) :
    exec (.laneRetestDone lane passed) s = .next s := by
  simp only [exec, execLaneRetestDone, hretest, Bool.not_false, if_true]
  exact unit_next _ hlane

end

/-- Settles O13: a mismatch of a lane, of a digest unit, of the key-handling units or of FILL, and the retests of lanes. -/
theorem mismatchedLanesRecoverAndRetest : Obligations.MismatchedLanesRecoverAndRetest := by
  unfold Obligations.MismatchedLanesRecoverAndRetest
  refine ⟨fun s rid n passed q k hq hop hdisp hend hlt hkey hlane => ?_, ⟨?_, ?_, ?_, ?_⟩, execLaneRetest_lane,
    fun s lane hlane hretest => ⟨execLaneRetestDone_passed hlane hretest, execLaneRetestDone_failed hlane hretest⟩,
    fun s lane passed hlane hretest => execLaneRetestDone_idle hlane hretest passed⟩
  · have hblock : exec (.tangoMismatch rid .block passed) s = .next (s.laneFail rid n q k .block passed) :=
      execTangoMismatch_lane hop hdisp hend hlt hkey hlane rfl (by simp only [exec, execTangoMismatch, hq])
    refine ⟨hblock, ?_, fun hfinal hclose => ?_, fun hlost htries m hm => ?_,
      fun hheld i => State.req_releaseTo_unheld hq hheld i, by simp [State.paceLate]⟩
    · exact execTangoMismatch_lane hop hdisp hend hlt hkey hlane rfl (by simp only [exec, execTangoMismatch, hq])
    · rw [execTangoMismatch_lane (at_ := .close) hop hdisp hend hlt hkey hlane (by simp [compareMade, hfinal, hclose])
        (by simp only [exec, execTangoMismatch, hq])]
      simp only [State.laneFail, atClose, passedOctets, true_and, reduceCtorEq, if_false]
    · obtain ⟨hckpt, htriesR, hpassed⟩ := Req.releasedTo_checkpoint (q := q) (passed * (if tChacha k.transform then 64 else 16))
      obtain ⟨q', hq', ht, hw, hin, hcomp, hiss, hret, htango⟩ :=
        State.recover_restarts (State.req_laneGivenUp (n := n) hq _) hlost htries hm
      rw [State.laneGivenUp_tango] at htango
      exact ⟨_, q', hblock.trans (congrArg Host.Outcome.next (State.laneFail_block s rid n q k passed)), hq',
        ht.trans (by rw [htriesR]), hw.trans hckpt, hin, hcomp.trans hpassed, hiss.trans hpassed, hret,
        congrArg Tango.mismatches htango, congrArg Tango.recomputations htango⟩
  · intro s rid u passed q r hq hop hdigest hunit hr
    simp only [exec, execTangoMismatch, hq, State.reqFail, hop, hdigest, hunit, hr, Bool.false_eq_true, false_and, if_false,
      if_true, reduceCtorEq]
  · intro s rid passed q hq hop hdigest hwork hload
    have hexec := execTangoMismatch_key (passed := passed) hq hop hdigest hwork hload
    refine ⟨fun htries => ?_, fun htries hend => ?_⟩
    · rw [if_pos htries] at hexec
      exact ⟨_, hexec, rfl, rfl, State.req_putReq_same _ _ _⟩
    · rw [if_neg (by omega)] at hexec
      have hreq : (s.keyMismatch false).req rid = some q := hq
      obtain ⟨q', hq', hending⟩ := State.retryImpossible_ending hreq hend 2
      exact ⟨_, q', hexec, State.retryImpossible_mismatches _ _ _, hq', hending⟩
  · intro s rid o passed l hl
    have hfound := List.find?_some hl
    simp only [Bool.and_eq_true, beq_iff_eq] at hfound
    obtain ⟨hsource, rfl⟩ := hfound
    have hexec := execTangoMismatch_keyWindow (rid := rid) (passed := passed) hl
    refine ⟨fun htries => ?_, fun htries => ?_⟩
    · rw [State.loadFail_again hsource htries] at hexec
      exact ⟨_, hexec, rfl, rfl, rfl⟩
    · obtain ⟨t, ht, hloads, hslots, hkw, hretry⟩ := State.loadFail_window (s := s) hsource htries
      rw [ht] at hexec
      refine ⟨t, hexec, hloads, hslots, ?_, ?_, ?_, hretry⟩ <;> rw [hkw] <;> rfl
  · intro s rid n passed hquiet
    refine ⟨fun hn hpow => ?_, fun hn => ?_⟩
    · simp only [exec, execTangoMismatch, hquiet, hpow, and_self, if_true]
      exact unit_next _ hn
    · simp only [exec, execTangoMismatch, hquiet, if_true]
      exact unit_next _ hn

end Sys2Proof.Machine
end

section
/-!
SUPPORT. Digest opcodes (O15): absorbing in two goes is absorbing in one, and the end of a segment does with a request
what the unit's blocks have not done before.
-/
namespace Sys2Proof.Machine

/-! ## Absorbing -/

theorem hashBlocks_add (alg m n : Nat) (b st : Bytes) :
    hashBlocks alg (m + n) b st = hashBlocks alg n (b.drop (m * hashRate alg)) (hashBlocks alg m b st) := by
  induction m generalizing b st with
  | zero => simp [hashBlocks]
  | succ m ih =>
    rw [Nat.succ_add, hashBlocks, ih, hashBlocks, List.drop_drop]
    congr 2
    ring

/-- The blocks absorbed are all that a hash computation reads of its data. -/
theorem hashBlocks_append (alg n : Nat) (b c st : Bytes) (h : n * hashRate alg ≤ b.length) :
    hashBlocks alg n (b ++ c) st = hashBlocks alg n b st := by
  induction n generalizing b st with
  | zero => rfl
  | succ n ih =>
    have hrate : hashRate alg ≤ b.length := le_trans (Nat.le_mul_of_pos_left _ n.succ_pos) h
    rw [hashBlocks, hashBlocks, List.take_append_of_le_length hrate, List.drop_append_of_le_length hrate, ih]
    rw [List.length_drop]
    rw [Nat.succ_mul] at h
    omega

theorem HashWork.absorb_append (w : HashWork) (a b : Bytes) : (w.absorb a).absorb b = w.absorb (a ++ b) := by
  have hwhole : (w.buf ++ a).length / hashRate w.alg * hashRate w.alg ≤ (w.buf ++ a).length := Nat.div_mul_le_self _ _
  have hsplit : (w.buf ++ (a ++ b)).length / hashRate w.alg =
      (w.buf ++ a).length / hashRate w.alg +
        ((w.buf ++ a).drop ((w.buf ++ a).length / hashRate w.alg * hashRate w.alg) ++ b).length / hashRate w.alg := by
    rcases Nat.eq_zero_or_pos (hashRate w.alg) with h0 | hpos
    · simp [h0]
    · rw [← Nat.mul_add_div hpos]
      congr 1
      simp only [List.length_append, List.length_drop] at hwhole ⊢
      rw [Nat.mul_comm (hashRate w.alg)]
      omega
  simp only [HashWork.absorb, HashWork.mk.injEq, true_and]
  rw [hsplit, hashBlocks_add, ← List.append_assoc, hashBlocks_append _ _ _ _ _ hwhole, List.drop_append_of_le_length hwhole,
    Nat.add_mul, ← List.drop_drop, List.drop_append_of_le_length hwhole]
  simp [Nat.add_assoc]

@[simp] theorem HashWork.absorb_nil_alg (w : HashWork) (a : Bytes) : (w.absorb a).alg = w.alg := rfl

/-- A hash computation kept in a request's work comes back as it was kept. -/
theorem Work.hash_ofHash {w : Work} {h : HashWork} (hle : w.aadDone ≤ h.total) : (w.ofHash h).hash h.alg = h := by
  simp [Work.hash, Work.ofHash, Nat.sub_add_cancel hle]

theorem Work.ofHash_ofHash (w : Work) (h h' : HashWork) : (w.ofHash h).ofHash h' = w.ofHash h' := rfl

theorem Work.ofHash_absorb (w : Work) (alg : Nat) (a b : Bytes) :
    (w.ofHash ((w.hash alg).absorb a)).ofHash (((w.ofHash ((w.hash alg).absorb a)).hash alg).absorb b) =
      w.ofHash ((w.hash alg).absorb (a ++ b)) := by
  have hle : w.aadDone ≤ ((w.hash alg).absorb a).total := by
    show w.aadDone ≤ w.textDone + w.aadDone + a.length
    omega
  have hback : (w.ofHash ((w.hash alg).absorb a)).hash alg = (w.hash alg).absorb a := Work.hash_ofHash hle
  rw [hback, HashWork.absorb_append, Work.ofHash_ofHash]

/-! ## One segment (R339) -/

/-- The rest of the segment that the unit has not absorbed yet. -/
def Req.segRest (q : Req) : Bytes := ((q.m.payload.drop (4096 * q.m.segPassed)).take 4096).drop q.m.outReleased

/-- The request whose segment has been absorbed to its end. -/
def Req.segAbsorbed (q : Req) : Req :=
  let w := q.m.work.ofHash ((q.m.work.hash q.d.profile).absorb q.segRest)
  { q with
    m := { q.m with
      work := w, ckpt := w, outReleased := 0, tries := 0, excluded := [], recovering := false
      segIssued := q.m.segPassed + 1, segComputed := q.m.segPassed + 1, segPassed := q.m.segPassed + 1 } }

section
variable {s : State} {rid u op : Nat} {q : Req}

theorem take_append_drop_length (l : Bytes) (m : Nat) : l.take m ++ l.drop (l.take m).length = l := by
  rcases Nat.le_total m l.length with h | h
  · rw [List.length_take_of_le h, List.take_append_drop]
  · rw [List.take_of_length_le h, List.drop_length, List.append_nil]

/-- The request after `bytes` of the rest of its segment. -/
def Req.ran (q : Req) (bytes : Bytes) : Req :=
  let w := q.m.work.ofHash ((q.m.work.hash q.d.profile).absorb bytes)
  { q with
    m := { q.m with
      work := w, ckpt := w, outReleased := q.m.outReleased + bytes.length, tries := 0, excluded := [], recovering := false } }

theorem Req.segAbsorbed_ran (q : Req) (m : Nat) : (q.ran (q.segRest.take m)).segAbsorbed = q.segAbsorbed := by
  have hrest : (q.ran (q.segRest.take m)).segRest = q.segRest.drop (q.segRest.take m).length := List.drop_drop.symm
  simp only [Req.segAbsorbed, hrest]
  simp only [Req.ran, Work.ofHash_absorb, take_append_drop_length]

/-- The blocks of a segment that a unit runs before its end leave to be absorbed what they did not absorb. -/
theorem State.digestRun_ran (hq : s.req rid = some q) (n : Nat) :
    s.digestRun rid u n = s ∨ ∃ m blocks, s.digestRun rid u n = (s.putReq rid (q.ran (q.segRest.take m))).addBlocks u blocks := by
  simp only [State.digestRun, hq]
  split
  · exact .inl rfl
  · simp only [State.onReq_of_req _ hq]
    exact .inr ⟨_, _, rfl⟩

theorem State.digestSegDone_of_req (hq : s.req rid = some q) (hstop : q.m.stopAtSegment = none) :
    s.digestSegDone rid u =
      if q.finalSeg q.m.segPassed then ((s.putReq rid q.segAbsorbed).turnOff u).digestFinish rid u q.segAbsorbed
      else ((s.putReq rid q.segAbsorbed).turnOff u).lengthEnd rid := by
  simp only [State.digestSegDone, hq, hstop, Req.segAbsorbed, Req.segRest]

/-- A context that a unit picks by its turn is ready. -/
theorem ctxReady_of_find {l : List UnitCtx} {c : UnitCtx} (h : (l.find? (ctxReady s)).map Turn.ctx = some (.ctx c)) :
    ctxReady s c = true := by
  obtain ⟨d, hd, hdc⟩ := Option.map_eq_some_iff.mp h
  obtain rfl : d = c := by simpa using hdc
  exact List.find?_some hd

/-- A unit's turn on a request: it is ready, so no ending and no stop stands. -/
theorem canIssue_of_turn (hq : s.req rid = some q) (hturn : unitTurn s u = some (.ctx (.req rid))) : q.canIssue = true := by
  have hready : ∀ {c}, unitTurn s u = some (.ctx c) → ctxReady s c = true := by
    intro c hc
    simp only [unitTurn] at hc
    cases hcur : (s.unitAt u).current with
    | none =>
      simp only [hcur] at hc
      split at hc
      · cases hc
      · split at hc
        · cases hc
        · exact ctxReady_of_find hc
    | some d =>
      simp only [hcur] at hc
      split at hc
      · obtain rfl : d = c := by simpa using hc
        assumption
      · split at hc
        · cases hc
        · exact ctxReady_of_find hc
  have := hready hturn
  simpa only [ctxReady, hq] using this

/-! ## The finish (R346, R347, R354) -/

theorem State.myenoEnd_good (hq : s.req rid = some q) (hend : q.m.ending = none) {e : Ending} (hgood : e.st.good = true) :
    s.myenoEnd rid e = (s.leaveContext rid).putReq rid { q with m := q.m.close e (q.statOf e) q.inDoneOf } := by
  have hleft : (s.leaveContext rid).req rid = some q := (State.req_leaveContext s rid rid).trans hq
  simp only [State.myenoEnd, hq, hend, hgood, Option.isSome_none, Bool.false_eq_true, if_false, if_true, State.onReq_of_req _ hleft]

/-- Any ending of Myeno's touches the record's content and the request's work only. -/
theorem State.req_myenoEnd (hq : s.req rid = some q) (hend : q.m.ending = none) (e : Ending) :
    (s.myenoEnd rid e).req rid = some { q with m := q.m.close e (q.statOf e) q.inDoneOf } := by
  have hleft : (s.leaveContext rid).req rid = some q := (State.req_leaveContext s rid rid).trans hq
  simp only [State.myenoEnd, hq, hend, Option.isSome_none, Bool.false_eq_true, if_false, State.onReq_of_req _ hleft]
  split
  · exact State.req_putReq_same _ _ _
  · rw [req_of_field (State.closeChainOf_field (φ := .reqs) _ q (by simp))]
    exact State.req_putReq_same _ _ _

theorem State.req_chainWriteOn (hq : s.req rid = some q) (p : Req) :
    ∃ cw, (s.chainWriteOn rid p).req rid = some { q with chainWrite := cw } ∧
      (p.m.work.chain.isSome = true → cw.isSome = true) := by
  simp only [State.chainWriteOn]
  split
  case h_1 hchain => exact ⟨q.chainWrite, hq, by simp [hchain]⟩
  case h_2 c _ =>
    refine ⟨some (s.wrapChain p.owner p.d.profile
      { c with link := c.link + 1, iv := p.m.work.iv, acc := p.m.work.acc, aadDone := p.m.work.aadDone,
               textDone := p.m.work.textDone }).1, ?_, fun _ => rfl⟩
    have hwrap : ∀ c', ((s.wrapChain p.owner p.d.profile c').2.countControl (wrapBlocks 80)).req rid = some q := fun _ => hq
    rw [State.onReq_of_req _ (hwrap _)]
    split
    · exact State.req_putReq_same _ _ _
    · exact State.req_putReq_same _ _ _

theorem Req.noOut_releaseHeld (q : Req) : q.releaseHeld.noOut = q.noOut := by
  cases h : q.m.heldOut <;> simp [Req.noOut, Req.releaseHeld, h]

theorem Req.beatsOut_releaseHeld (q : Req) (kind : BeatKind) (bs : Bytes) : q.releaseHeld.beatsOut kind bs = q.beatsOut kind bs := by
  simp only [Req.beatsOut, Req.noOut_releaseHeld]
  rfl

/-- A good close sends the tag or digest, and the chain state where a link leaves its chain open. -/
theorem State.req_closeGood {p : Req} (icv : Bytes) (hq : s.req rid = some q) (hend : q.m.ending = none) :
    ∃ q', (s.closeGood rid p icv).req rid = some q' ∧ q'.m.ending = some (ends .ok 0) ∧
      q'.icvBeats = q.icvBeats ++ q.beatsOut .icv icv ∧
      (p.d.opens = true → p.m.work.chain.isSome = true → q'.chainWrite.isSome = true) := by
  have hput : s.onReq rid (fun x => x.releaseHeld.putIcv icv) = s.putReq rid (q.releaseHeld.putIcv icv) := State.onReq_of_req _ hq
  have hicv : (q.releaseHeld.putIcv icv).icvBeats = q.icvBeats ++ q.beatsOut .icv icv := by
    rw [Req.putIcv, Req.beatsOut_releaseHeld]
    rfl
  have hreq := State.req_putReq_same s rid (q.releaseHeld.putIcv icv)
  simp only [State.closeGood, hput]
  split
  · obtain ⟨cw, hcw, hsome⟩ := State.req_chainWriteOn hreq p
    exact ⟨_, State.req_myenoEnd hcw hend _, rfl, hicv, fun _ h => hsome h⟩
  · rename_i hopens
    refine ⟨_, State.req_myenoEnd (q := q.releaseHeld.putIcv icv) ?_ hend _, rfl, hicv, fun h => absurd h hopens⟩
    split
    · exact (req_of_field (State.closeChainOf_field (φ := .reqs) _ p (by simp)) rid).trans hreq
    · exact hreq

@[simp] theorem Req.beatsOut_nil (q : Req) (kind : BeatKind) : q.beatsOut kind [] = [] := rfl

/-- The digest or the HMAC of a request whose message is absorbed. -/
def Req.digestResult (q : Req) : Bytes :=
  match q.m.key with
  | some k => hmacClose (q.m.work.hash q.d.profile) k.secret (digestOut q.d)
  | none => (q.m.work.hash q.d.profile).finish (digestOut q.d)

theorem State.digestFinish_result (hq : s.req rid = some q) (hend : q.m.ending = none) (hop : q.d.opcode ≠ 0x22)
    (hopens : q.d.opens = false) (hcmp : q.d.cmp = false) :
    ∃ q', (s.digestFinish rid u q).req rid = some q' ∧ q'.m.ending = some (ends .ok 0) ∧
      q'.icvBeats = q.icvBeats ++ q.beatsOut .icv q.digestResult := by
  simp only [State.digestFinish, hop, hopens, hcmp, Bool.false_eq_true, if_false]
  obtain ⟨q', hq', hending, hicv, -⟩ := State.req_closeGood (p := q) q.digestResult
    (s := s.addBlocks u (finishBlocks q.d.profile (q.m.work.hash q.d.profile).buf.length (digestOut q.d) + 2 * b2n q.m.key.isSome))
    hq hend
  exact ⟨q', hq', hending, hicv⟩

/-- The blocks of the finish run, and the outcome of its compare counted. -/
def State.digestCompared (s : State) (u : Nat) (q : Req) (same : Bool) : State :=
  let s0 := s.addBlocks u
    (finishBlocks q.d.profile (q.m.work.hash q.d.profile).buf.length (digestOut q.d) + 2 * b2n q.m.key.isSome)
  { s0 with
    digest := { s0.digest with
      equal := if same then s0.digest.equal + 1 else s0.digest.equal
      notEqual := if same then s0.digest.notEqual else s0.digest.notEqual + 1 } }

theorem State.digestFinish_eq_compare (hop : q.d.opcode ≠ 0x22) (hopens : q.d.opens = false) (hcmp : q.d.cmp = true) :
    s.digestFinish rid u q =
      let same := decide (q.m.expect.take (digestOut q.d) = q.digestResult)
      if same then (s.digestCompared u q same).closeGood rid q []
      else (s.digestCompared u q same).myenoEnd rid (ends .authFail 2) := by
  simp only [State.digestFinish, hop, hopens, hcmp, Bool.false_eq_true, if_false, if_true]
  rfl

theorem State.digestFinish_compare (hq : s.req rid = some q) (hend : q.m.ending = none) (hop : q.d.opcode ≠ 0x22)
    (hopens : q.d.opens = false) (hcmp : q.d.cmp = true) :
    ∃ q', (s.digestFinish rid u q).req rid = some q' ∧ q'.icvBeats = q.icvBeats ∧
      q'.m.ending = some (if q.m.expect.take (digestOut q.d) = q.digestResult then ends .ok 0 else ends .authFail 2) := by
  have hreq : ∀ same, (s.digestCompared u q same).req rid = some q := fun _ => hq
  rw [State.digestFinish_eq_compare hop hopens hcmp]
  by_cases hsame : q.m.expect.take (digestOut q.d) = q.digestResult
  · simp only [hsame, decide_true, if_true]
    obtain ⟨q', hq', hending, hicv, -⟩ := State.req_closeGood (p := q) [] (hreq true) hend
    exact ⟨q', hq', by rw [hicv, Req.beatsOut_nil, List.append_nil], hending⟩
  · simp only [hsame, decide_false, Bool.false_eq_true, if_false]
    exact ⟨_, State.req_myenoEnd (hreq false) hend _, rfl, rfl⟩

theorem State.digestFinish_chain (hq : s.req rid = some q) (hend : q.m.ending = none) (hop : q.d.opcode ≠ 0x22)
    (hopens : q.d.opens = true) (hchain : q.m.work.chain.isSome = true) :
    ∃ q', (s.digestFinish rid u q).req rid = some q' ∧ q'.m.ending = some (ends .ok 0) ∧ q'.icvBeats = q.icvBeats ∧
      q'.chainWrite.isSome = true := by
  simp only [State.digestFinish, hop, hopens, if_false, if_true]
  obtain ⟨q', hq', hending, hicv, hcw⟩ := State.req_closeGood (p := q) [] hq hend
  exact ⟨q', hq', hending, by rw [hicv, Req.beatsOut_nil, List.append_nil], hcw hopens hchain⟩

/-! ## The state record of a DIGEST_SAVE (R363) -/

@[simp] theorem length_leBytes (n v : Nat) : (leBytes n v).length = n := by
  induction n generalizing v with
  | zero => rfl
  | succ n ih => simp [leBytes, ih]

@[simp] theorem length_cut (bs : Bytes) (i n : Nat) : (cut bs i n).length = n := by simp [cut]

@[simp] theorem length_zeros (n : Nat) : (zeros n).length = n := by simp [zeros]

@[simp] theorem length_xorBytes (a b : Bytes) : (xorBytes a b).length = a.length := by simp [xorBytes]

@[simp] theorem length_gcmTag (key iv acc : Bytes) (aadLen textLen : Nat) : (gcmTag key iv acc aadLen textLen).length = 16 := by
  have hlen : (beBytes 8 (8 * aadLen) ++ beBytes 8 (8 * textLen)).isEmpty = false := by
    simp [List.isEmpty_eq_false_iff, ← List.length_pos_iff, beBytes]
  simp [gcmTag, ghashOver, hlen, octetsOf]

theorem State.makeRecord_length (s : State) (o : Nat) (slot : Option (Nat × BitVec 12)) (alg len : Nat) (st : Bytes) :
    (s.makeRecord o slot alg len st).1.length = 256 := by
  cases slot <;> simp [State.makeRecord, gcmSeal, State.wrapNonce]

theorem State.makeRecord_kept (s : State) (o : Nat) (slot : Option (Nat × BitVec 12)) (alg len : Nat) (st : Bytes) :
    (s.makeRecord o slot alg len st).2.reqs = s.reqs ∧ (s.makeRecord o slot alg len st).2.digest = s.digest := by
  cases slot <;> exact ⟨rfl, rfl⟩

theorem State.leaveContext_saved (s : State) (rid : Nat) : (s.leaveContext rid).digest.saved = s.digest.saved := by
  simp only [State.leaveContext]
  split
  · rfl
  · split <;> rfl

/-- A state record counted. -/
def State.countSaved (s : State) : State := { s with digest := { s.digest with saved := s.digest.saved + 1 } }

theorem State.digestFinish_save (hq : s.req rid = some q) (hend : q.m.ending = none) (hop : q.d.opcode = 0x22) :
    ∃ q' bs, (s.digestFinish rid u q).req rid = some q' ∧ q'.m.ending = some (ends .ok 0) ∧ bs.length = 256 ∧
      q'.outBeats = q.outBeats ++ q.beatsOut .out bs ∧ (s.digestFinish rid u q).digest.saved = s.digest.saved + 1 := by
  obtain ⟨r, hr⟩ : ∃ r, r = s.makeRecord q.owner (q.m.key.map (fun k => (k.slot.getD 0, k.gen))) q.d.profile q.m.work.textDone
        (q.m.work.hash q.d.profile).st := ⟨_, rfl⟩
  have hlength : r.1.length = 256 := hr ▸ s.makeRecord_length ..
  obtain ⟨hreqs, hdigest⟩ : r.2.reqs = s.reqs ∧ r.2.digest = s.digest := hr ▸ s.makeRecord_kept ..
  have hreq : r.2.countSaved.req rid = some q := by
    show findReq r.2.reqs rid = some q
    rwa [hreqs]
  have hfinish : s.digestFinish rid u q = (r.2.countSaved.onReq rid (Req.putOut r.1)).myenoEnd rid (ends .ok 0) := by
    simp only [State.digestFinish, hop, if_true, ← hr, State.countSaved]
  rw [hfinish, State.onReq_of_req _ hreq, State.myenoEnd_good (q := Req.putOut r.1 q) (State.req_putReq_same _ _ _) hend rfl]
  refine ⟨_, r.1, State.req_putReq_same _ _ _, rfl, hlength, rfl, ?_⟩
  calc ((r.2.countSaved.putReq rid (Req.putOut r.1 q)).leaveContext rid).digest.saved
    _ = r.2.digest.saved + 1 := State.leaveContext_saved _ _
    _ = s.digest.saved + 1 := by rw [hdigest]

/-! ## The turn -/

theorem exec_digestOpcode {i : Instr}
    (hi : (i, op) ∈ [(Instr.digest rid, 0x20), (.hmac rid, 0x21), (.digestSave rid, 0x22), (.digestResume rid, 0x23)])
    (t : State) : exec i t = .next (t.digestTurn rid op) := by
  simp only [List.mem_cons, Prod.mk.injEq, List.not_mem_nil, or_false] at hi
  rcases hi with ⟨rfl, rfl⟩ | ⟨rfl, rfl⟩ | ⟨rfl, rfl⟩ | ⟨rfl, rfl⟩ <;> rfl

theorem State.digestTurn_of_turn (hq : s.req rid = some q) (hunit : unitOf s rid = some u) (hop : q.d.opcode = op)
    (hturn : unitTurn s u = some (.ctx (.req rid))) (hclean : q.segPoison q.m.segPassed = false) :
    s.digestTurn rid op = ((s.turnOn u (.req rid)).digestRun rid u 4096).digestSegDone rid u := by
  simp only [State.digestTurn, hq, hunit, hop, hturn, hclean, ne_eq, not_true_eq_false, or_self, if_false, Bool.false_eq_true]

/-- What a turn has done when the segment is absorbed: the request's work, the end of the turn, and nothing more that the
finish reads. -/
theorem State.digestTurn_absorbs (hq : s.req rid = some q) (hunit : unitOf s rid = some u) (hop : q.d.opcode = op)
    (hturn : unitTurn s u = some (.ctx (.req rid))) (hclean : q.segPoison q.m.segPassed = false) :
    ∃ t : State, s.digestTurn rid op = (if q.finalSeg q.m.segPassed then t.digestFinish rid u q.segAbsorbed else t.lengthEnd rid) ∧
      t.req rid = some q.segAbsorbed ∧ (t.unitAt u).current = none ∧ t.digest.saved = s.digest.saved := by
  have hon : (s.turnOn u (.req rid)).req rid = some q := hq
  have hcan := canIssue_of_turn hq hturn
  have hstop : q.m.stopAtSegment = none := by
    simp only [Req.canIssue, Bool.and_eq_true, Option.isNone_iff_eq_none] at hcan
    exact hcan.1.1.2
  rw [State.digestTurn_of_turn hq hunit hop hturn hclean]
  rcases State.digestRun_ran (u := u) hon 4096 with hrun | ⟨m, blocks, hrun⟩
  · rw [hrun, State.digestSegDone_of_req hon hstop]
    exact ⟨_, rfl, State.req_putReq_same _ _ _, congrArg DigestUnit.current (State.unitAt_onUnit_same _ u _), rfl⟩
  · have hran : (((s.turnOn u (.req rid)).putReq rid (q.ran (q.segRest.take m))).addBlocks u blocks).req rid =
        some (q.ran (q.segRest.take m)) := State.req_putReq_same _ _ _
    rw [hrun, State.digestSegDone_of_req hran hstop, Req.segAbsorbed_ran]
    exact ⟨_, rfl, State.req_putReq_same _ _ _, congrArg DigestUnit.current (State.unitAt_onUnit_same _ u _), rfl⟩

theorem Req.segAbsorbed_hash (q : Req) :
    q.segAbsorbed.m.work.hash q.d.profile = (q.m.work.hash q.d.profile).absorb q.segRest := by
  have hle : q.m.work.aadDone ≤ ((q.m.work.hash q.d.profile).absorb q.segRest).total := by
    show q.m.work.aadDone ≤ q.m.work.textDone + q.m.work.aadDone + q.segRest.length
    omega
  exact Work.hash_ofHash hle

theorem ending_of_turn (hq : s.req rid = some q) (hturn : unitTurn s u = some (.ctx (.req rid))) : q.m.ending = none := by
  have hcan := canIssue_of_turn hq hturn
  simp only [Req.canIssue, Bool.and_eq_true, Option.isNone_iff_eq_none] at hcan
  exact hcan.1.1.1

end

/-- Settles O15: in the unit's turn the segment is absorbed; the final one is followed by the finish of its opcode. -/
theorem digestOpcodesAbsorbSegment : Obligations.DigestOpcodesAbsorbSegment := by
  unfold Obligations.DigestOpcodesAbsorbSegment
  intro s rid u op i q hi hq hunit hop hturn hclean rest h
  have hexec := exec_digestOpcode hi s
  have hready := ending_of_turn hq hturn
  have hend : q.segAbsorbed.m.ending = none := hready
  obtain ⟨t, ht, hreq, hcur, hsaved⟩ := State.digestTurn_absorbs hq hunit hop hturn hclean
  have hhash : q.segAbsorbed.m.work.hash q.d.profile = h := Req.segAbsorbed_hash q
  refine ⟨hexec.trans (congrArg Host.Outcome.next (State.digestTurn_of_turn hq hunit hop hturn hclean)),
    fun hfinal htotal => ?_, fun hfinal hheld hsave hopens => ?_, fun hfinal _ hsave hopens hchain => ?_, fun hfinal hsave => ?_⟩
  · rw [if_neg (by simp [hfinal]), State.lengthEnd_of_totalRight hreq htotal] at ht
    exact ⟨t, hexec.trans (congrArg Host.Outcome.next ht), hcur, hreq⟩
  · rw [if_pos hfinal] at ht
    rw [ht] at hexec
    have hresult : q.segAbsorbed.digestResult =
        match q.m.key with
        | some k => hmacClose h k.secret (digestOut q.d)
        | none => h.finish (digestOut q.d) := by
      rw [← hhash]
      rfl
    refine ⟨fun hcmp => ?_, fun hcmp => ?_⟩
    · obtain ⟨q', hq', hending, hicv⟩ := State.digestFinish_result (u := u) hreq hend (hop ▸ hsave) hopens hcmp
      refine ⟨_, q', hexec, hq', hending, hicv.trans ?_⟩
      rw [hresult]
      rfl
    · obtain ⟨q', hq', hicv, hending⟩ := State.digestFinish_compare (u := u) hreq hend (hop ▸ hsave) hopens hcmp
      rw [hresult] at hending
      exact ⟨_, q', hexec, hq', by rw [hicv, Req.beatsOut_nil, List.append_nil]; rfl, hending⟩
  · rw [if_pos hfinal] at ht
    rw [ht] at hexec
    obtain ⟨q', hq', hending, hicv, hcw⟩ := State.digestFinish_chain (u := u) hreq hend (hop ▸ hsave) hopens hchain
    exact ⟨_, q', hexec, hq', hending, hicv, hcw⟩
  · rw [if_pos hfinal] at ht
    rw [ht] at hexec
    obtain ⟨q', bs, hq', hending, hlength, hout, hcount⟩ := State.digestFinish_save (u := u) hreq hend (hop.trans hsave)
    exact ⟨_, q', bs, hexec, hq', hending, hlength, hout, hcount.trans (by rw [hsaved])⟩

end Sys2Proof.Machine
end

section
/-!
SUPPORT. Digest register blocks: configuration and data (O16).
-/
namespace Sys2Proof.Machine

/-! ## Choosing a unit -/

/-- A fold that keeps its best or takes the next ends with an entry of its list, and with none of an empty list only. -/
theorem foldl_pick {f : Option Nat → Nat → Option Nat} (hf : ∀ b u, f b u = some u ∨ (f b u = b ∧ b.isSome = true))
    (l : List Nat) (b : Option Nat) :
    (l.foldl f b = none → b = none ∧ l = []) ∧ ∀ u, l.foldl f b = some u → b = some u ∨ u ∈ l := by
  induction l generalizing b with
  | nil => simp
  | cons a l ih =>
    obtain ⟨hnone, hsome⟩ := ih (f b a)
    rw [List.foldl_cons]
    rcases hf b a with h | ⟨h, hb⟩
    · refine ⟨fun he => ?_, fun u hu => ?_⟩
      · simp [h] at hnone
        exact absurd he (by simp [h, hnone])
      · rcases hsome u hu with hu | hu
        · exact .inr (by simp_all)
        · exact .inr (List.mem_cons_of_mem _ hu)
    · refine ⟨fun he => ?_, fun u hu => ?_⟩
      · have := (hnone he).1
        rw [h] at this
        simp [this] at hb
      · rcases hsome u hu with hu | hu
        · exact .inl (h ▸ hu)
        · exact .inr (List.mem_cons_of_mem _ hu)

theorem mem_rotation {p n u : Nat} (hn : 0 < n) : u ∈ (List.range n).map (fun i => (p + i) % n) ↔ u < n := by
  simp only [List.mem_map, List.mem_range]
  constructor
  · rintro ⟨i, -, rfl⟩
    exact Nat.mod_lt _ hn
  · intro hu
    refine ⟨(u + n - p % n) % n, Nat.mod_lt _ hn, ?_⟩
    have hp : p % n < n := Nat.mod_lt _ hn
    have hsum : p + (u + n - p % n) = u + n * (p / n + 1) := by
      have hdiv := Nat.div_add_mod p n
      rw [Nat.mul_add]
      generalize n * (p / n) = m at hdiv ⊢
      omega
    rw [Nat.add_mod_mod, hsum, Nat.add_mul_mod_self_left, Nat.mod_eq_of_lt hu]

/-- The candidates for a unit (R338): the choice is one of them, and none where there is none. -/
def mayTake (s : State) (room : DigestUnit → Bool) (excluded : List Nat) (u : Nat) : Prop :=
  u < 8 ∧ unitAvail s u = true ∧ room (s.unitAt u) = true ∧ u ∉ excluded

theorem chooseUnit_spec (s : State) (room : DigestUnit → Bool) (excluded : List Nat) :
    (∀ u, chooseUnit s room excluded = some u → mayTake s room excluded u) ∧
      (chooseUnit s room excluded = none → ∀ u, ¬ mayTake s room excluded u) := by
  have hmem : ∀ u, u ∈ ((List.range 8).map (fun i => (s.digest.pointer + i) % 8)).filter (fun u =>
      unitAvail s u && room (s.unitAt u) && !(excluded.contains u)) ↔ mayTake s room excluded u := by
    intro u
    rw [List.mem_filter, mem_rotation (by omega)]
    simp [mayTake, and_assoc]
  obtain ⟨hnone, hsome⟩ := foldl_pick (f := fun best u =>
    match best with
    | none => some u
    | some b => if unitRemaining s u < unitRemaining s b then some u else best)
    (by
      intro b u
      cases b with
      | none => exact .inl rfl
      | some b =>
        dsimp only
        split
        · exact .inl rfl
        · exact .inr ⟨rfl, rfl⟩)
    (((List.range 8).map (fun i => (s.digest.pointer + i) % 8)).filter (fun u =>
      unitAvail s u && room (s.unitAt u) && !(excluded.contains u))) none
  refine ⟨fun u hu => (hmem u).mp ((hsome u hu).resolve_left (by simp)), fun he u hu => ?_⟩
  have hin := (hmem u).mpr hu
  rw [(hnone he).2] at hin
  exact List.not_mem_nil hin

/-! ## The configuration (R357) -/

section
variable {s : State} {b : Bus} {o v : Nat}

/-- A block that a write of DG_CONFIG leaves, before a context is claimed. -/
def DigestPage.configured (v : Nat) (p : DigestPage) : DigestPage :=
  { p with alg := fld v 0 8, compare := bit v 8, keyed := bit v 9, outLen := fld v 16 7, done := false, equal := false,
           notEqual := false, error := 0, kstatus := 0, kdetail := 0, result := zeros 64, resultRead := false }

/-- The state in which an open block is closed and the new configuration stands. -/
def State.configured (s : State) (o v : Nat) : State := (s.closePage o).onPage o (DigestPage.configured v)

theorem State.dgConfig_eq :
    s.dgConfig o v =
      if fld v 0 8 = 0 then s.configured o v
      else if configRefused (fld v 0 8) (fld v 16 7) (bit v 9) then (s.configured o v).onPage o (fun p => { p with error := 7 })
      else
        match chooseUnit (s.configured o v) roomPage [] with
        | none =>
          let s3 := (s.configured o v).onPage o (fun p => { p with error := 1 })
          { s3 with digest := { s3.digest with noContext := (s.configured o v).digest.noContext + 1 } }
        | some u => ((s.configured o v).enterPage u o).onPage o
            (fun p => { p with isOpen := true, reqId := pageReqId (s.configured o v) }) := rfl

theorem State.page_closePage (s : State) (o : Nat) :
    (s.closePage o).page o =
      if (s.page o).isOpen then { (s.page o).abandon with isOpen := false, reqId := none } else s.page o := by
  simp only [State.closePage]
  split
  · rw [State.page_onPage_same]
    rfl
  · rfl

theorem State.page_configured (s : State) (o v : Nat) :
    (s.configured o v).page o = ((s.closePage o).page o).configured v := State.page_onPage_same _ _ _

theorem State.page_enterPage (s : State) (u o : Nat) : (s.enterPage u o).page o = { s.page o with unit := u } :=
  State.page_onPage_same _ _ _

/-- Whatever becomes of the claim, the block keeps the configuration written. -/
theorem State.page_dgConfig (s : State) (o v : Nat) :
    ∃ opened reqId unit error, (s.dgConfig o v).page o =
      { (s.configured o v).page o with isOpen := opened, reqId := reqId, unit := unit, error := error } := by
  rw [State.dgConfig_eq]
  split
  · exact ⟨_, _, _, _, rfl⟩
  · split
    · exact ⟨_, _, _, _, State.page_onPage_same _ _ _⟩
    · split
      · exact ⟨((s.configured o v).page o).isOpen, ((s.configured o v).page o).reqId, ((s.configured o v).page o).unit, 1,
          State.page_onPage_same (s.configured o v) o fun p => { p with error := 1 }⟩
      · rename_i u _
        refine ⟨true, pageReqId (s.configured o v), u, ((s.configured o v).page o).error,
          (State.page_onPage_same _ _ _).trans ?_⟩
        rw [State.page_enterPage]

theorem State.page_configured_closed (s : State) (o v : Nat) :
    ((s.configured o v).page o).isOpen = false ∧ ((s.configured o v).page o).error = 0 := by
  rw [State.page_configured, State.page_closePage]
  split
  · exact ⟨rfl, rfl⟩
  · rename_i h
    exact ⟨eq_false_of_ne_true h, rfl⟩

theorem State.configured_unopened (h : (s.page o).isOpen = false) : s.configured o v = s.onPage o (DigestPage.configured v) := by
  simp [State.configured, State.closePage, h]

/-- A unit takes a context at the end of its list. -/
theorem State.ctxs_enterPage (s : State) (u o : Nat) :
    ((s.enterPage u o).unitAt u).ctxs = (s.unitAt u).ctxs ++ [.page o] := by
  show (((s.onUnit u (fun x => { x with ctxs := x.ctxs ++ [.page o] })).unitSettle u).unitAt u).ctxs = _
  rw [State.unitSettle, State.unitAt_onUnit_same, State.unitAt_onUnit_same]
  rfl

theorem dgConfig_outcome (halg : fld v 0 8 ≠ 0) (hlegal : configRefused (fld v 0 8) (fld v 16 7) (bit v 9) = false)
    (hclosed : (s.page o).isOpen = false) :
    ((∃ u < 8, unitAvail s u = true ∧ roomPage (s.unitAt u) = true) →
      ((s.dgConfig o v).page o).isOpen = true ∧ ((s.dgConfig o v).page o).error = 0 ∧
      ((s.dgConfig o v).unitAt ((s.dgConfig o v).page o).unit).ctxs = (s.unitAt ((s.dgConfig o v).page o).unit).ctxs ++ [.page o]) ∧
    ((∀ u < 8, unitAvail s u = false ∨ roomPage (s.unitAt u) = false) →
      ((s.dgConfig o v).page o).isOpen = false ∧ ((s.dgConfig o v).page o).error = 1 ∧
      (s.dgConfig o v).digest.noContext = s.digest.noContext + 1) := by
  have htake : ∀ u, mayTake (s.configured o v) roomPage [] u ↔ u < 8 ∧ unitAvail s u = true ∧ roomPage (s.unitAt u) = true := by
    intro u
    rw [State.configured_unopened hclosed]
    simp only [mayTake, List.not_mem_nil, not_false_eq_true, and_true]
    exact Iff.rfl
  obtain ⟨hsome, hnone⟩ := chooseUnit_spec (s.configured o v) roomPage []
  have hpage := State.page_configured_closed s o v
  rw [State.dgConfig_eq, if_neg halg, if_neg (by simp [hlegal])]
  cases hchoice : chooseUnit (s.configured o v) roomPage [] with
  | none =>
    refine ⟨fun ⟨u, hu⟩ => absurd ((htake u).mpr hu) (hnone hchoice u), fun _ => ⟨?_, ?_, ?_⟩⟩
    · exact (congrArg DigestPage.isOpen
        (State.page_onPage_same (s.configured o v) o fun p => { p with error := 1 })).trans hpage.1
    · exact congrArg DigestPage.error (State.page_onPage_same (s.configured o v) o fun p => { p with error := 1 })
    · rw [State.configured_unopened hclosed]
      rfl
  | some w =>
    obtain ⟨hw, havail, hroom⟩ := (htake w).mp (hsome w hchoice)
    refine ⟨fun _ => ?_, fun h => ?_⟩
    · dsimp only
      rw [State.page_onPage_same, State.page_enterPage]
      refine ⟨rfl, hpage.2, ?_⟩
      show (((s.configured o v).enterPage w o).unitAt w).ctxs = _
      rw [State.ctxs_enterPage, State.configured_unopened hclosed]
      rfl
    · rcases h w hw with h | h <;> simp [h] at havail hroom

theorem execDgConfig_outcome {v : U64} (h : accepts s b o = true) :
    exec (.dgConfig b o v) s = .next (s.dgConfig o v.toNat) :=
  congrArg Host.Outcome.next (State.pageWrite_accepts s b o _ h)

end

/-! ## The data (R358, R360, R362) -/

section
variable {s t : State} {b : Bus} {o : Nat} {v : U64}

theorem State.pageData_begun (hopen : (s.page o).blocked = false) (hlast : (s.page o).lastPending = false)
    (hbegun : ((s.pageBegin o true).page o).blocked = false) (bs : Bytes) :
    s.pageData o bs =
      if ((s.pageBegin o true).page o).space = 0 ∧ bs ≠ [] then
        let s2 := (s.pageBegin o true).onPage o (fun q => { q with error := 2, overrun := true })
        { s2 with digest := { s2.digest with overruns := s2.digest.overruns + 1 } }
      else (s.pageBegin o true).onPage o (fun q => { q with backlog := q.backlog ++ bs }) := by
  simp only [State.pageData, hopen, hlast, hbegun, Bool.false_eq_true, if_false]

theorem leBytes_ne_nil {n : Nat} (hn : n ≠ 0) (v : Nat) : leBytes n v ≠ [] := by
  rw [← List.length_pos_iff, length_leBytes]
  omega

theorem take_leBytes_eq_nil {n k : Nat} (hn : n ≠ 0) (v : Nat) : (leBytes n v).take k = [] ↔ k = 0 := by
  simp [List.take_eq_nil_iff, leBytes_ne_nil hn]

theorem State.pageBegin_running (h : (s.page o).work.alg ≠ 0) : s.pageBegin o true = s := by simp [State.pageBegin, h]

theorem State.pageBegin_unkeyed (h : (s.page o).work.alg = 0) (hkeyed : (s.page o).keyed = false) :
    (s.pageBegin o true).page o =
      { s.page o with done := false, equal := false, notEqual := false, result := zeros 64, resultRead := false,
                      work := HashWork.start (s.page o).alg } := by
  simp only [State.pageBegin, h, hkeyed, ne_eq, not_true_eq_false, if_false, Bool.false_eq_true]
  refine (State.page_onPage_same _ _ _).trans ?_
  show (fun q : DigestPage => { q with work := HashWork.start (s.page o).alg }) ((s.onPage o (fun q =>
        { q with done := false, equal := false, notEqual := false, result := zeros 64, resultRead := false })).page o) = _
  rw [State.page_onPage_same]
  simp only [hkeyed]

theorem execDigestData_accepts (ha : accepts s b o = true) :
    exec (.digestData b o v) s = .next (s.pageData o (leBytes 8 v.toNat)) :=
  congrArg Host.Outcome.next (State.pageWrite_accepts s b o _ ha)

theorem execDigestData_begun (ha : accepts s b o = true) (hopen : (s.page o).blocked = false)
    (hlast : (s.page o).lastPending = false) (hbegun : ((s.pageBegin o true).page o).blocked = false) :
    (((s.pageBegin o true).page o).space ≠ 0 →
      exec (.digestData b o v) s =
        .next ((s.pageBegin o true).onPage o (fun p => { p with backlog := p.backlog ++ leBytes 8 v.toNat }))) ∧
    (((s.pageBegin o true).page o).space = 0 →
      ∃ u, exec (.digestData b o v) s = .next u ∧ (u.page o).backlog = ((s.pageBegin o true).page o).backlog ∧
        (u.page o).error = 2 ∧ (u.page o).overrun = true ∧
        u.digest.overruns = (s.pageBegin o true).digest.overruns + 1) := by
  have hexec := execDigestData_accepts (v := v) ha
  rw [State.pageData_begun hopen hlast hbegun] at hexec
  refine ⟨fun hspace => ?_, fun hspace => ?_⟩
  · rwa [if_neg (by simp [hspace])] at hexec
  · rw [if_pos ⟨hspace, leBytes_ne_nil (by omega) _⟩] at hexec
    have hpage := State.page_onPage_same (s.pageBegin o true) o fun q => { q with error := 2, overrun := true }
    refine ⟨_, hexec, ?_, ?_, ?_, rfl⟩
    · exact (congrArg DigestPage.backlog hpage).trans rfl
    · exact (congrArg DigestPage.error hpage).trans rfl
    · exact (congrArg DigestPage.overrun hpage).trans rfl

theorem execDigestLast_begun (ha : accepts s b o = true) (hopen : (s.page o).blocked = false)
    (hlast : (s.page o).lastPending = false) (hbegun : ((s.pageBegin o true).page o).blocked = false)
    (hroom : ((s.pageBegin o true).page o).space ≠ 0 ∨ fld v.toNat 56 3 = 0) :
    ∃ u, exec (.digestLast b o 0x18 v) s = .next u ∧ (u.page o).lastPending = true ∧
      (u.page o).backlog = ((s.pageBegin o true).page o).backlog ++ (leBytes 8 v.toNat).take (fld v.toNat 56 3) := by
  have hdata : s.pageData o ((leBytes 8 v.toNat).take (fld v.toNat 56 3)) =
      (s.pageBegin o true).onPage o (fun q =>
        { q with backlog := q.backlog ++ (leBytes 8 v.toNat).take (fld v.toNat 56 3) }) := by
    rw [State.pageData_begun hopen hlast hbegun, if_neg]
    rw [not_and_or, not_not, take_leBytes_eq_nil (by omega)]
    exact hroom
  have hopen' : (((s.pageBegin o true).onPage o (fun q =>
      { q with backlog := q.backlog ++ (leBytes 8 v.toNat).take (fld v.toNat 56 3) })).page o).blocked = false := by
    rw [State.page_onPage_same]
    exact hbegun
  refine ⟨_, congrArg Host.Outcome.next ((if_neg (by simp)).trans (State.pageWrite_accepts s b o _ ha)), ?_⟩
  dsimp only
  rw [hdata, hopen', if_neg (by simp), State.page_onPage_same, State.page_onPage_same]
  exact ⟨rfl, rfl⟩

/-! ## A finish still pending (log entry 101) -/

theorem accepts_of_field (hpins : t.pins = s.pins) (hstart : t.start = s.start) (hslices : t.slices = s.slices) :
    accepts t b o = accepts s b o := by
  unfold accepts pageDead State.slice
  rw [hpins, hstart, hslices]

theorem State.page_pageHome (s : State) (o : Nat) : ∃ u, (s.pageHome o).page o = { s.page o with unit := u } := by
  simp only [State.pageHome, State.movePage]
  split
  · exact ⟨_, rfl⟩
  · cases chooseUnit (s.leavePage o) roomPage [] with
    | none => exact ⟨_, rfl⟩
    | some u => exact ⟨u, State.page_enterPage _ _ _⟩

theorem State.page_pageAbsorb (s : State) (o n : Nat) : ∃ w rest tries ex,
    (s.pageAbsorb o n).page o = { s.page o with work := w, backlog := rest, tries := tries, excluded := ex } := by
  simp only [State.pageAbsorb]
  split
  · exact ⟨_, _, _, _, rfl⟩
  · obtain ⟨k, hk⟩ : ∃ k, k = min n ((s.page o).backlog.length / max 1 (hashRate (s.page o).alg)) * max 1 (hashRate (s.page o).alg) :=
      ⟨_, rfl⟩
    rw [← hk]
    exact ⟨(s.page o).work.absorb ((s.page o).backlog.take k), (s.page o).backlog.drop k, 0, [],
      State.page_onPage_same s o fun q =>
        { q with work := q.work.absorb (q.backlog.take k), backlog := q.backlog.drop k, tries := 0, excluded := [] }⟩

/-- A finish leaves a block that takes octets one that takes octets, with no finish pending. -/
theorem State.page_pageFinish (s : State) (o : Nat) :
    ((s.pageFinish o).page o).blocked = (s.page o).blocked ∧ ((s.pageFinish o).page o).lastPending = false := by
  obtain ⟨u, hhome⟩ := State.page_pageHome s o
  obtain ⟨w, rest, tries, ex, habsorb⟩ := State.page_pageAbsorb (s.pageHome o) o 64
  rw [hhome] at habsorb
  have hblocked : (((s.pageHome o).pageAbsorb o 64).page o).blocked = (s.page o).blocked := by
    rw [habsorb]
    rfl
  rw [← hblocked]
  unfold State.pageFinish
  generalize (s.pageHome o).pageAbsorb o 64 = t
  simp only [State.page, State.turnOff, State.addBlocks, State.onUnit, State.onPage, Tab.get_upd_same, DigestPage.blocked,
    and_self]

theorem execDigestData_pending (ha : accepts s b o = true) (hopen : (s.page o).blocked = false)
    (hlast : (s.page o).lastPending = true) :
    exec (.digestData b o v) s = exec (.digestData b o v) (s.pageFinish o) := by
  have hkept : ∀ φ, φ ≠ .digest → (s.pageFinish o).field φ = s.field φ := fun φ hφ => State.pageFinish_field s o hφ
  have ha' : accepts (s.pageFinish o) b o = true :=
    (accepts_of_field (hkept .pins (by simp)) (hkept .start (by simp)) (hkept .slices (by simp))).trans ha
  obtain ⟨hopen', hlast'⟩ := State.page_pageFinish s o
  rw [hopen] at hopen'
  rw [execDigestData_accepts ha, execDigestData_accepts ha']
  simp only [State.pageData, hopen, hlast, hopen', hlast', Bool.false_eq_true, if_false, if_true]

end

/-- Settles O16: what a write of DG_CONFIG makes of a block, and what the data writes do with one that is open. -/
theorem digestPagesTakeConfigurationAndData : Obligations.DigestPagesTakeConfigurationAndData := by
  unfold Obligations.DigestPagesTakeConfigurationAndData
  constructor
  · intro s b o v ha alg refused
    obtain ⟨opened, reqId, unit, error, hpage⟩ := State.page_dgConfig s o v.toNat
    have hconf : (s.configured o v.toNat).page o = ((s.closePage o).page o).configured v.toNat := State.page_configured _ _ _
    have hclosed := State.page_configured_closed s o v.toNat
    refine ⟨_, execDgConfig_outcome ha, ?_, ?_, ?_, ?_, ?_, ?_, fun hopen => ?_, fun halg => ?_, fun halg href => ?_,
      fun halg hlegal hclosed => dgConfig_outcome halg hlegal hclosed⟩
    · rw [hpage, hconf]; rfl
    · rw [hpage, hconf]; rfl
    · rw [hpage, hconf]; rfl
    · rw [hpage, hconf]; rfl
    · rw [hpage, hconf]; rfl
    · rw [hpage, hconf]; rfl
    · rw [hpage, hconf, State.page_closePage, if_pos hopen]
      exact ⟨rfl, rfl, rfl⟩
    · rw [State.dgConfig_eq, if_pos halg]
      exact hclosed
    · rw [State.dgConfig_eq, if_neg halg, if_pos href, State.page_onPage_same]
      exact ⟨hclosed.1, rfl⟩
  · intro s b o v ha hopen
    refine ⟨fun hlast t ht hbegun => ?_, fun hlast _ => execDigestData_pending ha hopen hlast, State.pageBegin_running,
      fun halg hkeyed => ?_⟩
    · subst ht
      obtain ⟨hroom, hfull⟩ := execDigestData_begun (v := v) ha hopen hlast hbegun
      exact ⟨hroom, execDigestLast_begun ha hopen hlast hbegun, hfull⟩
    · rw [State.pageBegin_unkeyed halg hkeyed]
      exact ⟨rfl, rfl, rfl⟩

end Sys2Proof.Machine
end

section
/-!
SUPPORT. Digest units (O17): the finish of a register computation, the blocks of a turn, and the retests.
-/
namespace Sys2Proof.Machine

/-! ## The finish (R359, R360) -/

section
variable {s : State} {o u passed : Nat}

/-- What a unit absorbs of a block's octets before the finish is what the finish does not absorb. -/
theorem State.pageAbsorb_absorb (s : State) (o n : Nat) :
    ((s.pageAbsorb o n).page o).work.absorb ((s.pageAbsorb o n).page o).backlog =
      (s.page o).work.absorb (s.page o).backlog := by
  simp only [State.pageAbsorb]
  split
  · rfl
  · simp only [State.page, State.addBlocks, State.onUnit, State.onPage, Tab.get_upd_same, HashWork.absorb_append,
      List.take_append_drop]

theorem State.direct_pageHome (s : State) (o : Nat) : (s.pageHome o).digest.direct = s.digest.direct := by
  simp only [State.pageHome, State.movePage]
  split
  · rfl
  · cases chooseUnit (s.leavePage o) roomPage [] <;> rfl

theorem State.direct_pageAbsorb (s : State) (o n : Nat) : (s.pageAbsorb o n).digest.direct = s.digest.direct := by
  simp only [State.pageAbsorb]
  split <;> rfl

/-- The digest or the HMAC of a block whose octets are all buffered. -/
def DigestPage.res (p : DigestPage) : Bytes :=
  match p.key with
  | some k => hmacClose (p.work.absorb p.backlog) k.secret p.resLen
  | none => (p.work.absorb p.backlog).finish p.resLen

/-- A block that the finish has left. -/
def DigestPage.finished (p : DigestPage) : DigestPage :=
  let same := decide (p.expect.take p.resLen = p.res)
  { p with
    work := HashWork.none, key := none, backlog := [], lastPending := false, tries := 0, excluded := [], done := true
    resultRead := false, equal := p.compare && same, notEqual := p.compare && !same
    result := if p.compare then zeros 64 else cut p.res 0 64 }

theorem State.page_pageFinish_eq (s : State) (o : Nat) :
    (s.pageFinish o).page o = (((s.pageHome o).pageAbsorb o 64).page o).finished := by
  unfold State.pageFinish
  generalize (s.pageHome o).pageAbsorb o 64 = t
  simp only [State.page, State.turnOff, State.addBlocks, State.onUnit, State.onPage, Tab.get_upd_same, DigestPage.finished,
    DigestPage.res] <;> rfl

theorem State.direct_pageFinish (s : State) (o : Nat) : (s.pageFinish o).digest.direct = s.digest.direct + 1 := by
  show ((s.pageHome o).pageAbsorb o 64).digest.direct + 1 = _
  rw [State.direct_pageAbsorb, State.direct_pageHome]

/-- The finish gives what the block's octets give, whatever the unit has absorbed of them before. -/
theorem DigestPage.finished_of_absorb {p r : DigestPage} {w : HashWork} {rest : Bytes} {unit tries : Nat} {ex : List Nat}
    (hr : r = { p with unit := unit, work := w, backlog := rest, tries := tries, excluded := ex })
    (habsorb : w.absorb rest = p.work.absorb p.backlog) : r.finished = { p.finished with unit := unit } := by
  subst hr
  have hres : DigestPage.res { p with unit := unit, work := w, backlog := rest, tries := tries, excluded := ex } = p.res := by
    simp only [DigestPage.res, habsorb]
    rfl
  simp only [DigestPage.finished, hres]
  rfl

theorem State.page_pageFinish_finished (s : State) (o : Nat) :
    ∃ unit, (s.pageFinish o).page o = { (s.page o).finished with unit := unit } := by
  obtain ⟨unit, hhome⟩ := State.page_pageHome s o
  obtain ⟨w, rest, tries, ex, hpage⟩ := State.page_pageAbsorb (s.pageHome o) o 64
  have habsorb := State.pageAbsorb_absorb (s.pageHome o) o 64
  rw [hhome] at hpage habsorb
  rw [hpage] at habsorb
  exact ⟨unit, (State.page_pageFinish_eq s o).trans (DigestPage.finished_of_absorb hpage habsorb)⟩

theorem execDigestFinishDone_turn (hopen : (s.page o).isOpen = true) (hlast : (s.page o).lastPending = true)
    (hover : (s.page o).overrun = false) (hturn : unitTurn s (s.page o).unit = some (.ctx (.page o))) :
    exec (.digestFinishDone o) s = .next (s.pageFinish o) := by
  simp only [exec, execDigestFinishDone, hopen, hlast, hover, hturn, Bool.not_false, and_self, if_true]

/-! ## The blocks of a turn (R339, R342, R343) -/

theorem execDigestBlockDone_run {done : BlocksDone} (hu : u < 8) (hturn : unitTurn s u ≠ none) :
    exec (.digestBlockDone u done) s = .next (s.unitRun u done.passed done.last) := by
  simp only [exec, execDigestBlockDone, hturn, false_and, if_false]
  exact unit_next _ hu

theorem State.unitRun_page {last : BlockEnd} (hturn : unitTurn s u = some (.ctx (.page o))) (havail : unitAvail s u = true) :
    s.unitRun u passed last =
      let s1 := (s.turnOn u (.page o)).pageAbsorb o passed
      if last = .pass then s1 else ((if last = .paceLate then s1.paceLate else s1)).pageMismatch o := by
  simp only [State.unitRun, hturn, havail, Bool.not_true, Bool.false_eq_true, false_and, if_false]

theorem State.unitMismatch_pages (s : State) (u : Nat) : (s.unitMismatch u).digest.pages = s.digest.pages := by
  simp only [State.unitMismatch]
  split
  · simp [State.onUnit]
  · split
    · split <;> simp [State.onUnit]
    · simp [State.unitSettle, State.onUnit]

/-- The third failure of one block abandons the computation with ERROR 6; the block keeps its context. -/
theorem State.pageMismatch_third (htries : 2 ≤ (s.page o).tries) :
    (s.pageMismatch o).page o = { (s.page o).abandon with error := 6 } := by
  have hpage : (s.unitMismatch (s.page o).unit).page o = s.page o := by
    simp only [State.page, State.unitMismatch_pages]
  simp only [State.pageMismatch, htries, if_true]
  rw [State.page_onPage_same, hpage]

theorem State.pageAbsorb_zero (s : State) (o : Nat) : s.pageAbsorb o 0 = s := by simp [State.pageAbsorb]

theorem State.internalRun_partial {j : Internal} (hj : (s.unitAt u).internal = some j) (hblocks : passed < j.blocks)
    (hturn : passed < 64 - (s.unitAt u).internalTurn) :
    (s.internalRun u passed).digest.internalBlocks = s.digest.internalBlocks + BitVec.ofNat 64 passed ∧
      ((s.internalRun u passed).unitAt u).internal.map Internal.blocks = some (j.blocks - passed) := by
  have hk : min passed (min j.blocks (64 - (s.unitAt u).internalTurn)) = passed := by omega
  have hle : ¬ j.blocks ≤ passed := by omega
  simp only [State.internalRun, hj, hk, hle, if_false]
  refine ⟨rfl, ?_⟩
  rw [State.unitAt_onUnit_same]
  by_cases hzero : passed = 0 <;> simp [hzero]

/-! ## Retests of units (R344) -/

/-- Whether a retest under the mask begins on unit `u`, and what it does to it. -/
def retestUnit (mask : BitVec 8) (u : Nat) (x : DigestUnit) : DigestUnit :=
  if mask.getLsbD u = true ∧ x.state = .outOfService then { x with retesting := true } else x

theorem execUnitRetest_unit (s : State) (mask : BitVec 8) :
    ∃ t, exec (.unitRetest mask) s = .next t ∧
      ∀ u, t.unitAt u =
        if u < 8 ∧ mask.getLsbD u = true ∧ (s.unitAt u).state = .outOfService then { s.unitAt u with retesting := true }
        else s.unitAt u := by
  refine ⟨_, rfl, fun u => ?_⟩
  rw [foldl_each State.unitAt _ (retestUnit mask) (fun t n => ?_) (fun t n k hk => ?_) _ List.nodup_range]
  · by_cases hu : u < 8 <;> simp [retestUnit, hu]
  · simp only [retestUnit]
    split <;> simp
  · split
    · exact State.unitAt_onUnit_other _ _ _ _ hk
    · rfl

theorem execUnitRetestDone_passed (hu : u < 8) (hretest : (s.unitAt u).retesting = true) :
    ∃ t, exec (.unitRetestDone u true) s = .next t ∧ t.digest.retestFailed.getLsbD u = false ∧
      t.unitAt u =
        { s.unitAt u with
          retesting := false, recent := [], failed := false
          state := unitStateOf (s.digest.enable.getLsbD u && unitsPowered s) false (s.unitAt u).isEmpty } := by
  refine ⟨_, (unit_next _ hu : exec (.unitRetestDone u true) s = _), ?_, ?_⟩
  · simp only [hretest, Bool.not_true, Bool.false_eq_true, if_false, if_true]
    show (s.digest.retestFailed &&& ~~~(BitVec.twoPow 8 u)).getLsbD u = false
    simp [hu]
  · simp only [hretest, Bool.not_true, Bool.false_eq_true, if_false, if_true, State.unitSettle, State.unitAt_onUnit_same]
    rfl

theorem execUnitRetestDone_failed (hu : u < 8) (hretest : (s.unitAt u).retesting = true) :
    ∃ t, exec (.unitRetestDone u false) s = .next t ∧ t.digest.retestFailed.getLsbD u = true ∧
      t.unitAt u = { s.unitAt u with retesting := false } := by
  refine ⟨_, (unit_next _ hu : exec (.unitRetestDone u false) s = _), ?_, ?_⟩
  · simp only [hretest, Bool.not_true, Bool.false_eq_true, if_false]
    show (s.digest.retestFailed ||| BitVec.twoPow 8 u).getLsbD u = true
    simp [hu]
  · simp only [hretest, Bool.not_true, Bool.false_eq_true, if_false, State.unitAt_onUnit_same]
    rfl

theorem execUnitRetestDone_idle (hu : u < 8) (hretest : (s.unitAt u).retesting = false) (b : Bool) :
    exec (.unitRetestDone u b) s = .next s := by
  simp only [exec, execUnitRetestDone, hretest, Bool.not_false, if_true]
  exact unit_next _ hu

end

/-- Settles O17: the finish in its unit's turn, the blocks of a turn, FILL, and the retests of units. -/
theorem digestUnitsRunFinishAndRetest : Obligations.DigestUnitsRunFinishAndRetest := by
  unfold Obligations.DigestUnitsRunFinishAndRetest
  refine ⟨?_, fun s u passed hu => ⟨fun o hturn havail => ?_, fun rid hturn => ?_, fun j hturn hj => ?_, fun hturn hquiet => ?_⟩,
    execUnitRetest_unit, fun s u hu hretest => ⟨execUnitRetestDone_passed hu hretest, execUnitRetestDone_failed hu hretest⟩,
    fun s u b hu hretest => execUnitRetestDone_idle hu hretest b⟩
  · intro s o hopen hlast hover hturn p h res
    obtain ⟨unit, hpage⟩ := State.page_pageFinish_finished s o
    refine ⟨_, execDigestFinishDone_turn hopen hlast hover hturn, ?_⟩
    rw [hpage]
    exact ⟨rfl, rfl, rfl, rfl, State.direct_pageFinish s o, rfl, rfl, rfl, rfl⟩
  · have hrun : ∀ done, exec (.digestBlockDone u done) s = .next (s.unitRun u done.passed done.last) :=
      fun done => execDigestBlockDone_run hu (by simp [hturn])
    refine ⟨?_, ?_, fun htries => ?_⟩
    · rw [hrun, State.unitRun_page hturn havail]
      rfl
    · rw [hrun, State.unitRun_page hturn havail]
      rfl
    · refine ⟨_, (hrun _).trans (congrArg Host.Outcome.next (State.unitRun_page hturn havail)), ?_⟩
      simp only [reduceCtorEq, if_false, State.pageAbsorb_zero]
      rw [State.pageMismatch_third (s := s.turnOn u (.page o)) htries]
      exact ⟨rfl, rfl, rfl, rfl⟩
  · have hrun : ∀ done, exec (.digestBlockDone u done) s = .next (s.unitRun u done.passed done.last) :=
      fun done => execDigestBlockDone_run hu (by simp [hturn])
    refine ⟨?_, fun q hq => ?_⟩
    · simp only [hrun, State.unitRun, hturn, if_true]
    · simp only [hrun, State.unitRun, hturn, hq, reduceCtorEq, if_false]
  · have hrun : exec (.digestBlockDone u ⟨passed, .pass⟩) s = .next (s.internalRun u passed) := by
      rw [execDigestBlockDone_run hu (by simp [hturn])]
      simp only [State.unitRun, hturn, if_true]
    exact ⟨hrun, fun hblocks hleft => ⟨_, hrun, State.internalRun_partial hj hblocks hleft⟩⟩
  · refine ⟨?_, ?_⟩
    · simp only [exec, execDigestBlockDone, hturn, hquiet, ne_eq, reduceCtorEq, not_false_eq_true, and_self, if_true, if_false]
      exact unit_next _ hu
    · simp only [exec, execDigestBlockDone, hturn, hquiet, ne_eq, reduceCtorEq, not_false_eq_true, and_self, if_true]
      exact unit_next _ hu

end Sys2Proof.Machine
end

section
/-!
SUPPORT. The commands of a direct digest (O18): SAVE, RESTORE and ABANDON.
-/
namespace Sys2Proof.Machine

/-! ## What a command looks at -/

/-- The state at which SAVE looks: the computation is begun and has absorbed the whole blocks buffered. -/
def State.saving (s : State) (o : Nat) : State := ((s.pageHome o).pageBegin o true).pageAbsorb o 64

theorem State.saving_eq (s : State) (o : Nat) : ((s.pageHome o).pageBegin o true).pageAbsorb o 64 = s.saving o := rfl

/-- The state at which RESTORE looks: the old computation is dropped, a new one begun. -/
def State.restoring (s : State) (o : Nat) : State :=
  ((s.onPage o DigestPage.abandon).pageBegin o false).countControl (if (s.page o).keyed = true then wrapBlocks 224 else 0)

theorem State.restoring_eq (s : State) (o : Nat) :
    ((s.onPage o DigestPage.abandon).pageBegin o false).countControl (if (s.page o).keyed = true then wrapBlocks 224 else 0) =
      s.restoring o := rfl

/-- The key that the record of a restore must have been sealed for. -/
def DigestPage.recordSlot (p : DigestPage) : Option (Nat × BitVec 12) :=
  if p.keyed = true then some (hSlot p.handle, hGen p.handle) else none

/-- A record that does not open. -/
def State.refuseRecord (t : State) (o : Nat) : State :=
  let t2 := t.onPage o (fun q => { q.abandon with error := 5 })
  { t2 with digest := { t2.digest with refused := t2.digest.refused + 1 } }

/-- A record of `n` octets with the hash state `st` taken up. -/
def State.resume (t : State) (o n : Nat) (st : Bytes) : State :=
  let t2 := t.onPage o (fun q =>
    { q with work := { alg := q.alg, st := st.take (stateLen q.alg), buf := []
                       total := n + (if q.keyed then hashRate q.alg else 0) } })
  { t2 with digest := { t2.digest with resumed := t2.digest.resumed + 1 } }

/-- What RESTORE does with the record in the block. -/
def State.restored (t : State) (o : Nat) : State :=
  match openRecord t o (t.page o).alg (t.page o).recordSlot (t.page o).stateRec with
  | none => t.refuseRecord o
  | some (n, st) => t.resume o n st

theorem State.page_resume (t : State) (o n : Nat) (st : Bytes) :
    (t.resume o n st).page o =
      { t.page o with work := { alg := (t.page o).alg, st := st.take (stateLen (t.page o).alg), buf := []
                                total := n + (if (t.page o).keyed then hashRate (t.page o).alg else 0) } } :=
  State.page_onPage_same t o fun q =>
    { q with work := { alg := q.alg, st := st.take (stateLen q.alg), buf := []
                       total := n + (if q.keyed then hashRate q.alg else 0) } }

theorem State.page_refuseRecord (t : State) (o : Nat) : (t.refuseRecord o).page o = { (t.page o).abandon with error := 5 } := by
  simp only [State.refuseRecord, State.page, State.onPage, Tab.get_upd_same]

section
variable {s : State} {b : Bus} {o : Nat} (ha : accepts s b o = true)
include ha

/-! ## SAVE -/

section
variable (hopen : (s.page o).blocked = false) (hlast : (s.page o).lastPending = false)
  (hsaving : ((s.saving o).page o).blocked = false)
include hopen hlast hsaving

theorem execDgCmdSave_whole (hwhole : ((s.saving o).page o).backlog = []) :
    ∃ t, exec (.dgCmdSave b o) s = .next t ∧ t.digest.saved = (s.saving o).digest.saved + 1 ∧
      (t.page o).stateRec
        = ((s.saving o).makeRecord o (((s.saving o).page o).key.map (fun k => (k.slot.getD 0, k.gen))) ((s.saving o).page o).alg
            ((s.saving o).page o).length ((s.saving o).page o).work.st).1 := by
  obtain ⟨r, hr⟩ : ∃ r, r = (s.saving o).makeRecord o (((s.saving o).page o).key.map (fun k => (k.slot.getD 0, k.gen)))
      ((s.saving o).page o).alg ((s.saving o).page o).length ((s.saving o).page o).work.st := ⟨_, rfl⟩
  obtain ⟨-, hdigest⟩ : r.2.reqs = (s.saving o).reqs ∧ r.2.digest = (s.saving o).digest := hr ▸ State.makeRecord_kept ..
  have hexec : exec (.dgCmdSave b o) s = .next ((r.2.onPage o (fun q => { q with stateRec := r.1 })).countSaved) := by
    simp only [exec, execDgCmdSave, State.pageWrite_accepts _ _ _ _ ha, hopen, hlast, State.saving_eq, hsaving, hwhole, ← hr,
      Bool.false_eq_true, or_self, if_false, ne_eq, not_true_eq_false, State.countSaved]
  rw [← hr]
  refine ⟨_, hexec, ?_, ?_⟩
  · show r.2.digest.saved + 1 = _
    rw [hdigest]
  · exact (congrArg DigestPage.stateRec (State.page_onPage_same r.2 o fun q => { q with stateRec := r.1 })).trans rfl

theorem execDgCmdSave_partial (hpartial : ((s.saving o).page o).backlog ≠ []) :
    exec (.dgCmdSave b o) s = .next ((s.saving o).onPage o (fun p => { p with error := 3 })) := by
  simp only [exec, execDgCmdSave, State.pageWrite_accepts _ _ _ _ ha, hopen, hlast, State.saving_eq, hsaving, hpartial,
    Bool.false_eq_true, or_self, if_false, ne_eq, not_false_eq_true, if_true]

end

/-! ## RESTORE -/

section
variable (hopen : (s.page o).blocked = false) (hrestoring : ((s.restoring o).page o).blocked = false)
include hopen hrestoring

theorem execDgCmdRestore_looks : exec (.dgCmdRestore b o) s = .next ((s.restoring o).restored o) := by
  simp only [exec, execDgCmdRestore, State.pageWrite_accepts _ _ _ _ ha, hopen, State.restoring_eq, hrestoring,
    Bool.false_eq_true, if_false]
  rfl

theorem execDgCmdRestore_opens {n : Nat} {st : Bytes}
    (hrecord : openRecord (s.restoring o) o ((s.restoring o).page o).alg ((s.restoring o).page o).recordSlot
      ((s.restoring o).page o).stateRec = some (n, st)) :
    exec (.dgCmdRestore b o) s = .next ((s.restoring o).resume o n st) := by
  rw [execDgCmdRestore_looks ha hopen hrestoring, State.restored, hrecord]

theorem execDgCmdRestore_refused
    (hrecord : openRecord (s.restoring o) o ((s.restoring o).page o).alg ((s.restoring o).page o).recordSlot
      ((s.restoring o).page o).stateRec = none) :
    exec (.dgCmdRestore b o) s = .next ((s.restoring o).refuseRecord o) := by
  rw [execDgCmdRestore_looks ha hopen hrestoring, State.restored, hrecord]

end

/-! ## ABANDON -/

theorem execDgCmdAbandon_open (hopen : (s.page o).isOpen = true) :
    exec (.dgCmdAbandon b o) s = .next (s.onPage o (fun p => { p.abandon with error := if p.overrun then 0 else p.error })) := by
  simp only [exec, execDgCmdAbandon, State.pageWrite_accepts _ _ _ _ ha, hopen, if_true]

end

/-- Settles O18: SAVE, RESTORE and ABANDON on a block that takes them. -/
theorem digestCommandsSaveRestoreAbandon : Obligations.DigestCommandsSaveRestoreAbandon := by
  unfold Obligations.DigestCommandsSaveRestoreAbandon
  intro s b o ha
  refine ⟨fun s1 h1 hopen hlast hsaving => ?_, fun s1 h1 hopen hrestoring => ?_, execDgCmdAbandon_open ha⟩
  · subst h1
    exact ⟨execDgCmdSave_whole ha hopen hlast hsaving, execDgCmdSave_partial ha hopen hlast hsaving⟩
  · subst h1
    refine ⟨fun n st hrecord => ⟨_, execDgCmdRestore_opens ha hopen hrestoring hrecord, rfl, ?_⟩,
      fun hrecord => ⟨_, execDgCmdRestore_refused ha hopen hrestoring hrecord, rfl, ?_⟩⟩
    · rw [State.page_resume]
      rfl
    · rw [State.page_refuseRecord]
      exact ⟨rfl, rfl⟩

end Sys2Proof.Machine
end

section
/-!
SUPPORT. Key windows (O19): commits, clears, and loads that come into force.
-/
namespace Sys2Proof.Machine

section
variable {s : State} {b : Bus} {o : Nat}

theorem kwAccepts_kwAccess (h : kwAccepts s b o = true) : s.kwAccess b o = (true, s) := by
  simp only [kwAccepts, Bool.and_eq_true, Bool.not_eq_true', beq_iff_eq, decide_eq_true_eq] at h
  obtain ⟨⟨⟨⟨hen, hreset⟩, hbe⟩, hle⟩, hpasid⟩ := h
  have hht : s.htAccess b = (true, s) := by simp [State.htAccess, hen, hreset, hbe]
  have hgt : ¬ mgr < o := by omega
  simp [State.kwAccess, hht, hgt, hpasid]

/-! ## A commit (R222) -/

/-- The first check of a commit that fails, in the state `v` in which the slot is verified. -/
def commitFail (v : State) (o : Nat) (w : KeyWindow) : Option Ending :=
  firstFail
    [refusedOutright v, if hKind w.handle = 0 ∨ hKind w.handle = 3 then none else invalid 0x05,
      loadCheck v o w.handle, lifeCheck v true,
      paramCheck v o (hSlot w.handle) (hKind w.handle) false w.params]

/-- The load that a commit starts. -/
def KeyWindow.load (w : KeyWindow) (o : Nat) (epoch : U32) : Load :=
  { w.params.load w.handle 0 0 o epoch with
    secret := secretOf w.transform w.secretBytes, salt12 := w.saltBytes }

variable (ha : kwAccepts s b o = true)
include ha

theorem execKwCommit_busy (hbusy : (s.kw o).busy = true) :
    exec (.kwCommitLoad b o) s = .next s ∧ exec (.kwCommitClear b o) s = .next s := by
  simp only [exec, execKwCommitLoad, execKwCommitClear, kwAccepts_kwAccess ha, hbusy, if_true, and_self]

theorem execKwCommitClear_idle (hbusy : (s.kw o).busy = false) :
    exec (.kwCommitClear b o) s = .next (s.onKw o KeyWindow.clearStaged) := by
  simp only [exec, execKwCommitClear, kwAccepts_kwAccess ha, hbusy, Bool.false_eq_true, if_false]

theorem execKwCommitLoad_idle (hbusy : (s.kw o).busy = false) :
    exec (.kwCommitLoad b o) s = .next (
      match commitFail (s.verifySlot (hSlot (s.kw o).handle)) o (s.kw o) with
      | some e => (s.verifySlot (hSlot (s.kw o).handle)).onKw o (KeyWindow.done e 0)
      | none => ((s.verifySlot (hSlot (s.kw o).handle)).onKw o (fun x => { x with busy := true })).onKeys (fun k =>
          { k with loads := k.loads ++ [(s.kw o).load o (s.verifySlot (hSlot (s.kw o).handle)).start.bootEpoch] })) := by
  simp only [exec, execKwCommitLoad, kwAccepts_kwAccess ha, hbusy, Bool.false_eq_true, if_false]
  rfl

end

/-! ## A load comes into force (R226) -/

section
variable {s : State} {slot : Nat} {l : Load}

/-- The state in which the oldest load waiting for a slot is taken from the queue. -/
def State.withoutLoad (s : State) (l : Load) : State := s.onKeys (fun k => { k with loads := k.loads.erase l })

theorem execLoadInForce_of_find (hslot : slot < 65536) (hl : s.keys.loads.find? (fun l => l.slot == slot) = some l) {o : Nat}
    (ho : (if l.source = 0 then l.page else ((s.req l.req).map Req.owner).getD mgr) = o) :
    exec (.loadInForce slot) s = .next (
      match loadRefused (s.withoutLoad l) o l with
      | some e => if l.source = 0 then (s.withoutLoad l).onKw o (KeyWindow.done e 0) else (s.withoutLoad l).myenoEnd l.req e
      | none =>
        let s2 := (s.withoutLoad l).applyLoad l
        if l.source = 0 then
          s2.onKw o (KeyWindow.done (ends .ok 0)
            (BitVec.ofNat 32 (slot + (s2.slot slot).gen.toNat * 2 ^ 16 + (if l.kind3 then 3 else 0) * 2 ^ 28)))
        else s2.myenoEnd l.req (ends .ok 0)) := by
  subst ho
  simp only [exec, execLoadInForce, hl]
  exact unit_next _ hslot

theorem State.applyLoad_slot (hwin : l.winEn = false) (hold : (s.slot l.slot).winEn = false) :
    (s.applyLoad l).slot l.slot = Slot.loaded l (s.slot l.slot) := by
  have hcount : (s.countControl (loadBlocks l.kind3 l.transform)).slot l.slot = s.slot l.slot := rfl
  simp only [State.applyLoad, hcount, hwin, hold, Bool.false_eq_true, false_and, if_false]
  have hkeys : ∀ (t : State) (f : Keys → Keys), (∀ k, (f k).slots = k.slots) → (t.onKeys f).slot l.slot = t.slot l.slot :=
    fun t f hf => by
      show Tab.get Slot.dflt (f t.keys).slots l.slot = _
      rw [hf]
      rfl
  rw [hkeys _ _ (fun k => by split <;> rfl), State.slot_onSlot_same, hcount]

end

/-- Settles O19: a commit starts a load or reports its refusal, a clear resets the window, and a load comes into force. -/
theorem keyWindowLoadsComeIntoForce : Obligations.KeyWindowLoadsComeIntoForce := by
  unfold Obligations.KeyWindowLoadsComeIntoForce
  constructor
  · intro s b o ha
    refine ⟨fun hbusy => execKwCommit_busy ha hbusy, fun hbusy v w hw hv => ?_, fun hbusy => execKwCommitClear_idle ha hbusy⟩
    subst hw hv
    have hexec := execKwCommitLoad_idle ha hbusy
    refine ⟨fun hbad => ?_, fun e hbad => ?_⟩
    · rw [show commitFail (s.verifySlot (hSlot (s.kw o).handle)) o (s.kw o) = none from hbad] at hexec
      refine ⟨_, (s.kw o).load o (s.verifySlot (hSlot (s.kw o).handle)).start.bootEpoch, hexec, ?_, rfl, rfl, rfl, rfl, rfl, rfl,
        rfl, rfl, rfl, rfl⟩
      exact congrArg KeyWindow.busy (State.kw_onKw_same _ o fun x => { x with busy := true })
    · rw [show commitFail (s.verifySlot (hSlot (s.kw o).handle)) o (s.kw o) = some e from hbad] at hexec
      refine ⟨_, hexec, ?_⟩
      rw [State.kw_onKw_same]
      exact ⟨rfl, rfl, rfl, rfl, rfl, rfl⟩
  · intro s slot l hslot hl s1
    obtain rfl : l.slot = slot := by simpa using List.find?_some hl
    refine ⟨fun o hsource ho => ?_, fun q hsource hq => ?_, fun hwin hold => State.applyLoad_slot hwin hold⟩
    · have hexec := execLoadInForce_of_find hslot hl (o := o) (by rw [if_pos hsource, ho])
      refine ⟨fun hok => ?_, fun e hbad => ?_⟩
      · rw [show loadRefused (s.withoutLoad l) o l = none from hok] at hexec
        simp only [hsource, if_true] at hexec
        refine ⟨_, hexec, rfl, ?_⟩
        rw [State.kw_onKw_same]
        exact ⟨rfl, rfl, rfl, rfl⟩
      · rw [show loadRefused (s.withoutLoad l) o l = some e from hbad] at hexec
        simp only [hsource, if_true] at hexec
        refine ⟨_, hexec, rfl, ?_⟩
        rw [State.kw_onKw_same]
        exact ⟨rfl, rfl, rfl, rfl⟩
    · have hexec := execLoadInForce_of_find hslot hl (o := q.owner) (by rw [if_neg hsource, hq]; rfl)
      refine ⟨fun hok => ?_, fun e hbad => ?_⟩
      · rw [show loadRefused (s.withoutLoad l) q.owner l = none from hok] at hexec
        simp only [hsource, if_false] at hexec
        exact hexec
      · rw [show loadRefused (s.withoutLoad l) q.owner l = some e from hbad] at hexec
        simp only [hsource, if_false] at hexec
        exact hexec

end Sys2Proof.Machine
end

section
/-!
SUPPORT. The key-slot opcodes at Dispatch (O20).
-/
namespace Sys2Proof.Machine

section
variable {s v : State} {rid : Nat} {q r : Req}

/-- A request that has no end as yet has no ending. -/
theorem req_of_unended (h : (v.req rid).map Req.ended = some false) : ∃ r, v.req rid = some r ∧ r.m.ending = none := by
  obtain ⟨r, hr, hended⟩ := Option.map_eq_some_iff.mp h
  refine ⟨r, hr, ?_⟩
  simp only [Req.ended, Bool.or_eq_false_iff, Option.isSome_eq_false_iff, Option.isNone_iff_eq_none] at hended
  exact hended.1

/-- The slots verified and the request still open, the opcode acts on the state after the verification. -/
theorem State.keyAct_of_verified (hq : s.req rid = some q) (hmay : mayAct s q = true)
    (hv : v = (namedSlots q).foldl State.verifySlot s) (hopen : (v.req rid).map Req.ended = some false) :
    s.keyAct rid =
      match q.d.opcode with
      | 0x31 => v.eraseAct rid q
      | 0x33 => v.exportAct rid q
      | 0x34 => v.assocAct rid q
      | _ => v.loadAct rid q := by
  simp only [State.keyAct, hq, hmay, ← hv, hopen, Bool.not_true, Bool.false_eq_true, if_false, Option.getD_some] <;> rfl

/-- The request that has acted, as it stands then. -/
def Req.actedIn (s : State) (q : Req) : Req := { q with m := { q.m with dispatched := true, posture := s.tango.posture.code } }

theorem State.acted_of_req (hr : v.req rid = some r) : v.acted rid = v.putReq rid (r.actedIn v) := State.onReq_of_req _ hr

theorem State.acted_keys (v : State) (rid : Nat) : (v.acted rid).keys = v.keys :=
  State.acted_field (φ := .keys) v rid (by simp)

/-- A good ending leaves the keys as they stand. -/
theorem State.keys_myenoEnd_good (hr : v.req rid = some r) (hend : r.m.ending = none) {e : Ending} (hgood : e.st.good = true) :
    (v.myenoEnd rid e).keys = v.keys := by
  rw [State.myenoEnd_good hr hend hgood]
  exact State.leaveContext_field (φ := .keys) v rid (by simp)

/-! ## Loads (R225) -/

/-- The load of a wrapped key. -/
def Req.blobLoad (rid : Nat) (ep : U32) (x : Transfer) (q : Req) : Load :=
  { { readParams q.item with transform := x.key.transform, sci := x.key.sci, ssci := x.key.ssci }.load q.handle 1 rid 0 ep with
    secret := secretOf x.key.transform x.key.secret, salt12 := x.key.salt12
    sealing := (readParams q.item).sealing && x.sealing && !(tCounter x.key.transform)
    fromBlob := true, earlierEpoch := x.earlier }

/-- The load of a generated key. -/
def Req.genLoad (rid : Nat) (ep : U32) (secret salt : Bytes) (q : Req) : Load :=
  { (readParams q.item).load q.handle 2 rid 0 ep with secret := secret, salt12 := salt }

theorem State.loadAct_blob {x : Transfer} (hop : q.d.opcode = 0x30) (hagain : loadAgain v q.handle = none)
    (hblob : blobKey v q = .ok x) :
    ∃ ep, v.loadAct rid q = (v.acted rid).onKeys (fun k => { k with loads := k.loads ++ [q.blobLoad rid ep x] }) := by
  simp only [State.loadAct, hagain, hop, hblob, if_true]
  exact ⟨_, rfl⟩

/-- The salt of a generated key, and the state after its draws. -/
def saltDraw (v : State) (q : Req) : Bytes × State :=
  let r := v.internalDraw (genLen (readParams q.item).transform)
  if (readParams q.item).saltGen = true ∧ hKind q.handle ≠ 3 then r.2.internalDraw 12 else (zeros 12, r.2)

theorem State.loadAct_gen (hop : q.d.opcode = 0x32) (hagain : loadAgain v q.handle = none) (hrng : rngRefusal v = none)
    (hwaits : drawWaits v = false) :
    v.loadAct rid q = ((saltDraw v q).2.acted rid).onKeys (fun k => { k with loads := k.loads ++
      [q.genLoad rid v.start.bootEpoch
        (genSecret (readParams q.item).transform (v.internalDraw (genLen (readParams q.item).transform)).1)
        (saltDraw v q).1] }) := by
  have hkind : (!(hKind q.handle == 3)) = true ↔ hKind q.handle ≠ 3 := by simp
  simp only [State.loadAct, hagain, hop, hrng, hwaits, Nat.reduceEqDiff, Bool.false_eq_true, if_false, hkind, saltDraw,
    Req.genLoad]

theorem State.internalDraw_keys (v : State) (n : Nat) : (v.internalDraw n).2.keys = v.keys :=
  State.internalDraw_field (φ := .keys) v n (by simp)

theorem saltDraw_keys (v : State) (q : Req) : (saltDraw v q).2.keys = v.keys := by
  simp only [saltDraw]
  split <;> simp only [State.internalDraw_keys]

/-! ## Erases (R241, R243) -/

theorem State.slot_dissolve_unpaired (v : State) (n : Nat) : ((v.dissolve n).slot n).paired = false := by
  simp only [State.dissolve]
  split
  · have hne : n ≠ n ^^^ 1 := by
      intro h
      have := congrArg (n ^^^ ·) h
      simp at this
    rw [State.slot_onSlot_other _ _ _ _ hne, State.slot_onSlot_same]
    rfl
  · rename_i h
    exact eq_false_of_ne_true h

theorem State.eraseAct_hot (hentry : q.entry = none) (hagain : eraseAgain v q.handle = none) :
    v.eraseAct rid q = (v.acted rid).beginErase (hSlot q.handle) rid := by
  simp only [State.eraseAct, hentry, hagain, Option.isSome_none, Bool.false_eq_true, if_false]

theorem State.beginErase_slot (v : State) (n rid : Nat) :
    (v.beginErase n rid).slot n = { ((v.dissolve n).slot n).closeChain with state := .erasing } :=
  State.slot_onSlot_same (v.dissolve n) n fun x => { x.closeChain with state := .erasing }

theorem State.beginErase_erases (v : State) (n rid : Nat) :
    { slot := n, req := rid, limitHit := false } ∈ (v.beginErase n rid).keys.erases :=
  List.mem_append_right _ (List.mem_singleton.mpr rfl)

/-- The cold cache without the key of a blob. -/
def State.dropCold (v : State) (q : Req) : State :=
  v.onKeys (fun k => { k with coldCache := k.coldCache.filter (fun e => !(e.hits q.owner q.m.keyblob)) })

theorem State.eraseAct_cold (hentry : q.entry.isSome = true) :
    v.eraseAct rid q = ((v.dropCold q).acted rid).myenoEnd rid (ends .ok 0) := by
  simp only [State.eraseAct, hentry, if_true]
  rfl

theorem State.exportAct_made (hagain : useAgain v q.handle = none) :
    v.exportAct rid q =
      let x := v.slot (hSlot q.handle)
      let r := v.wrapBlob q.owner (x.copy (hSlot q.handle) false) x.kind3 (x.sealing && !(tCounter x.transform))
      (((r.2.acted rid).onReq rid (Req.putOut r.1)).onKeys (fun k => { k with exports := k.exports + 1 })).myenoEnd rid
        (ends .ok 0) := by
  simp only [State.exportAct, hagain]

end

/-- Settles O20: what each key-slot opcode does once its slots are verified. -/
theorem keyOpcodesActAtDispatch : Obligations.KeyOpcodesActAtDispatch := by
  unfold Obligations.KeyOpcodesActAtDispatch
  intro s v rid q hq hmay hv hopen
  have hact := State.keyAct_of_verified hq hmay hv hopen
  have hop : ∀ op, q.d.opcode = op → s.keyOp rid op (fun _ => true) = s.keyAct rid := by
    intro op hop
    simp only [State.keyOp, hq, hop, and_self, if_true]
  obtain ⟨r, hr, hend⟩ := req_of_unended hopen
  refine ⟨fun x h30 hagain hblob => ?_, fun h32 hagain hrng hwaits => ?_, fun h31 hentry hagain => ?_, fun h31 hentry => ?_,
    fun h33 hagain => ?_⟩
  · obtain ⟨ep, hload⟩ := State.loadAct_blob (rid := rid) h30 hagain hblob
    rw [h30] at hact
    have hexec := (hop _ h30).trans (hact.trans hload)
    refine ⟨_, q.blobLoad rid ep x, congrArg Host.Outcome.next hexec, ?_, rfl, rfl, rfl, rfl, rfl, rfl, rfl, rfl, rfl⟩
    show (v.acted rid).keys.loads ++ _ = _
    rw [State.acted_keys]
  · have hload := State.loadAct_gen (rid := rid) h32 hagain hrng hwaits
    rw [h32] at hact
    have hexec := (hop _ h32).trans (hact.trans hload)
    refine ⟨_, q.genLoad rid v.start.bootEpoch
        (genSecret (readParams q.item).transform (v.internalDraw (genLen (readParams q.item).transform)).1) (saltDraw v q).1,
      congrArg Host.Outcome.next hexec, ?_, rfl, rfl, rfl, rfl, rfl, ?_⟩
    · show ((saltDraw v q).2.acted rid).keys.loads ++ _ = _
      rw [State.acted_keys, saltDraw_keys]
    · show (saltDraw v q).1 = _
      simp only [saltDraw]
      split <;> rfl
  · rw [h31] at hact
    have hexec := (hop _ h31).trans (hact.trans (State.eraseAct_hot hentry hagain))
    refine ⟨_, congrArg Host.Outcome.next hexec, ?_, ?_, ?_, State.beginErase_erases _ _ _⟩
    · rw [State.beginErase_slot]
    · rw [State.beginErase_slot]
      exact State.slot_dissolve_unpaired _ _
    · rw [State.beginErase_slot]
      rfl
  · rw [h31] at hact
    have hexec := (hop _ h31).trans (hact.trans (State.eraseAct_cold hentry))
    have hcold : (v.dropCold q).req rid = some r := hr
    have hacted : ((v.dropCold q).acted rid).req rid = some (r.actedIn (v.dropCold q)) := by
      rw [State.acted_of_req hcold]
      exact State.req_putReq_same _ _ _
    have hkeys := (State.keys_myenoEnd_good (e := ends .ok 0) hacted hend rfl).trans (State.acted_keys _ _)
    exact ⟨_, _, congrArg Host.Outcome.next hexec, State.req_myenoEnd hacted hend _, rfl, congrArg Keys.coldCache hkeys,
      (congrArg Keys.slots hkeys).trans rfl⟩
  · rw [h33] at hact
    exact congrArg Host.Outcome.next ((hop _ h33).trans (hact.trans (State.exportAct_made hagain)))

end Sys2Proof.Machine
end

section
/-!
SUPPORT. ASSOC_ROLL (O21): a pair is formed, rolled and dissolved.
-/
namespace Sys2Proof.Machine

/-! ## The two slots of a pair -/

theorem xor_one_ne (n : Nat) : n ^^^ 1 ≠ n := by
  intro h
  have := congrArg (n ^^^ ·) h
  simp at this

theorem xor_one_even (n : Nat) : (n ^^^ 1) % 2 = 0 ↔ ¬ n % 2 = 0 := by
  have := Nat.xor_mod_two_eq_one (a := n) (b := 1)
  omega

/-- Two updates, of a slot and of its neighbour. -/
theorem State.slot_pair (v : State) (n : Nat) (f g : Slot → Slot) :
    ((v.onSlot n f).onSlot (n ^^^ 1) g).slot n = f (v.slot n) ∧
      ((v.onSlot n f).onSlot (n ^^^ 1) g).slot (n ^^^ 1) = g (v.slot (n ^^^ 1)) := by
  rw [State.slot_onSlot_other _ _ _ _ (xor_one_ne n).symm, State.slot_onSlot_same, State.slot_onSlot_same,
    State.slot_onSlot_other _ _ _ _ (xor_one_ne n)]
  exact ⟨rfl, rfl⟩

section
variable {s v : State} {rid : Nat} {q r : Req}

/-! ## Acting (R255) -/

/-- The request keeps the AN of the slot that transmits, for its record. -/
def Req.withAn (an : Nat) (r : Req) : Req :=
  { r with m := { r.m with
      key := some { slot := none, gen := 0, transform := 0, secret := [], salt12 := [], sci := [], ssci := [], an := an } } }

/-- An ASSOC_ROLL that has acted ends OK with the AN of the slot that transmits. -/
def State.assocDone (t : State) (rid an : Nat) : State := ((t.acted rid).onReq rid (Req.withAn an)).myenoEnd rid (ends .ok 0)

theorem State.assocDone_good {t : State} (hr : t.req rid = some r) (hend : r.m.ending = none) (an : Nat) :
    ((t.assocDone rid an).req rid).map (fun x => x.m.ending) = some (some (ends .ok 0)) ∧ (t.assocDone rid an).keys = t.keys := by
  have hacted : (t.acted rid).req rid = some (r.actedIn t) := by
    rw [State.acted_of_req hr]
    exact State.req_putReq_same _ _ _
  have hwith := State.req_putReq_same (t.acted rid) rid ((r.actedIn t).withAn an)
  rw [State.assocDone, State.onReq_of_req _ hacted]
  exact ⟨by rw [State.req_myenoEnd hwith hend]; rfl,
    (State.keys_myenoEnd_good (e := ends .ok 0) hwith hend rfl).trans (State.acted_keys t rid)⟩

theorem State.slot_assocDone {t : State} (hr : t.req rid = some r) (hend : r.m.ending = none) (an n : Nat) :
    (t.assocDone rid an).slot n = t.slot n := by
  rw [State.slot, (State.assocDone_good hr hend an).2]
  rfl

section
variable (hagain : assocAgain v q = none)
include hagain

theorem State.assocAct_form (haction : fld q.d.inAddr.toNat 0 2 = 1) :
    v.assocAct rid q =
      match formCheck v q.owner (hSlot q.handle) q.d.inAddr.toNat with
      | some e => v.myenoEnd rid e
      | none => (v.form (hSlot q.handle) q.d.inAddr.toNat).assocDone rid
          ((v.form (hSlot q.handle) q.d.inAddr.toNat).slot (hSlot q.handle)).an := by
  simp only [State.assocAct, hagain, haction] <;> rfl

theorem State.assocAct_dissolve (haction : fld q.d.inAddr.toNat 0 2 = 2) :
    v.assocAct rid q = (v.dissolve (hSlot q.handle)).assocDone rid 0 := by
  simp only [State.assocAct, hagain, haction]
  rfl

theorem State.assocAct_roll (haction : fld q.d.inAddr.toNat 0 2 = 0) :
    v.assocAct rid q =
      match rollCheck (v.slot (txSlot v (hSlot q.handle) ^^^ 1)) with
      | some e => v.myenoEnd rid e
      | none => ((v.roll (txSlot v (hSlot q.handle))).onKeys (fun k => { k with manualRolls := k.manualRolls + 1 })).assocDone rid
          (v.slot (txSlot v (hSlot q.handle) ^^^ 1)).an := by
  simp only [State.assocAct, hagain, haction] <;> rfl

end

/-! ## The slots of a pair formed, rolled, dissolved -/

/-- A slot of the pair formed, the one that is `n` transmitting. -/
def Slot.formed (w : Nat) (tx : Bool) (m : Nat) (x : Slot) : Slot :=
  { x with an := if m % 2 = 0 then fld w 2 2 else fld w 4 2, paired := true, tx := tx, autoRoll := bit w 6 }

theorem State.slot_form (v : State) (n w : Nat) :
    (v.form n w).slot n = (v.slot n).formed w true n ∧
      (v.form n w).slot (n ^^^ 1) = (v.slot (n ^^^ 1)).formed w false (n ^^^ 1) := by
  obtain ⟨hn, hm⟩ := State.slot_pair v n (Slot.formed w (n == n) n) (Slot.formed w (n ^^^ 1 == n) (n ^^^ 1))
  refine ⟨hn.trans ?_, hm.trans ?_⟩
  · simp [Slot.formed]
  · simp [Slot.formed]

theorem State.slot_dissolve (v : State) (n : Nat) (hpaired : (v.slot n).paired = true) :
    (v.dissolve n).slot n = (v.slot n).unpair ∧ (v.dissolve n).slot (n ^^^ 1) = (v.slot (n ^^^ 1)).unpair := by
  rw [State.dissolve, if_pos hpaired]
  exact State.slot_pair v n _ _

theorem State.slot_roll (v : State) (n : Nat) :
    (v.roll n).slot n = { v.slot n with tx := false } ∧ (v.roll n).slot (n ^^^ 1) = { v.slot (n ^^^ 1) with tx := true } :=
  State.slot_pair v n _ _

theorem State.req_dissolve (v : State) (n k : Nat) : (v.dissolve n).req k = v.req k :=
  req_of_field (State.dissolve_field (φ := .reqs) v n (by simp)) k

end

/-- Settles O21: the three actions of an ASSOC_ROLL and their refusals. -/
theorem assocRollFormsRollsAndDissolves : Obligations.AssocRollFormsRollsAndDissolves := by
  unfold Obligations.AssocRollFormsRollsAndDissolves
  intro s v rid q hq hmay hop hv hopen hagain n w good
  have hact := State.keyAct_of_verified hq hmay hv hopen
  rw [hop] at hact
  have hassoc : s.keyAct rid = v.assocAct rid q := hact
  have hrun : ∀ p : Req → Bool, p q = true → s.keyOp rid 0x34 p = v.assocAct rid q := by
    intro p hp
    rw [← hassoc]
    simp only [State.keyOp, hq, hop, hp, and_self, if_true]
  obtain ⟨r, hr, hend⟩ := req_of_unended hopen
  refine ⟨fun haction hcheck => ?_, fun e haction hcheck => ?_, fun haction hpaired => ?_, fun haction hcheck => ?_,
    fun e haction hcheck => ?_⟩
  · have hexec := (hrun (fun q => fld q.d.inAddr.toNat 0 2 == 1) (beq_iff_eq.mpr haction)).trans
      (State.assocAct_form hagain haction)
    rw [hcheck] at hexec
    have hreq : (v.form n w).req rid = some r := hr
    obtain ⟨hn, hm⟩ := State.slot_form v n w
    refine ⟨_, congrArg Host.Outcome.next hexec, (State.assocDone_good hreq hend _).1, ?_⟩
    rw [State.slot_assocDone hreq hend, State.slot_assocDone hreq hend, hn, hm]
    refine ⟨rfl, rfl, rfl, rfl, rfl, ?_, rfl, rfl⟩
    simp only [Slot.formed, xor_one_even, ite_not]
  · have hexec := (hrun (fun q => fld q.d.inAddr.toNat 0 2 == 1) (beq_iff_eq.mpr haction)).trans
      (State.assocAct_form hagain haction)
    rw [hcheck] at hexec
    exact congrArg Host.Outcome.next hexec
  · have hexec := (hrun (fun q => fld q.d.inAddr.toNat 0 2 == 2) (beq_iff_eq.mpr haction)).trans
      (State.assocAct_dissolve hagain haction)
    have hreq : (v.dissolve n).req rid = some r := (State.req_dissolve v n rid).trans hr
    obtain ⟨hn, hm⟩ := State.slot_dissolve v n hpaired
    refine ⟨_, congrArg Host.Outcome.next hexec, (State.assocDone_good hreq hend _).1, ?_⟩
    rw [State.slot_assocDone hreq hend, State.slot_assocDone hreq hend, hn, hm]
    exact ⟨rfl, rfl⟩
  · have hexec := (hrun (fun q => fld q.d.inAddr.toNat 0 2 == 0) (beq_iff_eq.mpr haction)).trans
      (State.assocAct_roll hagain haction)
    rw [hcheck] at hexec
    have hreq : ((v.roll (txSlot v n)).onKeys (fun k => { k with manualRolls := k.manualRolls + 1 })).req rid = some r := hr
    obtain ⟨hn, hm⟩ := State.slot_roll v (txSlot v n)
    obtain ⟨hgood, hkeys⟩ := State.assocDone_good hreq hend (v.slot (txSlot v n ^^^ 1)).an
    refine ⟨_, congrArg Host.Outcome.next hexec, hgood, (congrArg Keys.manualRolls hkeys).trans rfl, ?_⟩
    rw [State.slot_assocDone hreq hend, State.slot_assocDone hreq hend]
    exact ⟨hn, hm⟩
  · have hexec := (hrun (fun q => fld q.d.inAddr.toNat 0 2 == 0) (beq_iff_eq.mpr haction)).trans
      (State.assocAct_roll hagain haction)
    rw [hcheck] at hexec
    exact congrArg Host.Outcome.next hexec

end Sys2Proof.Machine
end

section
/-!
SUPPORT. Erases, allotments and the cold cache (O22).
-/
namespace Sys2Proof.Machine

/-! ## What a stop leaves of the keys -/

/-- Between two states nothing of the keys differs but the slots. -/
def slotsOnly (s t : State) : Prop := ∃ sl, t.keys = { s.keys with slots := sl }

theorem slotsOnly_of_keys {s t : State} (h : t.keys = s.keys) : slotsOnly s t := ⟨s.keys.slots, h⟩

theorem slotsOnly.trans {s t u : State} (h : slotsOnly s t) (h' : slotsOnly t u) : slotsOnly s u := by
  obtain ⟨sl, h⟩ := h
  obtain ⟨sl', h'⟩ := h'
  exact ⟨sl', by rw [h', h]⟩

theorem slotsOnly_onSlot (s : State) (n : Nat) (f : Slot → Slot) : slotsOnly s (s.onSlot n f) := ⟨_, rfl⟩

theorem slotsOnly_onReq (s : State) (rid : Nat) (f : Req → Req) : slotsOnly s (s.onReq rid f) :=
  slotsOnly_of_keys (State.onReq_field (φ := .keys) s rid f (by simp))

theorem slotsOnly_closeChainOf (s : State) (q : Req) : slotsOnly s (s.closeChainOf q) := by
  simp only [State.closeChainOf]
  split
  · split
    · exact slotsOnly_onSlot _ _ _
    · exact slotsOnly_of_keys rfl
  · split
    · split
      · exact slotsOnly_onSlot _ _ _
      · exact slotsOnly_of_keys rfl
    · exact slotsOnly_of_keys rfl

theorem slotsOnly_myenoEnd (s : State) (rid : Nat) (e : Ending) : slotsOnly s (s.myenoEnd rid e) := by
  have hleave : slotsOnly s (s.leaveContext rid) := slotsOnly_of_keys (State.leaveContext_field (φ := .keys) s rid (by simp))
  simp only [State.myenoEnd]
  split
  · exact slotsOnly_of_keys rfl
  · split
    · exact slotsOnly_of_keys rfl
    · split
      · exact hleave.trans (slotsOnly_onReq _ _ _)
      · exact (hleave.trans (slotsOnly_onReq _ _ _)).trans (slotsOnly_closeChainOf _ _)

theorem slotsOnly_stopRequest (s : State) (rid : Nat) (before after : Ending) : slotsOnly s (s.stopRequest rid before after) := by
  simp only [State.stopRequest]
  cases s.req rid with
  | none => exact slotsOnly_of_keys rfl
  | some q =>
    dsimp only
    repeat' split
    · exact slotsOnly_of_keys rfl
    · exact slotsOnly_onReq _ _ _
    · exact slotsOnly_myenoEnd _ _ _
    · exact slotsOnly_of_keys rfl
    · exact slotsOnly_myenoEnd _ _ _
    · exact slotsOnly_onReq _ _ _

theorem slotsOnly_foldl {α : Type} (f : State → α → State) (hf : ∀ t a, slotsOnly t (f t a)) (l : List α) (s : State) :
    slotsOnly s (l.foldl f s) := by
  induction l generalizing s with
  | nil => exact slotsOnly_of_keys rfl
  | cons a l ih => exact (hf s a).trans (ih _)

/-! ## Erases (R241, R242) -/

section
variable {s : State} {slot : Nat} {e : Erase}

/-- A good ending, or none where the request has ended already, leaves the keys. -/
theorem State.keys_myenoEnd_ok (s : State) (rid : Nat) {e : Ending} (hgood : e.st.good = true) :
    (s.myenoEnd rid e).keys = s.keys := by
  cases hq : s.req rid with
  | none => simp only [State.myenoEnd, hq]
  | some q =>
    by_cases hend : q.m.ending = none
    · exact State.keys_myenoEnd_good hq hend hgood
    · simp only [State.myenoEnd, hq, Option.isSome_iff_ne_none.mpr hend, if_true]

/-- The slot, and the window that it has, when an erase completes. -/
def State.erased (s : State) (slot : Nat) : State :=
  (if (s.slot slot).winEn then s.onSlot (s.slot slot).winSlot Slot.wiped else s).onSlot slot Slot.wiped

theorem execEraseComplete_free (hslot : slot < 65536) (he : s.keys.erases.find? (fun e => e.slot == slot) = some e)
    (hstate : (s.slot slot).state = .erasing) (hheld : holders s slot = []) (hpages : pageHolders s slot = [])
    (hjob : jobHolds s slot = false) :
    exec (.eraseComplete slot) s = .next (((s.erased slot).onKeys (fun k =>
      { k with erases := k.erases.erase e, erasesDone := k.erasesDone + 1 })).myenoEnd e.req (ends .ok 0)) := by
  simp only [exec, execEraseComplete, he, hstate, hheld, hpages, hjob, List.isEmpty_nil, Bool.not_false, and_self, if_true]
  exact unit_next _ hslot

theorem State.erased_kept (s : State) (slot : Nat) :
    (s.erased slot).keys.erases = s.keys.erases ∧ (s.erased slot).keys.erasesDone = s.keys.erasesDone := by
  simp only [State.erased]
  split <;> exact ⟨rfl, rfl⟩

theorem State.slot_erased (hwin : (s.slot slot).winEn = false) : (s.erased slot).slot slot = (s.slot slot).wiped := by
  simp [State.erased, hwin]

theorem State.slot_erased_window (hwin : (s.slot slot).winEn = true) (hne : (s.slot slot).winSlot ≠ slot) :
    (s.erased slot).slot slot = (s.slot slot).wiped ∧
      (s.erased slot).slot (s.slot slot).winSlot = (s.slot (s.slot slot).winSlot).wiped := by
  simp only [State.erased, hwin, if_true]
  rw [State.slot_onSlot_same, State.slot_onSlot_other _ _ _ _ hne.symm, State.slot_onSlot_other _ _ _ _ hne,
    State.slot_onSlot_same]
  exact ⟨rfl, rfl⟩

theorem eraseComplete_empties (hslot : slot < 65536) (he : s.keys.erases.find? (fun e => e.slot == slot) = some e)
    (hstate : (s.slot slot).state = .erasing) (hheld : holders s slot = []) (hpages : pageHolders s slot = [])
    (hjob : jobHolds s slot = false) :
    ∃ t, exec (.eraseComplete slot) s = .next t ∧ t.keys.erases = s.keys.erases.erase e ∧
      t.keys.erasesDone = s.keys.erasesDone + 1 ∧
      ((s.slot slot).winEn = false → t.slot slot = (s.slot slot).wiped) ∧
      ((s.slot slot).winEn = true → (s.slot slot).winSlot ≠ slot →
        t.slot slot = (s.slot slot).wiped ∧ t.slot (s.slot slot).winSlot = (s.slot (s.slot slot).winSlot).wiped) := by
  have hkeys := State.keys_myenoEnd_ok ((s.erased slot).onKeys (fun k =>
    { k with erases := k.erases.erase e, erasesDone := k.erasesDone + 1 })) e.req (e := ends .ok 0) rfl
  have hslots : ∀ n, (((s.erased slot).onKeys (fun k =>
      { k with erases := k.erases.erase e, erasesDone := k.erasesDone + 1 })).myenoEnd e.req (ends .ok 0)).slot n =
      (s.erased slot).slot n := fun n => by
    rw [State.slot, hkeys]
    rfl
  obtain ⟨herases, hdone⟩ := State.erased_kept s slot
  refine ⟨_, execEraseComplete_free hslot he hstate hheld hpages hjob, ?_, ?_, fun hwin => ?_, fun hwin hne => ?_⟩
  · rw [hkeys]
    exact congrArg (List.erase · e) herases
  · rw [hkeys]
    exact congrArg (· + 1) hdone
  · rw [hslots, State.slot_erased hwin]
  · rw [hslots, hslots]
    exact State.slot_erased_window hwin hne

/-- The erase that has exceeded the limit, marked and counted. -/
def State.limitMarked (s : State) (e : Erase) : State :=
  s.onKeys (fun k =>
    { k with
      erases := k.erases.map (fun x => if x = e then { x with limitHit := true } else x)
      eraseLimitHits := k.eraseLimitHits + 1 })

theorem execEraseLimitExpiry_slotsOnly (hslot : slot < 65536) (he : s.keys.erases.find? (fun e => e.slot == slot) = some e)
    (hlimit : e.limitHit = false) :
    ∃ t, exec (.eraseLimitExpiry slot) s = .next t ∧ slotsOnly (s.limitMarked e) t := by
  refine ⟨_, unit_next _ hslot, ?_⟩
  simp only [he, hlimit, Bool.false_eq_true, if_false]
  refine slotsOnly.trans ?_ (slotsOnly_onReq _ _ _)
  refine slotsOnly.trans ?_ (slotsOnly_foldl _ ?_ _ _)
  · exact slotsOnly_foldl _ (fun t i => (slotsOnly_onReq t i _).trans (slotsOnly_stopRequest _ i _ _)) (holders s slot)
      (s.limitMarked e)
  · exact fun t o => slotsOnly_of_keys rfl

theorem eraseLimit_counts (hslot : slot < 65536) (he : s.keys.erases.find? (fun e => e.slot == slot) = some e)
    (hlimit : e.limitHit = false) :
    ∃ t, exec (.eraseLimitExpiry slot) s = .next t ∧ t.keys.eraseLimitHits = s.keys.eraseLimitHits + 1 ∧
      { e with limitHit := true } ∈ t.keys.erases := by
  obtain ⟨t, hexec, sl, hkeys⟩ := execEraseLimitExpiry_slotsOnly hslot he hlimit
  refine ⟨t, hexec, by rw [hkeys]; rfl, ?_⟩
  rw [hkeys]
  exact List.mem_map.mpr ⟨e, List.mem_of_find?_eq_some he, if_pos rfl⟩

end

/-! ## Allotments and the cold cache (R212, R235) -/

/-- A fold that writes the `i`-th slot from `b` on, for `i` below `c`. -/
theorem slot_foldl_onSlot (s : State) (b c : Nat) (f : Slot → Slot) (n : Nat) :
    ((List.range c).foldl (fun t i => t.onSlot (b + i) f) s).slot n =
      if b ≤ n ∧ n < b + c then f (s.slot n) else s.slot n := by
  by_cases hb : b ≤ n
  · obtain ⟨i, rfl⟩ := Nat.exists_eq_add_of_le hb
    rw [foldl_each (fun t i => t.slot (b + i)) _ (fun _ => f) (fun t i => State.slot_onSlot_same t (b + i) f)
      (fun t i k hk => State.slot_onSlot_other t (b + i) (b + k) f (by omega)) _ List.nodup_range s i]
    simp
  · rw [if_neg (by omega)]
    exact List.foldlRecOn (motive := fun t => t.slot n = s.slot n) _ _ rfl
      (fun t ht i _ => (State.slot_onSlot_other t (b + i) n f (by omega)).trans ht)

theorem execAllotCommit_legal {s : State} (hdone : allotCheck s = .done) :
    ∃ t, exec .allotCommit s = .next t ∧ t.keys.allotStatus = .done ∧
      ∀ n, t.slot n =
        if s.keys.allotBase.toNat ≤ n ∧ n < s.keys.allotBase.toNat + s.keys.allotCount.toNat then
          { Slot.dflt 0 with owner := ownerOf s.keys.allotOwner.toNat }
        else s.slot n := by
  refine ⟨_, rfl, ?_, fun n => ?_⟩
  · simp only [hdone, if_true]
    exact List.foldlRecOn (motive := fun t : State => t.keys.allotStatus = .done) _ _ rfl (fun t ht i _ => ht)
  · simp only [hdone, if_true]
    exact slot_foldl_onSlot (s.onKeys (fun k => { k with allotStatus := .done })) _ _ _ n

theorem execColdCacheSlots_legal {s : State} {v : U32}
    (hv : v.toNat ∈ [0, 1, 2, 4, 8, 16, 32, 64, 128, 256, 512, 1024, 2048, 4096, 8192])
    (hfree : ∀ e ∈ s.keys.slots, 65536 - max v.toNat s.keys.coldCacheSlots ≤ e.1 → e.2.owner = none) :
    exec (.coldCacheSlots v) s = .next (s.onKeys (fun k => { k with coldCacheSlots := v.toNat, coldCache := [] })) := by
  have hlegal : (v.toNat == 0 || [1, 2, 4, 8, 16, 32, 64, 128, 256, 512, 1024, 2048, 4096, 8192].contains v.toNat) = true := by
    rw [Bool.or_eq_true, beq_iff_eq, List.contains_iff_mem]
    exact List.mem_cons.mp hv
  have hany : s.keys.slots.any (fun e => decide (65536 - max v.toNat s.keys.coldCacheSlots ≤ e.1) && e.2.owner.isSome) = false := by
    rw [List.any_eq_false]
    intro e he
    simp only [Bool.and_eq_true, decide_eq_true_eq, not_and]
    intro hle
    simp [hfree e he hle]
  simp only [exec, execColdCacheSlots, hlegal, hany, Bool.not_false, Bool.and_self, if_true]

/-- Settles O22: erases that complete or exceed the limit, legal allotments, and legal sizes of the cold cache. -/
theorem erasesAndAllotmentsEmptySlots : Obligations.ErasesAndAllotmentsEmptySlots := by
  unfold Obligations.ErasesAndAllotmentsEmptySlots
  exact ⟨fun s slot e hslot he => ⟨fun hstate hheld hpages hjob => eraseComplete_empties hslot he hstate hheld hpages hjob,
      eraseLimit_counts hslot he⟩,
    fun s hdone => execAllotCommit_legal hdone, fun s v hv hfree => execColdCacheSlots_legal hv hfree⟩

end Sys2Proof.Machine
end

section
/-!
SUPPORT. Noise sources and the start of the random number service (O23).
-/
namespace Sys2Proof.Machine

/-! ## What a stop and a failed start leave of the service -/

/-- Between two states nothing of the service differs but the queue of refills. -/
def refillsOnly (s t : State) : Prop := ∃ rf, t.rng = { s.rng with refills := rf }

theorem refillsOnly_of_rng {s t : State} (h : t.rng = s.rng) : refillsOnly s t := ⟨s.rng.refills, h⟩

theorem refillsOnly.trans {s t u : State} (h : refillsOnly s t) (h' : refillsOnly t u) : refillsOnly s u := by
  obtain ⟨rf, h⟩ := h
  obtain ⟨rf', h'⟩ := h'
  exact ⟨rf', by rw [h', h]⟩

theorem refillsOnly_foldl {α : Type} (f : State → α → State) (hf : ∀ t a, refillsOnly t (f t a)) (l : List α) (s : State) :
    refillsOnly s (l.foldl f s) := by
  induction l generalizing s with
  | nil => exact refillsOnly_of_rng rfl
  | cons a l ih => exact (hf s a).trans (ih _)

theorem rng_raise (s : State) (src arg info : Nat) : (s.raise src arg info).rng = s.rng := State.raise_rng s src arg info

theorem refillsOnly_unpower (s : State) : refillsOnly s s.unpower := by
  have hunpower : s.unpower.rng = { s.rng with refills := [] } := by
    simp only [State.unpower]
    refine List.foldlRecOn (motive := fun t : State => t.rng = _) _ _ ?_ (fun t ht e _ => ht)
    refine List.foldlRecOn (motive := fun t : State => t.rng = _) _ _ ?_ (fun t ht e _ => ht)
    exact List.foldlRecOn (motive := fun t : State => t.rng = _) _ _ rfl (fun t ht e _ => ht)
  exact ⟨[], hunpower⟩

theorem refillsOnly_pavane (s : State) : refillsOnly s s.pavane := by
  obtain ⟨rf, h⟩ := refillsOnly_unpower s
  exact ⟨rf, by simp only [State.pavane, h]⟩

theorem refillsOnly_enterPavane (s : State) (reason detail : Nat) : refillsOnly s (s.enterPavane reason detail) := by
  obtain ⟨rf, h⟩ := refillsOnly_pavane (s.recordFailure reason detail)
  refine ⟨rf, ?_⟩
  rw [State.enterPavane, rng_raise, h]
  rfl

theorem refillsOnly_startFail (s : State) (reason detail : Nat) : refillsOnly s (s.startFail reason detail) := by
  simp only [State.startFail]
  split
  · exact refillsOnly_of_rng rfl
  · split
    · exact refillsOnly_enterPavane s reason detail
    · exact refillsOnly_of_rng (rng_raise _ _ _ _)

theorem rng_fillsEnd (s : State) (detail : Nat) : (s.fillsEnd detail).rng = { s.rng with fills := [] } := by
  have hfold : (s.rng.fills.foldl (fun t rid => t.myenoEnd rid (ends .rngUnavailable detail)) s).rng = s.rng :=
    List.foldlRecOn (motive := fun t : State => t.rng = s.rng) _ _ rfl
      (fun t ht rid _ => (State.myenoEnd_field (φ := .rng) t rid _ (by simp)).trans ht)
  simp only [State.fillsEnd, State.onRng, hfold]

section
variable {s : State} {n : Nat}

/-- The service stopped, with its cause (R408). -/
theorem State.rngStop_rng (s : State) (cause source : Nat) :
    refillsOnly ((s.fillsEnd 2).rngZero.onRng (fun r => { r with state := .stopped, stopCause := cause })) (s.rngStop cause source) := by
  simp only [State.rngStop]
  split
  · exact (refillsOnly_of_rng (rng_raise _ _ _ _)).trans (refillsOnly_startFail _ _ _)
  · exact refillsOnly_of_rng (rng_raise _ _ _ _)

theorem State.rngStop_stopped (s : State) (cause source : Nat) :
    (s.rngStop cause source).rng.state = .stopped ∧ (s.rngStop cause source).rng.stopCause = cause := by
  obtain ⟨rf, h⟩ := State.rngStop_rng s cause source
  rw [h]
  exact ⟨rfl, rfl⟩

/-- A start-up test, or the settling, that fails. -/
theorem State.rngStartFail_rng (s : State) (cause detail : Nat) :
    refillsOnly ((s.fillsEnd 1).onRng (fun r => { r with state := .startFailed, stopCause := cause }))
      (s.rngStartFail cause detail) := by
  simp only [State.rngStartFail]
  split
  · exact refillsOnly_of_rng (rng_raise _ _ _ _)
  · exact (refillsOnly_of_rng (rng_raise _ _ _ _)).trans (refillsOnly_startFail _ _ _)

theorem State.rngStartFail_failed (s : State) (cause detail : Nat) :
    (s.rngStartFail cause detail).rng.state = .startFailed ∧ (s.rngStartFail cause detail).rng.stopCause = cause ∧
      (s.rngStartFail cause detail).rng.sources = s.rng.sources := by
  obtain ⟨rf, h⟩ := State.rngStartFail_rng s cause detail
  rw [h]
  refine ⟨rfl, rfl, ?_⟩
  show (s.fillsEnd 1).rng.sources = _
  rw [rng_fillsEnd]

/-! ## A sample of a source (R407, R408) -/

/-- Nothing of source `n` differs but the samples collected for a block. -/
def inputOnly (n : Nat) (s t : State) : Prop := ∃ i, t.noise n = { s.noise n with input := i }

theorem inputOnly_of_noise {t : State} (h : t.noise n = s.noise n) : inputOnly n s t := ⟨(s.noise n).input, h⟩

theorem inputOnly.trans {t u : State} (h : inputOnly n s t) (h' : inputOnly n t u) : inputOnly n s u := by
  obtain ⟨i, h⟩ := h
  obtain ⟨i', h'⟩ := h'
  exact ⟨i', by rw [h', h]⟩

theorem inputOnly_of_rng {t : State} (h : t.rng = s.rng) : inputOnly n s t := inputOnly_of_noise (by rw [State.noise, h]; rfl)

theorem inputOnly_onNoise (s : State) (n m : Nat) (g : Noise → List Bool) :
    inputOnly n s (s.onNoise m (fun x => { x with input := g x })) := by
  by_cases h : n = m
  · subst h
    exact ⟨_, State.noise_onNoise_same _ _ _⟩
  · exact inputOnly_of_noise (State.noise_onNoise_other _ _ _ _ h)

theorem inputOnly_foldl (f : State → Nat → State) (hf : ∀ t a, inputOnly n t (f t a)) (l : List Nat) (s : State) :
    inputOnly n s (l.foldl f s) := by
  induction l generalizing s with
  | nil => exact inputOnly_of_noise rfl
  | cons a l ih => exact (hf s a).trans (ih _)

/-- The sources of a service whose inputs are dropped. -/
theorem inputOnly_noInput (s : State) (n : Nat) : inputOnly n s (s.onRng Rng.noInput) := by
  have hfold : ∀ (l : List Nat) (t : State), (l.foldl (fun t i => t.onNoise i (fun x => { x with input := [] })) t).rng =
      { t.rng with
        sources := l.foldl (fun t n => Tab.upd Noise.dflt t n (fun x => { x with input := [] })) t.rng.sources } := by
    intro l
    induction l with
    | nil => exact fun t => rfl
    | cons a l ih => exact fun t => (ih _).trans rfl
  obtain ⟨i, h⟩ := inputOnly_foldl (n := n) _ (fun t i => inputOnly_onNoise t n i fun _ => []) (List.range 4) s
  refine ⟨i, ?_⟩
  rw [← h]
  simp only [State.noise]
  rw [hfold]
  rfl

theorem inputOnly_rngStop (s : State) (n cause source : Nat) : inputOnly n s (s.rngStop cause source) := by
  obtain ⟨rf, h⟩ := State.rngStop_rng s cause source
  obtain ⟨i, hi⟩ := inputOnly_noInput s n
  refine ⟨i, ?_⟩
  rw [← hi]
  simp only [State.noise, h, State.onRng, State.rngZero, Rng.noInput, rng_fillsEnd]

theorem inputOnly_switchSource {m : Nat} (hne : n ≠ m) : inputOnly n s (s.switchSource n m) := by
  simp only [State.switchSource]
  have hfold := inputOnly_foldl (n := n) _ (fun t i => inputOnly_onNoise t n i fun _ => []) (List.range 4) s
  generalize (List.range 4).foldl _ s = t at hfold ⊢
  exact hfold.trans (inputOnly_of_noise (State.noise_onNoise_other t m n (fun x => { x with role := .inUse }) hne))

/-- A source that fails keeps all but its collected samples. -/
theorem inputOnly_noiseFailed (hrole : (s.noise n).role ≠ .spare) (was : SourceRole) (cause : Nat) :
    inputOnly n s (s.noiseFailed n was cause) := by
  simp only [State.noiseFailed]
  split
  · exact inputOnly_of_rng (rng_raise _ _ _ _)
  · exact inputOnly_of_rng rfl
  · split
    · exact inputOnly_of_rng rfl
    · exact inputOnly_of_rng (rng_raise _ _ _ _)
    · split
      · exact inputOnly_of_rng rfl
      · split
        · exact inputOnly_rngStop _ _ _ _
        · split
          · exact inputOnly_rngStop _ _ _ _
          · rename_i m hm
            have hspare := List.find?_some hm
            simp only [Bool.and_eq_true, beq_iff_eq] at hspare
            have hne : n ≠ m := fun h => hrole (h ▸ hspare.1)
            exact (inputOnly_switchSource hne).trans (inputOnly_of_rng (rng_raise _ _ _ _))

theorem inputOnly_condition (s : State) (n m : Nat) (v : Bool) : inputOnly n s (s.condition m v) := by
  simp only [State.condition]
  split
  · exact inputOnly_of_rng rfl
  · split
    · split
      · exact inputOnly_onNoise _ _ _ _
      · rename_i i j _ _
        have hput := inputOnly_onNoise s n m fun x => x.input ++ [v]
        generalize s.onNoise m (fun x => { x with input := x.input ++ [v] }) = t at hput ⊢
        have hi := inputOnly_onNoise t n i fun x => x.input.drop 256
        generalize t.onNoise i (fun x => { x with input := x.input.drop 256 }) = u at hi ⊢
        exact (hput.trans hi).trans (inputOnly_onNoise u n j fun x => x.input.drop 256)
    · exact inputOnly_onNoise _ _ _ _

/-- What a sample does, from the end of settling on. -/
def State.sampled (s : State) (n : Nat) (v : Bool) : State :=
  let x := s.noise n
  let r := x.sample v (s.rng.state == .testing)
  let s1 := s.onNoise n (fun _ => r.1)
  let s2 := if r.2.1 || r.2.2 then s1.noiseFailed n x.role (if r.2.1 then 1 else 2) else s1
  if (s2.noise n).role = .inUse then s2.condition n v else s2

theorem execNoiseSample_settled {v : Bool} (hn : n < 4) (hsettled : s.rng.settled = true) (hreset : s.start.inReset = false) :
    exec (.noiseSample n v) s = .next (s.sampled n v) := by
  simp only [exec, execNoiseSample, hsettled, hreset, Bool.not_true, Bool.false_eq_true, or_self, if_false]
  exact unit_next _ hn

/-- The source after a sample, but for the samples collected. -/
def State.tested (s : State) (n : Nat) (v : Bool) : Noise × Bool × Bool := (s.noise n).sample v (s.rng.state == .testing)

theorem State.tested_role (s : State) (n : Nat) (v : Bool) :
    (s.tested n v).1.role = if (s.tested n v).2.1 || (s.tested n v).2.2 then .failed else (s.noise n).role := rfl

section
variable {v : Bool}

theorem State.sampled_fails (hfails : ((s.tested n v).2.1 || (s.tested n v).2.2) = true) :
    s.sampled n v = (s.onNoise n (fun _ => (s.tested n v).1)).noiseFailed n (s.noise n).role (if (s.tested n v).2.1 then 1 else 2) := by
  have hnoise : (s.onNoise n (fun _ => (s.tested n v).1)).noise n = (s.tested n v).1 := State.noise_onNoise_same _ _ _
  have hrole : (s.tested n v).1.role = .failed := by rw [State.tested_role, if_pos hfails]
  obtain ⟨i, hi⟩ := inputOnly_noiseFailed (s := s.onNoise n (fun _ => (s.tested n v).1)) (n := n) (by simp [hnoise, hrole])
    (s.noise n).role (if (s.tested n v).2.1 then 1 else 2)
  have hidle : ¬ (((s.onNoise n (fun _ => (s.tested n v).1)).noiseFailed n (s.noise n).role
      (if (s.tested n v).2.1 then 1 else 2)).noise n).role = .inUse := by
    rw [hi]
    simp [hnoise, hrole]
  simp only [State.sampled]
  rw [show (s.noise n).sample v (s.rng.state == .testing) = s.tested n v from rfl, if_pos hfails, if_neg hidle]

theorem State.sampled_passes (hpasses : ((s.tested n v).2.1 || (s.tested n v).2.2) = false) :
    s.sampled n v = if (s.noise n).role = .inUse then (s.onNoise n (fun _ => (s.tested n v).1)).condition n v
      else s.onNoise n (fun _ => (s.tested n v).1) := by
  have hnoise : (s.onNoise n (fun _ => (s.tested n v).1)).noise n = (s.tested n v).1 := State.noise_onNoise_same _ _ _
  have hrole : (s.tested n v).1.role = (s.noise n).role := by rw [State.tested_role, if_neg (by simp [hpasses])]
  simp only [State.sampled]
  rw [show (s.noise n).sample v (s.rng.state == .testing) = s.tested n v from rfl]
  simp only [hpasses, Bool.false_eq_true, if_false, hnoise, hrole]

/-- After a sample the source reads what its tests make of it. -/
theorem State.noise_sampled (s : State) (n : Nat) (v : Bool) : ∃ i, (s.sampled n v).noise n = { (s.tested n v).1 with input := i } := by
  have hnoise : (s.onNoise n (fun _ => (s.tested n v).1)).noise n = (s.tested n v).1 := State.noise_onNoise_same _ _ _
  suffices h : inputOnly n (s.onNoise n (fun _ => (s.tested n v).1)) (s.sampled n v) by
    obtain ⟨i, hi⟩ := h
    exact ⟨i, by rw [hi, hnoise]⟩
  cases hfails : ((s.tested n v).2.1 || (s.tested n v).2.2)
  · rw [State.sampled_passes hfails]
    split
    · exact inputOnly_condition _ _ _ _
    · exact inputOnly_of_rng rfl
  · rw [State.sampled_fails hfails]
    refine inputOnly_noiseFailed ?_ _ _
    rw [hnoise, State.tested_role, if_pos hfails]
    simp

theorem State.sampled_stops (hfails : ((s.tested n v).2.1 || (s.tested n v).2.2) = true) (hrun : s.rng.state = .running)
    (hcompat : s.rng.compat = false) (hrole : (s.noise n).role = .inUse) :
    s.sampled n v = (s.onNoise n (fun _ => (s.tested n v).1)).rngStop (if (s.tested n v).2.1 then 1 else 2) n := by
  have hstate : (s.onNoise n (fun _ => (s.tested n v).1)).rng.state = .running := hrun
  have hcond : conditioning (s.onNoise n (fun _ => (s.tested n v).1)) = true := by simp [conditioning, hstate]
  have hcompat' : (s.onNoise n (fun _ => (s.tested n v).1)).rng.compat = false := hcompat
  rw [State.sampled_fails hfails, hrole]
  simp only [State.noiseFailed, hstate, hcond, hcompat', Bool.not_true, Bool.false_eq_true, if_false, Bool.not_false, if_true]

/-! ## A block of conditioned samples (R404) -/

/-- The block that the samples of two sources form. -/
def State.block (s : State) (i j : Nat) : Conditioned :=
  let span (x : Noise) : Nat × Nat := (x.samples.toNat - x.input.length, x.samples.toNat - x.input.length + 255)
  { block := conditionedBlock (s.noise i).input (s.noise j).input
    parts := [(i, span (s.noise i)), (j, span (s.noise j))] }

/-- The block formed of the samples that sources `i` and `j` have collected. -/
def State.formedOf (s : State) (i j : Nat) : State :=
  ((s.onNoise i (fun x => { x with input := x.input.drop 256 })).onNoise j (fun x =>
    { x with input := x.input.drop 256 })).onRng (fun r => { r with formed := r.formed ++ [s.block i j] })

theorem State.noise_formedOf {i j k : Nat} (hij : i ≠ j) (hk : k = i ∨ k = j) :
    (s.formedOf i j).noise k = { s.noise k with input := (s.noise k).input.drop 256 } := by
  have hrng : (s.formedOf i j).noise k = ((s.onNoise i (fun x => { x with input := x.input.drop 256 })).onNoise j (fun x =>
    { x with input := x.input.drop 256 })).noise k := rfl
  rw [hrng]
  rcases hk with rfl | rfl
  · rw [State.noise_onNoise_other _ _ _ _ hij, State.noise_onNoise_same]
  · rw [State.noise_onNoise_same, State.noise_onNoise_other _ _ _ _ hij.symm]

/-- A sample is collected, and a block formed where both sources have 256. -/
theorem State.condition_order {i j : Nat} (hcond : conditioning s = true) (horder : s.rng.order = [i, j])
    (hmem : n = i ∨ n = j) :
    s.condition n v =
      let s1 := s.onNoise n (fun x => { x with input := x.input ++ [v] })
      if (s1.noise i).input.length < 256 ∨ (s1.noise j).input.length < 256 then s1
      else s1.formedOf i j := by
  have hin : [i, j].contains n = true := by
    rcases hmem with rfl | rfl <;> simp
  have horder' : (s.onNoise n (fun x => { x with input := x.input ++ [v] })).rng.order = [i, j] := horder
  simp only [State.condition, hcond, horder, hin, Bool.and_self, Bool.not_true, Bool.false_eq_true, if_false, horder']
  rfl

section
variable {m i j : Nat} (hcond : conditioning s = true) (hne : m ≠ n) (horder : s.rng.order = [i, j])
  (hpair : i = n ∧ j = m ∨ i = m ∧ j = n)
include hcond hne horder hpair

theorem State.condition_waits (hshort : (s.noise n).input.length < 255 ∨ (s.noise m).input.length < 256) :
    s.condition n v = s.onNoise n (fun x => { x with input := x.input ++ [v] }) := by
  rw [State.condition_order hcond horder (by omega)]
  refine if_pos ?_
  rcases hpair with ⟨rfl, rfl⟩ | ⟨rfl, rfl⟩ <;>
    rw [State.noise_onNoise_same, State.noise_onNoise_other _ _ _ _ hne] <;>
    simp only [List.length_append, List.length_singleton] <;> omega

theorem State.condition_forms (hlast : (s.noise n).input.length = 255) (hfull : 256 ≤ (s.noise m).input.length) :
    ∃ c, (s.condition n v).rng.formed = s.rng.formed ++ [c] ∧ ((s.condition n v).noise n).input = [] ∧
      ((s.condition n v).noise m).input = (s.noise m).input.drop 256 ∧
      c.block = (if s.rng.order = [n, m] then conditionedBlock ((s.noise n).input ++ [v]) (s.noise m).input
        else conditionedBlock (s.noise m).input ((s.noise n).input ++ [v])) := by
  have hn := State.noise_onNoise_same s n fun x => { x with input := x.input ++ [v] }
  have hm := State.noise_onNoise_other s n m (fun x => { x with input := x.input ++ [v] }) hne
  have hdrop : ((s.noise n).input ++ [v]).drop 256 = [] := List.drop_eq_nil_of_le (by simp [hlast])
  have hformed : (s.onNoise n (fun x => { x with input := x.input ++ [v] })).rng.formed = s.rng.formed := rfl
  have hij : i ≠ j := by omega
  rw [State.condition_order hcond horder (by omega), horder]
  dsimp only
  generalize s.onNoise n (fun x => { x with input := x.input ++ [v] }) = t at hn hm hformed ⊢
  have hlong : ¬ ((t.noise i).input.length < 256 ∨ (t.noise j).input.length < 256) := by
    rcases hpair with ⟨rfl, rfl⟩ | ⟨rfl, rfl⟩ <;> simp [hn, hm, hlast, hfull]
  rw [if_neg hlong]
  refine ⟨t.block i j, congrArg (· ++ [t.block i j]) hformed, ?_, ?_, ?_⟩
  · rw [State.noise_formedOf hij (by omega), hn]
    exact hdrop
  · rw [State.noise_formedOf hij (by omega), hm]
  · rcases hpair with ⟨rfl, rfl⟩ | ⟨rfl, rfl⟩
    · simp only [State.block, hn, hm, if_true]
    · rw [if_neg (by simp [hne])]
      simp only [State.block, hn, hm]

end

/-! ## The end of settling and the start-up test (R406, R425 to R427) -/

theorem State.noise_onRng {f : Rng → Rng} (hf : ∀ r, (f r).sources = r.sources) (s : State) (n : Nat) :
    (s.onRng f).noise n = s.noise n :=
  congrArg (fun x => Tab.get Noise.dflt x n) (hf s.rng)

theorem State.noise_testSources (s : State) {n : Nat} (hn : n < 4) :
    s.testSources.noise n = { s.noise n with startCount := 0, startFailed := false } := by
  rw [State.testSources, State.noise_onRng (f := fun r => { r with state := .testing }) (fun _ => rfl),
    foldl_each State.noise (fun t n => t.onNoise n (fun x => { x with startCount := 0, startFailed := false }))
      (fun _ x => { x with startCount := 0, startFailed := false }) (fun t n => State.noise_onNoise_same _ _ _)
      (fun t n k hk => State.noise_onNoise_other _ _ _ _ hk) (List.range 4) List.nodup_range s n,
    if_pos (List.mem_range.mpr hn)]

theorem State.settled_testSources (s : State) : s.testSources.rng.settled = s.rng.settled :=
  List.foldlRecOn (motive := fun t : State => t.rng.settled = s.rng.settled) _ _ rfl (fun _ ht _ _ => ht)

theorem execSettlingEnd_waiting {katOk : Bool} (hsettled : s.rng.settled = false) (hreset : s.start.inReset = false)
    (hscrap : s.start.state ≠ .scrap) (halarm : s.start.alarmPending = false) :
    exec (.settlingEnd katOk) s = .next (
      match s.rng.state with
      | .settling => if katOk then (s.onRng (fun r => { r with settled := true })).testSources
          else (s.onRng (fun r => { r with settled := true })).rngStartFail 5 0
      | .rawSample => if katOk then s.onRng (fun r => { r with settled := true })
          else ((s.onRng (fun r => { r with settled := true })).rngStartFail 5 0).onRng (fun r =>
            { r with state := .rawSample, rawReturn := .startFailed })
      | _ => s.onRng (fun r => { r with settled := true })) := by
  simp only [exec, execSettlingEnd, hsettled, hreset, hscrap, halarm, Bool.false_eq_true, or_self, if_false]
  rfl

/-- Whether source `n` has passed the start-up test. -/
def sourcePass (s : State) (n : Nat) : Bool := !(s.noise n).startFailed && (s.noise n).role != .failed

theorem sourcePass_iff (s : State) (n : Nat) :
    sourcePass s n = true ↔ (s.noise n).startFailed = false ∧ (s.noise n).role ≠ .failed := by simp [sourcePass]

/-- The two sources to be used after the test. -/
def startUse (s : State) : List Nat := if s.rng.compat then ((List.range 4).filter (sourcePass s)).take 2 else [0, 1]

/-- Whether the test as a whole is passed. -/
def startOk (s : State) : Bool :=
  if s.rng.compat then decide (2 ≤ ((List.range 4).filter (sourcePass s)).length) else sourcePass s 0 && sourcePass s 1

/-- A source judged by the test. -/
def Noise.judged (pass inUse : Bool) (x : Noise) : Noise :=
  { x with passed := pass, role := if !pass then .failed else if inUse then .inUse else .spare }

/-- The sources judged, and those that fail outside use reported. -/
def State.judged (s : State) : State :=
  (List.range 4).foldl (fun t n => if (s.noise n).startFailed ∧ !((startUse s).contains n) then t.raise 0x042 n 0 else t)
    ((List.range 4).foldl (fun t n => t.onNoise n (Noise.judged (sourcePass s n) ((startUse s).contains n))) s)

theorem State.noise_judged (s : State) {n : Nat} (hn : n < 4) :
    s.judged.noise n = (s.noise n).judged (sourcePass s n) ((startUse s).contains n) := by
  have hraise : s.judged.rng =
      ((List.range 4).foldl (fun t n => t.onNoise n (Noise.judged (sourcePass s n) ((startUse s).contains n))) s).rng := by
    refine List.foldlRecOn (motive := fun t : State => t.rng = _) _ _ rfl (fun t ht k _ => ?_)
    split
    · exact (rng_raise _ _ _ _).trans ht
    · exact ht
  have hfold := foldl_each State.noise (fun t n => t.onNoise n (Noise.judged (sourcePass s n) ((startUse s).contains n)))
    (fun n => Noise.judged (sourcePass s n) ((startUse s).contains n)) (fun t n => State.noise_onNoise_same _ _ _)
    (fun t n k hk => State.noise_onNoise_other _ _ _ _ hk) (List.range 4) List.nodup_range s n
  rw [if_pos (List.mem_range.mpr hn)] at hfold
  rw [← hfold]
  simp only [State.noise, hraise]

theorem Noise.role_judged_failed (pass inUse : Bool) (x : Noise) : (x.judged pass inUse).role = .failed ↔ pass = false := by
  cases pass <;> cases inUse <;> simp [Noise.judged]

/-- The state that the test leaves. -/
def State.startTested (s : State) : State :=
  if startOk s then s.judged.onRng (fun r => { r with state := .filling, order := startUse s, formed := [] })
  else s.judged.rngStartFail 3 (((List.range 4).map (fun n => b2n (!(sourcePass s n)) * 2 ^ n)).sum)

theorem execStartupTestDone_full (hstate : s.rng.state = .testing) (hcount : ∀ n < 4, 1024 ≤ (s.noise n).startCount) :
    exec .startupTestDone s = .next s.startTested := by
  have hall : ((List.range 4).all (fun n => decide (1024 ≤ (s.noise n).startCount))) = true := by
    simpa [List.all_eq_true] using hcount
  simp only [exec, execStartupTestDone, hstate, hall, ne_eq, not_true_eq_false, Bool.not_true, Bool.false_eq_true, or_self,
    if_false]
  rfl

theorem State.noise_startTested (s : State) {n : Nat} (hn : n < 4) :
    s.startTested.noise n = (s.noise n).judged (sourcePass s n) ((startUse s).contains n) := by
  rw [← State.noise_judged s hn, State.startTested]
  split
  · rfl
  · simp only [State.noise, (State.rngStartFail_failed _ _ _).2.2]

theorem State.startTested_ok (hok : startOk s = true) :
    s.startTested.rng.state = .filling ∧ s.startTested.rng.order = startUse s := by
  rw [State.startTested, if_pos hok]
  exact ⟨rfl, rfl⟩

theorem State.startTested_failed (hok : startOk s = false) :
    s.startTested.rng.state = .startFailed ∧ s.startTested.rng.stopCause = 3 := by
  rw [State.startTested, if_neg (by simp [hok])]
  exact ⟨(State.rngStartFail_failed _ _ _).1, (State.rngStartFail_failed _ _ _).2.1⟩

/-- The first two that pass of the four. -/
theorem filter_first_two {p : Nat → Bool} {i j : Nat} (hij : i < j) (hj : j < 4) (hpi : p i = true) (hpj : p j = true)
    (hothers : ∀ n < j, n ≠ i → p n = false) :
    ((List.range 4).filter p).take 2 = [i, j] ∧ 2 ≤ ((List.range 4).filter p).length := by
  have hsplit : List.range 4 = List.range' 0 i ++ i :: (List.range' (i + 1) (j - i - 1) ++ j :: List.range' (j + 1) (3 - j)) := by
    interval_cases j <;> interval_cases i <;> rfl
  have hbefore : (List.range' 0 i).filter p = [] := by
    rw [List.filter_eq_nil_iff]
    intro n hn
    simp only [List.mem_range'_1] at hn
    simp [hothers n (by omega) (by omega)]
  have hbetween : (List.range' (i + 1) (j - i - 1)).filter p = [] := by
    rw [List.filter_eq_nil_iff]
    intro n hn
    simp only [List.mem_range'_1] at hn
    simp [hothers n (by omega) (by omega)]
  rw [hsplit, List.filter_append, hbefore, List.filter_cons_of_pos hpi, List.filter_append, hbetween,
    List.filter_cons_of_pos hpj]
  simp

theorem length_filter_le_one {p : Nat → Bool} {i : Nat} (hothers : ∀ n < 4, n ≠ i → p n = false) :
    ((List.range 4).filter p).length ≤ 1 := by
  have hsub : (List.range 4).filter p ⊆ [i] := by
    intro n hn
    obtain ⟨hn, hp⟩ := List.mem_filter.mp hn
    by_contra hne
    simp [hothers n (List.mem_range.mp hn) (by simpa using hne)] at hp
  exact (List.subperm_of_subset (List.nodup_range.filter p) hsub).length_le

/-! ## The generator instantiated and reseeded (R409, R410) -/

theorem refillsOnly_wantRefills (s : State) : refillsOnly s s.wantRefills := by
  have hwant : ∀ (t : State) (o : Nat), refillsOnly t (t.wantRefill o) := fun t o => by
    simp only [State.wantRefill]
    split
    · exact ⟨_, rfl⟩
    · exact refillsOnly_of_rng rfl
  exact (hwant s mgr).trans (refillsOnly_foldl _ hwant _ _)

@[simp] theorem length_aes256 (key b : Bytes) : (aes256 key b).length = 16 := by simp [aes256, octetsOf]

theorem length_drbgBlocks (key v : Bytes) (n : Nat) : (drbgBlocks key v n).length = 16 * n := by
  simp [drbgBlocks, List.length_flatten, Function.comp_def, Nat.mul_comm]

/-- The generator seeded from the first blocks of the pool. -/
def State.instantiated (s : State) : State :=
  s.onRng (fun r =>
    { ({ r with drbgKey := zeros 32, drbgV := zeros 16 } : Rng).seed
        ((s.rng.pool.take 3).flatten ++ octetsOf 32 (Config.personal (rootSecret s) s.start.bootEpoch.toNat)) with
      state := .running, stopCause := 0, pool := r.pool.drop 3
      firstRelease := if r.started then r.firstRelease else BitVec.ofNat 32 (s.now - s.start.startBegan).toNat })

/-- The first instantiation draws the keys of the cache's check and of the directory. -/
def State.firstDraw (s : State) : State :=
  let d := s.internalDraw 80
  { d.2.onRng (fun r => { r with started := true }) with
    keys := { d.2.keys with checkKeys := d.1.take 72 }
    dir := { d.2.dir with seed0 := cut d.1 72 4, seed1 := cut d.1 76 4 } }

theorem execDrbgInstantiate_filling (hstate : s.rng.state = .filling) (hpool : 3 ≤ s.rng.pool.length) :
    exec .drbgInstantiate s = .next (
      let t := (if s.rng.started then s.instantiated else s.instantiated.firstDraw).wantRefills
      if t.start.state = .pavane then t.pavaneTest 3 true else t.stepThree) := by
  have hlt : ¬ s.rng.pool.length < 3 := by omega
  simp only [exec, execDrbgInstantiate, hstate, hlt, ne_eq, not_true_eq_false, or_self, if_false]
  rfl

/-- What the end of an instantiation leaves: nothing of the service, the keys and the directory, but the refills. -/
def State.afterDrbg (t : State) : State :=
  if t.wantRefills.start.state = .pavane then t.wantRefills.pavaneTest 3 true else t.wantRefills.stepThree

theorem State.afterDrbg_kept (t : State) : refillsOnly t t.afterDrbg ∧ t.afterDrbg.keys = t.keys ∧ t.afterDrbg.dir = t.dir := by
  have hkeys : t.wantRefills.keys = t.keys := State.wantRefills_field (φ := .keys) t (by simp)
  have hdir : t.wantRefills.dir = t.dir := State.wantRefills_field (φ := .dir) t (by simp)
  have hrng := refillsOnly_wantRefills t
  rw [← hkeys, ← hdir, State.afterDrbg]
  split
  · exact ⟨hrng.trans (refillsOnly_of_rng rfl), rfl, rfl⟩
  · have hstep : t.wantRefills.stepThree.rng = t.wantRefills.rng ∧ t.wantRefills.stepThree.keys = t.wantRefills.keys ∧
        t.wantRefills.stepThree.dir = t.wantRefills.dir := by
      rw [State.stepThree]
      split <;> exact ⟨rfl, rfl, rfl⟩
    exact ⟨hrng.trans (refillsOnly_of_rng hstep.1), hstep.2.1, hstep.2.2⟩

end

end

/-- Settles O23: samples, the end of settling, the start-up test, the pool, instantiation and reseeding. -/
theorem rngStartsTestsAndReseeds : Obligations.RngStartsTestsAndReseeds := by
  unfold Obligations.RngStartsTestsAndReseeds
  intro s
  refine ⟨fun n v hn hsettled hreset => ?_, fun hsettled hreset hscrap halarm => ⟨fun hstate => ?_, fun hstate => ?_⟩,
    fun hstate hcount => ?_, fun c hcond hc => ?_, fun hstate hpool => ?_, fun hstate hdue hpool => ?_⟩
  · intro x run hit count fails
    have hfails : ((s.tested n v).2.1 || (s.tested n v).2.2) = fails := rfl
    obtain ⟨input, hnoise⟩ := State.noise_sampled s n v
    refine ⟨_, execNoiseSample_settled hn hsettled hreset, ?_⟩
    rw [hnoise]
    refine ⟨rfl, rfl, rfl, rfl, fun hf => ?_, fun hf hrun hcompat hrole => ?_, fun m hf hcond hrole hne horder => ?_⟩
    · show (s.tested n v).1.role = .failed
      rw [State.tested_role, hfails, if_pos hf]
    · rw [State.sampled_stops (hfails.trans hf) hrun hcompat hrole]
      obtain ⟨hstopped, hcause⟩ := State.rngStop_stopped (s.onNoise n (fun _ => (s.tested n v).1))
        (if (s.tested n v).2.1 then 1 else 2) n
      refine ⟨hstopped, hcause.trans ?_⟩
      show (if (run == 41) = true then 1 else 2) = _
      simp
    · rw [← hnoise, State.sampled_passes (hfails.trans hf), if_pos hrole]
      have hn' : (s.onNoise n (fun _ => (s.tested n v).1)).noise n = (s.tested n v).1 := State.noise_onNoise_same _ _ _
      have hm' : (s.onNoise n (fun _ => (s.tested n v).1)).noise m = s.noise m := State.noise_onNoise_other _ _ _ _ hne
      have hinput : ((s.onNoise n (fun _ => (s.tested n v).1)).noise n).input = (s.noise n).input :=
        (congrArg Noise.input hn').trans rfl
      have hcond' : conditioning (s.onNoise n (fun _ => (s.tested n v).1)) = true := hcond
      have horder' : (s.onNoise n (fun _ => (s.tested n v).1)).rng.order = s.rng.order := rfl
      have hformed : (s.onNoise n (fun _ => (s.tested n v).1)).rng.formed = s.rng.formed := rfl
      have hpair : ∃ i j, s.rng.order = [i, j] ∧ (i = n ∧ j = m ∨ i = m ∧ j = n) := by
        rcases horder with h | h
        · exact ⟨n, m, h, .inl ⟨rfl, rfl⟩⟩
        · exact ⟨m, n, h, .inr ⟨rfl, rfl⟩⟩
      obtain ⟨i, j, hij, hpair⟩ := hpair
      generalize s.onNoise n (fun _ => (s.tested n v).1) = t at hn' hm' hinput hcond' horder' hformed ⊢
      rw [hij] at horder'
      refine ⟨fun hshort => ?_, fun hlast hfull => ?_⟩
      · rw [State.condition_waits hcond' hne horder' hpair (by rw [hinput, hm']; exact hshort), State.noise_onNoise_same]
        exact ⟨congrArg (· ++ [v]) hinput, hformed⟩
      · obtain ⟨c, hc, hempty, hdrop, hblock⟩ := State.condition_forms (v := v) hcond' hne horder' hpair
          (by rw [hinput]; exact hlast) (by rw [hm']; exact hfull)
        rw [hinput, hm', horder', ← hij] at hblock
        exact ⟨c, hc.trans (by rw [hformed]), hempty, hdrop.trans (by rw [hm']), hblock⟩
  · refine ⟨(s.onRng (fun r => { r with settled := true })).testSources,
      (s.onRng (fun r => { r with settled := true })).rngStartFail 5 0, ?_, rfl, State.settled_testSources _, fun n hn => ?_, ?_,
      (State.rngStartFail_failed _ _ _).1, (State.rngStartFail_failed _ _ _).2.1⟩
    · rw [execSettlingEnd_waiting hsettled hreset hscrap halarm, hstate]
      rfl
    · rw [State.noise_testSources _ hn]
      exact ⟨rfl, rfl⟩
    · rw [execSettlingEnd_waiting hsettled hreset hscrap halarm, hstate]
      rfl
  · rw [execSettlingEnd_waiting hsettled hreset hscrap halarm, hstate]
    rfl
  · intro good
    have hgood : ∀ n, sourcePass s n = true ↔ good n := sourcePass_iff s
    have hbad : ∀ n, ¬ good n → sourcePass s n = false := fun n h => eq_false_of_ne_true (fun hp => h ((hgood n).mp hp))
    refine ⟨_, execStartupTestDone_full hstate hcount, fun n hn => ?_, fun hcompat hboth => ?_, fun hcompat hnot => ?_,
      fun i j hcompat hij hj hi hj' hothers => ?_, fun i hcompat hothers => ?_⟩
    · rw [State.noise_startTested s hn, Noise.role_judged_failed, ← hgood, Bool.not_eq_true]
    · have h0 := (hgood 0).mpr hboth.1
      have h1 := (hgood 1).mpr hboth.2
      have huse : startUse s = [0, 1] := by simp [startUse, hcompat]
      obtain ⟨hfilling, horder⟩ := State.startTested_ok (s := s) (by simp [startOk, hcompat, h0, h1])
      refine ⟨hfilling, horder.trans huse, ?_, ?_⟩
      · rw [State.noise_startTested s (by omega), huse, h0]
        rfl
      · rw [State.noise_startTested s (by omega), huse, h1]
        rfl
    · refine State.startTested_failed ?_
      rw [← hgood, ← hgood, not_and_or, Bool.not_eq_true, Bool.not_eq_true] at hnot
      rcases hnot with h | h <;> simp [startOk, hcompat, h]
    · obtain ⟨htwo, hlen⟩ := filter_first_two (p := sourcePass s) hij hj ((hgood i).mpr hi) ((hgood j).mpr hj')
        fun n hn hne => hbad n (hothers n hn hne)
      obtain ⟨hfilling, horder⟩ := State.startTested_ok (s := s) (by simp [startOk, hcompat, hlen])
      exact ⟨hfilling, horder.trans (by simp [startUse, hcompat, htwo])⟩
    · have hlen := length_filter_le_one (p := sourcePass s) (i := i) fun n hn hne => hbad n (hothers n hn hne)
      refine State.startTested_failed ?_
      simp only [startOk, hcompat, if_true, decide_eq_false_iff_not]
      omega
  · simp only [exec, execPoolEntry, hc, hcond, if_true]
  · obtain ⟨⟨rf, hrng⟩, hkeys, hdir⟩ := State.afterDrbg_kept (if s.rng.started then s.instantiated else s.instantiated.firstDraw)
    refine ⟨_, execDrbgInstantiate_filling hstate hpool, ?_⟩
    show (State.afterDrbg _).rng.state = _ ∧ (State.afterDrbg _).rng.pool = _ ∧ (State.afterDrbg _).rng.seeded = _ ∧
      (State.afterDrbg _).rng.started = _ ∧ (_ → (State.afterDrbg _).keys.checkKeys.length = _) ∧
      (_ → (State.afterDrbg _).keys = _ ∧ (State.afterDrbg _).dir = _ ∧ (State.afterDrbg _).rng.drbgKey = _)
    rw [hrng, hkeys, hdir]
    cases hstarted : s.rng.started
    · refine ⟨rfl, rfl, rfl, rfl, fun _ => ?_, by simp⟩
      show (((drbgBlocks _ _ 5).take 80).take 72).length = 72
      simp [length_drbgBlocks]
    · exact ⟨rfl, rfl, rfl, hstarted, by simp, fun _ => ⟨rfl, rfl, rfl⟩⟩
  · have hdue' : reseedDue s = true := decide_eq_true hdue
    simp only [exec, execReseed, hstate, hdue', hpool, and_self, if_true]

end Sys2Proof.Machine
end

section
/-!
SUPPORT. The consumers of the random number service (O24).
-/
namespace Sys2Proof.Machine

section
variable {s : State}

/-- A draw of whole blocks gives all their octets. -/
theorem State.generate_whole (s : State) (m : Nat) : (s.generate (16 * m)).1 = drbgBlocks s.rng.drbgKey s.rng.drbgV m := by
  have hm : (16 * m + 15) / 16 = m := by omega
  simp only [State.generate, hm]
  rw [← length_drbgBlocks s.rng.drbgKey s.rng.drbgV m, List.take_length]

theorem refillsOnly_wantRefill (s : State) (o : Nat) : refillsOnly s (s.wantRefill o) := by
  simp only [State.wantRefill]
  split
  · exact ⟨_, rfl⟩
  · exact refillsOnly_of_rng rfl

section
variable (hrun : s.rng.state = .running) (hdue : reseedDue s = false)
include hrun hdue

/-! ## Lanes and the filler (R416, R418, R329) -/

theorem generateCall_reservoir {lane : Nat} (hlane : lane < 16)
    (hhalf : (Tab.get (fun _ => []) s.rng.reservoirs lane).length ≤ 1024) :
    ∃ t, exec (.generateCall (.reservoir lane)) s = .next t ∧
      Tab.get (fun _ => []) t.rng.reservoirs lane
        = Tab.get (fun _ => []) s.rng.reservoirs lane ++ drbgBlocks s.rng.drbgKey s.rng.drbgV 64 ∧
      t.rng.generateCalls = s.rng.generateCalls + 1 ∧ t.rng.blocks = s.rng.blocks + 64 := by
  have hexec : exec (.generateCall (.reservoir lane)) s = .next ((s.generate 1024).2.onRng (fun r =>
      { r with reservoirs := Tab.upd (fun _ => []) r.reservoirs lane (fun v => v ++ (s.generate 1024).1) })) := by
    simp only [exec, execGenerateCall, hrun, hdue, hhalf, Bool.not_false, and_self, if_true]
    exact unit_next _ hlane
  refine ⟨_, hexec, ?_, rfl, rfl⟩
  rw [← State.generate_whole]
  exact Tab.get_upd_same (fun _ => ([] : Bytes)) s.rng.reservoirs lane (fun v => v ++ (s.generate 1024).1)

theorem generateCall_filler (hquiet : s.tango.posture = .quiet) (hleft : s.tango.fillLeft = 0) :
    ∃ t, exec (.generateCall .filler) s = .next t ∧ t.tango.fillLeft = 4096 ∧ t.rng.blocks = s.rng.blocks + 3 := by
  refine ⟨{ (s.internalDraw 48).2 with tango := { (s.internalDraw 48).2.tango with fillLeft := 4096 } }, ?_, rfl, rfl⟩
  simp only [exec, execGenerateCall, hrun, hdue, hquiet, hleft, Bool.not_false, and_self, if_true]

/-! ## The software share (R416, R419, R422) -/

theorem State.serveSoftware_port {o : Nat} (hturn : softwareTurn s = some (false, o)) : s.serveSoftware = s.servePort o := by
  simp only [State.serveSoftware, hrun, hdue, hturn, ne_eq, not_true_eq_false, Bool.false_eq_true, or_self, if_false]

theorem State.serveSoftware_fill {rid : Nat} {q : Req} (hturn : softwareTurn s = some (true, rid)) (hq : s.req rid = some q) :
    s.serveSoftware = s.serveFill rid q := by
  simp only [State.serveSoftware, hrun, hdue, hturn, hq, ne_eq, not_true_eq_false, Bool.false_eq_true, or_self, if_false]

end

theorem State.servePort_words (s : State) (o : Nat) : (s.servePort o).rng.portWords = s.rng.portWords + 32 := by
  simp only [State.servePort]
  obtain ⟨rf, h⟩ := refillsOnly_wantRefill (((s.generate 192).2.putFifo 1 o ((List.range 32).foldl (fun f i =>
    Fifo.push .data (BitVec.ofNat 48 (leNat (cut (s.generate 192).1 (6 * i) 6))) f) ((s.generate 192).2.fifo 1 o))).onRng (fun g =>
    { g with portWords := g.portWords + 32, refills := g.refills.filter (· != o), fillTurn := true })) o
  have hput : ∀ f, ((s.generate 192).2.putFifo 1 o f).rng = (s.generate 192).2.rng := fun f =>
    State.putFifo_field (φ := .rng) _ 1 o f (by simp)
  rw [h]
  show ((s.generate 192).2.putFifo 1 o _).rng.portWords + 32 = _
  rw [hput]
  rfl

theorem State.serveFill_bytes (s : State) (rid : Nat) (q : Req) :
    (s.serveFill rid q).rng.fillBytes = s.rng.fillBytes + BitVec.ofNat 64 (min 4096 (q.d.outCap - 4096 * q.m.segPassed)) := by
  have hreq : ∀ f, ((s.generate (min 4096 (q.d.outCap - 4096 * q.m.segPassed))).2.onReq rid f).rng =
      (s.generate (min 4096 (q.d.outCap - 4096 * q.m.segPassed))).2.rng := fun f =>
    State.onReq_field (φ := .rng) _ rid f (by simp)
  have hend : ∀ t : State, (t.myenoEnd rid (ends .ok 0)).rng = t.rng := fun t =>
    State.myenoEnd_field (φ := .rng) t rid _ (by simp)
  simp only [State.serveFill]
  split
  · rw [hend]
    simp only [State.onRng, hreq]
    rfl
  · simp only [State.onRng, hreq]
    rfl

theorem State.fillDispatch_waits {rid : Nat} {q : Req} (hq : s.req rid = some q) (hop : q.d.opcode = 0x50)
    (hhead : q.m.headSeen = true) (hchecked : q.m.checked = true) (hended : q.ended = false) (hlist : q.outListDone = true)
    (hfills : s.rng.fills.contains rid = false) (hdisp : q.m.dispatched = false) (hrefusal : rngRefusal s = none)
    (hwaits : rngWaits s = false) :
    s.fillDispatch rid = s.onRng (fun r => { r with fills := r.fills ++ [rid] }) := by
  simp only [State.fillDispatch, hq, hop, hhead, hchecked, hended, hlist, hfills, hdisp, hrefusal, hwaits, ne_eq,
    not_true_eq_false, Bool.not_true, Bool.false_eq_true, or_self, if_false]

end

/-- Settles O24: refills of reservoirs, the filler's draw, ports, fills, and the read of a port. -/
theorem rngServesItsConsumers : Obligations.RngServesItsConsumers := by
  unfold Obligations.RngServesItsConsumers
  intro s
  refine ⟨fun hrun hdue => ⟨fun lane hlane hhalf => generateCall_reservoir hrun hdue hlane hhalf,
      fun hquiet hleft => generateCall_filler hrun hdue hquiet hleft, fun o ho hturn => ⟨?_, ?_, s.servePort_words o⟩,
      fun rid q hturn hq => ⟨?_, s.serveFill_bytes rid q⟩, fun rid q hturn hq hrun' hdue' => ?_⟩,
    fun rid q hq hop hhead hchecked hended hlist hfills hdisp hrefusal hwaits =>
      State.fillDispatch_waits hq hop hhead hchecked hended hlist hfills hdisp hrefusal hwaits,
    fun b o ho ha => ?_⟩
  · simp only [exec, execPortRefill, hturn, if_true, State.serveSoftware_port hrun hdue hturn]
    exact unit_next _ ho
  · simp only [exec, execGenerateCall, State.serveSoftware_port hrun hdue hturn]
  · simp only [exec, execGenerateCall, State.serveSoftware_fill hrun hdue hturn hq]
  · simp only [exec, execRngFill, hturn, if_true, State.serveSoftware_fill hrun' hdue' hturn hq]
  · have hlt : o < 513 := Nat.lt_succ_of_le ho
    simp only [exec, execRngWord, State.pageRead_accepts _ _ _ _ ha]
    exact unit_next _ hlt

end Sys2Proof.Machine
end

section
/-!
SUPPORT. DRBG mismatches and raw-sample mode (O25).
-/
namespace Sys2Proof.Machine

section
variable {s : State}

/-! ## Mismatches of the DRBG (R411) -/

/-- A mismatch counted, in all and against the block. -/
def State.drbgCounted (s : State) : State :=
  s.onRng (fun r => { r with drbgMismatches := r.drbgMismatches + 1, blockTries := r.blockTries + 1 })

theorem execDrbgMismatch_conditioning (hcond : conditioning s = true) :
    exec .drbgMismatch s = .next (if 3 ≤ s.rng.blockTries + 1 then s.drbgCounted.rngStop 4 0xF else s.drbgCounted) := by
  simp only [exec, execDrbgMismatch, hcond, Bool.not_true, Bool.false_eq_true, if_false]
  rfl

theorem State.rngStop_mismatches (s : State) (cause source : Nat) :
    (s.rngStop cause source).rng.drbgMismatches = s.rng.drbgMismatches := by
  obtain ⟨rf, h⟩ := State.rngStop_rng s cause source
  rw [h]
  simp only [State.onRng, State.rngZero, Rng.noInput, rng_fillsEnd]

theorem drbgMismatch_counts (hcond : conditioning s = true) :
    ∃ t, exec .drbgMismatch s = .next t ∧ t.rng.drbgMismatches = s.rng.drbgMismatches + 1 ∧
      (s.rng.blockTries < 2 → t.rng.state = s.rng.state ∧ t.rng.blockTries = s.rng.blockTries + 1) ∧
      (2 ≤ s.rng.blockTries → t.rng.state = .stopped ∧ t.rng.stopCause = 4) := by
  have hexec := execDrbgMismatch_conditioning hcond
  by_cases h : 3 ≤ s.rng.blockTries + 1
  · rw [if_pos h] at hexec
    exact ⟨_, hexec, State.rngStop_mismatches _ _ _, fun _ => by omega, fun _ => State.rngStop_stopped _ _ _⟩
  · rw [if_neg h] at hexec
    exact ⟨_, hexec, rfl, fun _ => ⟨rfl, rfl⟩, fun _ => by omega⟩

/-! ## Raw-sample mode (R434 to R437) -/

theorem execRawModeEnter_left (hraw : s.rng.rawMode = false) :
    exec .rawModeEnter s = .next (if rawPermitted s then s.rawEnter else s) := by
  simp only [exec, execRawModeEnter, State.writeRawMode, hraw, Bool.false_eq_true, if_false, if_true]
  split <;> rfl

theorem execRawModeExit_entered (hraw : s.rng.rawMode = true) : exec .rawModeExit s = .next s.rawExit := by
  simp only [exec, execRawModeExit, State.writeRawMode, hraw, Bool.false_eq_true, if_false, if_true]

theorem State.rawFeed_run (n : Nat) (s : State) : (s.rawFeed n).rng.rawRun = s.rng.rawRun := by
  induction n generalizing s with
  | zero => rfl
  | succ n ih =>
    simp only [State.rawFeed]
    split
    · rfl
    · rw [ih]
      show ((s.putFifo 1 mgr _).rng).rawRun = _
      rw [show (s.putFifo 1 mgr _).rng = s.rng from State.putFifo_field (φ := .rng) s 1 mgr _ (by simp)]

theorem State.setRecord_rng (s : State) (i : Nat) (v : Bytes) : (s.setRecord i v).rng = s.rng :=
  State.setRecord_field (φ := .rng) s i v (by simp)

theorem State.rawEnter_rng (s : State) :
    s.rawEnter.rng.state = .rawSample ∧ s.rawEnter.rng.rawMode = true ∧ s.rawEnter.rng.pool = [] ∧ s.rawEnter.rng.formed = [] ∧
      s.rawEnter.rng.drbgKey = [] ∧ s.rawEnter.rng.seeded = false ∧ s.rawEnter.rng.reservoirs = [] ∧ s.rawEnter.rng.fills = [] := by
  simp only [State.rawEnter, State.setRecord_rng, State.onRng, State.rngZero, Rng.noInput, rng_fillsEnd, and_self]

/-- The state in which raw-sample mode is left, before the service is what it returns to. -/
def State.rawLeft (s : State) : State := (s.setRecord 3 [0]).onRng (fun r => { r with rawMode := false, rawRun := [], rawNext := 0 })

theorem State.rawLeft_rng (s : State) : s.rawLeft.rng = { s.rng with rawMode := false, rawRun := [], rawNext := 0 } := by
  simp only [State.rawLeft, State.onRng, State.setRecord_rng]

theorem State.rawExit_eq (s : State) :
    s.rawExit =
      match s.rng.rawReturn with
      | .stopped => s.rawLeft.onRng (fun r => { r with state := .stopped })
      | .startFailed => s.rawLeft.onRng (fun r => { r with state := .startFailed })
      | _ => if s.rng.settled then s.rawLeft.testSources else s.rawLeft.onRng (fun r => { r with state := .settling }) := by
  have hreturn : s.rawLeft.rng.rawReturn = s.rng.rawReturn := by rw [State.rawLeft_rng]
  have hsettled : s.rawLeft.rng.settled = s.rng.settled := by rw [State.rawLeft_rng]
  rw [← hreturn, ← hsettled]
  rfl

theorem State.testSources_mode (s : State) : s.testSources.rng.state = .testing ∧ s.testSources.rng.rawMode = s.rng.rawMode :=
  ⟨rfl, List.foldlRecOn (motive := fun t : State => t.rng.rawMode = s.rng.rawMode) _ _ rfl (fun _ ht _ _ => ht)⟩

theorem State.rawExit_mode (s : State) :
    s.rawExit.rng.rawMode = false ∧
      s.rawExit.rng.state = (match s.rng.rawReturn with
        | .stopped => .stopped
        | .startFailed => .startFailed
        | _ => if s.rng.settled = true then .testing else .settling) := by
  have hmode : s.rawLeft.rng.rawMode = false := by rw [State.rawLeft_rng]
  have htest := s.rawLeft.testSources_mode
  rw [hmode] at htest
  rw [State.rawExit_eq]
  cases s.rng.rawReturn
  case stopped => exact ⟨hmode, rfl⟩
  case startFailed => exact ⟨hmode, rfl⟩
  all_goals
    cases s.rng.settled
    · exact ⟨hmode, rfl⟩
    · exact ⟨htest.2, htest.1⟩

theorem rawRunCaptured_taken {run : Bytes} (hstate : s.rng.state = .rawSample) (hnone : s.rng.rawRun = [])
    (hlen : run.length = 131072) (hspace : (s.fifo 1 mgr).space (fifoDepth 1) ≠ 0) :
    ∃ t, exec (.rawRunCaptured run) s = .next t ∧ t.rng.rawRun = run := by
  simp only [exec, execRawRunCaptured, hstate, hnone, hlen, hspace, ne_eq, not_true_eq_false, or_self, if_false]
  exact ⟨_, rfl, State.rawFeed_run _ _⟩

end

/-- Settles O25: mismatches of the DRBG, the failure mode, and raw-sample mode. -/
theorem rngMismatchesAndRawSampleMode : Obligations.RngMismatchesAndRawSampleMode := by
  unfold Obligations.RngMismatchesAndRawSampleMode
  intro s
  refine ⟨fun hstate => drbgMismatch_counts ?_, fun c => ⟨_, rfl, State.setRecord_rng _ _ _⟩,
    fun hraw => ⟨fun hperm => ⟨s.rawEnter, ?_, s.rawEnter_rng⟩, fun hperm => ?_⟩,
    fun hraw => ⟨_, execRawModeExit_entered hraw, s.rawExit_mode⟩,
    fun run hstate hnone hlen hspace => rawRunCaptured_taken hstate hnone hlen hspace⟩
  · rcases hstate with h | h <;> simp [conditioning, h]
  · rw [execRawModeEnter_left hraw, if_pos hperm]
  · rw [execRawModeEnter_left hraw, if_neg (by simp [hperm])]

end Sys2Proof.Machine
end

section
/-!
SUPPORT. Public-key jobs (O26): the dispatch, the choice at a yield point, and the end of a job.
-/
namespace Sys2Proof.Machine

section
variable {s : State} {rid e : Nat} {q : Req} {key : Option KeyCopy}

/-! ## The dispatch (R382, R383) -/

theorem State.assignEngine_starts (hcaller : s.pke.caller = .ready)
    (hdraw : routineDraws q.d.profile = true → rngRefusal s = none ∧ drawWaits s = false)
    (hspace : toFifo q.d = true →
      fifoEntries (routineOut q.d.profile ((key.map KeyCopy.transform).getD 0)) ≤ (s.fifo 0 q.owner).space 512)
    (he : chooseEngine s [] = some e) : s.assignEngine rid q key = s.startJob rid e q key := by
  have hrefusal : (if routineDraws q.d.profile then rngRefusal s else none) = none := by
    split
    · rename_i h
      exact (hdraw h).1
    · rfl
  have hwaits : ¬ (routineDraws q.d.profile = true ∧ drawWaits s = true) := by
    rintro ⟨h, hw⟩
    rw [(hdraw h).2] at hw
    cases hw
  have hroom : ¬ (toFifo q.d = true ∧
      (s.fifo 0 q.owner).space 512 < fifoEntries (routineOut q.d.profile ((key.map KeyCopy.transform).getD 0))) := by
    rintro ⟨h, hlt⟩
    exact absurd (hspace h) (by omega)
  simp only [State.assignEngine, hcaller, hrefusal, if_neg hwaits, if_neg hroom, he]

section
variable (hq : s.req rid = some q) (hop : q.d.opcode = 0x40) (hdisp : q.atDispatch = true) (hlast : q.m.lastSeen = true)
  (hpoison : q.anyPoison = false) (horder : orderWaits s q = false) (htarget : targetSettled s q = true)
  (htotal : q.m.totalWrong = none) (hfits : messageFits q.d.profile q.m.payload = true)
include hq hop hdisp hlast hpoison horder htarget htotal hfits

theorem execPkeRun_keyless (hkey : q.handle = noHandle) : exec (.pkeRun rid) s = .next (s.assignEngine rid q none) := by
  simp only [exec, execPkeRun, hq, hop, State.pkeDispatch, hdisp, hlast, hpoison, horder, htarget, htotal, hfits, hkey, if_true,
    Bool.not_true, Bool.false_eq_true, or_self, if_false]

theorem execPkeRun_keyed {v : State} (hkey : q.handle ≠ noHandle) (hv : v = (namedSlots q).foldl State.verifySlot s)
    (hopen : (v.req rid).map Req.ended = some false) (hagain : useAgain v q.handle = none) :
    exec (.pkeRun rid) s =
      .next (v.assignEngine rid q (some ((v.slot (hSlot q.handle)).copy (hSlot q.handle) false))) := by
  simp only [exec, execPkeRun, hq, hop, State.pkeDispatch, hdisp, hlast, hpoison, horder, htarget, htotal, hfits, hkey, if_true,
    Bool.not_true, Bool.false_eq_true, or_self, if_false, ← hv, hopen, Option.getD_some, hagain]

end

/-- The draw of a job's routine, where it has one. -/
def jobDraw (s : State) (q : Req) : Bytes × State := if routineDraws q.d.profile then s.internalDraw pkeDraw else ([], s)

/-- The job of a request, before it has a context. -/
def jobOf (s : State) (rid : Nat) (q : Req) (key : Option KeyCopy) : Job :=
  let t := (key.map KeyCopy.transform).getD 0
  let it := if iterates q.d.profile then 1 + Config.mldsaIters q.d.profile ((key.map KeyCopy.secret).getD []) q.m.payload % 256
    else 0
  { req := rid, ctx := 0
    slot := match key with
      | some k => k.slot
      | none => none
    steps := 0, total := routineSteps q.d.profile t it, passes := 0, zeroing := false, iters := it
    drawn := (jobDraw s q).1 }

theorem jobDraw_pke (s : State) (q : Req) : (jobDraw s q).2.pke = s.pke := by
  simp only [jobDraw]
  split
  · exact State.internalDraw_field (φ := .pke) s pkeDraw (by simp)
  · rfl

theorem length_internalDraw (s : State) (m : Nat) : (s.internalDraw (16 * m)).1.length = 16 * m := by
  show (s.generate (16 * m)).1.length = _
  rw [State.generate_whole, length_drbgBlocks]

theorem jobOf_drawn (s : State) (rid : Nat) (q : Req) (key : Option KeyCopy) :
    (jobOf s rid q key).drawn.length = if routineDraws q.d.profile then 64 else 0 := by
  simp only [jobOf, jobDraw]
  split
  · exact length_internalDraw s 4
  · rfl

theorem State.enterEngine_pke (t : State) (e : Nat) (j : Job) :
    ((t.enterEngine e j).engineAt e).jobs = (t.engineAt e).jobs ++ [{ j with ctx := (t.engineAt e).freeContext }] ∧
      (t.enterEngine e j).pke.jobs = t.pke.jobs ∧ (t.enterEngine e j).pke.pointer = (e + 1) % 4 := by
  refine ⟨?_, rfl, rfl⟩
  show (((t.onEngine e (fun x => { x with jobs := x.jobs ++ [{ j with ctx := x.freeContext }] })).engineSettle e).engineAt e).jobs = _
  rw [State.engineSettle, State.engineAt_onEngine_same, State.engineAt_onEngine_same]
  rfl

/-- The request dispatched, and its job at an engine. -/
def State.jobEntered (s : State) (rid e : Nat) (q : Req) (key : Option KeyCopy) : State :=
  ((jobDraw s q).2.onReq rid (fun r =>
    { r with m := { r.m with dispatched := true, key := key, posture := s.tango.posture.code } })).enterEngine e (jobOf s rid q key)

theorem State.startJob_eq (s : State) (rid e : Nat) (q : Req) (key : Option KeyCopy) :
    s.startJob rid e q key =
      let t := (key.map KeyCopy.transform).getD 0
      let entries := if toFifo q.d then fifoEntries (routineOut q.d.profile t) else 0
      let s2 := s.jobEntered rid e q key
      let s3 := if entries = 0 then s2
        else s2.putFifo 0 q.owner { s2.fifo 0 q.owner with reserved := (s2.fifo 0 q.owner).reserved + entries }
      ({ s3 with pke := { s3.pke with jobs := s3.pke.jobs + 1 } }).internalStart rid (messageBlocks q.d.profile q.m.payload) := by
  rfl

theorem engineAt_of_pke {t : State} (h : t.pke = s.pke) (e : Nat) : t.engineAt e = s.engineAt e := by
  rw [State.engineAt, h]
  rfl

theorem State.jobEntered_pke (s : State) (rid e : Nat) (q : Req) (key : Option KeyCopy) :
    ((s.jobEntered rid e q key).engineAt e).jobs =
        (s.engineAt e).jobs ++ [{ jobOf s rid q key with ctx := (s.engineAt e).freeContext }] ∧
      (s.jobEntered rid e q key).pke.jobs = s.pke.jobs ∧ (s.jobEntered rid e q key).pke.pointer = (e + 1) % 4 := by
  have hpke : ∀ f, ((jobDraw s q).2.onReq rid f).pke = s.pke := fun f =>
    (State.onReq_field (φ := .pke) _ rid f (by simp)).trans (jobDraw_pke s q)
  obtain ⟨hjobs, hcount, hpointer⟩ := State.enterEngine_pke ((jobDraw s q).2.onReq rid (fun r =>
    { r with m := { r.m with dispatched := true, key := key, posture := s.tango.posture.code } })) e (jobOf s rid q key)
  rw [engineAt_of_pke (hpke _)] at hjobs
  rw [hpke] at hcount
  exact ⟨hjobs, hcount, hpointer⟩

theorem State.startJob_pke (s : State) (rid e : Nat) (q : Req) (key : Option KeyCopy) :
    (s.startJob rid e q key).pke = { (s.jobEntered rid e q key).pke with jobs := (s.jobEntered rid e q key).pke.jobs + 1 } := by
  rw [State.startJob_eq]
  dsimp only
  have hstart : ∀ (t : State) n, (t.internalStart rid n).pke = t.pke := fun t n =>
    State.internalStart_field (φ := .pke) t rid n (by simp)
  rw [hstart]
  have hput : ∀ (t : State) f, (t.putFifo 0 q.owner f).pke = t.pke := fun t f =>
    State.putFifo_field (φ := .pke) t 0 q.owner f (by simp)
  generalize (if toFifo q.d then _ else 0) = n
  by_cases hn : n = 0
  · simp only [hn, if_true]
  · simp only [hn, if_false, hput]

theorem startJob_starts (s : State) (rid e : Nat) (q : Req) :
    ∃ j, ((s.startJob rid e q none).engineAt e).jobs = (s.engineAt e).jobs ++ [j] ∧ j.req = rid ∧
      j.steps = 0 ∧ j.total = routineSteps q.d.profile 0 j.iters ∧ (iterates q.d.profile = false → j.iters = 0) ∧
      j.drawn.length = (if routineDraws q.d.profile then 64 else 0) ∧ (s.startJob rid e q none).pke.jobs = s.pke.jobs + 1 ∧
      (s.startJob rid e q none).pke.pointer = (e + 1) % 4 := by
  obtain ⟨hjobs, hcount, hpointer⟩ := s.jobEntered_pke rid e q none
  have hpke := s.startJob_pke rid e q none
  refine ⟨{ jobOf s rid q none with ctx := (s.engineAt e).freeContext }, ?_, rfl, rfl, rfl, fun hiter => ?_,
    jobOf_drawn s rid q none, ?_, ?_⟩
  · rw [← hjobs, State.engineAt, hpke]
    rfl
  · simp only [jobOf, hiter, Bool.false_eq_true, if_false]
  · rw [hpke, ← hcount]
  · rw [hpke, ← hpointer]

/-! ## The choice at a yield point (R384) -/

section
variable {h : Job}

theorem fewest_mem {l : List Job} {j : Job} (hj : fewest l = some j) : j ∈ l := by
  induction l generalizing j with
  | nil => cases hj
  | cons a l ih =>
    simp only [fewest] at hj
    cases hl : fewest l with
    | none =>
      simp only [hl, Option.some.injEq] at hj
      exact hj ▸ List.mem_cons_self
    | some k =>
      simp only [hl] at hj
      split at hj
      · obtain rfl : k = j := by simpa using hj
        exact List.mem_cons_of_mem _ (ih hl)
      · obtain rfl : a = j := by simpa using hj
        exact List.mem_cons_self

/-- The holder is a job of the engine that is not being zeroed. -/
theorem holderOf_mem (hh : holderOf s e = some h) : h ∈ (s.engineAt e).jobs ∧ h.zeroing = false := by
  simp only [holderOf] at hh
  split at hh
  · have hp := List.find?_some hh
    simp only [Bool.and_eq_true, Bool.not_eq_true'] at hp
    exact ⟨List.mem_of_find?_eq_some hh, hp.2⟩
  · have hm := fewest_mem hh
    simp only [readyJobs, List.mem_filter, Bool.and_eq_true, Bool.not_eq_true'] at hm
    exact ⟨hm.1, hm.2.1⟩

/-- The holder goes on where no ready job has fewer steps or has been passed over to the limit. -/
theorem chooseJob_holder {limit : Nat} {ready : List Job}
    (hready : ∀ j ∈ ready, j.req = h.req ∨ (h.left ≤ j.left ∧ j.passes < limit)) :
    ∃ j, chooseJob limit ready (some h) = some (j, false) ∧ j.req = h.req := by
  have hnone : (ready.filter (fun j => !((some h).map Job.req == some j.req))).find? (fun j => decide (limit ≤ j.passes)) = none := by
    rw [List.find?_eq_none]
    intro j hj
    simp only [List.mem_filter, Option.map_some, Bool.not_eq_true', beq_eq_false_iff_ne, ne_eq, Option.some.injEq] at hj
    rcases hready j hj.1 with hreq | ⟨-, hpasses⟩
    · exact absurd hreq.symm hj.2
    · simpa using hpasses
  simp only [chooseJob, hnone]
  cases hf : fewest ready with
  | none => exact ⟨h, rfl, rfl⟩
  | some j =>
    refine ⟨_, rfl, ?_⟩
    split
    · rename_i hlt
      rcases hready j (fewest_mem hf) with hreq | ⟨hle, -⟩
      · exact hreq
      · omega
    · rfl

/-- The steps of a turn, as the engine's job list shows them. -/
def Job.stepped (h : Job) (n : Nat) (j : Job) : Job := if j.req = h.req ∧ !j.zeroing then { j with steps := h.steps + n } else j

theorem State.engineAt_jobSteps (s : State) (e n : Nat) (q : Req) (h : Job) :
    (s.jobSteps e n q h).engineAt e =
      { s.engineAt e with
        current := some h.req, steps := (s.engineAt e).steps + BitVec.ofNat 64 n
        jobs := (s.engineAt e).jobs.map (h.stepped n) } := by
  exact State.engineAt_onEngine_same (s.engineRun e n q h) e fun x =>
    { x with
      current := some h.req, steps := x.steps + BitVec.ofNat 64 n
      jobs := x.jobs.map (fun j => if j.req = h.req ∧ !j.zeroing then { j with steps := h.steps + n } else j) }

theorem State.readyJobs_jobSteps (s : State) (e n : Nat) (q : Req) (h : Job) :
    readyJobs (s.jobSteps e n q h) e = ((s.engineAt e).jobs.map (h.stepped n)).filter
      (fun j => !j.zeroing && !(internalBusy s j.req)) := by
  rw [readyJobs, State.engineAt_jobSteps]
  rfl

/-- What the choice leaves of a job's passes: the next holder has been passed over by none, another ready job once more. -/
def Job.passed (next : Option Nat) (ready : List Job) (j : Job) : Job :=
  if next = some j.req ∧ !j.zeroing then { j with passes := 0 }
  else if ready.contains j then { j with passes := j.passes + 1 }
  else j

theorem State.yield_eq (s : State) (e : Nat) (h : Option Job) :
    s.yield e h =
      let c := chooseJob s.pke.starveLimit (readyJobs s e) h
      let next := c.map (fun x => x.1.req)
      let s1 := s.onEngine e (fun x => { x with current := next, jobs := x.jobs.map (Job.passed next (readyJobs s e)) })
      { s1 with
        pke := { s1.pke with
          yields := if h.isSome ∧ next ≠ h.map Job.req then s1.pke.yields + 1 else s1.pke.yields
          starveGrants := if (c.map Prod.snd).getD false then s1.pke.starveGrants + 1 else s1.pke.starveGrants } } := rfl

theorem State.engineAt_yield (s : State) (e : Nat) (h : Option Job) :
    (s.yield e h).engineAt e =
      { s.engineAt e with
        current := (chooseJob s.pke.starveLimit (readyJobs s e) h).map (fun x => x.1.req)
        jobs := (s.engineAt e).jobs.map
          (Job.passed ((chooseJob s.pke.starveLimit (readyJobs s e) h).map (fun x => x.1.req)) (readyJobs s e)) } := by
  rw [State.yield_eq]
  exact State.engineAt_onEngine_same s e fun x =>
    { x with
      current := (chooseJob s.pke.starveLimit (readyJobs s e) h).map (fun x => x.1.req)
      jobs := x.jobs.map
        (Job.passed ((chooseJob s.pke.starveLimit (readyJobs s e) h).map (fun x => x.1.req)) (readyJobs s e)) }

/-- A holder that is chosen again holds on: no yield is counted, and it has been passed over by none. -/
theorem State.yield_keeps {j : Job} (hchoice : chooseJob s.pke.starveLimit (readyJobs s e) (some h) = some (j, false))
    (hreq : j.req = h.req) (hmem : h ∈ (s.engineAt e).jobs) (hzero : h.zeroing = false) :
    ((s.yield e (some h)).engineAt e).current = some h.req ∧ ((s.yield e (some h)).engineAt e).steps = (s.engineAt e).steps ∧
      (s.yield e (some h)).pke.yields = s.pke.yields ∧ { h with passes := 0 } ∈ ((s.yield e (some h)).engineAt e).jobs := by
  have hengine := s.engineAt_yield e (some h)
  simp only [hchoice, Option.map_some, hreq] at hengine
  refine ⟨by rw [hengine], by rw [hengine], ?_, ?_⟩
  · simp [State.yield_eq, hchoice, hreq, State.onEngine]
  · rw [hengine]
    exact List.mem_map.mpr ⟨h, hmem, by simp [Job.passed, hzero]⟩

/-- The holder after the steps of its turn. -/
theorem mem_jobSteps {n : Nat} (hmem : h ∈ (s.engineAt e).jobs) (hzero : h.zeroing = false) :
    { h with steps := h.steps + n } ∈ ((s.jobSteps e n q h).engineAt e).jobs := by
  rw [State.engineAt_jobSteps]
  exact List.mem_map.mpr ⟨h, hmem, by simp [Job.stepped, hzero]⟩

theorem yieldPoint_keeps (hh : holderOf s e = some h)
    (hready : ∀ j ∈ readyJobs s e, j.req = h.req ∨ (h.left ≤ j.left + 1024 ∧ j.passes < s.pke.starveLimit)) :
    ∃ t, (s.jobSteps e 1024 q h).yield e (some { h with steps := h.steps + 1024 }) = t ∧ (t.engineAt e).current = some h.req ∧
      (t.engineAt e).steps = (s.engineAt e).steps + 1024 ∧ t.pke.yields = s.pke.yields ∧
      { h with steps := h.steps + 1024, passes := 0 } ∈ (t.engineAt e).jobs := by
  obtain ⟨hmem, hzero⟩ := holderOf_mem hh
  have hstepped : ∀ j ∈ readyJobs (s.jobSteps e 1024 q h) e,
      j.req = h.req ∨ (({ h with steps := h.steps + 1024 } : Job).left ≤ j.left ∧ j.passes < s.pke.starveLimit) := by
    intro j hj
    rw [State.readyJobs_jobSteps, List.mem_filter, List.mem_map] at hj
    obtain ⟨⟨i, hi, rfl⟩, hlive⟩ := hj
    by_cases hreq : i.req = h.req
    · left
      simp only [Job.stepped]
      split <;> exact hreq
    · have hsame : h.stepped 1024 i = i := by simp [Job.stepped, hreq]
      rw [hsame] at hlive ⊢
      rcases hready i (List.mem_filter.mpr ⟨hi, hlive⟩) with hcontra | ⟨hle, hpasses⟩
      · exact absurd hcontra hreq
      · refine .inr ⟨?_, hpasses⟩
        simp only [Job.left, hzero, Bool.false_eq_true, if_false] at hle ⊢
        omega
  obtain ⟨j, hchoice, hreq⟩ := chooseJob_holder (h := { h with steps := h.steps + 1024 }) hstepped
  obtain ⟨hcur, hsteps, hyields, hin⟩ := State.yield_keeps (s := s.jobSteps e 1024 q h) hchoice hreq (mem_jobSteps hmem hzero) hzero
  refine ⟨_, rfl, hcur, ?_, hyields, hin⟩
  rw [hsteps, State.engineAt_jobSteps]
  exact rfl

theorem execYieldPoint_goes (he : e < 4) (hh : holderOf s e = some h) (hq : s.req h.req = some q) (hstop : q.m.stopAtSegment = none)
    (hleft : h.steps + 1024 < h.total) :
    exec (.yieldPoint e) s = .next ((s.jobSteps e 1024 q h).yield e (some { h with steps := h.steps + 1024 })) := by
  have hle : ¬ h.total ≤ h.steps + 1024 := by omega
  simp only [exec, execYieldPoint, hh, hq, hle, hstop, if_false]
  exact unit_next _ he

/-! ## The end of a job (R388) -/

/-- The state in which a job has run its last step. -/
def State.jobRan (s : State) (e : Nat) (q : Req) (h : Job) : State := (s.jobSteps e (h.total - h.steps) q h).jobCounts q h

theorem execPkeJobEnd_ran {holds : Bool} (he : e < 4) (hh : holderOf s e = some h) (hq : s.req h.req = some q)
    (hstop : q.m.stopAtSegment = none) (hdone : h.total ≤ h.steps + 1024) :
    exec (.pkeJobEnd e holds) s = .next (
      if jobRejected q h then (s.jobRan e q h).jobEnd e h.req q (ends .pkeReject 0) true
      else if !holds then
        (({ s.jobRan e q h with pke := { (s.jobRan e q h).pke with invariantFails := (s.jobRan e q h).pke.invariantFails + 1 } } :
          State).raise 0x211 e q.d.profile).jobEnd e h.req q (ends .pkeReject 0) true
      else (s.jobRan e q h).jobGood e h.req q h) := by
  have hlt : ¬ h.steps + 1024 < h.total := by omega
  simp only [exec, execPkeJobEnd, hh, hq, hlt, hstop, if_false]
  exact unit_next _ he

/-- Between two states the Caller and the counts that no run of a job moves stand. -/
structure PkeKept (s t : State) : Prop where
  fails : t.pke.invariantFails = s.pke.invariantFails
  loads : t.pke.targetLoads = s.pke.targetLoads
  restarts : t.pke.restarts = s.pke.restarts
  caller : t.pke.caller = s.pke.caller
  faults : t.pke.lockstepFaults = s.pke.lockstepFaults
  recent : t.pke.lockstepRecent = s.pke.lockstepRecent
  limit : t.pke.lockstepLimit = s.pke.lockstepLimit

theorem pkeKept_of_pke {t : State} (h : t.pke = s.pke) : PkeKept s t := by
  constructor <;> rw [h]

theorem PkeKept.trans {t u : State} (h : PkeKept s t) (h' : PkeKept t u) : PkeKept s u :=
  ⟨h'.fails.trans h.fails, h'.loads.trans h.loads, h'.restarts.trans h.restarts, h'.caller.trans h.caller,
    h'.faults.trans h.faults, h'.recent.trans h.recent, h'.limit.trans h.limit⟩

theorem pkeKept_onEngine (s : State) (e : Nat) (f : Engine → Engine) : PkeKept s (s.onEngine e f) := by
  constructor <;> rfl

theorem pkeKept_yield (s : State) (e : Nat) (h : Option Job) : PkeKept s (s.yield e h) := by
  constructor <;> rfl

theorem pkeKept_leaveEngine (s : State) (e rid : Nat) (atYield : Bool) : PkeKept s (s.leaveEngine e rid atYield) := by
  have hdrop : PkeKept s (s.internalDrop rid) :=
    pkeKept_of_pke (State.internalDrop_field (φ := .pke) s rid (by simp))
  simp only [State.leaveEngine]
  generalize s.internalDrop rid = d at hdrop
  have hleft := hdrop.trans (pkeKept_onEngine d e fun x =>
    { x with
      current := if x.current = some rid then none else x.current
      jobs := x.jobs.map (fun j => if j.req = rid then { j with zeroing := true } else j) })
  split
  · exact hleft.trans (pkeKept_yield _ _ _)
  · split
    · exact hleft.trans (pkeKept_onEngine _ _ _)
    · exact hleft

theorem pkeKept_jobRan (s : State) (e : Nat) (q : Req) (h : Job) : PkeKept s (s.jobRan e q h) := by
  have hran : ∀ (t : State) n, PkeKept t (t.internalRan n) := fun t n =>
    pkeKept_of_pke (State.internalRan_field (φ := .pke) t n (by simp))
  refine .trans ?_ (hran _ _)
  constructor <;> rfl

theorem pkeKept_jobEnd (s : State) (e rid : Nat) (q : Req) (en : Ending) : PkeKept s (s.jobEnd e rid q en true) :=
  (pkeKept_leaveEngine s e rid true).trans <|
    (pkeKept_of_pke (State.releaseFifo_field (φ := .pke) _ q (by simp))).trans
      (pkeKept_of_pke (State.myenoEnd_field (φ := .pke) _ rid en (by simp)))

theorem State.req_leftEngine (s : State) (e rid n : Nat) (q : Req) :
    ((s.leaveEngine e rid true).releaseFifo q).req n = s.req n :=
  (req_of_field (State.releaseFifo_field (φ := .reqs) _ q (by simp)) n).trans
    (req_of_field (State.leaveEngine_field (φ := .reqs) s e rid true (by simp)) n)

theorem State.req_jobEnd (hq : s.req rid = some q) (en : Ending) :
    ∃ x, (s.jobEnd e rid q en true).req rid = some x ∧ (q.m.ending = none → x.m.ending = some en) ∧ x.outBeats = q.outBeats := by
  have hleft := (s.req_leftEngine e rid rid q).trans hq
  by_cases hend : q.m.ending = none
  · exact ⟨{ q with m := q.m.close en (q.statOf en) q.inDoneOf }, State.req_myenoEnd hleft hend en, fun _ => rfl, rfl⟩
  · refine ⟨q, ?_, fun h => absurd h hend, rfl⟩
    simp only [State.jobEnd, State.myenoEnd, hleft, Option.isSome_iff_ne_none.mpr hend, if_true]

theorem State.req_jobRan (s : State) (e n : Nat) (q : Req) (h : Job) : (s.jobRan e q h).req n = s.req n :=
  (req_of_field (State.jobCounts_field (φ := .reqs) _ q h (by simp)) n).trans
    (req_of_field (State.jobSteps_field (φ := .reqs) s e _ q h (by simp)) n)

/-- A job whose invariants are broken gives no output, and is counted. -/
def State.brokenAt (s : State) (e : Nat) (q : Req) (h : Job) : State :=
  ({ s.jobRan e q h with pke := { (s.jobRan e q h).pke with invariantFails := (s.jobRan e q h).pke.invariantFails + 1 } } :
    State).raise 0x211 e q.d.profile

theorem execPkeJobEnd_broken (he : e < 4) (hh : holderOf s e = some h) (hq : s.req h.req = some q)
    (hstop : q.m.stopAtSegment = none) (hdone : h.total ≤ h.steps + 1024) (hgood : jobRejected q h = false) :
    ∃ t x, exec (.pkeJobEnd e false) s = .next t ∧ t.pke.invariantFails = s.pke.invariantFails + 1 ∧
      t.req h.req = some x ∧ (q.m.ending = none → x.m.ending = some { st := .pkeReject, detail := 0 }) ∧
      x.outBeats = q.outBeats := by
  have hran : (s.brokenAt e q h).req h.req = some q :=
    ((req_of_field (State.raise_field (φ := .reqs) _ 0x211 e q.d.profile (by simp)) h.req).trans (s.req_jobRan e h.req q h)).trans hq
  have hfails : (s.brokenAt e q h).pke.invariantFails = s.pke.invariantFails + 1 := by
    rw [State.brokenAt, State.raise_pke, ← (pkeKept_jobRan s e q h).fails]
  obtain ⟨x, hx, hending, hout⟩ := State.req_jobEnd (e := e) hran (ends .pkeReject 0)
  refine ⟨_, x, ?_, ((pkeKept_jobEnd (s.brokenAt e q h) e h.req q (ends .pkeReject 0)).fails.trans hfails), hx, hending, hout⟩
  rw [execPkeJobEnd_ran he hh hq hstop hdone]
  simp only [hgood, Bool.not_false, Bool.false_eq_true, if_false, if_true]
  rfl

/-- The state in which a good job has its output, and has left its engine. -/
def State.jobOut (s : State) (e rid : Nat) (q : Req) (h : Job) : State :=
  ((s.pkeOutput q h).2.leaveEngine e rid true).releaseFifo q

theorem State.req_jobOut (s : State) (e rid n : Nat) (q : Req) (h : Job) : (s.jobOut e rid q h).req n = s.req n :=
  (State.req_leftEngine _ e rid n q).trans (req_of_field (State.pkeOutput_field (φ := .reqs) s q h (by simp)) n)

/-- A good job without a TARGET puts its output on the Seam. -/
theorem State.jobGood_put (hq : s.req rid = some q) (hend : q.m.ending = none) (hfifo : toFifo q.d = false)
    (htarget : routineHasTarget q.d.profile = false) :
    ∃ x, (s.jobGood e rid q h).req rid = some x ∧ x.m.ending = some { st := .ok, detail := 0 } ∧
      x.outBeats = q.outBeats ++ q.beatsOut .out (s.pkeOutput q h).1 := by
  have hleft : (s.jobOut e rid q h).req rid = some q := (s.req_jobOut e rid rid q h).trans hq
  have hput : ((s.jobOut e rid q h).onReq rid (Req.putOut (s.pkeOutput q h).1)).req rid =
      some (Req.putOut (s.pkeOutput q h).1 q) := by
    rw [State.onReq_of_req _ hleft]
    exact State.req_putReq_same _ _ _
  have hgood : s.jobGood e rid q h =
      ((s.jobOut e rid q h).onReq rid (Req.putOut (s.pkeOutput q h).1)).myenoEnd rid { st := .ok, detail := 0 } := by
    simp only [State.jobGood, htarget, State.jobRelease, hfifo, Bool.not_false, Bool.false_eq_true, if_false, if_true]
    rfl
  exact ⟨_, hgood ▸ State.req_myenoEnd hput hend { st := .ok, detail := 0 }, rfl, rfl⟩

/-- A good job with a TARGET loads it. -/
theorem State.jobGood_loads {t : State} {l : Load} (ht : t = s.jobOut e rid q h) (hl : l = targetLoad t rid q h (s.pkeOutput q h).1)
    (htarget : routineHasTarget q.d.profile = true) (hok : loadRefused t q.owner l = none) :
    (s.jobGood e rid q h).keys.slots = (t.applyLoad l).keys.slots ∧
      (s.jobGood e rid q h).pke.targetLoads = s.pke.targetLoads + 1 := by
  subst ht
  subst hl
  have hloads : ((s.jobOut e rid q h).applyLoad (targetLoad (s.jobOut e rid q h) rid q h (s.pkeOutput q h).1)).pke.targetLoads =
      s.pke.targetLoads := by
    have hout : PkeKept s (s.jobOut e rid q h) :=
      (pkeKept_of_pke (State.pkeOutput_field (φ := .pke) s q h (by simp))).trans <|
        (pkeKept_leaveEngine _ e rid true).trans
          (pkeKept_of_pke (State.releaseFifo_field (φ := .pke) _ q (by simp)))
    exact (hout.trans (pkeKept_of_pke (State.applyLoad_field (φ := .pke) _ _ (by simp)))).loads
  have hgood : s.jobGood e rid q h =
      (({ (s.jobOut e rid q h).applyLoad (targetLoad (s.jobOut e rid q h) rid q h (s.pkeOutput q h).1) with
          pke := { ((s.jobOut e rid q h).applyLoad (targetLoad (s.jobOut e rid q h) rid q h (s.pkeOutput q h).1)).pke with
            targetLoads := ((s.jobOut e rid q h).applyLoad
              (targetLoad (s.jobOut e rid q h) rid q h (s.pkeOutput q h).1)).pke.targetLoads + 1 } } : State).jobRelease rid q
        (s.pkeOutput q h).1).myenoEnd rid (ends .ok 0) := by
    simp only [State.jobOut] at hok
    simp only [State.jobGood, htarget, if_true, hok, State.jobOut]
  rw [hgood]
  constructor
  · rw [State.keys_myenoEnd_ok _ rid rfl]
    exact congrArg Keys.slots (State.jobRelease_field (φ := .keys) _ rid q _ (by simp))
  · refine ((congrArg Pke.targetLoads (State.myenoEnd_field (φ := .pke) _ rid (ends .ok 0) (by simp))).trans
      (congrArg Pke.targetLoads (State.jobRelease_field (φ := .pke) _ rid q _ (by simp)))).trans ?_
    exact congrArg (· + 1) hloads

theorem execPkeJobEnd_good (he : e < 4) (hh : holderOf s e = some h) (hq : s.req h.req = some q)
    (hstop : q.m.stopAtSegment = none) (hdone : h.total ≤ h.steps + 1024) (hgood : jobRejected q h = false) :
    exec (.pkeJobEnd e true) s = .next ((s.jobRan e q h).jobGood e h.req q h) := by
  rw [execPkeJobEnd_ran he hh hq hstop hdone]
  simp only [hgood, Bool.not_true, Bool.false_eq_true, if_false]

/-! ## A context zeroed (R392) -/

theorem execPkeContextZeroed_frees {j : Job} (he : e < 4)
    (hfind : (s.engineAt e).jobs.find? (fun j => j.req == rid && j.zeroing) = some j) :
    ∃ t, exec (.pkeContextZeroed e rid) s = .next t ∧
      (t.engineAt e).jobs = (s.engineAt e).jobs.filter (fun y => !(y.ctx == j.ctx && y.zeroing)) ∧
      t.pke.operands = s.pke.operands.set (4 * e + j.ctx) [] ∧ t.pke.areas = s.pke.areas.set (4 * e + j.ctx) [] ∧
      t.pke.threads = s.pke.threads.set (4 * e + j.ctx) [] := by
  refine ⟨((s.zeroContext e j.ctx).onEngine e (fun x =>
    { x with jobs := x.jobs.filter (fun y => !(y.ctx == j.ctx && y.zeroing)) })).engineSettle e, ?_, ?_, rfl, rfl, rfl⟩
  · simp only [exec, execPkeContextZeroed, hfind]
    exact unit_next _ he
  · rw [State.engineSettle, State.engineAt_onEngine_same, State.engineAt_onEngine_same]
    rfl

end

end

/-- Settles O26: a job at Dispatch starts at the engine chosen, the holder goes on at a yield point that no other job claims, a job's end
releases its output, loads its TARGET or rejects it, and a zeroed context is free. -/
theorem pkeJobsRunOnEngines : Obligations.PkeJobsRunOnEngines := by
  unfold Obligations.PkeJobsRunOnEngines
  refine ⟨?_, ?_, ?_, ?_⟩
  · intro s rid q hq hop hdisp hlast hpoison horder htarget htotal hfits
    refine ⟨fun hkey hcaller => ?_, fun e hkey hcaller hdraw hspace he => ?_, fun v hkey hv hopen hagain => ?_⟩
    · rw [execPkeRun_keyless hq hop hdisp hlast hpoison horder htarget htotal hfits hkey]
      simp only [State.assignEngine, hcaller, ends]
    · obtain ⟨j, hj⟩ := startJob_starts s rid e q
      refine ⟨s.startJob rid e q none, j, ?_, hj⟩
      rw [execPkeRun_keyless hq hop hdisp hlast hpoison horder htarget htotal hfits hkey,
        State.assignEngine_starts (key := none) hcaller hdraw hspace he]
    · exact execPkeRun_keyed hq hop hdisp hlast hpoison horder htarget htotal hfits hkey hv hopen hagain
  · exact fun s rid e q key hcaller hdraw hspace he => State.assignEngine_starts hcaller hdraw hspace he
  · intro s e h q he hh hq hstop
    refine ⟨fun hleft => ⟨execYieldPoint_goes he hh hq hstop hleft, fun hready hone => ?_⟩, ?_⟩
    · obtain ⟨t, ht, hcur, hsteps, hyields, hin⟩ := yieldPoint_keeps (q := q) hh hready
      exact ⟨t, ht ▸ execYieldPoint_goes he hh hq hstop hleft, hcur, hsteps, hyields, hin⟩
    · rintro s1 hdone rfl
      refine ⟨fun hrej => ?_, fun hgood => ⟨execPkeJobEnd_broken he hh hq hstop hdone hgood,
        execPkeJobEnd_good he hh hq hstop hdone hgood, fun hend hfifo htarget => ?_, ?_⟩⟩
      · rw [execPkeJobEnd_ran he hh hq hstop hdone]
        simp only [hrej, if_true]
        rfl
      · obtain ⟨x, hx⟩ := State.jobGood_put (e := e) (h := h) ((s.req_jobRan e h.req q h).trans hq) hend hfifo htarget
        exact ⟨_, x, execPkeJobEnd_good he hh hq hstop hdone hgood, hx⟩
      · intro s2 l hs2 hl htarget hok
        obtain ⟨hslots, hloads⟩ := State.jobGood_loads (s := s.jobRan e q h) hs2 hl htarget hok
        exact ⟨_, execPkeJobEnd_good he hh hq hstop hdone hgood, hslots, by rw [hloads, (pkeKept_jobRan s e q h).loads]⟩
  · exact fun s e rid j he hfind => execPkeContextZeroed_frees he hfind

end Sys2Proof.Machine
end

section
/-!
SUPPORT. Engine mismatches and retests, lockstep faults and the recovery of the Caller (O27).
-/
namespace Sys2Proof.Machine

section
variable {s : State} {e : Nat} {j : Job} {q : Req}

/-! ## A mismatch of an engine (R390) -/

theorem State.raise_waiting_kept {o : Occ} (src arg info : Nat) (ho : o ∈ s.events.waiting) :
    o ∈ (s.raise src arg info).events.waiting := by
  simp only [State.raise]
  split
  · exact ho
  · exact List.mem_append_left _ ho

theorem severityOf_engine (he : e < 4) : (severityOf (0x090 + e)).isSome = true := by
  revert e
  decide

theorem State.engineMismatch_waits (s : State) (he : e < 4) :
    { src := 0x090 + e, arg := e, info := 0, forced := false } ∈ (s.engineMismatch e).events.waiting := by
  have hraised : ∀ t : State, { src := 0x090 + e, arg := e, info := 0, forced := false } ∈
      (t.raise (0x090 + e) e 0).events.waiting := by
    intro t
    rw [State.raise_waiting t _ _ _ (severityOf_engine he), Nat.mod_eq_of_lt (show e < 2 ^ 14 by omega)]
    exact List.mem_append_right _ (List.mem_singleton.mpr rfl)
  simp only [State.engineMismatch]
  split
  · exact hraised _
  · split
    · split
      · exact State.raise_waiting_kept _ _ _ (hraised _)
      · exact hraised _
    · refine State.raise_waiting_kept _ _ _ ?_
      exact hraised _

theorem pkeKept_raise (s : State) (src arg info : Nat) : PkeKept s (s.raise src arg info) :=
  pkeKept_of_pke (State.raise_pke s src arg info)

theorem pkeKept_engineMismatch (s : State) (e : Nat) : PkeKept s (s.engineMismatch e) := by
  have hrecent : PkeKept s ((s.onEngine e (fun x =>
      { x with recent := within s.now s.tango.laneFaultWindow.toNat (s.engineAt e).recent ++ [s.now] })).raise (0x090 + e) e 0) :=
    (pkeKept_onEngine s e _).trans (pkeKept_raise _ _ _ _)
  simp only [State.engineMismatch]
  split
  · exact hrecent
  · split
    · split
      · exact hrecent.trans (pkeKept_raise _ _ _ _)
      · exact hrecent
    · refine .trans ?_ (pkeKept_raise _ _ _ _)
      exact hrecent.trans ((pkeKept_onEngine _ _ _).trans (pkeKept_onEngine _ _ _))

theorem chooseEngine_not_excluded {f : Nat} {excluded : List Nat} (hf : chooseEngine s excluded = some f) : f ∉ excluded := by
  have hpick := (foldl_pick (f := fun best e =>
    match best with
    | none => some e
    | some b => if (s.engineAt e).left < (s.engineAt b).left then some e else best)
    (by
      intro b u
      cases b with
      | none => exact .inl rfl
      | some b =>
        dsimp only
        split
        · exact .inl rfl
        · exact .inr ⟨rfl, rfl⟩)
    (((List.range 4).map (fun i => (s.pke.pointer + i) % 4)).filter (fun e =>
      engineAvail s e && decide ((s.engineAt e).jobs.length < 4) && !(excluded.contains e))) none).2 f hf
  have hin := hpick.resolve_left (by simp)
  simp only [List.mem_filter, Bool.and_eq_true, Bool.not_eq_true', List.contains_eq_mem, decide_eq_false_iff_not] at hin
  exact hin.2.2

/-- The job of a restart: from its first step, in the context of its new engine. -/
def Job.restarted (j : Job) (ctx : Nat) : Job := { j with steps := 0, passes := 0, ctx := ctx }

/-- A request whose work restarts. -/
def Req.retrying (q : Req) : Req := { q with m := { q.m with tries := q.m.tries + 1, retried := true, recovering := true } }

/-- The state in which a job has been put on another engine. -/
def State.jobMoved (s : State) (f : Nat) (j : Job) (q : Req) : State :=
  (s.enterEngine f { j with steps := 0, passes := 0 }).putReq j.req q.retrying

theorem State.restartJob_moves {f : Nat} {failing : Option Nat} (hq : s.req j.req = some q) (htries : q.m.tries < 2)
    (hf : chooseEngine s failing.toList = some f) :
    s.restartJob j failing =
      ({ s.jobMoved f j q with pke := { (s.jobMoved f j q).pke with restarts := (s.jobMoved f j q).pke.restarts + 1 } } :
        State).internalStart j.req (messageBlocks q.d.profile q.m.payload) := by
  have hentered : (s.enterEngine f { j with steps := 0, passes := 0 }).req j.req = some q :=
    (req_of_field (State.enterEngine_field (φ := .reqs) s f _ (by simp)) j.req).trans hq
  simp only [State.restartJob, hq, hf, Nat.not_le.mpr htries, if_false, State.onReq_of_req _ hentered]
  rfl

theorem State.restartJob_moved {f : Nat} {failing : Option Nat} (hq : s.req j.req = some q) (htries : q.m.tries < 2)
    (hf : chooseEngine s failing.toList = some f) :
    (s.restartJob j failing).pke.restarts = s.pke.restarts + 1 ∧
      j.restarted (s.engineAt f).freeContext ∈ ((s.restartJob j failing).engineAt f).jobs ∧
      (s.restartJob j failing).req j.req = some q.retrying ∧ (s.restartJob j failing).events = s.events := by
  rw [State.restartJob_moves hq htries hf]
  have hpke := State.internalStart_field (φ := .pke)
    ({ s.jobMoved f j q with pke := { (s.jobMoved f j q).pke with restarts := (s.jobMoved f j q).pke.restarts + 1 } } : State)
    j.req (messageBlocks q.d.profile q.m.payload) (by simp)
  refine ⟨congrArg Pke.restarts hpke, ?_, ?_, ?_⟩
  · rw [engineAt_of_pke hpke]
    show _ ∈ ((s.enterEngine f { j with steps := 0, passes := 0 }).engineAt f).jobs
    rw [(State.enterEngine_pke s f { j with steps := 0, passes := 0 }).1]
    exact List.mem_append_right _ (List.mem_singleton.mpr rfl)
  · rw [req_of_field (State.internalStart_field (φ := .reqs) _ _ _ (by simp))]
    exact State.req_putReq_same _ _ _
  · exact State.internalStart_field (φ := .events) _ _ _ (by simp)

theorem State.restartJob_stops {failing : Option Nat} (hq : s.req j.req = some q)
    (hno : 2 ≤ q.m.tries ∨ chooseEngine s failing.toList = none) :
    s.restartJob j failing = (s.releaseFifo q).retryImpossible j.req 2 := by
  by_cases htries : 2 ≤ q.m.tries
  · simp only [State.restartJob, hq, htries, if_true]
  · simp only [State.restartJob, hq, htries, if_false, hno.resolve_left htries]

/-- The state in which the job of a mismatch has left its engine. -/
def State.engineMissed (s : State) (e rid : Nat) : State := (s.leaveEngine e rid false).engineMismatch e

theorem execEngineMismatch_restarts (he : e < 4) (hh : holderOf s e = some j) :
    exec (.engineMismatch e) s = .next ((s.engineMissed e j.req).restartJob j (some e)) := by
  simp only [exec, execEngineMismatch, hh]
  exact unit_next _ he

theorem State.req_engineMissed (s : State) (e rid n : Nat) : (s.engineMissed e rid).req n = s.req n :=
  (req_of_field (State.engineMismatch_field (φ := .reqs) _ e (by simp)) n).trans
    (req_of_field (State.leaveEngine_field (φ := .reqs) s e rid false (by simp)) n)

theorem pkeKept_engineMissed (s : State) (e rid : Nat) : PkeKept s (s.engineMissed e rid) :=
  (pkeKept_leaveEngine s e rid false).trans (pkeKept_engineMismatch _ e)

/-! ## Retests (R391) -/

theorem execEngineRetest_begins (s : State) (mask : BitVec 4) :
    ∃ t, exec (.engineRetest mask) s = .next t ∧ ∀ e, t.engineAt e =
      if e < 4 ∧ mask.getLsbD e = true ∧ (s.engineAt e).state = .outOfService then { s.engineAt e with retesting := true }
      else s.engineAt e := by
  refine ⟨_, rfl, fun e => ?_⟩
  rw [foldl_each State.engineAt _
    (fun n x => if mask.getLsbD n = true ∧ x.state = .outOfService then { x with retesting := true } else x) ?_ ?_ _
    List.nodup_range]
  · simp only [List.mem_range]
    by_cases he : e < 4
    · simp only [he, if_true, true_and]
    · simp only [he, if_false, false_and]
  · intro t n
    split
    · exact State.engineAt_onEngine_same t n fun x => { x with retesting := true }
    · rfl
  · intro t n k hk
    split
    · exact State.engineAt_onEngine_other t n k _ hk
    · rfl

/-- A retest that has ended, as RETEST_FAILED shows it. -/
def State.engineRetested (s : State) (e : Nat) (passed : Bool) : State :=
  { s with pke := { s.pke with
    retestFailed := if passed then s.pke.retestFailed &&& ~~~(BitVec.twoPow 4 e) else s.pke.retestFailed ||| BitVec.twoPow 4 e } }

theorem execEngineRetestDone_passed (he : e < 4) (hretest : (s.engineAt e).retesting = true) :
    ∃ t, exec (.engineRetestDone e true) s = .next t ∧ t.pke.retestFailed.getLsbD e = false ∧
      t.engineAt e =
        { s.engineAt e with
          retesting := false, recent := [], failed := false
          state := unitStateOf (s.pke.enable.getLsbD e && unitsPowered s) false (s.engineAt e).jobs.isEmpty } := by
  refine ⟨((s.engineRetested e true).onEngine e
    (fun x => { x with retesting := false, recent := [], failed := false })).engineSettle e, ?_, ?_, ?_⟩
  · simp only [exec, execEngineRetestDone, hretest, Bool.not_true, Bool.false_eq_true, if_false]
    exact unit_next _ he
  · show (s.pke.retestFailed &&& ~~~(BitVec.twoPow 4 e)).getLsbD e = false
    simp [he]
  · rw [State.engineSettle, State.engineAt_onEngine_same, State.engineAt_onEngine_same]
    rfl

theorem execEngineRetestDone_failed (he : e < 4) (hretest : (s.engineAt e).retesting = true) :
    ∃ t, exec (.engineRetestDone e false) s = .next t ∧ t.engineAt e = { s.engineAt e with retesting := false } ∧
      t.pke.retestFailed.getLsbD e = true := by
  refine ⟨(s.engineRetested e false).onEngine e (fun x => { x with retesting := false }), ?_, ?_, ?_⟩
  · simp only [exec, execEngineRetestDone, hretest, Bool.not_true, Bool.false_eq_true, if_false]
    exact unit_next _ he
  · exact State.engineAt_onEngine_same _ _ _
  · show (s.pke.retestFailed ||| BitVec.twoPow 4 e).getLsbD e = true
    simp [he]

/-! ## Lockstep faults (R370) -/

/-- The requests of the jobs of an engine that are not being zeroed. -/
def liveJobs (t : State) (e : Nat) : List Nat := ((t.engineAt e).jobs.filter (fun j => !j.zeroing)).map Job.req

/-- What a job leaving its engine does to another job of it, its passes apart. -/
def Job.afterLeave (next : Option Nat) (rid : Nat) (j : Job) : Job :=
  let k := if j.req = rid then { j with zeroing := true } else j
  if next = some k.req ∧ !k.zeroing then { k with passes := 0 } else k

theorem Job.afterLeave_req (next : Option Nat) (rid : Nat) (j : Job) : (j.afterLeave next rid).req = j.req := by
  simp only [Job.afterLeave]
  split <;> split <;> rfl

theorem Job.afterLeave_zeroing (next : Option Nat) (rid : Nat) (j : Job) :
    (j.afterLeave next rid).zeroing = (decide (j.req = rid) || j.zeroing) := by
  simp only [Job.afterLeave]
  by_cases h : j.req = rid
  · simp [h]
  · simp only [h, if_false, decide_false, Bool.false_or]
    split <;> rfl

theorem liveJobs_afterLeave (next : Option Nat) (rid : Nat) (l : List Job) :
    ((l.map (Job.afterLeave next rid)).filter (fun j => !j.zeroing)).map Job.req =
      ((l.filter (fun j => !j.zeroing)).map Job.req).filter (fun n => decide (n ≠ rid)) := by
  induction l with
  | nil => rfl
  | cons j l ih =>
    by_cases hz : j.zeroing <;> by_cases hr : j.req = rid <;>
      simp [Job.afterLeave_zeroing, Job.afterLeave_req, hz, hr, ih]

theorem State.leaveEngine_jobs (s : State) (e rid : Nat) :
    (∃ next, ((s.leaveEngine e rid false).engineAt e).jobs = (s.engineAt e).jobs.map (Job.afterLeave next rid)) ∧
      ∀ k, k ≠ e → (s.leaveEngine e rid false).engineAt k = s.engineAt k := by
  have hdrop : (s.internalDrop rid).pke = s.pke := State.internalDrop_field (φ := .pke) s rid (by simp)
  simp only [State.leaveEngine, Bool.false_eq_true, and_false, if_false]
  generalize s.internalDrop rid = d at hdrop
  rw [← engineAt_of_pke hdrop e]
  have hother : ∀ k, d.engineAt k = s.engineAt k := engineAt_of_pke hdrop
  split
  · generalize (fewest _).map Job.req = next
    refine ⟨⟨next, ?_⟩, fun k hk => ?_⟩
    · rw [State.engineAt_onEngine_same, State.engineAt_onEngine_same]
      exact List.map_map
    · rw [State.engineAt_onEngine_other _ _ _ _ hk, State.engineAt_onEngine_other _ _ _ _ hk, hother]
  · refine ⟨⟨none, ?_⟩, fun k hk => ?_⟩
    · rw [State.engineAt_onEngine_same]
      refine List.map_congr_left fun j _ => ?_
      simp [Job.afterLeave]
    · rw [State.engineAt_onEngine_other _ _ _ _ hk, hother]

/-- A job that ends, or whose request is gone, is live no more, and no other job is touched. -/
def State.jobStopped (e : Nat) (u : State) (j : Job) : State :=
  match u.req j.req with
  | some q => u.jobEnd e j.req q (ends .internal 0x02) false
  | none => u.leaveEngine e j.req false

theorem State.jobStopped_pke (e : Nat) (u : State) (j : Job) : (u.jobStopped e j).pke = (u.leaveEngine e j.req false).pke := by
  simp only [State.jobStopped]
  split
  · exact (State.myenoEnd_field (φ := .pke) _ _ _ (by simp)).trans (State.releaseFifo_field (φ := .pke) _ _ (by simp))
  · rfl

theorem liveJobs_jobStopped (u : State) (e : Nat) (j : Job) :
    liveJobs (u.jobStopped e j) e = (liveJobs u e).filter (fun n => decide (n ≠ j.req)) := by
  obtain ⟨⟨next, hjobs⟩, -⟩ := u.leaveEngine_jobs e j.req
  rw [liveJobs, engineAt_of_pke (u.jobStopped_pke e j), hjobs, liveJobs_afterLeave]
  rfl

theorem engineAt_jobStopped_other (u : State) (e : Nat) (j : Job) {k : Nat} (hk : k ≠ e) :
    (u.jobStopped e j).engineAt k = u.engineAt k := by
  rw [engineAt_of_pke (u.jobStopped_pke e j)]
  exact (u.leaveEngine_jobs e j.req).2 k hk

theorem liveJobs_stops (e : Nat) (l : List Job) (u : State) :
    liveJobs (l.foldl (State.jobStopped e) u) e = (liveJobs u e).filter (fun n => decide (n ∉ l.map Job.req)) := by
  induction l generalizing u with
  | nil => simp
  | cons j l ih =>
    rw [List.foldl_cons, ih, liveJobs_jobStopped, List.filter_filter]
    refine List.filter_congr fun n _ => ?_
    simp [Bool.and_comm]

/-- The live jobs of an engine, ended. -/
def State.engineStopped (t : State) (e : Nat) : State :=
  ((t.engineAt e).jobs.filter (fun j => !j.zeroing)).foldl (State.jobStopped e) t

theorem State.endAllJobs_eq (s : State) : s.endAllJobs = (List.range 4).foldl State.engineStopped s := rfl

theorem liveJobs_engineStopped (t : State) (e : Nat) : liveJobs (t.engineStopped e) e = [] := by
  rw [State.engineStopped, liveJobs_stops, List.filter_eq_nil_iff]
  intro n hn
  simpa [liveJobs, and_assoc] using hn

theorem engineAt_engineStopped_other (t : State) (e : Nat) {k : Nat} (hk : k ≠ e) :
    (t.engineStopped e).engineAt k = t.engineAt k :=
  List.foldlRecOn (motive := fun u : State => u.engineAt k = t.engineAt k) _ _ rfl
    fun u hu j _ => (engineAt_jobStopped_other u e j hk).trans hu

theorem liveJobs_endAllJobs (s : State) {e : Nat} (he : e < 4) : liveJobs s.endAllJobs e = [] := by
  rw [State.endAllJobs_eq, foldl_each liveJobs State.engineStopped (fun _ _ => []) liveJobs_engineStopped
    (fun t n k hk => by rw [liveJobs, engineAt_engineStopped_other t n hk]; rfl) _ List.nodup_range]
  simp [he]

theorem pkeKept_endAllJobs (s : State) : PkeKept s s.endAllJobs := by
  refine List.foldlRecOn (motive := PkeKept s) _ _ (pkeKept_of_pke rfl) fun t ht e _ => ?_
  refine ht.trans (List.foldlRecOn (motive := PkeKept t) _ _ (pkeKept_of_pke rfl) fun u hu j _ => hu.trans ?_)
  exact (pkeKept_leaveEngine u e j.req false).trans (pkeKept_of_pke (u.jobStopped_pke e j))

/-- The Caller after a lockstep fault that it answers by recovering. -/
def State.lockstepCounted (s : State) : State :=
  let s1 := s.endAllJobs
  let s2 :=
    { s1 with
      pke := { s1.pke with
        caller := if s1.pke.caller = CallerState.ready then .recovering else s1.pke.caller
        lockstepFaults := s1.pke.lockstepFaults + 1
        lockstepRecent := (within s.now 1000 s.pke.lockstepRecent) ++ [s.now] } }
  s2.raise 0x210 s2.pke.lockstepFaults.toNat 0

theorem State.lockstepFault_eq (s : State) :
    s.lockstepFault =
      if s.pke.caller = .off ∨ s.pke.caller = .faulted then s
      else if s.pke.caller = .recovering ∧ lockstepOut s.lockstepCounted.pke then s.lockstepCounted.callerFaulted
      else s.lockstepCounted := rfl

theorem State.lockstepCounted_pke (s : State) :
    s.lockstepCounted.pke =
      { s.endAllJobs.pke with
        caller := if s.pke.caller = CallerState.ready then .recovering else s.pke.caller
        lockstepFaults := s.pke.lockstepFaults + 1
        lockstepRecent := within s.now 1000 s.pke.lockstepRecent ++ [s.now] } := by
  have hkept := pkeKept_endAllJobs s
  rw [State.lockstepCounted, State.raise_pke, ← hkept.caller, ← hkept.faults]

theorem lockstepFault_recovers (h : s.pke.caller = .ready) :
    ∃ t, exec .lockstepFault s = .next t ∧ t.pke.lockstepFaults = s.pke.lockstepFaults + 1 ∧ t.pke.caller = .recovering ∧
      t.pke.lockstepRecent = within s.now 1000 s.pke.lockstepRecent ++ [s.now] ∧
      ∀ e < 4, ∀ j ∈ (t.engineAt e).jobs, j.zeroing = true := by
  have hpke := s.lockstepCounted_pke
  refine ⟨s.lockstepCounted, ?_, by rw [hpke], by rw [hpke, h]; rfl, by rw [hpke], fun e he j hj => ?_⟩
  · simp only [exec, execLockstepFault, State.lockstepFault_eq, h, reduceCtorEq, or_self, false_and, if_false]
  · have hsame : s.lockstepCounted.engineAt e = s.endAllJobs.engineAt e := by
      rw [State.engineAt, hpke]
      rfl
    have hnone := liveJobs_endAllJobs s he
    rw [liveJobs, List.map_eq_nil_iff, List.filter_eq_nil_iff, ← hsame] at hnone
    simpa using hnone j hj

theorem lockstepFault_again (h : s.pke.caller = .recovering) :
    ∃ t, exec .lockstepFault s = .next t ∧ t.pke.lockstepFaults = s.pke.lockstepFaults + 1 ∧
      t.pke.caller =
        (if s.pke.lockstepLimit ≤ (within s.now 1000 s.pke.lockstepRecent).length + 1 then .faulted else .recovering) := by
  have hpke := s.lockstepCounted_pke
  have hout : lockstepOut s.lockstepCounted.pke =
      decide (s.pke.lockstepLimit ≤ (within s.now 1000 s.pke.lockstepRecent).length + 1) := by
    simp only [lockstepOut, hpke, (pkeKept_endAllJobs s).limit, List.length_append, List.length_singleton]
  by_cases hlimit : s.pke.lockstepLimit ≤ (within s.now 1000 s.pke.lockstepRecent).length + 1
  · refine ⟨s.lockstepCounted.callerFaulted, ?_, ?_, ?_⟩
    · simp only [exec, execLockstepFault, State.lockstepFault_eq, h, hout, hlimit, reduceCtorEq, or_self, decide_true, and_self,
        if_true, if_false]
    · rw [State.callerFaulted, State.raise_pke]
      simp only [hpke]
    · rw [State.callerFaulted, State.raise_pke, if_pos hlimit]
  · refine ⟨s.lockstepCounted, ?_, by rw [hpke], ?_⟩
    · simp only [exec, execLockstepFault, State.lockstepFault_eq, h, hout, hlimit, reduceCtorEq, or_self, decide_false,
        Bool.false_eq_true, and_false, if_false]
    · rw [hpke, if_neg hlimit, h]
      rfl

end

/-- Settles O27: a mismatch restarts the job on another engine or ends it, retests return engines or mark them, and lockstep faults recover
the Caller or leave it faulted. -/
theorem enginesAndCallerRecover : Obligations.EnginesAndCallerRecover := by
  unfold Obligations.EnginesAndCallerRecover
  refine ⟨?_, execEngineRetest_begins, ?_, ?_, ?_⟩
  · intro s e he
    refine ⟨?_, ?_⟩
    · rintro j q s1 hh hq rfl
      have hexec := execEngineMismatch_restarts he hh
      have hmissed : (s.engineMissed e j.req).req j.req = some q := (s.req_engineMissed e j.req j.req).trans hq
      refine ⟨hexec, fun f htries hf => ?_, fun hno hend => ?_⟩
      · obtain ⟨hrestarts, hjob, hreq, hevents⟩ := State.restartJob_moved (failing := some e) hmissed htries hf
        refine ⟨_, _, hexec, ?_, hjob, rfl, rfl, rfl, rfl, ?_, hreq, ?_⟩
        · rw [hrestarts, (pkeKept_engineMissed s e j.req).restarts]
        · simpa using chooseEngine_not_excluded hf
        · rw [hevents]
          exact State.engineMismatch_waits _ he
      · have hleft : ((s.engineMissed e j.req).releaseFifo q).req j.req = some q :=
          (req_of_field (State.releaseFifo_field (φ := .reqs) _ q (by simp)) j.req).trans hmissed
        obtain ⟨x, hx, hending⟩ := State.retryImpossible_ending hleft hend 2
        exact ⟨_, x, hexec, by rw [State.restartJob_stops (failing := some e) hmissed hno]; exact hx, hending⟩
    · intro hh hquiet hpowered
      simp only [exec, execEngineMismatch, hh, hquiet, hpowered, and_self, if_true]
      exact unit_next _ he
  · exact fun s e he hretest => ⟨execEngineRetestDone_passed he hretest, execEngineRetestDone_failed he hretest⟩
  · refine fun s => ⟨lockstepFault_recovers, lockstepFault_again, fun h => ?_⟩
    simp only [exec, execLockstepFault, State.lockstepFault_eq, h, if_true]
  · intro s h
    refine ⟨fun hlt => ?_, fun hle => ?_, ?_⟩
    · have hout : lockstepOut s.pke = false := by simpa [lockstepOut] using hlt
      simp only [exec, execCallerRecovered, h, hout, ne_eq, not_true_eq_false, Bool.not_false, and_self, if_false, if_true]
    · have hout : lockstepOut s.pke = true := by simpa [lockstepOut] using hle
      simp only [exec, execCallerRecovered, h, hout, ne_eq, not_true_eq_false, Bool.not_true, Bool.false_eq_true, and_false, if_false]
    · simp only [exec, execCallerRecovered, h, ne_eq, not_true_eq_false, Bool.false_eq_true, false_and, if_false,
        State.callerFaulted]

end Sys2Proof.Machine
end

section
/-!
SUPPORT. The tagged FIFOs (O28).
-/
namespace Sys2Proof.Machine

section
variable {s : State} {b : Bus} {kind o : Nat} {v : U64}

/-! ## A FIFO written -/

theorem State.fifo_putFifo (s : State) (kind o : Nat) (f : Fifo) : (s.putFifo kind o f).fifo kind o = f :=
  match kind with
  | 0 => Tab.get_set_same _ _ _ _
  | 1 => Tab.get_set_same _ _ _ _
  | 2 => Tab.get_set_same _ _ _ _
  | 3 => Tab.get_set_same _ _ _ _
  | _ + 4 => rfl

theorem fifo_of_fifos {t : State} (h : t.fifos = s.fifos) (kind o : Nat) : t.fifo kind o = s.fifo kind o := by
  unfold State.fifo
  rw [h]

theorem State.fifo_onKind (s : State) (k kind o : Nat) (f : FifoKind → FifoKind) :
    (s.onKind k f).fifo kind o = s.fifo kind o :=
  match kind with
  | 0 => rfl
  | 1 => rfl
  | 2 => rfl
  | 3 => rfl
  | _ + 4 => rfl

/-- A level check moves the level flag of a FIFO only. -/
theorem State.fifo_levelCheck (s : State) (kind o : Nat) :
    ∃ a, (s.levelCheck kind o).fifo kind o = { s.fifo kind o with aboveLevel := a } := by
  simp only [State.levelCheck]
  split
  · exact ⟨_, State.fifo_putFifo _ _ _ _⟩
  · split
    · split
      · rw [fifo_of_fifos (State.mailboxNotify_field (φ := .fifos) _ o (by simp))]
        exact ⟨_, State.fifo_putFifo _ _ _ _⟩
      · rw [fifo_of_fifos (State.raise_fifos _ _ _ _)]
        exact ⟨_, State.fifo_putFifo _ _ _ _⟩
    · exact ⟨_, State.fifo_putFifo _ _ _ _⟩

theorem State.fifo_onFifo (s : State) (kind o : Nat) (f : Fifo → Fifo) :
    ∃ a, (s.onFifo kind o f).fifo kind o = { f (s.fifo kind o) with aboveLevel := a } := by
  obtain ⟨a, h⟩ := (s.putFifo kind o (f (s.fifo kind o))).fifo_levelCheck kind o
  rw [State.fifo_putFifo] at h
  exact ⟨a, h⟩

/-! ## Reads (R443, R444) -/

theorem State.readFifo_word (s : State) (kind o : Nat) :
    (s.readFifo kind o).1 = ((s.fifo kind o).take (idleValue s kind)).word := by
  simp only [State.readFifo]
  split
  · split <;> rfl
  · rfl

/-- A read leaves of its FIFO what the take leaves, its level flag apart. -/
theorem State.readFifo_fifo (s : State) (kind o : Nat) :
    ∃ a, (s.readFifo kind o).2.fifo kind o = { ((s.fifo kind o).take (idleValue s kind)).fifo with aboveLevel := a } := by
  obtain ⟨a, h⟩ := (s.putFifo kind o ((s.fifo kind o).take (idleValue s kind)).fifo).fifo_levelCheck kind o
  rw [State.fifo_putFifo] at h
  refine ⟨a, h ▸ ?_⟩
  simp only [State.readFifo]
  split
  · split
    · rw [fifo_of_fifos (State.raise_fifos _ _ _ _), State.fifo_onKind]
    · rfl
  · rfl

/-- The state after a read of a FIFO. -/
def State.fifoRead (s : State) (kind o : Nat) : State := (s.readFifo kind o).2.readBack (s.readFifo kind o).1

theorem State.fifoRead_word (s : State) (kind o : Nat) :
    (s.fifoRead kind o).pins.htData = BitVec.ofNat 64 ((s.fifo kind o).take (idleValue s kind)).word := by
  rw [← s.readFifo_word kind o]
  rfl

theorem State.fifoRead_fifo (s : State) (kind o : Nat) :
    ∃ a, (s.fifoRead kind o).fifo kind o = { ((s.fifo kind o).take (idleValue s kind)).fifo with aboveLevel := a } := by
  obtain ⟨a, h⟩ := s.readFifo_fifo kind o
  exact ⟨a, (fifo_of_fifos (by rfl) kind o).trans h⟩

theorem Fifo.take_word {f : Fifo} {w : FifoWord} {idle : Option Nat} (hlost : f.lostPending = false) (hcount : f.count ≠ 0)
    (hw : f.kept[f.read]? = some w) (hread : f.keeps = false → f.read = 0) :
    (f.take idle).word = w.word ∧ (f.take idle).fifo.kept.drop (f.take idle).fifo.read = f.kept.drop (f.read + 1) := by
  simp only [Fifo.take, hlost, hcount, hw, Bool.false_eq_true, if_false, true_and]
  by_cases hkeeps : f.keeps = true
  · simp only [hkeeps, if_true]
  · simp only [hkeeps, if_false, Fifo.dropHead, hread (by simpa using hkeeps), Bool.false_eq_true, Nat.zero_sub, List.drop_zero]

theorem Fifo.take_empty {f : Fifo} {idle : Option Nat} (hlost : f.lostPending = false) (hcount : f.count = 0)
    (hopen : f.openAt ≠ some f.read) :
    (f.take idle).word = (idle.map (fifoWord tagIdle f.nextSeq)).getD (fifoWord tagEmpty f.nextSeq 0) := by
  unfold Fifo.take
  rw [if_neg (by simp [hlost]), if_pos hcount, if_neg hopen]
  split
  · rw [Option.map_some, Option.getD_some]
  · rw [Option.map_none, Option.getD_none]

theorem Fifo.take_lost {f : Fifo} {idle : Option Nat} (hlost : f.lostPending = true) :
    f.take idle =
      { word := fifoWord tagError f.nextSeq (errorData 0x02 0)
        fifo := { f with lostPending := false, markLost := false, marked := false }, taken := none } := by
  simp only [Fifo.take, hlost, if_true]

section
variable (hkind : hasReader kind o = 1) (ha : accepts s b (readerPage kind o) = true)
include hkind ha

theorem execFifoData_reads (halive : kind = 2 → mailboxDead s kind o = false) :
    exec (.fifoData b kind o) s = .next (s.fifoRead kind o) := by
  have hdead : ¬ (kind = 2 ∧ mailboxDead s kind o = true) := by
    rintro ⟨h, hdead⟩
    rw [halive h] at hdead
    cases hdead
  simp only [exec, execFifoData, hkind, State.pageRead_accepts _ _ _ _ ha, if_neg hdead]
  exact unit_next _ (by decide)

theorem execFifoWrite_acts {f : State → State} : unit 0 (hasReader kind o) (s.pageWrite b (readerPage kind o) f) = .next (f s) := by
  rw [State.pageWrite_accepts _ _ _ _ ha, hkind]
  exact unit_next _ (by decide)

end

theorem execPkFifoData_reads (hkind : hasReader 0 o = 1) (ha : accepts s b o = true) :
    exec (.pkFifoData b o) s = .next (s.fifoRead 0 o) := by
  simp only [exec, execPkFifoData, hkind, State.pageRead_accepts _ _ _ _ ha]
  exact unit_next _ (by decide)

/-! ## Marks (R451) -/

theorem Fifo.rewind_kept (f : Fifo) :
    f.rewind.kept = f.kept ∧ (f.markLost = true → f.rewind.lostPending = true) ∧
      (f.markLost = false → f.marked = true → f.rewind.read = 0) := by
  simp only [Fifo.rewind]
  split
  · rename_i hlost
    exact ⟨rfl, fun _ => rfl, fun h => absurd hlost (by simp [h])⟩
  · rename_i hlost
    split
    · exact ⟨rfl, fun h => absurd h hlost, fun _ _ => rfl⟩
    · rename_i hmarked
      exact ⟨rfl, fun h => absurd h hlost, fun _ h => absurd h hmarked⟩

/-! ## Sends and packets (R440, R446, R453) -/

theorem execSend_acts {f : State → State} (hkind : hasWriter kind o = 1) (ha : accepts s b (writerPage kind o) = true) :
    unit 0 (hasWriter kind o) (s.pageWrite b (writerPage kind o) f) = .next (f s) := by
  rw [State.pageWrite_accepts _ _ _ _ ha, hkind]
  exact unit_next _ (by decide)

/-- The entry that closes a packet. -/
def closingWord (f : Fifo) (tag : FifoTag) (data : BitVec 48) (i : Nat) (w : FifoWord) : FifoWord :=
  { tag := tag, seq := w.seq, data := data, bad := false, packetWords := f.kept.length - (i + 1) }

theorem Fifo.closeWith_entry {f : Fifo} {i : Nat} {w : FifoWord} (tag : FifoTag) (data : BitVec 48) (hw : f.kept[i]? = some w) :
    (f.closeWith tag data i).openAt = none ∧ (f.closeWith tag data i).kept[i]? = some (closingWord f tag data i w) := by
  obtain ⟨hi, hget⟩ := List.getElem?_eq_some_iff.mp hw
  refine ⟨rfl, ?_⟩
  simp [Fifo.closeWith, hi, hget, closingWord]

theorem State.sendWord_drops {d : BitVec 48} (hspace : (s.fifo kind o).space (fifoDepth kind) = 0) :
    ((s.sendWord kind o d).fifo kind o).kept = (s.fifo kind o).kept ∧
      ((s.sendWord kind o d).fifo kind o).sendDrops = (s.fifo kind o).sendDrops + 1 := by
  simp only [State.sendWord, hspace, or_true, if_true, State.sendDrop, State.fifo_onKind, State.fifo_putFifo, and_self]

section
variable (hdead : mailboxDead s kind o = false)
include hdead

theorem State.sendWord_appends {d : BitVec 48} (hspace : (s.fifo kind o).space (fifoDepth kind) ≠ 0) :
    ((s.sendWord kind o d).fifo kind o).kept = (s.fifo kind o).kept ++
      [{ tag := .data, seq := (s.fifo kind o).written % 4096, data := d, bad := false, packetWords := 0 }] := by
  simp only [State.sendWord, hdead, hspace, Bool.false_eq_true, or_self, if_false]
  generalize hf : (fun g : Fifo =>
    ({ g.push .data d with
      lastSent := some { tag := .data, seq := g.written % 4096, data := d, bad := false, packetWords := 0 }
      sentConsumed := false } : Fifo)) = f
  obtain ⟨a, h⟩ := s.fifo_onFifo kind o f
  rw [h, ← hf]
  rfl

theorem State.sendOpen_opens (hspace : (s.fifo kind o).space (fifoDepth kind) ≠ 0) (hopen : (s.fifo kind o).openAt = none) :
    ∃ w, ((s.sendOpen kind o).fifo kind o).openAt = some (s.fifo kind o).kept.length ∧
      ((s.sendOpen kind o).fifo kind o).kept = (s.fifo kind o).kept ++ [w] ∧ w.seq = (s.fifo kind o).written % 4096 := by
  obtain ⟨a, h⟩ := s.fifo_onFifo kind o Fifo.openPacket
  refine ⟨{ tag := .slot, seq := (s.fifo kind o).written % 4096, data := 0, bad := false, packetWords := 0 }, ?_⟩
  simp only [State.sendOpen, hdead, hspace, hopen, Bool.false_eq_true, Option.isSome_none, or_self, if_false, h, and_true]
  exact ⟨rfl, rfl⟩

section
variable {i : Nat} {w : FifoWord} (hopen : (s.fifo kind o).openAt = some i) (hw : (s.fifo kind o).kept[i]? = some w)
include hopen hw

theorem State.sendLength_closes (d : BitVec 48) :
    ((s.sendLength kind o d).fifo kind o).openAt = none ∧
      ((s.sendLength kind o d).fifo kind o).kept[i]? = some (closingWord (s.fifo kind o) .length d i w) := by
  simp only [State.sendLength, hdead, hopen, Bool.false_eq_true, if_false]
  generalize hf : (fun g : Fifo =>
    ({ g.close d with
      lastSent := some { tag := .length, seq := ((g.kept[i]?).map FifoWord.seq).getD 0, data := d,
                         bad := false, packetWords := 0 }
      sentConsumed := false } : Fifo)) = f
  obtain ⟨a, h⟩ := s.fifo_onFifo kind o f
  rw [h, ← hf]
  simp only [Fifo.close, hopen]
  exact Fifo.closeWith_entry .length d hw

theorem State.sendAbandon_closes :
    ((s.sendAbandon kind o).fifo kind o).openAt = none ∧
      ((s.sendAbandon kind o).fifo kind o).kept[i]? = some (closingWord (s.fifo kind o) .error 0 i w) := by
  simp only [State.sendAbandon, hdead, Bool.false_eq_true, if_false]
  generalize hf : (fun f : Fifo =>
      match f.openAt with
      | some i => f.closeWith .error 0 i
      | none => f) = f
  obtain ⟨a, h⟩ := s.fifo_onFifo kind o f
  rw [h, ← hf]
  simp only [hopen]
  exact Fifo.closeWith_entry .error 0 hw

end

end

end

/-- Settles O28: reads of a FIFO give its next word, EMPTY, IDLE or ERROR, marks are set, returned to and dropped, and sends and packets are
written to its end. -/
theorem fifosAreReadMarkedAndWritten : Obligations.FifosAreReadMarkedAndWritten := by
  unfold Obligations.FifosAreReadMarkedAndWritten
  refine ⟨?_, ?_⟩
  · intro s b kind o hkind ha f
    refine ⟨?_, ?_, ?_, ?_, ?_, ?_⟩
    · intro w halive hlost hcount hw hread c hc
      have hexec : exec c s = .next (s.fifoRead kind o) := by
        rcases hc with rfl | ⟨rfl, rfl⟩
        · exact execFifoData_reads hkind ha halive
        · exact execPkFifoData_reads hkind ha
      obtain ⟨hword, hdrop⟩ := Fifo.take_word (idle := idleValue s kind) hlost hcount hw hread
      obtain ⟨a, hfifo⟩ := s.fifoRead_fifo kind o
      refine ⟨_, hexec, ?_, ?_⟩
      · rw [s.fifoRead_word, hword]
      · rw [hfifo]
        exact hdrop
    · intro halive hlost hcount hopen
      refine ⟨_, execFifoData_reads hkind ha halive, ?_⟩
      rw [s.fifoRead_word, Fifo.take_empty hlost hcount hopen]
      by_cases hk : kind = 4
      · rw [if_pos hk, idleValue, if_pos hk, Option.map_some, Option.getD_some]
      · rw [if_neg hk, idleValue, if_neg hk, Option.map_none, Option.getD_none]
    · intro halive hlost
      obtain ⟨a, hfifo⟩ := s.fifoRead_fifo kind o
      rw [Fifo.take_lost hlost] at hfifo
      refine ⟨_, execFifoData_reads hkind ha halive, ?_, by rw [hfifo], by rw [hfifo]⟩
      rw [s.fifoRead_word, Fifo.take_lost hlost]
    · obtain ⟨a, hfifo⟩ := s.fifo_onFifo kind o Fifo.setMark
      refine ⟨_, execFifoWrite_acts hkind ha, ?_⟩
      rw [hfifo]
      exact ⟨rfl, rfl, rfl, Nat.sub_self _⟩
    · obtain ⟨a, hfifo⟩ := s.fifo_onFifo kind o Fifo.rewind
      refine ⟨_, execFifoWrite_acts hkind ha, ?_⟩
      rw [hfifo]
      exact f.rewind_kept
    · obtain ⟨a, hfifo⟩ := s.fifo_onFifo kind o Fifo.clearMark
      refine ⟨_, execFifoWrite_acts hkind ha, ?_⟩
      rw [hfifo]
      exact ⟨rfl, rfl, Nat.sub_self _⟩
  · intro s b kind o v hkind ha hdead f
    refine ⟨fun hspace => ⟨_, execSend_acts hkind ha, State.sendWord_appends hdead hspace⟩,
      fun hspace => ⟨_, execSend_acts hkind ha, State.sendWord_drops hspace⟩, fun hspace hopen => ?_,
      fun i w hopen hw => ⟨⟨_, execSend_acts hkind ha, State.sendLength_closes hdead hopen hw _⟩,
        ⟨_, execSend_acts hkind ha, State.sendAbandon_closes hdead hopen hw⟩⟩⟩
    obtain ⟨w, hw⟩ := State.sendOpen_opens hdead hspace hopen
    exact ⟨_, w, execSend_acts hkind ha, hw⟩

end Sys2Proof.Machine
end

section
/-!
SUPPORT. The opcodes of the association directory (O29).
-/
namespace Sys2Proof.Machine

section
variable {s : State} {rid : Nat} {q : Req} {o : Operand}

/-- A DIR opcode that has acted: its DETAIL and output, and the request over. -/
theorem State.dirFinish_over (hq : s.req rid = some q) (detail : Nat) (out : Bytes) :
    (s.dirFinish rid detail out).onReq rid (fun r => { r with stage := .over }) = s.putReq rid (q.dirDone detail out) := by
  rw [State.dirFinish, State.onReq_of_req _ hq, State.onReq_of_req _ (State.req_putReq_same _ _ _), putReq_putReq]
  rfl

theorem State.readBuckets_undamaged (h : s.memory.damages = []) (k : ExactKey) : s.readBuckets k = s := if_pos h

theorem Directory.at_put_same (d : Directory) (n : Nat) (e : Entry) : (d.put n e).at_ n = e := Tab.get_set_same _ _ _ _

/-- What a DIR opcode leaves: another directory, and the request over. -/
def State.dirActed (s : State) (rid : Nat) (q : Req) (d : Directory) (detail : Nat) : State :=
  ({ s with dir := d } : State).putReq rid (q.dirDone detail [])

theorem State.dirActed_spec (s : State) (rid : Nat) (q : Req) (d : Directory) (detail : Nat) :
    (s.dirActed rid q d detail).dir = d ∧ (s.dirActed rid q d detail).req rid = some (q.dirDone detail []) :=
  ⟨rfl, State.req_putReq_same _ _ _⟩

theorem State.dirFinish_acted (hq : s.req rid = some q) (d : Directory) (detail : Nat) :
    (({ s with dir := d } : State).dirFinish rid detail []).onReq rid (fun r => { r with stage := .over }) =
      s.dirActed rid q d detail :=
  State.dirFinish_over (s := { s with dir := d }) hq detail []

/-! ## Operand blocks that are refused (R287) -/

section
variable {detail : Nat} (hq : s.req rid = some q)
  (hbad : readOperand (s.linePort q.d.linePort) q.d q.side = none ∧ detail = 0x1F ∨
    (∃ o, readOperand (s.linePort q.d.linePort) q.d q.side = some o ∧ o.space = 1 ∧ o.family = 1 ∧
      (s.linePort q.d.linePort).espIndexed = true) ∧ detail = 0x14)
include hq hbad

theorem execDirInsert_refused (hpend : dirPending q 0x60 = true) :
    exec (.dirInsert rid) s = .next (s.putReq rid (q.dirDone detail [])) := by
  rw [← State.dirFinish_over hq]
  rcases hbad with ⟨ho, rfl⟩ | ⟨⟨o, ho, hspace, hfamily, hindexed⟩, rfl⟩
  · simp only [exec, execDirInsert, hq, hpend, ho, Bool.not_true, Bool.false_eq_true, if_false]
  · simp only [exec, execDirInsert, hq, hpend, ho, hspace, hfamily, hindexed, Bool.not_true, Bool.false_eq_true, and_self,
      if_false, if_true]

theorem execDirDelete_refused (hpend : dirPending q 0x61 = true) :
    exec (.dirDelete rid) s = .next (s.putReq rid (q.dirDone detail [])) := by
  rw [← State.dirFinish_over hq]
  rcases hbad with ⟨ho, rfl⟩ | ⟨⟨o, ho, hspace, hfamily, hindexed⟩, rfl⟩
  · simp only [exec, execDirDelete, hq, hpend, ho, Bool.not_true, Bool.false_eq_true, if_false]
  · simp only [exec, execDirDelete, hq, hpend, ho, hspace, hfamily, hindexed, Bool.not_true, Bool.false_eq_true, and_self,
      if_false, if_true]

theorem execDirLookup_refused (hpend : dirPending q 0x62 = true) :
    exec (.dirLookup rid) s = .next (s.putReq rid (q.dirDone detail (lookupResult 0 0 0 0 0 0 0 0))) := by
  rw [← State.dirFinish_over hq]
  rcases hbad with ⟨ho, rfl⟩ | ⟨⟨o, ho, hspace, hfamily, hindexed⟩, rfl⟩
  · simp only [exec, execDirLookup, hq, hpend, ho, Bool.not_true, Bool.false_eq_true, if_false]
  · simp only [exec, execDirLookup, hq, hpend, ho, hspace, hfamily, hindexed, Bool.not_true, Bool.false_eq_true, and_self,
      if_false, if_true]

end

/-! ## Exact keys (R277, R286 to R288) -/

/-- The exact key of an operand. -/
def operandKey (s : State) (q : Req) (o : Operand) : ExactKey :=
  { scope := (s.linePort q.d.linePort).scope, type := o.family, id := o.id }

/-- What the operand of an insertion names. -/
def operandTarget (q : Req) (o : Operand) : BitVec 32 := if o.cold then BitVec.ofNat 32 o.blob else q.d.handle

/-- The entry that an insertion places. -/
def insertedEntry (s : State) (q : Req) (o : Operand) : Entry :=
  { scope := (operandKey s q o).scope, type := (operandKey s q o).type, cold := o.cold, learned := false, static := o.static,
    homePort := q.d.linePort, lastHit := s.dir.tickNow, id := (operandKey s q o).id, target := operandTarget q o }

/-- An entry that an insertion replaces. -/
def replacedEntry (s : State) (q : Req) (o : Operand) (n : Nat) : Entry :=
  { s.dir.at_ n with
    target := operandTarget q o, cold := o.cold, static := o.static, homePort := q.d.linePort, lastHit := s.dir.tickNow
    learned := false }

section
variable (hq : s.req rid = some q) (hsound : s.memory.damages = [])
  (ho : readOperand (s.linePort q.d.linePort) q.d q.side = some o) (hspace : o.space = 1)
  (hport : ¬ (o.family = 1 ∧ (s.linePort q.d.linePort).espIndexed = true))
include hq hsound ho hspace hport

theorem execDirInsert_exact (hpend : dirPending q 0x60 = true) :
    exec (.dirInsert rid) s = .next (
      match s.dir.find (operandKey s q o) with
      | some n =>
        if o.replace then
          let e := s.dir.at_ n
          let s1 := if e.learned then s.addLearned e.homePort (· - 1) else s
          (({ s1 with
            dir := s1.dir.put n { e with target := operandTarget q o, cold := o.cold, static := o.static,
                                         homePort := q.d.linePort, lastHit := s1.dir.tickNow,
                                         learned := false } } : State).dirFinish rid 0x11 []).onReq rid
            (fun r => { r with stage := .over })
        else (s.dirFinish rid 0x10 []).onReq rid (fun r => { r with stage := .over })
      | none =>
        match s.dir.place (insertedEntry s q o) with
        | some (_, d') => (({ s with dir := d' } : State).dirFinish rid 0x00 []).onReq rid (fun r => { r with stage := .over })
        | none =>
          (({ s with dir := { s.dir with insertFull := s.dir.insertFull + 1 } } : State).dirFinish rid 0x12 []).onReq rid
            (fun r => { r with stage := .over })) := by
  simp only [exec, execDirInsert, hq, hpend, ho, hspace, if_neg hport, State.readBuckets_undamaged hsound, Bool.not_true,
    Bool.false_eq_true, if_false, if_true]
  rfl

theorem execDirInsert_places (hpend : dirPending q 0x60 = true) {n : Nat} {d : Directory}
    (hfind : s.dir.find (operandKey s q o) = none) (hplace : s.dir.place (insertedEntry s q o) = some (n, d)) :
    exec (.dirInsert rid) s = .next (s.dirActed rid q d 0) := by
  rw [execDirInsert_exact hq hsound ho hspace hport hpend, ← State.dirFinish_acted hq]
  simp only [hfind, hplace]

theorem execDirInsert_full (hpend : dirPending q 0x60 = true)
    (hfind : s.dir.find (operandKey s q o) = none) (hplace : s.dir.place (insertedEntry s q o) = none) :
    exec (.dirInsert rid) s = .next (s.dirActed rid q { s.dir with insertFull := s.dir.insertFull + 1 } 0x12) := by
  rw [execDirInsert_exact hq hsound ho hspace hport hpend, ← State.dirFinish_acted hq]
  simp only [hfind, hplace]

theorem execDirInsert_exists (hpend : dirPending q 0x60 = true) {n : Nat}
    (hfind : s.dir.find (operandKey s q o) = some n) (hreplace : o.replace = false) :
    exec (.dirInsert rid) s = .next (s.putReq rid (q.dirDone 0x10 [])) := by
  rw [execDirInsert_exact hq hsound ho hspace hport hpend, ← State.dirFinish_over hq]
  simp only [hfind, hreplace, Bool.false_eq_true, if_false]

theorem execDirInsert_replaces (hpend : dirPending q 0x60 = true) {n : Nat}
    (hfind : s.dir.find (operandKey s q o) = some n) (hreplace : o.replace = true) :
    ∃ d : Directory, exec (.dirInsert rid) s = .next (s.dirActed rid q d 0x11) ∧ d.at_ n = replacedEntry s q o n := by
  rw [execDirInsert_exact hq hsound ho hspace hport hpend]
  simp only [hfind, hreplace, if_true]
  split
  · refine ⟨_, congrArg Host.Outcome.next (State.dirFinish_acted hq _ _), ?_⟩
    exact Directory.at_put_same _ _ _
  · refine ⟨_, congrArg Host.Outcome.next (State.dirFinish_acted hq _ _), ?_⟩
    exact Directory.at_put_same _ _ _

theorem execDirDelete_removes (hpend : dirPending q 0x61 = true) {n : Nat} (hfind : s.dir.find (operandKey s q o) = some n) :
    ∃ d : Directory, exec (.dirDelete rid) s = .next (s.dirActed rid q d 0) ∧ d.at_ n = Entry.dflt n := by
  refine ⟨(s.removeEntry n).dir, ?_, ?_⟩
  · have hremoved : s.removeEntry n = { s with dir := (s.removeEntry n).dir } := by
      simp only [State.removeEntry]
      split <;> rfl
    rw [← State.dirFinish_acted hq, ← hremoved]
    simp only [operandKey] at hfind
    simp only [exec, execDirDelete, hq, hpend, ho, hspace, if_neg hport, State.readBuckets_undamaged hsound, hfind, Bool.not_true,
      Bool.false_eq_true, if_false, if_true]
  · simp only [State.removeEntry]
    split
    · exact Directory.at_put_same s.dir n (Entry.dflt n)
    · exact Directory.at_put_same s.dir n (Entry.dflt n)

theorem execDirDelete_absent (hpend : dirPending q 0x61 = true) (hfind : s.dir.find (operandKey s q o) = none) :
    exec (.dirDelete rid) s = .next (s.putReq rid (q.dirDone 0x13 [])) := by
  simp only [operandKey] at hfind
  rw [← State.dirFinish_over hq]
  simp only [exec, execDirDelete, hq, hpend, ho, hspace, if_neg hport, State.readBuckets_undamaged hsound, hfind, Bool.not_true,
    Bool.false_eq_true, if_false, if_true]

/-- What a lookup of an exact key reports. -/
def exactReport (s : State) (q : Req) (o : Operand) : Req :=
  match s.dir.find (operandKey s q o) with
  | some n =>
    let x := s.dir.at_ n
    q.dirDone 0 (lookupResult 1 x.type 0 (b2n x.cold + 2 * b2n x.static + 4 * b2n x.learned) x.target.toNat x.homePort
      (idle s.dir x) n)
  | none => q.dirDone 0x13 (lookupResult 0 0 0 0 0 0 0 0)

theorem execDirLookup_exact (hpend : dirPending q 0x62 = true) :
    exec (.dirLookup rid) s = .next (s.putReq rid (exactReport s q o)) := by
  simp only [exec, execDirLookup, hq, hpend, ho, hspace, if_neg hport, State.readBuckets_undamaged hsound, Bool.not_true,
    Bool.false_eq_true, if_false, if_true, exactReport, operandKey]
  cases s.dir.find { scope := (s.linePort q.d.linePort).scope, type := o.family, id := o.id } with
  | none => exact congrArg Host.Outcome.next (State.dirFinish_over hq _ _)
  | some n => exact congrArg Host.Outcome.next (State.dirFinish_over hq _ _)

end

/-! ## Prefixes (R281, R283, R287, R288) -/

/-- The prefix of an operand. -/
def operandPrefix (s : State) (q : Req) (o : Operand) : Prefix :=
  { family := o.family, scope := (s.linePort q.d.linePort).scope, bits := o.addr, len := o.len, result := q.d.handle }

/-- Whether a prefix is one of a family and a scope, and contains an address. -/
def prefixHolds (family scope addr : Nat) (p : Prefix) : Prop := p.family = family ∧ p.scope = scope ∧ p.contains addr = true

theorem longest_append (ps : List Prefix) (p : Prefix) (family scope addr : Nat) :
    longest (ps ++ [p]) family scope addr =
      if p.family = family ∧ p.scope = scope ∧ p.contains addr then
        match longest ps family scope addr with
        | none => some p
        | some b => if b.len < p.len then some p else some b
      else longest ps family scope addr := by
  simp only [longest, List.foldl_append, List.foldl_cons, List.foldl_nil]
  split
  · generalize ps.foldl _ none = best
    cases best <;> rfl
  · rfl

/-- The longest prefix is one that holds the address, none that holds it is longer, and there is none only where none holds it. -/
theorem longest_bounds (ps : List Prefix) (family scope addr : Nat) :
    (∀ x, longest ps family scope addr = some x →
      x ∈ ps ∧ prefixHolds family scope addr x ∧ ∀ y ∈ ps, prefixHolds family scope addr y → y.len ≤ x.len) ∧
      (longest ps family scope addr = none → ∀ y ∈ ps, ¬ prefixHolds family scope addr y) := by
  induction ps using List.reverseRecOn with
  | nil => simp [longest]
  | append_singleton ps p ih =>
    obtain ⟨hsome, hnone⟩ := ih
    simp only [longest_append, List.forall_mem_append, List.forall_mem_singleton]
    by_cases hp : p.family = family ∧ p.scope = scope ∧ p.contains addr
    · rw [if_pos hp]
      cases hl : longest ps family scope addr with
      | none =>
        refine ⟨fun x hx => ?_, fun h => by cases h⟩
        obtain rfl : p = x := by simpa using hx
        exact ⟨by simp, hp, fun y hy hyh => absurd hyh (hnone hl y hy), fun _ => Nat.le_refl _⟩
      | some b =>
        obtain ⟨hb, hbh, hmax⟩ := hsome b hl
        dsimp only
        split
        · rename_i hlt
          refine ⟨fun x hx => ?_, fun h => by cases h⟩
          obtain rfl : p = x := by simpa using hx
          exact ⟨by simp, hp, fun y hy hyh => (hmax y hy hyh).trans hlt.le, fun _ => Nat.le_refl _⟩
        · rename_i hlt
          refine ⟨fun x hx => ?_, fun h => by cases h⟩
          obtain rfl : b = x := by simpa using hx
          exact ⟨List.mem_append_left _ hb, hbh, hmax, fun _ => Nat.le_of_not_lt hlt⟩
    · rw [if_neg hp]
      refine ⟨fun x hx => ?_, fun h => ⟨hnone h, hp⟩⟩
      obtain ⟨hx, hxh, hmax⟩ := hsome x hx
      exact ⟨List.mem_append_left _ hx, hxh, hmax, fun h => absurd h hp⟩

theorem longest_spec {ps : List Prefix} {family scope addr : Nat} {x : Prefix} (h : longest ps family scope addr = some x) :
    x ∈ ps ∧ x.contains addr = true ∧
      ∀ y ∈ ps, y.family = family → y.scope = scope → y.contains addr = true → y.len ≤ x.len := by
  obtain ⟨hx, ⟨-, -, hcontains⟩, hmax⟩ := (longest_bounds ps family scope addr).1 x h
  exact ⟨hx, hcontains, fun y hy hf hs hc => hmax y hy ⟨hf, hs, hc⟩⟩

theorem find_samePrefix_none {p : Prefix} {ps : List Prefix} (h : ∀ x ∈ ps, samePrefix p x = false) :
    ps.find? (samePrefix p) = none := by
  rw [List.find?_eq_none]
  intro x hx
  simp [h x hx]

theorem find_samePrefix_some {p : Prefix} {ps : List Prefix} (h : ∃ x ∈ ps, samePrefix p x = true) :
    ∃ x, ps.find? (samePrefix p) = some x := by
  rw [← Option.isSome_iff_exists, List.find?_isSome]
  exact h

section
variable (hq : s.req rid = some q) (ho : readOperand (s.linePort q.d.linePort) q.d q.side = some o) (hspace : o.space ≠ 1)
include hq ho hspace

theorem execDirInsert_prefix (hpend : dirPending q 0x60 = true) :
    exec (.dirInsert rid) s = .next (
      match s.dir.prefixes.find? (samePrefix (operandPrefix s q o)) with
      | some _ =>
        if o.replace then
          (({ s with
            dir := { s.dir with
              prefixes := s.dir.prefixes.map (fun x => if samePrefix (operandPrefix s q o) x then operandPrefix s q o else x) } } :
            State).dirFinish rid 0x11 []).onReq rid (fun r => { r with stage := .over })
        else (s.dirFinish rid 0x10 []).onReq rid (fun r => { r with stage := .over })
      | none =>
        if 262144 ≤ s.dir.prefixes.length ∨ 5242880 < prefixBytes (s.dir.prefixes ++ [operandPrefix s q o]) then
          (s.dirFinish rid 0x15 []).onReq rid (fun r => { r with stage := .over })
        else
          (({ s with
            dir := { s.dir with
              prefixes := s.dir.prefixes ++ [operandPrefix s q o]
              unlinked := s.dir.unlinked.filter (fun n => !((nodesOf (operandPrefix s q o)).contains n)) } } :
            State).dirFinish rid 0x00 []).onReq rid (fun r => { r with stage := .over })) := by
  simp only [exec, execDirInsert, hq, hpend, ho, if_neg hspace, Bool.not_true, Bool.false_eq_true, if_false, operandPrefix]
  rfl

theorem execDirInsert_addsPrefix (hpend : dirPending q 0x60 = true)
    (hnone : ∀ x ∈ s.dir.prefixes, samePrefix (operandPrefix s q o) x = false) (hcount : s.dir.prefixes.length < 262144)
    (hbytes : prefixBytes (s.dir.prefixes ++ [operandPrefix s q o]) ≤ 5242880) :
    exec (.dirInsert rid) s = .next (s.dirActed rid q
      { s.dir with
        prefixes := s.dir.prefixes ++ [operandPrefix s q o]
        unlinked := s.dir.unlinked.filter (fun n => !((nodesOf (operandPrefix s q o)).contains n)) } 0) := by
  rw [execDirInsert_prefix hq ho hspace hpend, ← State.dirFinish_acted hq]
  simp only [find_samePrefix_none hnone, Nat.not_le.mpr hcount, Nat.not_lt.mpr hbytes, or_self, if_false]

theorem execDirInsert_noRoom (hpend : dirPending q 0x60 = true)
    (hnone : ∀ x ∈ s.dir.prefixes, samePrefix (operandPrefix s q o) x = false)
    (hroom : 262144 ≤ s.dir.prefixes.length ∨ 5242880 < prefixBytes (s.dir.prefixes ++ [operandPrefix s q o])) :
    exec (.dirInsert rid) s = .next (s.putReq rid (q.dirDone 0x15 [])) := by
  rw [execDirInsert_prefix hq ho hspace hpend, ← State.dirFinish_over hq]
  simp only [find_samePrefix_none hnone, if_pos hroom]

theorem execDirInsert_prefixExists (hpend : dirPending q 0x60 = true)
    (hsome : ∃ x ∈ s.dir.prefixes, samePrefix (operandPrefix s q o) x = true) (hreplace : o.replace = false) :
    exec (.dirInsert rid) s = .next (s.putReq rid (q.dirDone 0x10 [])) := by
  obtain ⟨x, hx⟩ := find_samePrefix_some hsome
  rw [execDirInsert_prefix hq ho hspace hpend, ← State.dirFinish_over hq]
  simp only [hx, hreplace, Bool.false_eq_true, if_false]

theorem execDirInsert_replacesPrefix (hpend : dirPending q 0x60 = true)
    (hsome : ∃ x ∈ s.dir.prefixes, samePrefix (operandPrefix s q o) x = true) (hreplace : o.replace = true) :
    exec (.dirInsert rid) s = .next (s.dirActed rid q
      { s.dir with
        prefixes := s.dir.prefixes.map (fun x => if samePrefix (operandPrefix s q o) x then operandPrefix s q o else x) } 0x11) := by
  obtain ⟨x, hx⟩ := find_samePrefix_some hsome
  rw [execDirInsert_prefix hq ho hspace hpend, ← State.dirFinish_acted hq]
  simp only [hx, hreplace, if_true]

theorem execDirDelete_prefix (hpend : dirPending q 0x61 = true) :
    exec (.dirDelete rid) s = .next (
      if s.dir.prefixes.any (samePrefix (operandPrefix s q o)) then
        s.dirActed rid q { s.dir with prefixes := s.dir.prefixes.filter (fun x => !samePrefix (operandPrefix s q o) x) } 0
      else s.putReq rid (q.dirDone 0x13 [])) := by
  rw [← State.dirFinish_acted hq, ← State.dirFinish_over hq]
  simp only [exec, execDirDelete, hq, hpend, ho, if_neg hspace, Bool.not_true, Bool.false_eq_true, if_false]
  rfl

theorem execDirLookup_prefix (hpend : dirPending q 0x62 = true) :
    exec (.dirLookup rid) s = .next (s.putReq rid
      (match s.dir.trieFind o.family (operandPrefix s q o).scope o.addr with
      | some x => q.dirDone 0 (lookupResult 1 x.family x.len 0 x.result.toNat 0 0 0)
      | none => q.dirDone 0x13 (lookupResult 0 0 0 0 0 0 0 0))) := by
  simp only [exec, execDirLookup, hq, hpend, ho, if_neg hspace, Bool.not_true, Bool.false_eq_true, if_false, operandPrefix]
  cases s.dir.trieFind o.family (s.linePort q.d.linePort).scope o.addr with
  | none => exact congrArg Host.Outcome.next (State.dirFinish_over hq _ _)
  | some x => exact congrArg Host.Outcome.next (State.dirFinish_over hq _ _)

end

end

/-- Settles O29: the three opcodes of the directory on exact keys and on prefixes, and the operand blocks they refuse. -/
theorem directoryOpcodesAct : Obligations.DirectoryOpcodesAct := by
  unfold Obligations.DirectoryOpcodesAct
  refine ⟨?_, ?_, ?_⟩
  · exact fun s rid q detail hq hbad =>
      ⟨execDirInsert_refused hq hbad, execDirDelete_refused hq hbad, execDirLookup_refused hq hbad⟩
  · intro s rid q o hq hsound ho hspace hport k target e
    refine ⟨fun hpend => ⟨fun n d hfind hplace => ?_, fun hfind hplace => ?_, fun n hfind => ⟨fun hreplace => ?_, fun hreplace => ?_⟩⟩,
      fun hpend => ⟨fun n hfind => ?_, fun hfind => ?_⟩, fun hpend => ?_⟩
    · exact ⟨_, execDirInsert_places hq hsound ho hspace hport hpend hfind hplace, s.dirActed_spec rid q d 0⟩
    · exact ⟨_, execDirInsert_full hq hsound ho hspace hport hpend hfind hplace, s.dirActed_spec rid q _ 0x12⟩
    · exact execDirInsert_exists hq hsound ho hspace hport hpend hfind hreplace
    · obtain ⟨d, hexec, hat⟩ := execDirInsert_replaces hq hsound ho hspace hport hpend hfind hreplace
      exact ⟨_, hexec, (s.dirActed_spec rid q d 0x11).2, hat⟩
    · obtain ⟨d, hexec, hat⟩ := execDirDelete_removes hq hsound ho hspace hport hpend hfind
      exact ⟨_, hexec, hat, (s.dirActed_spec rid q d 0).2⟩
    · exact execDirDelete_absent hq hsound ho hspace hport hpend hfind
    · exact execDirLookup_exact hq hsound ho hspace hport hpend
  · intro s rid q o hq ho hspace p
    refine ⟨fun hpend => ⟨fun hnone hcount hbytes => ?_, fun hnone hroom => ?_, fun hsome => ⟨fun hreplace => ?_, fun hreplace => ?_⟩⟩,
      fun hpend => ⟨fun hsome => ?_, fun hnone => ?_⟩, fun hpend => ⟨fun x hcut hx => ?_, fun hno => ?_⟩⟩
    · exact ⟨_, execDirInsert_addsPrefix hq ho hspace hpend hnone hcount hbytes, (s.dirActed_spec rid q _ 0).2,
        (s.dirActed_spec rid q _ 0).1⟩
    · exact execDirInsert_noRoom hq ho hspace hpend hnone hroom
    · exact execDirInsert_prefixExists hq ho hspace hpend hsome hreplace
    · exact ⟨_, execDirInsert_replacesPrefix hq ho hspace hpend hsome hreplace, (s.dirActed_spec rid q _ 0x11).2,
        (s.dirActed_spec rid q _ 0x11).1⟩
    · refine ⟨s.dirActed rid q { s.dir with prefixes := s.dir.prefixes.filter (fun x => !samePrefix (operandPrefix s q o) x) } 0,
        ?_, fun x => ?_, (s.dirActed_spec rid q _ 0).2⟩
      · exact (execDirDelete_prefix hq ho hspace hpend).trans (congrArg _ (if_pos (List.any_eq_true.mpr hsome)))
      · rw [(s.dirActed_spec rid q _ 0).1]
        simp [p, operandPrefix]
    · rw [execDirDelete_prefix hq ho hspace hpend, if_neg]
      rw [List.any_eq_true]
      rintro ⟨x, hx, hsame⟩
      exact absurd hsame (Bool.eq_false_iff.mp (hnone x hx))
    · obtain ⟨hin, hcontains, hmax⟩ := longest_spec hx
      refine ⟨hin, hcontains, hmax, ?_⟩
      have hfind : s.dir.trieFind o.family (operandPrefix s q o).scope o.addr = some x :=
        (if_neg (Bool.not_eq_true _ ▸ hcut)).trans hx
      rw [execDirLookup_prefix hq ho hspace hpend, hfind]
    · have hfind : s.dir.trieFind o.family (operandPrefix s q o).scope o.addr = none := by
        rw [Directory.trieFind]
        split
        · rfl
        · rename_i hcut
          exact hno.resolve_left hcut
      rw [execDirLookup_prefix hq ho hspace hpend, hfind]

end Sys2Proof.Machine
end

section
/-!
SUPPORT. Ageing, exception rings and the recount of learned entries (O30).
-/
namespace Sys2Proof.Machine

/-! ## The sweep (R298) -/

theorem aged_dflt (s : State) (n : Nat) : aged s (Entry.dflt n) = false := rfl

/-- What an entry is aged by: the port's limit and the tick. -/
theorem aged_congr {s t : State} (hlimit : ∀ p, (t.linePort p).ageLimit = (s.linePort p).ageLimit)
    (htick : t.dir.tickNow = s.dir.tickNow) (e : Entry) : aged t e = aged s e := by
  have hidle : idle t.dir e = idle s.dir e := by simp only [idle, htick]
  unfold aged
  rw [hlimit, hidle]

theorem State.removeEntry_kept (s : State) (n : Nat) :
    (s.removeEntry n).dir.tickNow = s.dir.tickNow ∧ (s.removeEntry n).dir.sweep = s.dir.sweep ∧
      (∀ p, ((s.removeEntry n).linePort p).ageLimit = (s.linePort p).ageLimit) ∧
      ∀ k, (s.removeEntry n).dir.at_ k = if k = n then Entry.dflt n else s.dir.at_ k := by
  have hat : ∀ k, (s.dir.put n (Entry.dflt n)).at_ k = if k = n then Entry.dflt n else s.dir.at_ k := by
    intro k
    by_cases hk : k = n
    · rw [if_pos hk, hk]
      exact Directory.at_put_same _ _ _
    · rw [if_neg hk]
      exact Tab.get_set_other Entry.dflt s.dir.exact n k (Entry.dflt n) hk
  simp only [State.removeEntry]
  split
  · refine ⟨rfl, rfl, fun p => ?_, hat⟩
    rw [State.addLearned]
    by_cases hp : p = (s.dir.at_ n).homePort
    · rw [hp, State.linePort_onLinePort_same]
      rfl
    · rw [State.linePort_onLinePort_other _ _ _ _ hp]
      rfl
  · exact ⟨rfl, rfl, fun _ => rfl, hat⟩

theorem State.sweepAgain_kept (s : State) (n : Nat) :
    (s.sweepAgain n).dir.sweep = s.dir.sweep ∧ (∀ e, aged (s.sweepAgain n) e = aged s e) ∧
      ∀ k, (s.sweepAgain n).dir.at_ k = if k = n ∧ aged s (s.dir.at_ k) = true then Entry.dflt k else s.dir.at_ k := by
  obtain ⟨htick, hsweep, hlimit, hat⟩ := s.removeEntry_kept n
  simp only [State.sweepAgain]
  split
  · rename_i haged
    refine ⟨hsweep, aged_congr hlimit htick, fun k => (hat k).trans ?_⟩
    by_cases hk : k = n
    · subst hk
      rw [if_pos rfl, if_pos ⟨rfl, haged⟩]
    · rw [if_neg hk, if_neg (fun h => hk h.1)]
  · rename_i haged
    have hkept : ∀ k, s.dir.at_ k = if k = n ∧ aged s (s.dir.at_ k) = true then Entry.dflt k else s.dir.at_ k := by
      intro k
      rw [if_neg]
      rintro ⟨rfl, h⟩
      exact haged h
    split
    · exact ⟨rfl, fun _ => rfl, hkept⟩
    · exact ⟨rfl, fun _ => rfl, hkept⟩

/-- A second reading of the entries noted removes those that are still aged. -/
theorem State.foldl_sweepAgain (l : List Nat) (s : State) :
    (l.foldl State.sweepAgain s).dir.sweep = s.dir.sweep ∧
      ∀ k, (l.foldl State.sweepAgain s).dir.at_ k =
        if k ∈ l ∧ aged s (s.dir.at_ k) = true then Entry.dflt k else s.dir.at_ k := by
  induction l generalizing s with
  | nil => simp
  | cons n l ih =>
    obtain ⟨hsweep, haged, hat⟩ := s.sweepAgain_kept n
    obtain ⟨hrest, hats⟩ := ih (s.sweepAgain n)
    refine ⟨hrest.trans hsweep, fun k => ?_⟩
    rw [List.foldl_cons, hats, haged, hat]
    by_cases hk : aged s (s.dir.at_ k) = true
    · by_cases hn : k = n
      · simp [hn ▸ hk, hn, aged_dflt]
      · simp [hn, hk]
    · simp [hk]

/-- The second reading of a bucket. -/
def State.sweptAgain (s : State) (bk : Nat) : State :=
  let mine := s.dir.sweep.filter (fun n => (waysOf bk).contains n)
  let s1 := mine.foldl State.sweepAgain s
  { s1 with dir := { s1.dir with sweep := s1.dir.sweep.filter (fun n => !(mine.contains n)) } }

theorem execSweepVisit_again {s : State} {bk : Nat} (h : bk < 131072) :
    exec (.sweepVisit ⟨bk, true⟩) s = .next (s.sweptAgain bk) := unit_next _ h

theorem State.sweptAgain_sweep (s : State) (bk n : Nat) :
    n ∈ (s.sweptAgain bk).dir.sweep ↔ n ∈ s.dir.sweep ∧ n ∉ waysOf bk := by
  have hsweep := (State.foldl_sweepAgain (s.dir.sweep.filter (fun n => (waysOf bk).contains n)) s).1
  simp only [State.sweptAgain, hsweep]
  simp only [List.mem_filter, List.contains_eq_mem, Bool.not_eq_true', decide_eq_false_iff_not, decide_eq_true_eq, not_and]
  exact and_congr_right fun h => ⟨fun hn => hn h, fun hn _ => hn⟩

theorem State.sweptAgain_at (s : State) (bk n : Nat) :
    (s.sweptAgain bk).dir.at_ n =
      if n ∈ waysOf bk ∧ n ∈ s.dir.sweep ∧ aged s (s.dir.at_ n) = true then Entry.dflt n else s.dir.at_ n := by
  refine ((State.foldl_sweepAgain (s.dir.sweep.filter (fun n => (waysOf bk).contains n)) s).2 n).trans (if_congr ?_ rfl rfl)
  simp only [List.mem_filter, List.contains_eq_mem, decide_eq_true_eq]
  tauto

/-! ## Exception rings (R294, R295) -/

section
variable {s : State} {o chan : Nat}

/-- The write of an exception ring's oldest entry. -/
def entryAsk (s : State) (o chan : Nat) (e : List Nat) : Ask :=
  { chan := chan, kind := .exceptionEntry, cls := .service, owner := o, req := 0, pair := 0, write := true
    addr := ((s.xring o).base.toNat + 32 * ((s.xring o).tail % 2 ^ (s.xring o).log2)) % 2 ^ 64, len := 32, off := 0
    data := (e.map (leBytes 8)).flatten }

/-- An exception ring whose oldest entry has been acknowledged. -/
def XRing.advanced (y : XRing) : XRing :=
  { y with waiting := y.waiting.drop 1, writing := none, tail := ptrAdd y.tail 1 y.log2 }

/-- The state after an exception ring's entry has been acknowledged. -/
def State.entryAcked (s : State) (o : Nat) (a : Acc) : State :=
  (s.taken a).onXring o (fun y => { y with waiting := y.waiting.drop 1, writing := none, tail := ptrAdd y.tail 1 y.log2 })

theorem State.xring_entryAcked (s : State) (o : Nat) (a : Acc) : (s.entryAcked o a).xring o = (s.xring o).advanced :=
  State.xring_onXring_same (s.taken a) o XRing.advanced

/-- The notification of an exception ring. -/
def xnotifyAsk (s : State) (o chan : Nat) : Ask :=
  { chan := chan, kind := .exceptionNotify, cls := .service, owner := o, req := 0, pair := 0, write := true
    addr := (s.xring o).notifyAddr.toNat, len := 4, off := 0, data := leBytes 4 (s.xring o).notifyData.toNat }

section
variable (hchan : chan < 4)
include hchan

section
variable (hnone : s.port.ended.find? (fun a => decide (a.kind = .exceptionEntry) && a.owner == o) = none)
  {e : List Nat} {rest : List (List Nat)} (hwait : (s.xring o).waiting = e :: rest) (hwriting : (s.xring o).writing = none)
include hnone hwait hwriting

theorem exceptionEntryWrite_issues (henable : (s.xring o).enable = true) (hroom : roomFor s chan 2 = true)
    (hperm : permitted s .service o true (entryAsk s o chan e).addr 32) :
    exec (.exceptionEntryWrite o chan) s =
      .next ((s.issue (entryAsk s o chan e)).2.onXring o (fun y => { y with writing := some (entryAsk s o chan e).addr })) := by
  obtain ⟨t, hissue⟩ : ∃ t, s.issue (entryAsk s o chan e) = (true, t) := ⟨_, State.issue_of_permitted hperm⟩
  rw [hissue]
  simp only [entryAsk] at hissue ⊢
  simp only [exec, execExceptionEntryWrite, State.takeEnded_none hnone, hwait, hwriting, henable, hroom, Bool.not_true,
    Bool.false_eq_true, if_false, if_true, hissue]
  exact unit_next _ hchan

theorem exceptionEntryWrite_disabled (henable : (s.xring o).enable = false) :
    exec (.exceptionEntryWrite o chan) s =
      .next (s.onXring o (fun y => { y with waiting := y.waiting.drop 1, lost := y.lost + 1 })) := by
  simp only [exec, execExceptionEntryWrite, State.takeEnded_none hnone, hwait, hwriting, henable, Bool.not_false, if_true]
  exact unit_next _ hchan

end

section
variable {a : Acc} (hfind : s.port.ended.find? (fun a => decide (a.kind = .exceptionEntry) && a.owner == o) = some a)
include hfind

theorem exceptionEntryWrite_fails (herr : a.err = true) :
    exec (.exceptionEntryWrite o chan) s = .next ((s.taken a).onXring o (fun y =>
      { y with waiting := y.waiting.drop 1, writing := none, lost := y.lost + 1 })) := by
  simp only [exec, execExceptionEntryWrite, State.takeEnded_of_find hfind, herr, if_true]
  exact unit_next _ hchan

section
variable (herr : a.err = false)
include herr

theorem exceptionEntryWrite_silent (haddr : (s.xring o).notifyAddr = 0) :
    exec (.exceptionEntryWrite o chan) s = .next (s.entryAcked o a) := by
  have hsilent : ((s.entryAcked o a).xring o).notifyAddr = 0 := by
    rw [State.xring_entryAcked]
    exact haddr
  simp only [State.entryAcked] at hsilent
  simp only [exec, execExceptionEntryWrite, State.takeEnded_of_find hfind, herr, Bool.false_eq_true, if_false, if_true, hsilent,
    State.entryAcked]
  exact unit_next _ hchan

theorem exceptionEntryWrite_notifies (haddr : (s.xring o).notifyAddr ≠ 0)
    (hperm : permitted s .service o true (s.xring o).notifyAddr.toNat 4) :
    exec (.exceptionEntryWrite o chan) s =
      .next ((s.entryAcked o a).issue (xnotifyAsk (s.entryAcked o a) o chan)).2 := by
  have hring := s.xring_entryAcked o a
  have hallowed : permitted (s.entryAcked o a) .service o true (xnotifyAsk (s.entryAcked o a) o chan).addr 4 := by
    simp only [xnotifyAsk, hring]
    exact hperm
  have hnotify : ¬ ((s.entryAcked o a).xring o).notifyAddr = 0 := by
    rw [hring]
    exact haddr
  obtain ⟨t, hissue⟩ : ∃ t, (s.entryAcked o a).issue (xnotifyAsk (s.entryAcked o a) o chan) = (true, t) :=
    ⟨_, State.issue_of_permitted hallowed⟩
  rw [hissue]
  simp only [State.entryAcked, xnotifyAsk] at hissue hnotify
  simp only [exec, execExceptionEntryWrite, State.takeEnded_of_find hfind, herr, Bool.false_eq_true, if_false, hnotify, hissue]
  exact unit_next _ hchan

end

end

end

end

/-! ## The recount of learned entries (15 R515) -/

/-- The learned entries homed at a port. -/
def homedAt (s : State) (p : Nat) : Nat :=
  (s.dir.exact.filter (fun e => e.2.type != 0 && e.2.learned && e.2.homePort == p)).length

/-- The ports that a recount sets: those of the entries, and those that have a state of their own. -/
def homePorts (s : State) : List Nat := (s.dir.exact.map (fun e => e.2.homePort)) ++ s.dir.ports.map Prod.fst

/-- A port with its learned entries counted. -/
def State.recountPort (s t : State) (p : Nat) : State := t.onLinePort p (fun l => { l with learnedCount := homedAt s p })

/-- The state after a recount. -/
def State.recounted (s : State) : State :=
  let s1 := (homePorts s).foldl s.recountPort s
  { s1 with
    dir := { s1.dir with recountDue := false }
    memory := { s1.memory with learnRecounts := s1.memory.learnRecounts + 1 } }

theorem execLearnedRecount_due {s : State} (h : s.dir.recountDue = true) : exec .learnedRecount s = .next s.recounted := by
  simp only [exec, execLearnedRecount, h, if_true]
  rfl

theorem learnedCount_foldl (s : State) (l : List Nat) (t : State) (p : Nat) :
    ((l.foldl s.recountPort t).linePort p).learnedCount = if p ∈ l then homedAt s p else (t.linePort p).learnedCount := by
  induction l generalizing t with
  | nil => simp
  | cons n l ih =>
    rw [List.foldl_cons, ih]
    by_cases hp : p ∈ l
    · simp [hp]
    · by_cases hn : p = n
      · subst hn
        rw [if_neg hp, if_pos List.mem_cons_self, State.recountPort, State.linePort_onLinePort_same]
      · rw [if_neg hp, if_neg (by simp [hp, hn]), State.recountPort, State.linePort_onLinePort_other _ _ _ _ hn]

theorem Tab.get_of_not_mem {α : Type} (d : Nat → α) {t : Tab α} {k : Nat} (h : k ∉ t.map Prod.fst) : Tab.get d t k = d k := by
  induction t with
  | nil => rfl
  | cons e t ih =>
    obtain ⟨j, v⟩ := e
    rw [List.map_cons, List.mem_cons, not_or] at h
    rw [Tab.get, if_neg (Ne.symm h.1)]
    exact ih h.2

/-- A port that no entry is homed at and that has no state of its own counts none. -/
theorem learnedCount_of_not_home {s : State} {p : Nat} (h : p ∉ homePorts s) : (s.linePort p).learnedCount = homedAt s p := by
  rw [homePorts, List.mem_append, not_or] at h
  have hport : s.linePort p = LinePort.dflt p := Tab.get_of_not_mem _ h.2
  have hnone : homedAt s p = 0 := by
    rw [homedAt, List.length_eq_zero_iff, List.filter_eq_nil_iff]
    intro e he hhome
    simp only [Bool.and_eq_true, beq_iff_eq] at hhome
    exact h.1 (List.mem_map.mpr ⟨e, he, hhome.2⟩)
  rw [hport, hnone]
  rfl

theorem State.recounted_counts (s : State) (p : Nat) : (s.recounted.linePort p).learnedCount = homedAt s p := by
  refine (learnedCount_foldl s (homePorts s) s p).trans ?_
  split
  · rfl
  · rename_i h
    exact learnedCount_of_not_home h

theorem State.recounted_memory (s : State) : s.recounted.memory.learnRecounts = s.memory.learnRecounts + 1 := by
  have hkept : ((homePorts s).foldl s.recountPort s).memory = s.memory :=
    List.foldlRecOn (motive := fun t : State => t.memory = s.memory) _ _ rfl fun _ ht _ _ => ht
  simp only [State.recounted, hkept]

/-- Settles O30: ticks, the two readings of a bucket, exception rings, and the recount of learned entries. -/
theorem directoryAgesReportsAndRecounts : Obligations.DirectoryAgesReportsAndRecounts := by
  unfold Obligations.DirectoryAgesReportsAndRecounts
  intro s
  refine ⟨rfl, fun bk hbk => ⟨unit_next _ hbk, s.sweptAgain bk, execSweepVisit_again hbk, s.sweptAgain_sweep bk,
    s.sweptAgain_at bk⟩, fun b o ha => ?_, ?_, ?_, ?_, ?_, ?_, ?_⟩
  · exact congrArg Host.Outcome.next (State.pageWrite_accepts s b o _ ha)
  · intro o chan e rest hchan hnone hwait hwriting henable hroom addr hperm
    obtain ⟨a, ha, hport⟩ := State.issue_outstanding (s := s) (k := entryAsk s o chan e)
      ((s.issue_iff _).mpr hperm)
    refine ⟨_, a, exceptionEntryWrite_issues hchan hnone hwait hwriting henable hroom hperm, congrArg Port.outstanding hport,
      ha.kind, ha.addr, ha.len, ha.data, ?_⟩
    rw [State.xring_onXring_same]
    rfl
  · exact fun o chan e rest hchan hnone hwait hwriting henable =>
      exceptionEntryWrite_disabled hchan hnone hwait hwriting henable
  · exact fun o chan a hchan hfind herr => exceptionEntryWrite_fails hchan hfind herr
  · intro o chan a hchan hfind herr haddr hperm
    have hring : (s.entryAcked o a).xring o = (s.xring o).advanced := s.xring_entryAcked o a
    obtain ⟨b, hb, hport⟩ := State.issue_outstanding (s := (s.taken a).onXring o XRing.advanced)
      (k := xnotifyAsk (s.entryAcked o a) o chan)
      ((State.issue_iff _ _).mpr (by simp only [xnotifyAsk, hring]; exact hperm))
    refine ⟨_, b, exceptionEntryWrite_notifies hchan hfind herr haddr hperm, congrArg Port.outstanding hport, hb.kind, ?_, ?_, ?_⟩
    · rw [hb.addr]
      simp only [xnotifyAsk, hring]
      rfl
    · rw [hb.data]
      simp only [xnotifyAsk, hring]
      rfl
    · have hdir : ((s.entryAcked o a).issue (xnotifyAsk (s.entryAcked o a) o chan)).2.dir =
          (s.entryAcked o a).dir := State.issue_field (φ := .dir) _ _ (by simp)
      rw [State.xring, hdir]
      exact congrArg XRing.tail hring
  · exact fun o chan a hchan hfind herr haddr => exceptionEntryWrite_silent hchan hfind herr haddr
  · exact fun h => ⟨_, execLearnedRecount_due h, rfl, s.recounted_memory, s.recounted_counts⟩

end Sys2Proof.Machine
end

section
/-!
SUPPORT. Spread rings: grants at the home, lost members, and grants at a member (O31).
-/
namespace Sys2Proof.Machine

section
variable {s : State} {rid : Nat} {q : Req}

/-! ## The gate of a spread ring (R140, R150, R600) -/

/-- A request whose turn it is at the gate of a spread ring. -/
structure grantDue (s : State) (rid : Nat) (q : Req) : Prop where
  req : s.req rid = some q
  stage : q.stage = .granted
  member : q.member = 0
  stat : q.stat = none
  first : ((before s q).any (fun x => x.stage == .granted && x.member == 0 && x.stat.isNone)) = false
  fetch : mayFetch s q.owner = true

/-- What a grant to a member does. -/
theorem execSpreadGrant_due (h : grantDue s rid q) :
    exec (.spreadGrant rid) s = .next (
      match spreadOf s (pairKey q.owner q.ring) with
      | none => s.gatherStart rid
      | some (nn, e) =>
        if e.lost.getLsbD (routeOf s e q) then s.onReq rid (Req.endLost (routeOf s e q))
        else if e.credits ≤ creditsUsed s e.key (routeOf s e q) then s
        else if routeOf s e q = 0 then (s.onSpread nn (fun x => { x with grantsSent := x.grantsSent + 1 })).gatherStart rid
        else s.grantRemote nn (routeOf s e q) rid q) := by
  obtain ⟨hq, hstage, hmember, hstat, hfirst, hfetch⟩ := h
  have hpass : ¬ (q.stage ≠ .granted ∨ q.member ≠ 0 ∨ q.stat.isSome = true ∨
      ((before s q).any (fun x => x.stage == .granted && x.member == 0 && x.stat.isNone)) = true ∨
      (!(mayFetch s q.owner)) = true) := by
    simp [hstage, hmember, hstat, hfirst, hfetch]
  simp only [exec, execSpreadGrant, hq, if_neg hpass] <;> rfl

section
variable {nn i : Nat} {e : Spread} (h : grantDue s rid q) (hspread : spreadOf s (pairKey q.owner q.ring) = some (nn, e))
  (hroute : i = routeOf s e q)
include h hspread hroute

theorem execSpreadGrant_lost (hlost : e.lost.getLsbD i = true) :
    exec (.spreadGrant rid) s = .next (s.putReq rid (q.endLost i)) := by
  subst hroute
  rw [execSpreadGrant_due h, hspread]
  simp only [hlost, if_true, State.onReq_of_req _ h.req]

section
variable (hlost : e.lost.getLsbD i = false) (hcredit : creditsUsed s e.key i < e.credits)
include hlost hcredit

theorem execSpreadGrant_home (hhome : i = 0) :
    exec (.spreadGrant rid) s =
      .next ((s.onSpread nn (fun x => { x with grantsSent := x.grantsSent + 1 })).gatherStart rid) := by
  rw [execSpreadGrant_due h, hspread]
  simp only [← hroute, hlost, Bool.false_eq_true, Nat.not_le.mpr hcredit, if_false, if_pos hhome]

theorem execSpreadGrant_remote (hremote : i ≠ 0) : exec (.spreadGrant rid) s = .next (s.grantRemote nn i rid q) := by
  rw [execSpreadGrant_due h, hspread]
  simp only [← hroute, hlost, Bool.false_eq_true, Nat.not_le.mpr hcredit, hremote, if_false]

end

end

/-- The state in which a member has the configuration that its first grant needs. -/
def State.memberConfigured (s : State) (nn i : Nat) : State :=
  if Tab.get (fun _ => 0) (s.spreadAt nn).perMember i = 0 then s.sendConfig nn i else s

theorem State.req_memberConfigured (s : State) (nn i rid : Nat) : (s.memberConfigured nn i).req rid = s.req rid := by
  simp only [State.memberConfigured]
  split
  · exact req_of_field (State.sendConfig_field (φ := .reqs) s nn i (by simp)) rid
  · rfl

theorem State.sendGrant_member (hq : s.req rid = some q) (nn i : Nat) (keyx : Bool) :
    (s.sendGrant nn i rid q keyx).req rid = some { q with member := i } := by
  simp only [State.sendGrant, State.onReq_of_req _ hq]
  rw [req_of_field (State.sendMsg_field (φ := .reqs) _ _ _ _ (by simp)),
    req_of_field (State.onSpread_field (φ := .reqs) _ _ _ (by simp))]
  exact State.req_putReq_same _ _ _

section
variable {nn i : Nat}

theorem State.grantRemote_keyless (huse : q.keyUse = 0) (hop : ¬ (q.d.opcode = 0x31 ∧ q.entry.isSome = true)) :
    s.grantRemote nn i rid q = (s.memberConfigured nn i).sendGrant nn i rid q false := by
  simp only [State.grantRemote, huse, hop, if_true, if_false]
  rfl

theorem State.grantRemote_erase (huse : q.keyUse = 0) (hop : q.d.opcode = 0x31) (hentry : q.entry.isSome = true) :
    s.grantRemote nn i rid q =
      ((s.memberConfigured nn i).onKeys (fun k =>
        { k with coldCache := k.coldCache.filter (fun x => !(x.hits q.owner (cut q.blob 0 96))) })).sendGrant nn i rid q false := by
  simp only [State.grantRemote, huse, hop, hentry, and_self, if_true]
  rfl

section
variable {s1 : State} (huse : q.keyUse ≠ 0) (hblob : q.keyUse = 2 → 96 ≤ q.inData.length)
include huse hblob

theorem State.grantRemote_keyed {k : KeyCopy} {tk : Bytes} (hkey : (s.memberConfigured nn i).grantKey q = (.ok k, s1))
    (htransport : transportKey s1 ((s.spreadAt nn).instOf i) = some tk) :
    s.grantRemote nn i rid q = (s1.sendKeyx nn ((s.spreadAt nn).instOf i) q k tk).sendGrant nn i rid q true := by
  have hread : ¬ (q.keyUse = 2 ∧ q.inData.length < 96) := fun hc => absurd (hblob hc.1) (by omega)
  simp only [State.memberConfigured] at hkey
  simp only [State.grantRemote, huse, hread, if_false, hkey, htransport]

theorem State.grantRemote_fails {x : Ending} (hkey : (s.memberConfigured nn i).grantKey q = (.error x, s1)) :
    s.grantRemote nn i rid q = s1.onReq rid (Req.endHome x) := by
  have hread : ¬ (q.keyUse = 2 ∧ q.inData.length < 96) := fun hc => absurd (hblob hc.1) (by omega)
  simp only [State.memberConfigured] at hkey
  simp only [State.grantRemote, huse, hread, if_false, hkey]

end

end

/-! ## A member lost (R151) -/

theorem Req.endLost_endLost (i : Nat) (q : Req) : (q.endLost i).endLost i = q.endLost i := by
  by_cases h : q.stat.isSome = true
  · simp [Req.endLost, h]
  · simp [Req.endLost, Req.endHome, h]

/-- A request granted to a member. -/
def grantedTo (i : Nat) (q : Req) : Prop := q.homeGrant.isNone = true ∧ q.stage = .granted ∧ q.member = i

/-- A request of the list ended, where it was granted to a member that is lost. -/
def State.losesGrant (i : Nat) (t : State) (x : Nat × Req) : State :=
  if x.2.homeGrant.isNone ∧ x.2.stage = .granted ∧ x.2.member = i then t.onReq x.1 (Req.endLost i) else t

theorem State.req_losesGrant (i : Nat) (t : State) (x : Nat × Req) (rid : Nat) :
    (t.losesGrant i x).req rid = t.req rid ∨ (t.losesGrant i x).req rid = (t.req rid).map (Req.endLost i) := by
  simp only [State.losesGrant]
  split
  · cases hx : t.req x.1 with
    | none =>
      left
      unfold State.onReq
      rw [hx]
    | some q =>
      rw [State.onReq_of_req _ hx]
      by_cases hr : rid = x.1
      · right
        rw [hr, hx, State.req_putReq_same]
        rfl
      · exact .inl (State.req_putReq_other _ _ _ _ hr)
  · exact .inl rfl

/-- Once ended with its member, a request stays so. -/
theorem State.req_losesGrants_ended (i : Nat) (l : List (Nat × Req)) (t : State) (h : t.req rid = some (q.endLost i)) :
    (l.foldl (State.losesGrant i) t).req rid = some (q.endLost i) :=
  List.foldlRecOn (motive := fun u : State => u.req rid = some (q.endLost i)) _ _ h fun u hu x _ => by
    rcases u.req_losesGrant i x rid with hx | hx
    · rw [hx, hu]
    · rw [hx, hu, Option.map_some, Req.endLost_endLost]

theorem State.req_losesGrants (i : Nat) (l : List (Nat × Req)) (t : State) (ht : t.req rid = some q) (hin : (rid, q) ∈ l)
    (hgranted : grantedTo i q) : (l.foldl (State.losesGrant i) t).req rid = some (q.endLost i) := by
  induction l generalizing t with
  | nil => exact absurd hin List.not_mem_nil
  | cons x l ih =>
    rw [List.foldl_cons]
    rcases List.mem_cons.mp hin with rfl | hin
    · refine State.req_losesGrants_ended i l _ ?_
      have hends : t.losesGrant i (rid, q) = t.putReq rid (q.endLost i) :=
        (if_pos hgranted).trans (State.onReq_of_req _ ht)
      rw [hends]
      exact State.req_putReq_same _ _ _
    · rcases t.req_losesGrant i x rid with hx | hx
      · exact ih _ (hx.trans ht) hin
      · exact State.req_losesGrants_ended i l _ (by rw [hx, ht]; rfl)

theorem mem_of_findReq {l : Tab Req} (h : findReq l rid = some q) : (rid, q) ∈ l := by
  induction l with
  | nil => cases h
  | cons e l ih =>
    obtain ⟨j, r⟩ := e
    simp only [findReq] at h
    split at h
    · rename_i hj
      cases h
      exact hj ▸ List.mem_cons_self
    · exact List.mem_cons_of_mem _ (ih h)

theorem mem_reqsOf (hq : s.req rid = some q) (hhome : q.homeGrant = none) : (rid, q) ∈ reqsOf s (pairKey q.owner q.ring) :=
  List.mem_filter.mpr ⟨mem_of_findReq hq, by simp [hhome]⟩

/-- The home of a ring one of whose members is lost. -/
def State.memberGone (s : State) (nn i : Nat) : State :=
  (reqsOf s (s.spreadAt nn).key).foldl (State.losesGrant i)
    (s.onSpread nn (fun x => { x with lost := x.lost ||| BitVec.ofNat 8 (2 ^ i), state := .degraded }))

theorem State.spreadAt_memberGone (s : State) (nn i : Nat) :
    (s.memberGone nn i).spreadAt nn =
      { s.spreadAt nn with lost := (s.spreadAt nn).lost ||| BitVec.ofNat 8 (2 ^ i), state := .degraded } := by
  have hfold : ∀ (l : List (Nat × Req)) (t : State), (l.foldl (State.losesGrant i) t).spread = t.spread := fun l t =>
    List.foldlRecOn (motive := fun u : State => u.spread = t.spread) _ _ rfl fun u hu x _ => by
      rw [State.losesGrant]
      split
      · exact (State.onReq_field (φ := .spread) u x.1 _ (by simp)).trans hu
      · exact hu
  rw [State.spreadAt, State.memberGone, hfold]
  exact State.spreadAt_onSpread_same s nn fun x => { x with lost := x.lost ||| BitVec.ofNat 8 (2 ^ i), state := .degraded }

theorem getLsbD_or_twoPow (x : BitVec 8) {i : Nat} (hi : i < 8) : (x ||| BitVec.ofNat 8 (2 ^ i)).getLsbD i = true := by
  have htwo : BitVec.ofNat 8 (2 ^ i) = BitVec.twoPow 8 i := BitVec.eq_of_toNat_eq (by simp [BitVec.toNat_twoPow])
  rw [htwo]
  simp [hi]

theorem remote_lt {e : Spread} {i : Nat} (h : i ∈ e.remote) : i < 8 := by
  simp only [Spread.remote, List.mem_filter, List.mem_range] at h
  omega

theorem execMemberLost_degrades {nn i : Nat} (hnn : nn < 16) (henable : (s.spreadAt nn).enable = true)
    (hremote : i ∈ (s.spreadAt nn).remote) (hmap : inMap s ((s.spreadAt nn).instOf i) = false)
    (hlost : (s.spreadAt nn).lost.getLsbD i = false) : exec (.memberLost nn i) s = .next (s.memberGone nn i) := by
  have hcontains : (s.spreadAt nn).remote.contains i = true := List.contains_iff_mem.mpr hremote
  simp only [exec, execMemberLost, henable, hcontains, hmap, hlost, Bool.not_true, Bool.false_eq_true, or_self, if_false]
  exact unit_next _ hnn

/-! ## Grants at a member (R143, R144) -/

/-- The request of a grant, at the member that takes it. -/
def takenReq (s : State) (r : MemberRing) (m : Msg) : Req :=
  { Req.fresh r.owner r.ring 0 r.taken (pickChannel s) (leNat (cut m.body 0 4)) r.cls with
    d := grantDesc m.body, handle := (grantDesc m.body).handle, ord := grantKeyOf (grantDesc m.body), stage := .gate
    entry := if decide (readsHandle (grantDesc m.body) = true ∧ hKind (grantDesc m.body).handle = 2) then
      some (hSlot (grantDesc m.body).handle) else none
    homeGrant := some (r.home, r.nn)
    keyx := if bit (leNat (cut m.body 8 1)) 4 then openKeyx s r.home r.nn (leNat (cut m.body 0 4)) r.owner else none }

/-- The state in which the exchange of a grant has been used. -/
def State.keyxTaken (s : State) (r : MemberRing) (m : Msg) : State :=
  s.onLink (fun l =>
    { l with keyxHeld := l.keyxHeld.filter (fun x => !(x.src == r.home && leNat (cut x.body 96 4) == leNat (cut m.body 0 4)
      && leNat (cut x.body 102 1) == r.nn)) })

theorem State.takeGrant_eq {r : MemberRing} {m : Msg} (hfree : freeReqId s = some rid) :
    s.takeGrant r m =
      if bit (leNat (cut m.body 8 1)) 4 ∧ (takenReq s r m).keyx.isNone then
        ((((s.keyxTaken r m).putReq rid ((takenReq s r m).endHome (ends .keyNotOwned 0x03))).onLink
          (fun l => { l with keyxRefused := l.keyxRefused + 1 })).raise 0x10A r.home (leNat (cut m.body 0 4)))
      else (s.keyxTaken r m).putReq rid (takenReq s r m) := by
  unfold State.takeGrant
  rw [hfree]
  rfl

section
variable {u : State} {m : Msg} {r : MemberRing} {nn : Nat}

/-- The member's ring with a grant held. -/
def State.grantHeld (u : State) (m : Msg) (nn : Nat) : State :=
  u.onMemberRing m.src nn (fun x => { x with early := x.early ++ [m] })

/-- A member's ring that holds one grant more. -/
def MemberRing.holding (r : MemberRing) (m : Msg) : MemberRing := { r with early := r.early ++ [m] }

theorem memberRing_grantHeld (hr : memberRing u m.src nn = some r) :
    memberRing (u.grantHeld m nn) m.src nn = some (r.holding m) := by
  have hfind : ∀ l : List MemberRing, l.find? (fun r => r.home == m.src && r.nn == nn) = some r →
      (l.map (fun r => if r.home = m.src ∧ r.nn = nn then { r with early := r.early ++ [m] } else r)).find?
        (fun r => r.home == m.src && r.nn == nn) = some (r.holding m) := by
    intro l
    induction l with
    | nil => simp
    | cons x l ih =>
      intro h
      by_cases hx : x.home = m.src ∧ x.nn = nn
      · obtain rfl : x = r := by simpa [hx.1, hx.2] using h
        simp [hx.1, hx.2, MemberRing.holding]
      · have hmiss : (x.home == m.src && x.nn == nn) = false := by simpa using hx
        rw [List.find?_cons, hmiss] at h
        rw [List.map_cons, if_neg hx, List.find?_cons, hmiss]
        exact ih h
  exact hfind _ hr

theorem openKeyx_grantHeld (home nn' sseq owner : Nat) :
    openKeyx (u.grantHeld m nn) home nn' sseq owner = openKeyx u home nn' sseq owner := rfl

theorem execGrant_taken (hm : s.deliverMsg m kGrant = some u) (hr : memberRing u m.src (leNat (cut m.body 8 1) % 16) = some r)
    (hearly : r.early = []) :
    exec (.grant m) s =
      .next ((u.grantHeld m (leNat (cut m.body 8 1) % 16)).takeGrants 1 m.src (leNat (cut m.body 8 1) % 16)) := by
  simp only [exec, execGrant, hm, hr, hearly, List.length_nil, Nat.zero_add]
  rfl

theorem State.req_onMemberRing (s : State) (home nn n : Nat) (f : MemberRing → MemberRing) :
    (s.onMemberRing home nn f).req n = s.req n := rfl

theorem takeGrants_held (hr : memberRing u m.src nn = some r) (hearly : r.early = [])
    (hseq : leNat (cut m.body 4 4) ≠ r.taken % 2 ^ 32) : (u.grantHeld m nn).takeGrants 1 m.src nn = u.grantHeld m nn := by
  have hfind : (r.holding m).early.find? (fun x => leNat (cut x.body 4 4) == (r.holding m).taken % 2 ^ 32) = none := by
    rw [List.find?_eq_none]
    intro x hx
    obtain rfl : x = m := by simpa [MemberRing.holding, hearly] using hx
    exact fun h => hseq (beq_iff_eq.mp h)
  simp only [State.takeGrants, memberRing_grantHeld hr]
  rw [hfind]

/-- A grant whose turn it is, taken. -/
theorem takeGrants_due (hr : memberRing u m.src nn = some r) (hearly : r.early = [])
    (hseq : leNat (cut m.body 4 4) = r.taken % 2 ^ 32) (hfree : freeReqId u = some rid) :
    (u.grantHeld m nn).takeGrants 1 m.src nn =
      ((u.grantHeld m nn).takeGrant (r.holding m) m).onMemberRing m.src nn (fun x =>
        { x with taken := x.taken + 1, early := x.early.erase m }) := by
  have hfind : (r.holding m).early.find? (fun x => leNat (cut x.body 4 4) == (r.holding m).taken % 2 ^ 32) = some m := by
    have hone : (r.holding m).early = [m] := by rw [MemberRing.holding, hearly, List.nil_append]
    rw [hone, List.find?_cons_of_pos]
    exact beq_iff_eq.mpr hseq
  have hheld : freeReqId (u.grantHeld m nn) = some rid := hfree
  simp only [State.takeGrants, memberRing_grantHeld hr, hheld]
  rw [hfind]

theorem takenReq_spec (u : State) (r : MemberRing) (m : Msg) :
    (takenReq u r m).d = grantDesc m.body ∧ (takenReq u r m).owner = r.owner ∧ (takenReq u r m).ring = r.ring ∧
      (takenReq u r m).sseq = leNat (cut m.body 0 4) ∧ (takenReq u r m).stage = .gate ∧
      (takenReq u r m).homeGrant = some (r.home, r.nn) ∧ (takenReq u r m).order = r.taken ∧
      (takenReq u r m).ord = grantKeyOf (takenReq u r m).d ∧
      (takenReq u r m).keyx =
        (if bit (leNat (cut m.body 8 1)) 4 then openKeyx u r.home r.nn (takenReq u r m).sseq r.owner else none) := by
  simp only [takenReq, Req.fresh, and_self]

section
variable (hseq : leNat (cut m.body 4 4) = r.taken % 2 ^ 32) (hfree : freeReqId u = some rid)
  (hr : memberRing u m.src nn = some r) (hearly : r.early = [])
include hseq hfree hr hearly

theorem takeGrants_enters
    (hkeyx : bit (leNat (cut m.body 8 1)) 4 = false ∨ (openKeyx u r.home r.nn (leNat (cut m.body 0 4)) r.owner).isSome = true) :
    ((u.grantHeld m nn).takeGrants 1 m.src nn).req rid = some (takenReq (u.grantHeld m nn) (r.holding m) m) := by
  have hnot : ¬ (bit (leNat (cut m.body 8 1)) 4 = true ∧ (takenReq (u.grantHeld m nn) (r.holding m) m).keyx.isNone = true) := by
    rintro ⟨hbit, hnone⟩
    simp only [takenReq, hbit, if_true, openKeyx_grantHeld] at hnone
    rcases hkeyx with hkeyx | hkeyx
    · simp [hbit] at hkeyx
    · exact absurd (Option.isNone_iff_eq_none.mp hnone) (Option.isSome_iff_ne_none.mp hkeyx)
  rw [takeGrants_due hr hearly hseq hfree, State.req_onMemberRing,
    State.takeGrant_eq (s := u.grantHeld m nn) (r := r.holding m) (m := m) hfree, if_neg hnot]
  exact State.req_putReq_same _ _ _

theorem takeGrants_refuses (hbit : bit (leNat (cut m.body 8 1)) 4 = true)
    (hopen : openKeyx u r.home r.nn (leNat (cut m.body 0 4)) r.owner = none) :
    ((u.grantHeld m nn).takeGrants 1 m.src nn).req rid =
        some ((takenReq (u.grantHeld m nn) (r.holding m) m).endHome (ends .keyNotOwned 0x03)) ∧
      ((u.grantHeld m nn).takeGrants 1 m.src nn).link.keyxRefused = u.link.keyxRefused + 1 := by
  have hrefused : bit (leNat (cut m.body 8 1)) 4 = true ∧
      (takenReq (u.grantHeld m nn) (r.holding m) m).keyx.isNone = true := by
    refine ⟨hbit, ?_⟩
    simp only [takenReq, hbit, if_true, openKeyx_grantHeld]
    exact Option.isNone_iff_eq_none.mpr hopen
  rw [takeGrants_due hr hearly hseq hfree, State.takeGrant_eq (s := u.grantHeld m nn) (r := r.holding m) (m := m) hfree,
    if_pos hrefused]
  constructor
  · rw [State.req_onMemberRing, req_of_field (State.raise_field (φ := .reqs) _ _ _ _ (by simp))]
    exact State.req_putReq_same _ _ _
  · simp only [State.onMemberRing, State.onLink, State.raise_link]
    rfl

end

end

end

/-- Settles O31: grants of a spread ring at its home, members lost, and grants taken by a member. -/
theorem spreadRingsGrantAndLose : Obligations.SpreadRingsGrantAndLose := by
  unfold Obligations.SpreadRingsGrantAndLose
  refine ⟨?_, ?_, ?_⟩
  · intro s rid q hq hstage hmember hstat hfirst hfetch
    have h : grantDue s rid q := ⟨hq, hstage, hmember, hstat, hfirst, hfetch⟩
    refine ⟨fun hnone => ?_, fun nn e i hspread hroute => ⟨execSpreadGrant_lost h hspread hroute, fun hlost hcredit =>
      ⟨execSpreadGrant_home h hspread hroute hlost hcredit, ?_⟩⟩⟩
    · rw [execSpreadGrant_due h, hnone]
    · rintro s0 hremote rfl
      have hexec := execSpreadGrant_remote h hspread hroute hlost hcredit hremote
      refine ⟨fun huse hop => ⟨?_, ?_⟩, fun huse hop hentry => ?_, fun k s1 tk huse hblob hkey htransport => ?_,
        fun x s1 huse hblob hkey => ?_⟩
      · rw [hexec, State.grantRemote_keyless huse hop]
        rfl
      · exact State.sendGrant_member ((s.req_memberConfigured nn i rid).trans hq) nn i false
      · rw [hexec, State.grantRemote_erase huse hop hentry]
        rfl
      · rw [hexec, State.grantRemote_keyed huse hblob hkey htransport]
      · rw [hexec, State.grantRemote_fails huse hblob hkey]
  · intro s nn i hnn henable hremote hmap hlost
    have hspread := s.spreadAt_memberGone nn i
    refine ⟨_, execMemberLost_degrades hnn henable hremote hmap hlost, ?_, by rw [hspread], ?_⟩
    · rw [hspread]
      exact getLsbD_or_twoPow _ (remote_lt hremote)
    · intro rid q hq hkey hhome hstage hmember
      exact State.req_losesGrants i _ _ hq (hkey ▸ mem_reqsOf hq hhome) ⟨by simp [hhome], hstage, hmember⟩
  · intro s u m r hm hr hearly
    have hexec := execGrant_taken hm hr hearly
    refine ⟨fun hseq => ?_, fun rid hseq hfree => ⟨fun hkeyx => ?_, fun hbit hopen => ?_⟩⟩
    · rw [hexec, takeGrants_held hr hearly hseq]
      rfl
    · have hspec := takenReq_spec (u.grantHeld m (leNat (cut m.body 8 1) % 16)) (r.holding m) m
      rw [openKeyx_grantHeld] at hspec
      exact ⟨_, _, hexec, takeGrants_enters hseq hfree hr hearly hkeyx, hspec⟩
    · obtain ⟨hreq, hcount⟩ := takeGrants_refuses hseq hfree hr hearly hbit hopen
      exact ⟨_, _, hexec, hreq, rfl, rfl, hcount⟩

end Sys2Proof.Machine
end

section
/-!
SUPPORT. The messages of spread rings: TOKEN, SPREAD_CTL, KEYX and KEYX_SETUP (O32).
-/
namespace Sys2Proof.Machine

section
variable {s u : State} {m : Msg}

/-! ## What a message sent leaves of the link -/

theorem memberRings_queueAt (s : State) (p : Nat) (m : Msg) : (s.queueAt p m).link.memberRings = s.link.memberRings := rfl

theorem memberRings_transmit (s : State) (m : Msg) : (s.transmit m).link.memberRings = s.link.memberRings := by
  unfold State.transmit
  split
  · exact memberRings_queueAt _ _ _
  · rfl

theorem memberRings_sendMsg (s : State) (kind dest : Nat) (body : Bytes) :
    (s.sendMsg kind dest body).link.memberRings = s.link.memberRings := by
  unfold State.sendMsg
  split
  · split
    · exact memberRings_transmit _ _
    · rfl
  · split
    · rfl
    · exact memberRings_transmit _ _

/-! ## TOKEN (R147, R151) -/

theorem execToken_lost (hm : s.deliverMsg m kToken = some u)
    (hlost : ∃ i ∈ (u.spreadAt (leNat (cut m.body 4 1))).remote, (u.spreadAt (leNat (cut m.body 4 1))).instOf i = m.src ∧
      (u.spreadAt (leNat (cut m.body 4 1))).lost.getLsbD i = true) :
    exec (.token m) s = .next (u.raise 0x108 m.src (leNat (cut m.body 0 4))) := by
  obtain ⟨i, hi, hinst, hl⟩ := hlost
  have hany : (u.spreadAt (leNat (cut m.body 4 1))).remote.any (fun i =>
      (u.spreadAt (leNat (cut m.body 4 1))).instOf i == m.src && (u.spreadAt (leNat (cut m.body 4 1))).lost.getLsbD i) = true :=
    List.any_eq_true.mpr ⟨i, hi, by simp [hinst, hl]⟩
  simp only [exec, execToken, hm, hany, if_true]

theorem execToken_comes {rid : Nat} {q : Req} (hm : s.deliverMsg m kToken = some u)
    (hkept : ∀ i ∈ (u.spreadAt (leNat (cut m.body 4 1))).remote, (u.spreadAt (leNat (cut m.body 4 1))).instOf i = m.src →
      (u.spreadAt (leNat (cut m.body 4 1))).lost.getLsbD i = false)
    (hfind : (reqsOf u (u.spreadAt (leNat (cut m.body 4 1))).key).find? (fun x =>
      x.2.homeGrant.isNone && x.2.stage == .granted && x.2.member != 0 && x.2.sseq == leNat (cut m.body 0 4)
        && x.2.stat.isNone && (u.spreadAt (leNat (cut m.body 4 1))).instOf x.2.member == m.src) = some (rid, q)) :
    exec (.token m) s = .next ((u.putReq rid (q.withToken (cut m.body 8 32))).learnCommit rid q
      ((((q.withToken (cut m.body 8 32)).stat.map (fun t => t.ending.st.good))).getD false)) := by
  have hany : (u.spreadAt (leNat (cut m.body 4 1))).remote.any (fun i =>
      (u.spreadAt (leNat (cut m.body 4 1))).instOf i == m.src && (u.spreadAt (leNat (cut m.body 4 1))).lost.getLsbD i) = false := by
    rw [List.any_eq_false]
    intro i hi hc
    simp only [Bool.and_eq_true, beq_iff_eq] at hc
    exact absurd hc.2 (by simp [hkept i hi hc.1])
  simp only [exec, execToken, hm, hany, Bool.false_eq_true, if_false, hfind]

/-! ## SPREAD_CTL (R600, R149, R469) -/

theorem execSpreadCtl_delivered (hm : s.deliverMsg m kSpreadCtl = some u) :
    exec (.spreadCtl m) s = .next (
      if leNat (cut m.body 0 1) = scConfig then u.takeConfig m (leNat (cut m.body 1 1) % 16)
      else if leNat (cut m.body 0 1) = scRelease then
        u.onLink (fun l =>
          { l with memberRings := l.memberRings.filter (fun r => !(r.home == m.src && r.nn == leNat (cut m.body 1 1) % 16)) })
      else if leNat (cut m.body 0 1) = scConfigResult then
        if leNat (cut m.body 2 2) = 0 then u
        else
          let e := u.spreadAt (leNat (cut m.body 1 1) % 16)
          let s2 := u.onSpread (leNat (cut m.body 1 1) % 16) (fun x =>
            { x with refused := x.refused ||| BitVec.ofNat 8 (2 ^ leNat (cut m.body 4 2)) })
          if (s2.ring e.key).state = .enabled ∧ e.enable then s2.ringFault e.key badConfig 0 else s2
      else if leNat (cut m.body 0 1) = scAbort then u.takeAbort m (leNat (cut m.body 1 1) % 16)
      else if leNat (cut m.body 0 1) = scAbortResult then
        u.abortOutcome m (leNat (cut m.body 1 1) % 16) (leNat (cut m.body 2 2))
      else if leNat (cut m.body 0 1) = scQuiesce then
        u.takeQuiesce m (leNat (cut m.body 1 1) % 16) (leNat (cut m.body 2 2) == 1)
      else u) := by
  simp only [exec, execSpreadCtl, hm]

/-- The rings that this instance is a member of, but for the one that a message names. -/
def otherRings (u : State) (m : Msg) (nn : Nat) : List MemberRing :=
  u.link.memberRings.filter (fun x => !(x.home == m.src && x.nn == nn))

theorem takeConfig_held {nn : Nat} (hroom : (otherRings u m nn).length < 64) :
    ∃ r, (u.takeConfig m nn).link.memberRings = otherRings u m nn ++ [r] ∧ r.home = m.src ∧ r.nn = nn ∧
      r.credits = leNat (cut m.body 8 4) ∧ r.taken = 0 ∧ r.early = [] := by
  refine ⟨{ home := m.src, nn := nn, owner := (ownerOf (leNat (cut m.body 2 2))).getD mgr, ring := fld (leNat (cut m.body 4 2)) 0 3
            cls := OrderClass.ofCode (fld (leNat (cut m.body 4 2)) 3 2), members := fld (leNat (cut m.body 4 2)) 5 4
            index := fld (leNat (cut m.body 4 2)) 9 4, credits := leNat (cut m.body 8 4), taken := 0, early := [] },
    ?_, rfl, rfl, rfl, rfl, rfl⟩
  simp only [otherRings] at hroom ⊢
  simp only [State.takeConfig, memberRings_sendMsg, hroom, decide_true, if_true, State.onLink]

theorem takeConfig_refused {nn : Nat} (hroom : 64 ≤ (otherRings u m nn).length) :
    (u.takeConfig m nn).link.memberRings = u.link.memberRings := by
  simp only [otherRings] at hroom
  simp only [State.takeConfig, memberRings_sendMsg, Nat.not_lt.mpr hroom, decide_false, Bool.false_eq_true, if_false]

/-! ## KEYX_SETUP (R601) -/

theorem setupAccepted_congr {t : State} (hids : t.link.peerIds = u.link.peerIds) (hlc : t.lc = u.lc) (b : Bytes) :
    setupAccepted t b = setupAccepted u b := by
  unfold setupAccepted
  rw [hids, hlc]

/-- The state in which an exchange's fragments have been used. -/
def State.setupTaken (u : State) (i : Nat) : State := u.onPeer i (fun p => { p with setup := [] })

theorem State.peer_onPeer (s : State) (i : Nat) (f : Peer → Peer) : (s.onPeer i f).peer i = f (s.peer i) :=
  Tab.get_upd_same _ _ _ _

/-- The state in which an accepted exchange has made its transport key. -/
def State.keyMade (u : State) (i : Nat) (b : Bytes) : State :=
  (((u.setupTaken i).onPeer i (fun p => { p with share := [] })).onLink (fun l =>
    { l with
      transportKeys := Tab.ins l.transportKeys i (makeTransportKey (u.setupTaken i) i (u.peer i).share b)
      keyxCounts := Tab.del l.keyxCounts i })).settleSpreads

theorem State.link_settleSpreads (s : State) : s.settleSpreads.link = s.link :=
  List.foldlRecOn (motive := fun t : State => t.link = s.link) _ _ rfl fun t ht n _ => by
    simp only [State.spreadSettle]
    split
    · exact ht
    · exact ht

theorem Tab.has_ins_same {α : Type} (t : Tab α) (k : Nat) (v : α) : Tab.has (Tab.ins t k v) k = true := by
  induction t with
  | nil => simp [Tab.ins, Tab.has]
  | cons e t ih =>
    obtain ⟨j, w⟩ := e
    simp only [Tab.ins]
    split
    · simp [Tab.has]
    · split <;> simp_all [Tab.has]

theorem length_setupWhole {b : Bytes} (hlast : setupLen ≤ (u.peer m.src).setup.length + 112)
    (hb : b = ((u.peer m.src).setup ++ cut m.body 8 112).take setupLen) : ¬ b.length < setupLen := by
  rw [hb, List.length_take, List.length_append, length_cut]
  omega

section
variable {b : Bytes} (hm : s.deliverMsg m kKeyxSetup = some u) (hoff : leNat (cut m.body 0 4) = (u.peer m.src).setup.length)
  (hlen : leNat (cut m.body 4 4) = setupLen)
include hm hoff hlen

theorem execKeyxSetup_fragment (hmore : (u.peer m.src).setup.length + 112 < setupLen) :
    exec (.keyxSetup m) s = .next (u.onPeer m.src (fun p => { p with setup := (u.peer m.src).setup ++ cut m.body 8 112 })) := by
  have hlength : ((u.peer m.src).setup ++ cut m.body 8 112).length = (u.peer m.src).setup.length + 112 := by simp
  have htake : ((u.peer m.src).setup ++ cut m.body 8 112).take setupLen = (u.peer m.src).setup ++ cut m.body 8 112 :=
    List.take_of_length_le (by omega)
  have hshort : ((u.peer m.src).setup ++ cut m.body 8 112).length < setupLen := by omega
  simp only [exec, execKeyxSetup, hm, hoff, hlen, ne_eq, not_true_eq_false, or_self, if_false, htake, hshort, if_true]

section
variable (hlast : setupLen ≤ (u.peer m.src).setup.length + 112)
  (hb : b = ((u.peer m.src).setup ++ cut m.body 8 112).take setupLen)
include hlast hb

theorem execKeyxSetup_refused (hbad : setupAccepted u b = false) : exec (.keyxSetup m) s = .next (u.setupTaken m.src) := by
  have hrefused : setupAccepted (u.onPeer m.src (fun p => { p with setup := [] })) b = false :=
    (setupAccepted_congr rfl rfl b).trans hbad
  simp only [exec, execKeyxSetup, hm, hoff, hlen, ne_eq, not_true_eq_false, or_self, if_false, ← hb,
    length_setupWhole hlast hb, hrefused, Bool.not_false, if_true, State.setupTaken]

theorem execKeyxSetup_accepted (hgood : setupAccepted u b = true) (hshare : (u.peer m.src).share ≠ []) :
    exec (.keyxSetup m) s = .next (u.keyMade m.src b) := by
  have haccepted : setupAccepted (u.onPeer m.src (fun p => { p with setup := [] })) b = true :=
    (setupAccepted_congr rfl rfl b).trans hgood
  have hsame : ((u.onPeer m.src (fun p => { p with setup := [] })).peer m.src).share = (u.peer m.src).share :=
    (congrArg Peer.share (State.peer_onPeer u m.src fun p => { p with setup := [] })).trans rfl
  simp only [exec, execKeyxSetup, hm, hoff, hlen, ne_eq, not_true_eq_false, or_self, if_false, ← hb,
    length_setupWhole hlast hb, haccepted, Bool.not_true, Bool.false_eq_true, hsame, hshare, State.keyMade,
    State.setupTaken]

end

end

theorem State.keyMade_peer (u : State) (i : Nat) (b : Bytes) :
    (u.keyMade i b).peer i = { u.peer i with setup := [], share := [] } := by
  rw [State.peer, State.keyMade, State.link_settleSpreads]
  refine (State.peer_onPeer (u.setupTaken i) i fun p => { p with share := [] }).trans ?_
  rw [State.setupTaken, State.peer_onPeer]

theorem State.keyMade_key (u : State) (i : Nat) (b : Bytes) :
    transportKey (u.keyMade i b) i = some (makeTransportKey u i (u.peer i).share b) := by
  have hlink : (u.keyMade i b).link.transportKeys =
      Tab.ins u.link.transportKeys i (makeTransportKey (u.setupTaken i) i (u.peer i).share b) := by
    rw [State.keyMade, State.link_settleSpreads]
    rfl
  have hkey : makeTransportKey (u.setupTaken i) i (u.peer i).share b = makeTransportKey u i (u.peer i).share b := by
    unfold makeTransportKey
    rfl
  rw [transportKey, hlink, Tab.has_ins_same, if_pos rfl, Tab.get_ins_same, hkey]

end

/-- Settles O32: tokens, the messages that keep a member's rings, held exchanges, and the exchange that makes a transport key. -/
theorem spreadMessagesBringRecordsAndKeys : Obligations.SpreadMessagesBringRecordsAndKeys := by
  unfold Obligations.SpreadMessagesBringRecordsAndKeys
  intro s u m
  refine ⟨?_, execToken_lost, fun hm => ?_, fun hm => ?_,
    execKeyxSetup_fragment, fun b hm hoff hlen hlast hb => ⟨execKeyxSetup_refused hm hoff hlen hlast hb, fun hgood hshare => ?_⟩⟩
  · intro hm nn hkept rid q hfind
    exact execToken_comes hm hkept hfind
  · have hexec := execSpreadCtl_delivered hm
    refine ⟨fun hwhat hroom => ?_, fun hwhat hroom => ?_, fun hwhat => ?_, fun hwhat hok => ?_, fun hwhat => ?_, fun hwhat => ?_,
      fun hwhat => ?_⟩
    · obtain ⟨r, hr⟩ := takeConfig_held hroom
      exact ⟨_, r, by rw [hexec, if_pos hwhat], hr⟩
    · exact ⟨_, by rw [hexec, if_pos hwhat], takeConfig_refused hroom⟩
    · rw [hexec, hwhat]
      rfl
    · rw [hexec, hwhat, hok]
      rfl
    · rw [hexec, hwhat]
      rfl
    · rw [hexec, hwhat]
      rfl
    · rw [hexec, hwhat]
      rfl
  · simp only [exec, execKeyx, hm]
  · have hpeer := u.keyMade_peer m.src b
    exact ⟨_, execKeyxSetup_accepted hm hoff hlen hlast hb hgood hshare, u.keyMade_key m.src b, by rw [hpeer], by rw [hpeer]⟩

end Sys2Proof.Machine
end

section
/-!
SUPPORT. The Promenade log (O34).
-/
namespace Sys2Proof.Machine

section
variable {s : State} {n chan : Nat}

/-- An access that reads leaves the slices. -/
theorem State.issue_read_slices (s : State) {k : Ask} (hread : k.write = false)
    (hperm : permitted s k.cls k.owner k.write k.addr k.len) : (s.issue k).2.slices = s.slices := by
  have hall := (s.issue_iff k).mpr hperm
  rw [State.issue_permits] at hall
  unfold State.issue
  simp only [List.all_map, Function.comp_def, hall, if_true]
  by_cases hs : 1 < (partsOf k.addr k.len).length
  · simp only [hs, hread, Bool.false_and, Bool.false_eq_true, if_false, decide_true, if_true]
  · simp only [hs, hread, Bool.false_and, Bool.false_eq_true, if_false, decide_false]

theorem State.slice_issue_read (s : State) {k : Ask} (hread : k.write = false)
    (hperm : permitted s k.cls k.owner k.write k.addr k.len) (n : Nat) : (s.issue k).2.slice n = s.slice n :=
  congrArg (fun x : Slices => Tab.get Slice.dflt x.tab n) (s.issue_read_slices hread hperm)

theorem State.ended_taken {a : Acc} (hend : s.port.ended = [a]) : (s.taken a).port.ended = [] := by
  simp [State.taken, hend]

section
variable (hn : n < 512)
include hn

theorem execPromEnable_starts (hoff : (s.slice n).prom.enable = false) :
    ∃ t, exec (.promEnable n true) s = .next t ∧ (t.slice n).prom.enable = true ∧ (t.slice n).prom.state = .logging ∧
      (t.slice n).prom.activeB = false ∧ (t.slice n).prom.swapDone = false := by
  refine ⟨_, unit_next _ hn, ?_⟩
  simp only [State.writePromEnable, State.slice_onSlice_same, hoff, Bool.not_true, Bool.false_eq_true, if_false, and_self]

theorem execPromEnable_stops :
    ∃ t, exec (.promEnable n false) s = .next t ∧ (t.slice n).prom.enable = false ∧ (t.slice n).prom.state = .off := by
  refine ⟨_, unit_next _ hn, ?_⟩
  simp only [State.writePromEnable, State.slice_onSlice_same, Bool.not_false, if_true, and_self]

/-- The read of the word of the oldest page waiting. -/
def pageAsk (s : State) (n chan : Nat) (x : Nat × Bool) : Ask :=
  promAsk n chan false ((s.slice n).prom.base x.2) x.1 (b2n x.2) []

/-- The state in which a page waits no more. -/
def State.pageTaken (s : State) (n : Nat) (x : Nat × Bool) : State :=
  s.onSlice n (fun q => { q with prom := { q.prom with waiting := q.prom.waiting.erase x } })

theorem execPromLogWrite_reads {x : Nat × Bool} {rest : List (Nat × Bool)} (hchan : chan < 4)
    (hwait : (s.slice n).prom.waiting = x :: rest) (hout : s.port.outstanding = []) (hend : s.port.ended = [])
    (hroom : roomFor s chan 1 = true) (hperm : permitted s .service n false (pageAsk s n chan x).addr 8) :
    ∃ t a, exec (.promLogWrite n chan) s = .next t ∧ t.port.outstanding = [a] ∧ a.kind = .promRead ∧
      a.addr = (pageAsk s n chan x).addr ∧ a.write = false ∧ (t.slice n).prom.waiting = rest ∧
      (t.slice n).prom.bitsSet = (s.slice n).prom.bitsSet + 1 := by
  have hallowed : permitted (s.pageTaken n x) (pageAsk s n chan x).cls (pageAsk s n chan x).owner (pageAsk s n chan x).write
      (pageAsk s n chan x).addr (pageAsk s n chan x).len := hperm
  have htaken : ((s.pageTaken n x).slice n).prom.waiting = rest := by
    rw [State.pageTaken, State.slice_onSlice_same]
    simp only [hwait, List.erase_cons_head]
  have hbits : ((s.pageTaken n x).slice n).prom.bitsSet = (s.slice n).prom.bitsSet := by
    rw [State.pageTaken, State.slice_onSlice_same]
  obtain ⟨a, ha, hport⟩ := State.issue_outstanding ((State.issue_iff _ _).mpr hallowed)
  have hslice := State.slice_issue_read (s.pageTaken n x) (k := pageAsk s n chan x) rfl hallowed n
  have hissue := State.issue_of_permitted hallowed
  generalize ((s.pageTaken n x).issue (pageAsk s n chan x)).2 = t at hissue hport hslice
  refine ⟨t.onSlice n (fun q => { q with prom := { q.prom with bitsSet := q.prom.bitsSet + 1 } }), a, ?_, ?_, ha.kind, ha.addr,
    ha.write, ?_, ?_⟩
  · simp only [State.pageTaken, pageAsk] at hissue
    simp only [exec, execPromLogWrite, Nat.not_le.mpr hn, if_false, State.takeEnded, hend, List.find?_nil, State.promNext, hout,
      List.nil_append, List.any_nil, hwait, Bool.not_false, List.find?_cons, hroom, Bool.not_true, Bool.false_eq_true, hissue]
    exact unit_next _ hchan
  · exact (congrArg Port.outstanding hport).trans (by simp only [State.pageTaken, State.onSlice, hout, List.nil_append])
  · rw [State.slice_onSlice_same, hslice, htaken]
  · rw [State.slice_onSlice_same, hslice, hbits]

/-- The write of a word with its page's bit set. -/
def bitAsk (s : State) (n chan : Nat) (a : Acc) : Ask :=
  promAsk n chan true ((s.slice n).prom.base (a.pair == 1)) a.off a.pair (leBytes 8 (leNat (cut a.data 0 8) ||| 2 ^ (a.off % 64)))

theorem execPromLogWrite_writes {a : Acc} (hchan : chan < 4) (hend : s.port.ended = [a]) (hkind : a.kind = .promRead)
    (howner : a.owner = n) (henable : (s.slice n).prom.enable = true) (hstate : (s.slice n).prom.state = .logging)
    (hroom : roomFor s chan 1 = true) (hperm : permitted s .service n true (bitAsk s n chan a).addr 8) :
    ∃ t b, exec (.promLogWrite n chan) s = .next t ∧ t.port.outstanding = s.port.outstanding ++ [b] ∧ t.port.ended = [] ∧
      b.kind = .promWrite ∧ b.addr = (bitAsk s n chan a).addr ∧
      b.data = leBytes 8 (leNat (cut a.data 0 8) ||| 2 ^ (a.off % 64)) := by
  have hallowed : permitted (s.taken a) (bitAsk s n chan a).cls (bitAsk s n chan a).owner (bitAsk s n chan a).write
      (bitAsk s n chan a).addr (bitAsk s n chan a).len := hperm
  obtain ⟨b, hb, hport⟩ := State.issue_outstanding ((State.issue_iff _ _).mpr hallowed)
  have hissue := State.issue_of_permitted hallowed
  have hwrite : s.takeEnded (fun a => a.kind == .promWrite && a.owner == n) = none :=
    State.takeEnded_none (by simp [hend, hkind])
  have hread : s.takeEnded (fun a => a.kind == .promRead && a.owner == n) = some (a, s.taken a) :=
    State.takeEnded_of_find (by simp [hend, hkind, howner])
  have hslice : (s.taken a).slice n = s.slice n := rfl
  generalize ((s.taken a).issue (bitAsk s n chan a)).2 = t at hissue hport
  refine ⟨t, b, ?_, congrArg Port.outstanding hport, (congrArg Port.ended hport).trans (State.ended_taken hend), hb.kind, hb.addr,
    hb.data⟩
  simp only [bitAsk] at hissue
  simp only [exec, execPromLogWrite, Nat.not_le.mpr hn, if_false, hwrite, hread, hslice, henable, hstate, reduceCtorEq, Bool.not_true,
    Bool.false_eq_true, or_self, hroom, hissue]
  exact unit_next _ hchan

theorem execPromLogWrite_acked {a : Acc} (hchan : chan < 4) (hend : s.port.ended = [a]) (hkind : a.kind = .promWrite)
    (howner : a.owner = n) : exec (.promLogWrite n chan) s = .next (s.taken a) := by
  have hwrite : s.takeEnded (fun a => a.kind == .promWrite && a.owner == n) = some (a, s.taken a) :=
    State.takeEnded_of_find (by simp [hend, hkind, howner])
  simp only [exec, execPromLogWrite, Nat.not_le.mpr hn, if_false, hwrite]
  exact unit_next _ hchan

theorem execPromSwap_refused (hstate : (s.slice n).prom.state ≠ .logging) : exec (.promSwap n) s = .next s := by
  simp only [exec, execPromSwap, State.promSwap, if_pos hstate]
  exact unit_next _ hn

theorem execPromSwap_swaps (hstate : (s.slice n).prom.state = .logging) :
    ∃ t, exec (.promSwap n) s = .next t ∧ (t.slice n).prom.activeB = !(s.slice n).prom.activeB ∧
      (t.slice n).prom.state = .swapping ∧ (t.slice n).prom.swapDone = false := by
  refine ⟨_, unit_next _ hn, ?_⟩
  simp only [State.promSwap, hstate, ne_eq, not_true_eq_false, if_false, State.slice_onSlice_same, and_self]

theorem execPromSwapDone_done (hstate : (s.slice n).prom.state = .swapping) (hout : s.port.outstanding = [])
    (hend : s.port.ended = []) (hwait : (s.slice n).prom.waiting = []) :
    ∃ t, exec (.promSwapDone n) s = .next t ∧ (t.slice n).prom.state = .logging ∧ (t.slice n).prom.swapDone = true := by
  refine ⟨_, unit_next _ hn, ?_⟩
  simp only [hstate, hout, hend, hwait, List.any_nil, ne_eq, not_true_eq_false, Bool.false_eq_true, Bool.or_false, or_self, if_false,
    State.slice_onSlice_same, and_self]

end

end

/-- Settles O34: a log starts and stops, its words are read and written back, and a swap begins and is done. -/
theorem promenadeLogsAndSwaps : Obligations.PromenadeLogsAndSwaps := by
  unfold Obligations.PromenadeLogsAndSwaps
  intro s n hn p
  refine ⟨execPromEnable_starts hn, execPromEnable_stops hn, ?_, ?_,
    fun chan a hchan hend hkind howner => execPromLogWrite_acked hn hchan hend hkind howner,
    execPromSwap_refused hn, execPromSwap_swaps hn, execPromSwapDone_done hn⟩
  · intro chan i b rest hchan hwait hout hend hroom addr hperm
    exact execPromLogWrite_reads (x := (i, b)) hn hchan hwait hout hend hroom hperm
  · intro chan a hchan hend hkind howner henable hstate hroom addr hperm
    exact execPromLogWrite_writes hn hchan hend hkind howner henable hstate hroom hperm

end Sys2Proof.Machine
end

section
/-!
SUPPORT. Rule commits (O35), and the scrubber, the injection and the seal digest (O36).
-/
namespace Sys2Proof.Machine

section
variable {s : State}

/-! ## Rule commits (R499 to R503) -/

theorem execCommitValidated_passes (hstate : s.access.commitState = .validating) (hnot : s.access.validated = false)
    (hcheck : commitCheck s = none) :
    exec .commitValidated s = .next { s with access := { s.access with
      validated := true, commitState := if s.access.epochDrained then .validating else .waiting } } := by
  simp only [exec, execCommitValidated, hstate, hnot, hcheck, ne_eq, not_true_eq_false, Bool.false_eq_true, or_self, if_false,
    State.onAccess]

theorem execCommitValidated_refuses {c : CommitStatus} {f : Nat} (hstate : s.access.commitState = .validating)
    (hnot : s.access.validated = false) (hcheck : commitCheck s = some (c, f)) :
    ∃ t, exec .commitValidated s = .next t ∧ t.access = { s.access with
      commitState := .idle, commitStatus := c, commitFault := BitVec.ofNat 32 f, commitsRefused := s.access.commitsRefused + 1 } ∧
      waits t 0x16D := by
  refine ⟨(s.onAccess (fun a =>
    { a with
      commitState := .idle, commitStatus := c, commitFault := BitVec.ofNat 32 f
      commitsRefused := a.commitsRefused + 1 })).raise 0x16D c.code f, ?_, ?_, State.raise_waits _ _ _ _ (by decide)⟩
  · simp only [exec, execCommitValidated, hstate, hnot, hcheck, ne_eq, not_true_eq_false, Bool.false_eq_true, or_self, if_false]
  · rw [State.raise_access]
    rfl

/-- The state in which the staged copy is in force. -/
def State.switched (s : State) : State :=
  s.onAccess (fun a =>
    { a with
      inForce := a.staged, winInForce := a.stagedWin, commitState := .idle, commitStatus := .done, validated := false
      epochNow := s.access.epochNow + 1, epochDrained := s.port.outstanding.isEmpty, warned := false, commits := a.commits + 1 })

theorem execEpochSwitch_switches (hstate : s.access.commitState ≠ .idle) (hvalid : s.access.validated = true)
    (hdrained : s.access.epochDrained = true) :
    exec .epochSwitch s = .next (s.switched.raise 0x16C 0 (s.access.epochNow + 1).toNat) := by
  simp only [exec, execEpochSwitch, hstate, hvalid, hdrained, Bool.not_true, Bool.false_eq_true, or_self, if_false, State.switched]

theorem oldOutstanding_eq_zero (h : ∀ x ∈ s.port.outstanding, x.epoch = s.access.epochNow) : oldOutstanding s = 0 := by
  rw [oldOutstanding, List.length_eq_zero_iff, List.filter_eq_nil_iff]
  intro x hx
  simp [h x hx]

/-! ## The scrubber (R510) -/

theorem State.lineRead_undamaged (h : s.memory.damages = []) (n line : Nat) (scrub : Bool) : s.lineRead n line scrub = ([], s) := by
  simp only [State.lineRead, h, List.filter_nil, if_true]

theorem State.scrubLine_undamaged (h : s.memory.damages = []) (n line : Nat) : s.scrubLine n line = s := by
  have hread : ∀ n line, s.lineRead n line true = ([], s) := fun n line => State.lineRead_undamaged h n line true
  unfold State.scrubLine
  split
  · simp only [State.readSlotLine, h, List.any_nil, Bool.false_and, Bool.false_eq_true, if_false, hread]
  · simp only [State.readBucket, hread]
  · simp only [hread]

/-- What a scrub read leaves of the position and the passes of its store. -/
def Store.scrubbed (lines : Nat) (x : Store) : Store :=
  if lines ≤ x.position + 1 then
    { x with position := 0, scrubPasses := x.scrubPasses + 1, lastPassCorrected := x.passCorrected, passCorrected := [] }
  else { x with position := x.position + 1 }

theorem execScrubLineRead_scrubs {n : Nat} (hn : n < 8) (h : s.memory.damages = []) :
    ∃ t, exec (.scrubLineRead n) s = .next t ∧ t.store n = (s.store n).scrubbed (storeLines n) := by
  refine ⟨_, unit_next _ (by omega), ?_⟩
  simp only [Nat.not_le.mpr hn, if_false, State.scrubLine_undamaged h, State.store_onStore_same, Store.scrubbed]

theorem execScrubLineRead_fifo {n : Nat} (hn : n < 14) (hfifo : 8 ≤ n) : exec (.scrubLineRead n) s = .next s := by
  simp only [exec, execScrubLineRead, hfifo, if_true]
  exact unit_next _ hn

/-! ## Injection and the seal digest (R517, R5, R7) -/

theorem execEccInject_refused (h : injectAllowed s = false) : exec .eccInject s = .next s := by
  simp only [exec, execEccInject, State.eccInject, h, Bool.not_false, if_true]

theorem execEccInject_arms {n : Nat} (h : injectAllowed s = true) (hstore : storeOf s.memory.injectStore = some n)
    (hline : s.memory.injectLine.toNat < storeLines n) :
    ∃ t d, exec .eccInject s = .next t ∧ t.memory.damages = s.memory.damages ++ [d] ∧ d.store = n ∧
      d.line = s.memory.injectLine.toNat ∧ d.target = s.memory.injectTarget ∧ d.mask = s.memory.injectMask := by
  refine ⟨_, { store := n, line := s.memory.injectLine.toNat, target := s.memory.injectTarget, mask := s.memory.injectMask
               held := lineData s n s.memory.injectLine.toNat, found := false }, rfl, ?_, rfl, rfl, rfl, rfl⟩
  simp only [State.eccInject, h, Bool.not_true, Bool.false_eq_true, if_false, hstore, Nat.not_le.mpr hline]

theorem execSealDigestDone_recomputing (h : s.ident.recomputing = true) : exec .sealDigestDone s = .next s.sealDone := by
  simp only [exec, execSealDigestDone, h, if_true]

/-- The state in which a recomputation has ended. -/
def State.sealEnded (s : State) : State :=
  if s.ident.measured then
    { s with
      ident :=
        { s.ident with
          recomputing := false, changed := false, sealDigest := sealDigestOf s.ident.fwImage s.ident.sealRecord
          sealState := sealStateOf s (sealDigestOf s.ident.fwImage s.ident.sealRecord) } }
  else { s with ident := { s.ident with recomputing := false, changed := false } }

theorem State.sealDone_eq (s : State) :
    s.sealDone = if s.ident.changed then s.sealEnded.raise 0x00B 0 (leNat (cut s.ident.sealRecord 0 4)) else s.sealEnded := rfl

theorem State.sealDone_ident (s : State) : s.sealDone.ident = s.sealEnded.ident := by
  rw [State.sealDone_eq]
  split
  · exact State.raise_ident _ _ _ _
  · rfl

theorem State.sealDone_waits (h : s.ident.changed = true) : waits s.sealDone 0x00B := by
  rw [State.sealDone_eq, if_pos h]
  exact State.raise_waits _ _ _ _ (by decide)

end

/-- Settles O35: a commit is begun, checked, switched and drained. -/
theorem ruleCommitsSwitchEpochs : Obligations.RuleCommitsSwitchEpochs := by
  unfold Obligations.RuleCommitsSwitchEpochs
  intro s a
  refine ⟨fun hidle => ?_, fun hbusy => ?_, fun hstate hnot => ⟨fun hcheck => execCommitValidated_passes hstate hnot hcheck,
    fun c f hcheck => execCommitValidated_refuses hstate hnot hcheck⟩, fun hstate hvalid hdrained => ?_, fun hnew => ?_,
    fun hdrain hwarn => ?_⟩
  · simp only [exec, execRuleCommit, State.ruleCommit, a, hidle, ne_eq, not_true_eq_false, if_false, State.onAccess]
  · simp only [exec, execRuleCommit, State.ruleCommit, a, hbusy, ne_eq, not_false_eq_true, if_true]
  · refine ⟨_, execEpochSwitch_switches hstate hvalid hdrained, ?_, ?_, ?_, ?_, ?_, ?_, ?_, State.raise_waits _ _ _ _ (by decide)⟩
    all_goals
      rw [State.raise_access]
      rfl
  · simp only [exec, execEpochDrained, oldOutstanding_eq_zero hnew, if_true, State.onAccess, a]
  · refine ⟨(s.onAccess (fun a => { a with warned := true })).raise 0x16E 0 (oldOutstanding s), ?_, ?_,
      State.raise_waits _ _ _ _ (by decide)⟩
    · simp only [exec, execDrainWarnExpiry, a, hdrain, hwarn, Bool.false_eq_true, or_self, if_false]
    · rw [State.raise_access]
      rfl

/-- Settles O36: scrub reads advance and end a pass, an injection is armed where it is permitted, and a recomputation leaves its
digest. -/
theorem memoryIsScrubbedAndTheSealRecomputed : Obligations.MemoryIsScrubbedAndTheSealRecomputed := by
  unfold Obligations.MemoryIsScrubbedAndTheSealRecomputed
  intro s
  refine ⟨fun n hn hsound => ?_, execEccInject_refused, fun n => execEccInject_arms, fun hbusy hmeasured => ?_,
    fun hbusy hmeasured => ?_⟩
  · by_cases hfifo : 8 ≤ n
    · exact ⟨s, execScrubLineRead_fifo hn hfifo, fun _ => rfl, fun h => absurd hfifo (Nat.not_le.mpr h),
        fun h => absurd hfifo (Nat.not_le.mpr h)⟩
    · obtain ⟨t, hexec, hstore⟩ := execScrubLineRead_scrubs (Nat.not_le.mp hfifo) hsound
      refine ⟨t, hexec, fun h => absurd h hfifo, fun _ hlt => ?_, fun _ hle => ?_⟩
      · rw [hstore, Store.scrubbed, if_neg (by omega)]
        exact ⟨rfl, rfl⟩
      · rw [hstore, Store.scrubbed, if_pos hle]
        exact ⟨rfl, rfl⟩
  · refine ⟨_, execSealDigestDone_recomputing hbusy, ?_, ?_, ?_, State.sealDone_waits⟩
    all_goals simp only [State.sealDone_ident, State.sealEnded, hmeasured, if_true]
  · refine ⟨_, execSealDigestDone_recomputing hbusy, ?_, ?_, ?_⟩
    all_goals simp only [State.sealDone_ident, State.sealEnded, hmeasured, Bool.false_eq_true, if_false]

end Sys2Proof.Machine
end

section
/-!
SUPPORT. Requests to the life-cycle controller and the fields they program (O37).
-/
namespace Sys2Proof.Machine

section
variable {s : State}

/-- A request's programming, as LC_REQUEST begins it. -/
def programmingOf (target : Nat) (todo : List FusePlace) : Programming :=
  { target := target, todo := todo, root := [], scrapWaits := false }

/-- The state in which a request is noted. -/
def State.lcAsked (s : State) (code : Nat) : State := s.onLc (fun l => { l with request := code })

theorem nextToken_lcAsked (s : State) (code : Nat) : nextToken (s.lcAsked code) = nextToken s := by
  have hburned : ∀ j, tokenBurned (s.lcAsked code) j = tokenBurned s j := fun _ => rfl
  simp only [nextToken, hburned]

theorem State.lcRequest_transition {code : Nat} (hnone : s.lc.programming = none) (hsound : s.lc.interrupted = false)
    (hfree : s.lc.status ≠ 2 ∨ code = 7) : s.lcRequest code = (s.lcAsked code).transition code := by
  have hrepairs : repairs (s.lcAsked code) code = false := by
    simp only [repairs, State.lcAsked, State.onLc, hsound, Bool.false_and]
  have hask : (s.lcAsked code).lc.programming = none := hnone
  have hstatus : ¬ ((s.lcAsked code).lc.status = 2 ∧ code ≠ 7) := by
    rintro ⟨h, hcode⟩
    exact hfree.elim (fun hne => hne h) hcode
  simp only [State.lcAsked] at hrepairs hask hstatus ⊢
  simp only [State.lcRequest, hask, hrepairs, Bool.false_eq_true, if_false, if_neg hstatus]

/-- The copies that a repair programs. -/
def repairTodo (s : State) : List FusePlace :=
  ((List.range 3).filter (fun c => !(fuseField s c s.lc.interruptedField).full)).map (fun c => .copy c s.lc.interruptedField)

theorem mem_repairTodo {c : Nat} (hc : c < 3) :
    FusePlace.copy c s.lc.interruptedField ∈ repairTodo s ↔ (fuseField s c s.lc.interruptedField).full = false := by
  simp [repairTodo, hc]

section
variable (hreset : s.start.inReset = false) (hnone : s.lc.programming = none)
include hreset hnone

section
variable (hsound : s.lc.interrupted = false)
include hsound

theorem lcRequestTransition_retires (hfree : s.lc.status ≠ 2) (hstate : s.lc.state = .mission) :
    ∃ t, exec (.lcRequestTransition 6) s = .next t ∧ t.lc.status = 1 ∧ t.lc.request = 6 ∧
      t.lc.programming = some (programmingOf 6 [.copy 0 35, .copy 1 35, .copy 2 35]) := by
  have hask : (s.lcAsked 6).lc.state = .mission := hstate
  refine ⟨(s.lcAsked 6).program 6 (copiesOf 35) [], ?_, rfl, rfl, rfl⟩
  simp only [exec, execLcRequestTransition, hreset, Bool.false_eq_true, if_false,
    State.lcRequest_transition hnone hsound (.inl hfree), State.transition, hask]

theorem lcRequestTransition_refused {code : Nat} (hfree : s.lc.status ≠ 2) (hstate : s.lc.state = .mission) (h6 : code ≠ 6)
    (h7 : code ≠ 7) :
    exec (.lcRequestTransition code) s = .next (s.onLc (fun l => { l with request := code, status := 3 })) := by
  have hask : (s.lcAsked code).lc.state = .mission := hstate
  have hrefuse : (s.lcAsked code).transition code = (s.lcAsked code).lcRefuse 3 := by
    unfold State.transition
    rw [hask]
    split <;> simp_all
  simp only [exec, execLcRequestTransition, hreset, Bool.false_eq_true, if_false,
    State.lcRequest_transition hnone hsound (.inl hfree), hrefuse]
  rfl

section
variable {k j : Nat} (hfree : s.lc.status ≠ 2) (hstate : s.lc.state = .testLocked k) (hnext : nextToken s = some j)
  (hfails : s.lc.tokenFails.toNat < 8)
include hfree hstate hnext hfails

/-- Whether the token given is token `j`. -/
def tokenMatches (s : State) (j : Nat) : Bool :=
  ((HashWork.start 5).absorb s.lc.token).finish 32 == Tab.get (fun _ => zeros 32) s.lc.tokens j

theorem execLcUnlock_compares :
    exec .lcUnlock s = .next (
      if tokenMatches s j then ((s.lcAsked 3).onLc (fun l => { l with token := zeros 16 })).program 3 (.burn j :: copiesOf (2 * j - 1)) []
      else (((s.lcAsked 3).onLc (fun l => { l with token := zeros 16 })).onLc (fun l =>
        { l with tokenFails := if l.tokenFails.toNat < 255 then l.tokenFails + 1 else l.tokenFails })).onLc
          (fun l => { l with status := 4 })) := by
  have hask : (s.lcAsked 3).lc.state = .testLocked k := hstate
  have hfew : ¬ 8 ≤ (s.lcAsked 3).lc.tokenFails.toNat := Nat.not_le.mpr hfails
  have hsame : (((HashWork.start 5).absorb (s.lcAsked 3).lc.token).finish 32 ==
      Tab.get (fun _ => zeros 32) (s.lcAsked 3).lc.tokens j) = tokenMatches s j := rfl
  simp only [exec, execLcUnlock, hreset, Bool.false_eq_true, if_false, State.lcRequest_transition hnone hsound (.inl hfree),
    State.transition, hask, State.unlock, nextToken_lcAsked, hnext, if_neg hfew, hsame]
  split <;> rfl

end

theorem execLcScrap_begins (hscrap : s.lc.state ≠ .scrap) (hknown : s.lc.state ≠ .unknown) :
    ∃ t, exec .lcScrap s = .next t ∧ t.lc.status = 1 ∧
      t.lc.programming = some (programmingOf 7 [.copy 0 36, .copy 1 36, .copy 2 36]) := by
  refine ⟨(s.lcAsked 7).program 7 (copiesOf 36) [], ?_, rfl, rfl⟩
  have htransition : (s.lcAsked 7).transition 7 = (true, (s.lcAsked 7).program 7 (copiesOf 36) []) := by
    have hask : (s.lcAsked 7).lc.state = s.lc.state := rfl
    unfold State.transition
    rw [hask]
    split <;> simp_all
  simp only [exec, execLcScrap, hreset, Bool.false_eq_true, if_false, State.lcRequest_transition hnone hsound (.inr rfl), htransition]

end

theorem execLcRepair_begins (hbroken : s.lc.interrupted = true) (hpart : (fuseField s 0 s.lc.interruptedField).full = false) :
    ∃ t, exec .lcRepair s = .next t ∧ t.lc.status = 1 ∧
      t.lc.programming = some (programmingOf s.lc.interruptedTarget (repairTodo s)) := by
  have hin : FusePlace.copy 0 s.lc.interruptedField ∈ repairTodo s := (mem_repairTodo (by decide)).mpr hpart
  obtain ⟨x, rest, htodo⟩ := List.exists_cons_of_ne_nil (List.ne_nil_of_mem hin)
  have hrepair : (s.lcAsked s.lc.interruptedTarget).repair =
      (s.lcAsked s.lc.interruptedTarget).program s.lc.interruptedTarget (repairTodo s) [] := rfl
  refine ⟨(s.lcAsked s.lc.interruptedTarget).program s.lc.interruptedTarget (x :: rest) [], ?_, rfl, by rw [htodo]; rfl⟩
  have hrepairs : repairs (s.lcAsked s.lc.interruptedTarget) s.lc.interruptedTarget = true := by
    simp only [repairs, State.lcAsked, State.onLc, hbroken, beq_self_eq_true, Bool.and_self]
  have hask : (s.lcAsked s.lc.interruptedTarget).lc.programming = none := hnone
  rw [← htodo, ← hrepair]
  simp only [State.lcAsked] at hrepairs hask ⊢
  simp only [exec, execLcRepair, hreset, Bool.false_eq_true, if_false, State.lcRequest, hask, hrepairs, if_true]

end

/-! ## Fields programmed (R530) -/

section
variable {p : Programming} {x : FusePlace} {rest : List FusePlace}

theorem LifeCycle.mark_copy (l : LifeCycle) (p : Programming) (c f : Nat) :
    Tab.get FuseField.dflt (l.mark p (.copy c f)).copies (64 * c + f) = { bits := 255, unstable := false } :=
  Tab.get_set_same FuseField.dflt l.copies (64 * c + f) { bits := 255, unstable := false }

/-- What a verified field leaves of the copies. -/
theorem State.fieldGood_copies (s : State) (p : Programming) (x : FusePlace) (rest : List FusePlace) :
    (s.fieldGood p x rest).lc.copies = (s.lc.mark p x).copies := by
  simp only [State.fieldGood]
  split
  · rfl
  · split <;> rfl

theorem State.fieldGood_full (s : State) (p : Programming) (c f : Nat) (rest : List FusePlace) :
    (fuseField (s.fieldGood p (.copy c f) rest) c f).full = true := by
  rw [fuseField, State.fieldGood_copies, LifeCycle.mark_copy]
  rfl

theorem State.fieldGood_last (hscrap : p.scrapWaits = false) :
    (s.fieldGood p x []).lc.status = 2 ∧ (s.fieldGood p x []).lc.pending = p.target ∧
      (s.fieldGood p x []).lc.programming = none := by
  simp only [State.fieldGood, hscrap, Bool.false_eq_true, if_false, List.isEmpty_nil, if_true, State.onLc, and_self]

theorem State.fieldGood_next (hscrap : p.scrapWaits = false) (hrest : rest ≠ []) :
    (s.fieldGood p x rest).lc.programming = some { p with todo := rest } := by
  obtain ⟨y, ys, rfl⟩ := List.exists_cons_of_ne_nil hrest
  simp only [State.fieldGood, hscrap, Bool.false_eq_true, if_false, List.isEmpty_cons, State.onLc]

theorem LifeCycle.cut_ends {l : LifeCycle} (n : Nat) (hp : l.programming = some p) :
    (l.cut n).programming = none ∧ (l.cut n).status = 7 := by
  simp only [LifeCycle.cut, hp]
  split <;> exact ⟨rfl, rfl⟩

section
variable (hreset : s.start.inReset = false) (hp : s.lc.programming = some p) (htodo : p.todo = x :: rest)
include hreset hp htodo

theorem execLcFieldVerified_good (hvpp : s.pins.vppOk = true) :
    exec (.lcFieldVerified true) s = .next (s.fieldGood p x rest).orderlyOn := by
  simp only [exec, execLcFieldVerified, hp, htodo, hreset, hvpp, Bool.false_eq_true, and_self, if_false, if_true]

/-- The state in which a field has failed. -/
def State.fieldFailed (s : State) (p : Programming) : State :=
  (s.onLc (LifeCycle.cut s.rng.draws)).raise 0x22A p.target (fieldNumber p.todo)

theorem execLcFieldVerified_bad :
    exec (.lcFieldVerified false) s = .next (s.fieldFailed p).orderlyOn := by
  simp only [exec, execLcFieldVerified, hp, htodo, hreset, Bool.false_eq_true, false_and, if_false, State.fieldFailed]

end

theorem State.fieldFailed_ends (hp : s.lc.programming = some p) :
    (s.fieldFailed p).lc.programming = none ∧ (s.fieldFailed p).lc.status = 7 ∧ waits (s.fieldFailed p) 0x22A := by
  obtain ⟨hnone, hstatus⟩ := LifeCycle.cut_ends s.rng.draws hp
  refine ⟨?_, ?_, State.raise_waits _ _ _ _ (by decide)⟩
  · rw [State.fieldFailed, State.raise_lc]
    exact hnone
  · rw [State.fieldFailed, State.raise_lc]
    exact hstatus

end

end

/-- Settles O37: transitions, unlocks, repairs and SCRAP begin their fields or show why not, and a field verified or failed goes on or
ends the request. -/
theorem lifeCycleRequestsProgramAntifuses : Obligations.LifeCycleRequestsProgramAntifuses := by
  unfold Obligations.LifeCycleRequestsProgramAntifuses
  intro s hreset go
  refine ⟨fun hnone hsound => ⟨fun hfree hstate => ⟨lcRequestTransition_retires hreset hnone hsound hfree hstate, fun code h6 h7 =>
      lcRequestTransition_refused hreset hnone hsound hfree hstate h6 h7⟩, ?_, fun hscrap hknown =>
      execLcScrap_begins hreset hnone hsound hscrap hknown⟩, fun hnone hbroken hpart => ?_, fun p hp => ?_, ?_⟩
  · intro k j hfree hstate hnext hfails same
    have hexec := execLcUnlock_compares hreset hnone hsound hfree hstate hnext hfails
    refine ⟨fun h => ?_, fun h => ?_⟩
    · have hmatch : tokenMatches s j = true := beq_iff_eq.mpr h
      refine ⟨_, hexec.trans (by rw [if_pos hmatch]), rfl, rfl, rfl⟩
    · have hmatch : ¬ tokenMatches s j = true := fun hc => h (beq_iff_eq.mp hc)
      have hroom : s.lc.tokenFails.toNat < 255 := by omega
      rw [hexec, if_neg hmatch]
      simp only [State.lcAsked, State.onLc, hroom, if_true]
  · obtain ⟨t, hexec, hstatus, hprogramming⟩ := execLcRepair_begins hreset hnone hbroken hpart
    exact ⟨t, repairTodo s, hexec, hstatus, hprogramming, fun c hc => mem_repairTodo hc⟩
  · simp only [exec, execLcScrap, hreset, Bool.false_eq_true, if_false, State.lcRequest, State.onLc, hp, if_true]
  · intro p x rest hp htodo
    refine ⟨execLcFieldVerified_good hreset hp htodo, fun hscrap hrest => hrest ▸ State.fieldGood_last hscrap,
      State.fieldGood_next, fun c f hx => hx ▸ s.fieldGood_full p c f rest, ?_⟩
    rintro u rfl
    exact ⟨execLcFieldVerified_bad hreset hp htodo, State.fieldFailed_ends hp⟩

end Sys2Proof.Machine
end

section
/-!
SUPPORT. Debug nonces and certificates, and attestation (O38).
-/
namespace Sys2Proof.Machine

section
variable {s : State}

/-- Rights in force move nothing else of the life-cycle controller. -/
theorem State.setRights_lc (s : State) (r : BitVec 32) : (s.setRights r).lc = { s.lc with debugRights := r } := by
  simp only [State.setRights]
  split
  · rename_i h
    rw [← h]
  · exact (State.rawLapse_field (φ := .lc) _ (by simp)).trans (State.setRecord_field (φ := .lc) _ 4 (leBytes 4 r.toNat) (by simp))

/-- The state in which a certificate has been checked, before its outcome is applied. -/
def State.certChecked (s : State) : State :=
  let blocks := (if 6 ≤ certOutcome s ∨ certOutcome s = 2 then finishBlocks 2 96 48 + finishBlocks 2 2592 48 else 0)
    + (if certOutcome s = 2 ∨ certOutcome s = 10 then signatureBlocks 128 else 0)
  (s.internalOn 0 blocks).onLc (fun l => { l with debugChecking := false, debugStatus := certOutcome s })

theorem State.certChecked_lc (s : State) :
    s.certChecked.lc = { s.lc with debugChecking := false, debugStatus := certOutcome s } := by
  have hlc : ∀ n, (s.internalOn 0 n).lc = s.lc := fun n => State.internalOn_field (φ := .lc) s 0 n (by simp)
  rw [State.certChecked]
  exact congrArg (fun l : LifeCycle => { l with debugChecking := false, debugStatus := certOutcome s }) (hlc _)

/-- The nonce used up. -/
def State.nonceUsed (s : State) : State := s.onLc (fun l => { l with debugNonce := zeros 16, nonceValid := false })

/-- A certificate that passes, in force. -/
def State.certInForce (s : State) : State :=
  (s.certChecked.nonceUsed.onLc (fun l =>
    { l with
      certsAccepted := l.certsAccepted + 1, debugCounter := BitVec.ofNat 32 (leNat (cut l.debugCert 72 4)) })).setRights
    (BitVec.ofNat 32 (leNat (cut s.lc.debugCert 4 4)))

/-- A certificate that fails, counted. -/
def State.certRefused (s : State) : State :=
  (if certOutcome s = 10 then s.certChecked.nonceUsed else s.certChecked).onLc (fun l => { l with certsRefused := l.certsRefused + 1 })

theorem State.certDone_passed (h : certOutcome s = 2) :
    s.certDone = s.certInForce.raise 0x22B 0 (leNat (cut s.lc.debugCert 4 4)) := by
  simp only [State.certDone, h, true_or, or_true, if_true, State.certInForce, State.certChecked, State.nonceUsed]

theorem State.certDone_failed (h : certOutcome s ≠ 2) : s.certDone = s.certRefused.raise 0x22C (certOutcome s) 0 := by
  simp only [State.certDone, h, false_or, or_false, if_false, State.certRefused, State.certChecked, State.nonceUsed]

theorem State.certInForce_lc (s : State) :
    s.certInForce.lc =
      { s.lc with
        debugChecking := false, debugStatus := certOutcome s, debugNonce := zeros 16, nonceValid := false
        certsAccepted := s.lc.certsAccepted + 1, debugCounter := BitVec.ofNat 32 (leNat (cut s.lc.debugCert 72 4))
        debugRights := BitVec.ofNat 32 (leNat (cut s.lc.debugCert 4 4)) } := by
  rw [State.certInForce, State.setRights_lc]
  simp only [State.onLc, State.nonceUsed, State.certChecked_lc]

/-- What a refused certificate leaves. -/
theorem State.certRefused_lc (s : State) :
    s.certRefused.lc.debugStatus = certOutcome s ∧ s.certRefused.lc.debugChecking = false ∧
      s.certRefused.lc.debugRights = s.lc.debugRights ∧ s.certRefused.lc.debugCounter = s.lc.debugCounter ∧
      s.certRefused.lc.certsRefused = s.lc.certsRefused + 1 ∧
      (certOutcome s ≠ 10 → s.certRefused.lc.debugNonce = s.lc.debugNonce) := by
  by_cases h : certOutcome s = 10
  · simp only [State.certRefused, h, if_true, State.onLc, State.nonceUsed, State.certChecked_lc, ne_eq, not_true_eq_false,
      false_implies, and_self]
  · simp only [State.certRefused, h, if_false, State.onLc, State.certChecked_lc, implies_true, and_self]

section
variable (hreset : s.start.inReset = false)
include hreset

theorem execCertCheckDone_checked (h : s.lc.debugChecking = true) : exec .certCheckDone s = .next s.certDone := by
  simp only [exec, execCertCheckDone, h, hreset, Bool.not_false, and_self, if_true]

theorem execCertCheckDone_passed (h : s.lc.debugChecking = true) (hout : certOutcome s = 2) :
    ∃ t, exec .certCheckDone s = .next t ∧ t.lc = s.certInForce.lc ∧ waits t 0x22B := by
  refine ⟨_, (execCertCheckDone_checked hreset h).trans (congrArg _ (State.certDone_passed hout)), ?_,
    State.raise_waits _ _ _ _ (by decide)⟩
  exact State.raise_lc _ _ _ _

theorem execCertCheckDone_failed (h : s.lc.debugChecking = true) (hout : certOutcome s ≠ 2) :
    ∃ t, exec .certCheckDone s = .next t ∧ t.lc = s.certRefused.lc ∧ waits t 0x22C := by
  refine ⟨_, (execCertCheckDone_checked hreset h).trans (congrArg _ (State.certDone_failed hout)), ?_,
    State.raise_waits _ _ _ _ (by decide)⟩
  exact State.raise_lc _ _ _ _

theorem execAttestDone_signs (h : s.lc.attestState = 1) (hable : attestable s = true) :
    ∃ t, exec .attestDone s = .next t ∧ t.lc.attestState = 2 ∧ t.lc.reportCount = s.lc.reportCount + 1 ∧
      t.lc.attestReport.take s.lc.attestCaptured.length = s.lc.attestCaptured := by
  have hlc : (s.internalRan (signatureBlocks 256)).lc = s.lc := State.internalRan_field (φ := .lc) s _ (by simp)
  refine ⟨(s.internalRan (signatureBlocks 256)).onLc (fun l => { l with
    attestState := 2, reportCount := l.reportCount + 1, attestCaptured := []
    attestReport := l.attestCaptured ++ octetsOf 4723 (Config.sign 1 (cut l.aliasCert 64 2688) l.attestCaptured) }), ?_, rfl, ?_, ?_⟩
  · simp only [exec, execAttestDone, h, hreset, hable, ne_eq, not_true_eq_false, Bool.false_eq_true, or_self, if_false, if_true]
  · simp only [State.onLc, hlc]
  · simp only [State.onLc, hlc, List.take_left]

end

end

/-- Settles O38: nonces are drawn, certificates checked and put in force or refused, rights end, and reports are captured and signed. -/
theorem certificatesAndReportsAreMade : Obligations.CertificatesAndReportsAreMade := by
  unfold Obligations.CertificatesAndReportsAreMade
  intro s hreset
  refine ⟨fun hrun => ?_, fun hrun => ?_, fun hidle => ?_, fun hbusy => ?_, ⟨s.setRights 0, ?_, s.setRights_lc 0⟩,
    ⟨s.debugRevoke, ?_, ?_⟩, fun hfree => ⟨fun hable => ?_, fun hable => ?_⟩,
    fun hone => ⟨execAttestDone_signs hreset hone, fun hable => ?_⟩⟩
  · refine ⟨(s.internalDraw 16).2.onLc (fun l => { l with debugNonce := (s.internalDraw 16).1, nonceValid := true }), ?_, rfl, rfl⟩
    simp only [exec, execDebugNonceReq, hreset, Bool.false_eq_true, if_false, State.debugNonceReq, hrun, ne_eq, not_true_eq_false]
  · simp only [exec, execDebugNonceReq, hreset, Bool.false_eq_true, if_false, State.debugNonceReq, if_pos hrun]
  · simp only [exec, execDebugSubmit, hreset, Bool.false_eq_true, if_false, State.debugSubmit, hidle]
  · by_cases hout : certOutcome s = 2
    · obtain ⟨t, hexec, hlc, hwaits⟩ := execCertCheckDone_passed hreset hbusy hout
      rw [State.certInForce_lc] at hlc
      exact ⟨t, hexec, by rw [hlc], by rw [hlc], fun _ => ⟨by rw [hlc], by rw [hlc], by rw [hlc], by rw [hlc], hwaits⟩,
        fun h => absurd hout h, fun h => absurd hout h⟩
    · obtain ⟨t, hexec, hlc, hwaits⟩ := execCertCheckDone_failed hreset hbusy hout
      obtain ⟨hstatus, hchecking, hrights, hcounter, hcount, hnonce⟩ := s.certRefused_lc
      rw [← hlc] at hstatus hchecking hrights hcounter hcount hnonce
      exact ⟨t, hexec, hstatus, hchecking, fun h => absurd h hout, fun _ => ⟨hrights, hcounter, hcount, hwaits⟩, fun _ => hnonce⟩
  · simp only [exec, execDebugEnd, hreset, Bool.false_eq_true, if_false]
  · simp only [exec, execDebugRevoke, hreset, Bool.false_eq_true, if_false]
  · simp only [State.debugRevoke, State.onLc, State.setRights_lc]
  · simp only [exec, execAttestRequest, hreset, Bool.false_eq_true, if_false, State.attestRequest, hfree, hable, if_true]
  · simp only [exec, execAttestRequest, hreset, Bool.false_eq_true, if_false, State.attestRequest, hfree, hable]
  · refine ⟨s.onLc (fun l => { l with attestState := 3, attestCaptured := [] }), ?_, rfl⟩
    simp only [exec, execAttestDone, hone, hreset, hable, ne_eq, not_true_eq_false, Bool.false_eq_true, or_self, if_false]

end Sys2Proof.Machine
end

section
/-!
SUPPORT. The steps of a start, their failures, and the tests of Pavane mode (O39).
-/
namespace Sys2Proof.Machine

section
variable {s : State}

/-! ## Failures (R560, R561) -/

theorem State.unpower_start (s : State) : s.unpower.start = s.start := State.unpower_field (φ := .start) s (by simp)

theorem State.unpower_lc (s : State) : s.unpower.lc = s.lc := State.unpower_field (φ := .lc) s (by simp)

theorem State.unpower_events (s : State) : s.unpower.events = s.events := State.unpower_field (φ := .events) s (by simp)

/-- What Pavane mode leaves of the start. -/
theorem State.pavane_start (s : State) :
    s.pavane.start.state = .pavane ∧ s.pavane.start.failReason = s.start.failReason ∧
      s.pavane.start.vaultRepairs = s.start.vaultRepairs := by
  simp only [State.pavane, State.unpower_start, and_self]

theorem State.enterPavane_start (s : State) (r d : Nat) :
    (s.enterPavane r d).start.state = .pavane ∧ (s.enterPavane r d).start.failReason = r ∧
      (s.enterPavane r d).start.vaultRepairs = s.start.vaultRepairs := by
  obtain ⟨hstate, hreason, hrepairs⟩ := (s.recordFailure r d).pavane_start
  rw [State.enterPavane, State.raise_start]
  exact ⟨hstate, hreason, hrepairs⟩

/-- A step that fails is on record, and halts the start or enters Pavane mode. -/
theorem State.startFail_start (hstart : starting s = true) (r d : Nat) :
    (s.startFail r d).start.failReason = r ∧
      (s.startFail r d).start.state = (if 3 ≤ s.start.failedStarts then .pavane else .startHalt) ∧
      (s.startFail r d).start.vaultRepairs = s.start.vaultRepairs := by
  by_cases hmany : 3 ≤ s.start.failedStarts
  · obtain ⟨hstate, hreason, hrepairs⟩ := s.enterPavane_start r d
    have hfail : s.startFail r d = s.enterPavane r d := by
      simp only [State.startFail, hstart, hmany, Bool.not_true, Bool.false_eq_true, if_false, if_true]
    rw [hfail, if_pos hmany]
    exact ⟨hreason, hstate, hrepairs⟩
  · simp only [State.startFail, hstart, hmany, Bool.not_true, Bool.false_eq_true, if_false, State.raise_start, State.recordFailure,
      and_self]

/-! ## Step 0 (R525 to R528, R555) -/

theorem State.lcVote_kept (s : State) :
    s.lcVote.start = s.start ∧ s.lcVote.pins = s.pins ∧ s.lcVote.lc.state = (majority s).getD .scrap := by
  simp only [State.lcVote]
  split <;> split <;> simp only [State.raise_start, State.raise_pins, State.raise_lc, and_self]

theorem waits_of_events {t : State} {src : Nat} (h : t.events = s.events) (hw : waits s src) : waits t src := by
  rw [waits, h]
  exact hw

/-- The state after the vote, with the record of the configuration. -/
def State.voted (s : State) (counterOk : Bool) : State :=
  let s1 := s.lcVote
  let s2 := { s1 with ident := { s1.ident with sealRecord := patch s1.ident.sealRecord 0 [BitVec.ofNat 8 s1.lc.state.code, 1] } }
  let read := if counterOk then s2.start.failedStarts else 3
  { s2 with start := { s2.start with step0Done := true, failedStarts := read, failedAtStep0 := read } }

theorem State.voted_lc (s : State) (counterOk : Bool) : (s.voted counterOk).lc.state = (majority s).getD .scrap :=
  s.lcVote_kept.2.2

theorem State.voted_pins (s : State) (counterOk : Bool) : (s.voted counterOk).pins = s.pins := s.lcVote_kept.2.1

theorem State.voted_start (s : State) (counterOk : Bool) :
    (s.voted counterOk).start =
      { s.start with
        step0Done := true, failedStarts := if counterOk then s.start.failedStarts else 3
        failedAtStep0 := if counterOk then s.start.failedStarts else 3 } := by
  simp only [State.voted, s.lcVote_kept.1]

theorem State.stepZero_eq (s : State) (counterOk : Bool) :
    s.stepZero counterOk =
      if (s.voted counterOk).lc.state = .scrap then
        { (s.voted counterOk).unpower with start := { (s.voted counterOk).unpower.start with state := .scrap } }
      else
        let s4 := if counterOk then s.voted counterOk else (s.voted counterOk).recordFailure 0x08 0
        if s4.pins.tamperActive &&& tamperMask s4 ≠ 0 then { s4 with start := { s4.start with state := .tamperWait } }
        else s4.proceed := rfl

theorem State.voted_state {v : LcState} (hvote : majority s = some v) (counterOk : Bool) : (s.voted counterOk).lc.state = v := by
  rw [State.voted_lc, hvote]
  rfl

section
variable (hdecode : s.start.state = .lcDecode) (hreset : s.start.inReset = false) (halarm : s.start.alarmPending = false)
include hdecode hreset halarm

theorem execLcDecode_stepZero (counterOk : Bool) : exec (.lcDecode counterOk) s = .next (s.stepZero counterOk) := by
  simp only [exec, execLcDecode, hdecode, hreset, halarm, ne_eq, not_true_eq_false, Bool.false_eq_true, or_self, if_false]

section
variable {v : LcState} (hvote : majority s = some v) (hv : v ≠ .scrap)
include hvote hv

theorem lcDecode_starts (hquiet : s.pins.tamperActive = 0) (hfew : s.start.failedStarts < 3) :
    ∃ t, exec (.lcDecode true) s = .next t ∧ t.lc.state = v ∧ t.start.state = .selfTest ∧ t.start.step = 1 ∧
      t.start.step0Done = true ∧ t.start.failedStarts = s.start.failedStarts + 1 := by
  have hstate : (s.voted true).lc.state = v := State.voted_state hvote true
  have hpins : (s.voted true).pins.tamperActive &&& tamperMask (s.voted true) = 0 := by
    rw [State.voted_pins, hquiet]
    exact BitVec.zero_and
  have hstarts : (s.voted true).start.failedStarts = s.start.failedStarts := by rw [State.voted_start, if_pos rfl]
  have hgo : s.stepZero true =
      { s.voted true with
        start := { (s.voted true).start with failedStarts := (s.voted true).start.failedStarts + 1, state := .selfTest, step := 1 } } := by
    rw [State.stepZero_eq, if_neg (hstate ▸ hv)]
    simp only [if_true, hpins, ne_eq, not_true_eq_false, if_false, State.proceed, hstarts, Nat.not_le.mpr hfew]
  refine ⟨_, execLcDecode_stepZero hdecode hreset halarm true, ?_⟩
  rw [hgo]
  exact ⟨hstate, rfl, rfl, by rw [State.voted_start], by rw [hstarts]⟩

theorem lcDecode_unreadable (hquiet : s.pins.tamperActive = 0) :
    ∃ t, exec (.lcDecode false) s = .next t ∧ t.start.state = .pavane ∧ t.start.failReason = 0x08 ∧ waits t 0x23A := by
  have hstate : (s.voted false).lc.state = v := State.voted_state hvote false
  have hpins : ((s.voted false).recordFailure 0x08 0).pins.tamperActive &&& tamperMask ((s.voted false).recordFailure 0x08 0) = 0 := by
    have hsame : ((s.voted false).recordFailure 0x08 0).pins = s.pins := s.voted_pins false
    rw [hsame, hquiet]
    exact BitVec.zero_and
  have hstarts : ((s.voted false).recordFailure 0x08 0).start.failedStarts = 3 := by
    simp only [State.recordFailure, State.voted_start, Bool.false_eq_true, if_false]
  have hreason : ((s.voted false).recordFailure 0x08 0).start.failReason = 0x08 := rfl
  have hgo : s.stepZero false = ((s.voted false).recordFailure 0x08 0).pavane.raise 0x23A 0x08 0 := by
    rw [State.stepZero_eq, if_neg (hstate ▸ hv)]
    simp only [Bool.false_eq_true, if_false, hpins, ne_eq, not_true_eq_false, State.proceed, hstarts, Nat.le_refl, if_true, hreason]
  obtain ⟨hpavane, hkept, -⟩ := ((s.voted false).recordFailure 0x08 0).pavane_start
  refine ⟨_, execLcDecode_stepZero hdecode hreset halarm false, ?_⟩
  rw [hgo, State.raise_start]
  exact ⟨hpavane, hkept, State.raise_waits _ _ _ _ (by decide)⟩

theorem lcDecode_waits (hactive : s.pins.tamperActive &&& tamperMask { s with lc := { s.lc with state := v } } ≠ 0) :
    ∃ t, exec (.lcDecode true) s = .next t ∧ t.lc.state = v ∧ t.start.state = .tamperWait := by
  have hstate : (s.voted true).lc.state = v := State.voted_state hvote true
  have hpins : (s.voted true).pins.tamperActive &&& tamperMask (s.voted true) ≠ 0 := by
    have hmask : tamperMask (s.voted true) = tamperMask { s with lc := { s.lc with state := v } } := by
      simp only [tamperMask, hstate, State.voted_pins]
    rw [hmask, State.voted_pins]
    exact hactive
  have hgo : s.stepZero true = { s.voted true with start := { (s.voted true).start with state := .tamperWait } } := by
    rw [State.stepZero_eq, if_neg (hstate ▸ hv)]
    simp only [if_true, if_pos hpins]
  refine ⟨_, execLcDecode_stepZero hdecode hreset halarm true, ?_⟩
  rw [hgo]
  exact ⟨hstate, rfl⟩

end

theorem lcDecode_scraps (hvote : majority s = none) :
    ∃ t, exec (.lcDecode true) s = .next t ∧ t.lc.state = .scrap ∧ t.start.state = .scrap ∧ waits t 0x228 := by
  have hstate : (s.voted true).lc.state = .scrap := by
    rw [State.voted_lc, hvote]
    rfl
  have hwaits : waits s.lcVote 0x228 := by
    simp only [State.lcVote, hvote, Option.isNone_none, if_true]
    split
    · exact waits_raise _ _ _ (State.raise_waits _ _ _ _ (by decide))
    · exact State.raise_waits _ _ _ _ (by decide)
  have hgo : s.stepZero true =
      { (s.voted true).unpower with start := { (s.voted true).unpower.start with state := .scrap } } := by
    rw [State.stepZero_eq, if_pos hstate]
  refine ⟨_, execLcDecode_stepZero hdecode hreset halarm true, ?_⟩
  rw [hgo]
  have hevents : (s.voted true).unpower.events = s.lcVote.events := State.unpower_events (s.voted true)
  have hlc : (s.voted true).unpower.lc = (s.voted true).lc := State.unpower_lc (s.voted true)
  generalize (s.voted true).unpower = u at hevents hlc
  exact ⟨(congrArg LifeCycle.state hlc).trans hstate, rfl, waits_of_events hevents hwaits⟩

end

/-! ## Steps 1 to 4 (R554, R556) -/

/-- The image load that step 4 begins. -/
theorem State.readImage_begun (s : State) :
    s.readImage.pke.caller = .verifying ∧ s.readImage.start.bootEpoch = s.start.bootEpoch ∧ s.readImage.start.step = s.start.step ∧
      s.readImage.start.state = s.start.state := by
  have hpiece : ∀ (t : State) (a o l : Nat), (t.readPiece a o l).pke = t.pke ∧ (t.readPiece a o l).start.bootEpoch = t.start.bootEpoch ∧
      (t.readPiece a o l).start.step = t.start.step ∧ (t.readPiece a o l).start.state = t.start.state := by
    intro t a o l
    have hstart : ∀ k, (t.issue k).2.start = t.start := fun k => State.issue_field (φ := .start) t k (by simp)
    have hpke : ∀ k, (t.issue k).2.pke = t.pke := fun k => State.issue_field (φ := .pke) t k (by simp)
    simp only [State.readPiece]
    split
    · simp only [hstart, hpke, and_self]
    · simp only [hstart, hpke, and_self]
  simp only [State.readImage]
  split
  · exact ⟨rfl, rfl, rfl, rfl⟩
  · simp only [hpiece, and_self]

/-- The state in which the vault has been checked. -/
def State.vaultChecked (s : State) (n : Nat) : State :=
  { s with start := { s.start with vaultRepairs := s.start.vaultRepairs + BitVec.ofNat 32 n } }

/-- The state in which step 4 has counted the boot epoch. -/
def State.epochCounted (s : State) (n : Nat) : State :=
  { s.vaultChecked n with start := { (s.vaultChecked n).start with bootEpoch := (s.vaultChecked n).start.bootEpoch + 1 } }

/-- The state in which step 4 has passed and the image is to be loaded. -/
def State.vaultReady (s : State) (n : Nat) : State :=
  (((s.epochCounted n).internalRan ((s.epochCounted n).start.vaultSeeds.length * wrapKdf)).deriveDevice).stepDone 4

theorem State.deriveDevice_start (s : State) : s.deriveDevice.start = s.start := State.deriveDevice_field (φ := .start) s (by simp)

theorem State.internalRan_start (s : State) (n : Nat) : (s.internalRan n).start = s.start :=
  State.internalRan_field (φ := .start) s n (by simp)

theorem State.vaultReady_start (hstart : starting s = true) (hstep : s.start.step = 4) (n : Nat) :
    (s.vaultReady n).start =
      { s.start with
        vaultRepairs := s.start.vaultRepairs + BitVec.ofNat 32 n, bootEpoch := s.start.bootEpoch + 1, step := 5
        state := .callerLoad } := by
  have hderived : ∀ (t : State) k, ((t.internalRan k).deriveDevice).start = t.start := fun t k =>
    (State.deriveDevice_start _).trans (State.internalRan_start t k)
  have hready : ∀ t : State, t.start = { s.start with
      vaultRepairs := s.start.vaultRepairs + BitVec.ofNat 32 n, bootEpoch := s.start.bootEpoch + 1 } →
      (t.stepDone 4).start = { s.start with
        vaultRepairs := s.start.vaultRepairs + BitVec.ofNat 32 n, bootEpoch := s.start.bootEpoch + 1, step := 5
        state := .callerLoad } := by
    intro t ht
    have hstarting : starting t = true := by
      rw [starting, ht]
      exact hstart
    simp only [State.stepDone, hstarting, ht, hstep, and_self, if_true, State.stepThree, Nat.reduceAdd, Nat.reduceEqDiff, false_and,
      if_false]
  exact hready _ (hderived _ _)

theorem State.stepFour_passes (hroot : rootMark s = s.start.previousRoot) (hepoch : s.start.bootEpoch ≠ 0xFFFFFFFF#32)
    (hseed : rootInUse s = none ∨ Tab.has s.start.vaultSeeds mgr = true) (haddr : s.pke.callerImageAddr ≠ 0)
    (hstart : starting s = true) (hstep : s.start.step = 4) (n : Nat) :
    (s.vaultChecked n).stepFour = (s.vaultReady n).readImage := by
  have hchange : (s.vaultChecked n).rootChange = s.vaultChecked n := if_pos hroot
  have hnext : (s.vaultChecked n).start.bootEpoch ≠ 0xFFFFFFFF#32 := hepoch
  have hmanager : ∀ t : State, rootInUse t = rootInUse s → t.start.vaultSeeds = s.start.vaultSeeds → t.managerSeed = .ok t := by
    intro t hroot hseeds
    refine if_pos ?_
    rw [hroot, hseeds]
    exact hseed.imp_left fun h => by rw [h]; rfl
  have himage : imageAddr (s.vaultReady n) ≠ 0 := by
    have hpke : (s.vaultReady n).pke = s.pke := by
      refine (State.stepDone_field (φ := .pke) _ 4 (by simp)).trans ((State.deriveDevice_field (φ := .pke) _ (by simp)).trans ?_)
      exact State.internalRan_field (φ := .pke) _ _ (by simp)
    rw [imageAddr, s.vaultReady_start hstart hstep n, if_neg (by simp), hpke]
    intro h
    exact haddr (BitVec.eq_of_toNat_eq h)
  have hbegin : (s.vaultReady n).beginImage = (s.vaultReady n).readImage := if_pos himage
  rw [← hbegin]
  have hcounted := hmanager (s.epochCounted n) rfl rfl
  simp only [State.epochCounted] at hcounted
  simp only [State.stepFour, hchange, if_neg hnext, hcounted, State.vaultReady, State.epochCounted]

/-- The state in which an image has been taken and the start is complete. -/
def State.imageTaken (s : State) (image : Bytes) (signed : Bool) : State :=
  (((s.imageHashed image).takeImage image signed).deriveAlias).startComplete

/-- The start completed: RUNNING with the Caller ready. -/
theorem State.startComplete_runs (s : State) :
    (s.startComplete.start.state = .running ∧ s.startComplete.start.failedStarts = 0) ∧
      s.startComplete.pke = { s.pke with caller := .ready } ∧ s.startComplete.ident = s.ident ∧ waits s.startComplete 0x238 := by
  have hfold : ∀ (l : List Nat) (t : State), (l.foldl (fun u n => u.onSlice n (fun x => { x with pending := true })) t).start = t.start ∧
      (l.foldl (fun u n => u.onSlice n (fun x => { x with pending := true })) t).pke = t.pke := fun l t =>
    List.foldlRecOn (motive := fun u : State => u.start = t.start ∧ u.pke = t.pke) _ _ ⟨rfl, rfl⟩ fun _ hu _ _ => hu
  have hlevels : ∀ t : State, t.levelsAll.start = t.start ∧ t.levelsAll.pke = t.pke := fun t =>
    ⟨State.levelsAll_field (φ := .start) t (by simp), State.levelsAll_field (φ := .pke) t (by simp)⟩
  refine ⟨?_, ?_, State.startComplete_field (φ := .ident) s (by simp), State.raise_waits _ _ _ _ (by decide)⟩
  · simp only [State.startComplete, State.raise_start, hlevels, hfold, and_self]
  · simp only [State.startComplete, State.raise_pke, hlevels, hfold]

theorem State.imageTaken_runs (s : State) (image : Bytes) (signed : Bool) :
    ((s.imageTaken image signed).start.state = .running ∧ (s.imageTaken image signed).start.failedStarts = 0) ∧
      (s.imageTaken image signed).pke =
        { s.pke with
          imageSigned := signed, imageDigest := imageDigest image, instrLen := leNat (cut image 12 4)
          routineSet := BitVec.ofNat 64 (leNat (cut image 24 8)), caller := .ready } ∧
      (s.imageTaken image signed).ident.fwVersion = (if signed then BitVec.ofNat 32 (leNat (cut image 4 4)) else 0) ∧
      waits (s.imageTaken image signed) 0x238 := by
  have hpke : (s.imageHashed image).pke = s.pke := State.imageHashed_field (φ := .pke) s image (by simp)
  have halias : ∀ t : State, t.deriveAlias.pke = t.pke ∧ t.deriveAlias.ident = t.ident := fun t =>
    ⟨State.deriveAlias_field (φ := .pke) t (by simp), State.deriveAlias_field (φ := .ident) t (by simp)⟩
  obtain ⟨hrun, hcaller, hident, hwaits⟩ := (((s.imageHashed image).takeImage image signed).deriveAlias).startComplete_runs
  refine ⟨hrun, ?_, ?_, hwaits⟩
  · rw [State.imageTaken, hcaller, (halias _).1]
    simp only [State.takeImage, hpke]
  · rw [State.imageTaken, hident, (halias _).2]
    rfl

section
variable (hstart : starting s = true)
include hstart

theorem starting_not_pavane : s.start.state ≠ .pavane := by
  intro h
  simp [starting, h] at hstart

theorem execSelfTestDone_passes {k : Nat} (hk : k = 1 ∨ k = 2) (hstep : s.start.step = k) :
    ∃ t, exec (.selfTestDone k none) s = .next t ∧
      t.start.step = (if k = 2 ∧ s.rng.state = .running then 4 else k + 1) := by
  have hturn : ¬ (k ≠ 1 ∧ k ≠ 2) := by omega
  refine ⟨s.stepDone k, ?_, ?_⟩
  · simp only [exec, execSelfTestDone, if_neg hturn, starting_not_pavane hstart, hstart, hstep, ne_eq, not_true_eq_false,
      Bool.not_true, Bool.false_eq_true, or_self, if_false]
  · simp only [State.stepDone, hstart, hstep, and_self, if_true, State.stepThree]
    rcases hk with rfl | rfl
    · simp
    · by_cases hrun : s.rng.state = .running <;> simp [hrun]

theorem execSelfTestDone_fails {k : Nat} (hk : k = 1 ∨ k = 2) (hstep : s.start.step = k) (r d : Nat) :
    exec (.selfTestDone k (some (r, d))) s = .next (s.startFail r d) := by
  have hturn : ¬ (k ≠ 1 ∧ k ≠ 2) := by omega
  simp only [exec, execSelfTestDone, if_neg hturn, starting_not_pavane hstart, hstart, hstep, ne_eq, not_true_eq_false, Bool.not_true,
    Bool.false_eq_true, or_self, if_false]

section
variable (hstep : s.start.step = 4) (herase : s.start.erasePending = false)
include hstep herase

theorem execVaultCheckDone_step (n : Nat) (damaged : Option Nat) :
    exec (.vaultCheckDone n damaged) s = .next (
      match damaged with
      | some m => (s.vaultChecked n).startFail 0x07 m
      | none => (s.vaultChecked n).stepFour) := by
  have hpavane : (s.start.state == StartState.pavane) = false := by simpa using starting_not_pavane hstart
  have hvault : s.eraseVault = s := by simp only [State.eraseVault, herase, Bool.false_eq_true, if_false]
  simp only [exec, execVaultCheckDone, hpavane, Bool.false_and, Bool.false_or, hstart, hstep, beq_self_eq_true, Bool.and_self,
    Bool.not_true, Bool.false_eq_true, if_false, hvault, State.vaultChecked] <;> cases damaged <;> rfl

theorem execVaultCheckDone_passes (n : Nat) (hroot : rootMark s = s.start.previousRoot) (hepoch : s.start.bootEpoch ≠ 0xFFFFFFFF#32)
    (hseed : rootInUse s = none ∨ Tab.has s.start.vaultSeeds mgr = true) (haddr : s.pke.callerImageAddr ≠ 0) :
    ∃ t, exec (.vaultCheckDone n none) s = .next t ∧ t.start.bootEpoch = s.start.bootEpoch + 1 ∧ t.start.step = 5 ∧
      t.start.state = .callerLoad ∧ t.pke.caller = .verifying := by
  obtain ⟨hcaller, hboot, hfive, hload⟩ := (s.vaultReady n).readImage_begun
  have hready := s.vaultReady_start hstart hstep n
  refine ⟨(s.vaultReady n).readImage, ?_, by rw [hboot, hready], by rw [hfive, hready], by rw [hload, hready], hcaller⟩
  rw [execVaultCheckDone_step hstart hstep herase]
  exact congrArg Host.Outcome.next (State.stepFour_passes hroot hepoch hseed haddr hstart hstep n)

end

/-! ## Step 5 (R557, R558) -/

section
variable (hstep : s.start.step = 5) (hcaller : s.pke.caller = .verifying) (hread : imageRead s = true)
include hstep hcaller hread

theorem execCallerImageCheckDone_step :
    exec .callerImageCheckDone s = .next ((s.stepFive (imageBytes s)).forgetImage) := by
  simp only [exec, execCallerImageCheckDone, hcaller, hread, ne_eq, not_true_eq_false, Bool.not_true, Bool.false_eq_true, or_self,
    if_false, starting_not_pavane hstart, hstart, hstep, and_self, if_true]

theorem callerImage_malformed {r d : Nat} (hformat : imageFormat s 0x46433954 (imageBytes s) = some (r, d)) :
    ∃ t, exec .callerImageCheckDone s = .next t ∧ t.start.failReason = r := by
  refine ⟨_, execCallerImageCheckDone_step hstart hstep hcaller hread, ?_⟩
  simp only [State.stepFive, hformat]
  exact (State.startFail_start hstart r d).1

section
variable (hformat : imageFormat s 0x46433954 (imageBytes s) = none)
include hformat

theorem callerImage_accepted (haccept : imageAccept s (imageBytes s) = none) :
    ∃ t, exec .callerImageCheckDone s = .next t ∧ t.start.state = .running ∧ t.start.failedStarts = 0 ∧ t.pke.caller = .ready ∧
      t.pke.imageSigned = true ∧ t.pke.imageDigest = imageDigest (imageBytes s) ∧ waits t 0x238 := by
  obtain ⟨hstart', hpke, -, hwaits⟩ := s.imageTaken_runs (imageBytes s) true
  refine ⟨(s.imageTaken (imageBytes s) true).forgetImage, ?_, ?_⟩
  · rw [execCallerImageCheckDone_step hstart hstep hcaller hread]
    simp only [State.stepFive, hformat, haccept, State.imageTaken]
  · have hsame : (s.imageTaken (imageBytes s) true).forgetImage.start = (s.imageTaken (imageBytes s) true).start := rfl
    have hsame' : (s.imageTaken (imageBytes s) true).forgetImage.pke = (s.imageTaken (imageBytes s) true).pke := rfl
    rw [hsame, hsame', hpke]
    exact ⟨hstart'.1, hstart'.2, rfl, rfl, rfl, waits_of_events rfl hwaits⟩

theorem callerImage_unsigned {r d : Nat} (haccept : imageAccept s (imageBytes s) = some (r, d)) (hok : unsignedOk s = true) :
    ∃ t, exec .callerImageCheckDone s = .next t ∧ t.start.state = .running ∧ t.pke.caller = .ready ∧ t.pke.imageSigned = false ∧
      t.ident.fwVersion = 0 := by
  obtain ⟨hstart', hpke, hident, -⟩ := s.imageTaken_runs (imageBytes s) false
  refine ⟨(s.imageTaken (imageBytes s) false).forgetImage, ?_, ?_⟩
  · rw [execCallerImageCheckDone_step hstart hstep hcaller hread]
    simp only [State.stepFive, hformat, haccept, hok, if_true, State.imageTaken]
  · have hsame : (s.imageTaken (imageBytes s) false).forgetImage.start = (s.imageTaken (imageBytes s) false).start := rfl
    have hsame' : (s.imageTaken (imageBytes s) false).forgetImage.pke = (s.imageTaken (imageBytes s) false).pke := rfl
    rw [hsame, hsame', hpke]
    exact ⟨hstart'.1, rfl, rfl, hident⟩

theorem callerImage_refused {r d : Nat} (haccept : imageAccept s (imageBytes s) = some (r, d)) (hno : unsignedOk s = false) :
    ∃ t, exec .callerImageCheckDone s = .next t ∧ t.start.failReason = r := by
  have hhashed : starting (s.imageHashed (imageBytes s)) = true := by
    have hsame : (s.imageHashed (imageBytes s)).start = s.start := State.imageHashed_field (φ := .start) s _ (by simp)
    rw [starting, hsame]
    exact hstart
  refine ⟨((s.imageHashed (imageBytes s)).startFail r d).forgetImage, ?_, (State.startFail_start hhashed r d).1⟩
  rw [execCallerImageCheckDone_step hstart hstep hcaller hread]
  simp only [State.stepFive, hformat, haccept, hno, Bool.false_eq_true, if_false]

end

end

end

/-! ## Pavane mode (R562) -/

/-- The tests that a mask asks for, and that do not run already. -/
def testsAsked (s : State) (mask : Nat) : List Nat :=
  ([1, 2, 3, 4] : List Nat).filter (fun n => bit mask n && !(s.start.testsRunning.contains n))

/-- A test asked for runs, step 3 apart, which a service that does not start again ends at once. -/
theorem rerunTests_runs {mask n : Nat} (hpavane : s.start.state = .pavane) (hn : n ∈ s.start.testsRunning ++ testsAsked s mask)
    (h3 : n ≠ 3) : n ∈ (s.rerunTests mask).2.start.testsRunning := by
  simp only [testsAsked] at hn
  simp only [State.rerunTests, hpavane, ne_eq, not_true_eq_false, if_false]
  split
  · exact hn
  · split
    · exact List.mem_filter.mpr ⟨hn, by simpa using h3⟩
    · split
      · exact hn
      · have hkept : ∀ t : State, t.testSources.start = t.start := fun t => State.testSources_field (φ := .start) t (by simp)
        rw [hkept]
        exact hn

theorem mem_testsAsked {mask n : Nat} (hn : n = 1 ∨ n = 2 ∨ n = 4) (hbit : bit mask n = true) :
    n ∈ s.start.testsRunning ++ testsAsked s mask := by
  by_cases hin : n ∈ s.start.testsRunning
  · exact List.mem_append_left _ hin
  · refine List.mem_append_right _ (List.mem_filter.mpr ⟨?_, ?_⟩)
    · rcases hn with rfl | rfl | rfl <;> simp
    · simp [hbit, hin]

end

/-- Settles O39: each step of a start brings the next or is recorded as failed, and Pavane mode runs the tests it is asked to. -/
theorem startSequenceStepsAndFails : Obligations.StartSequenceStepsAndFails := by
  unfold Obligations.StartSequenceStepsAndFails
  refine ⟨?_, ?_, ?_⟩
  · intro s hdecode hreset halarm
    exact ⟨fun v hvote hv hquiet => ⟨lcDecode_starts hdecode hreset halarm hvote hv hquiet,
        lcDecode_unreadable hdecode hreset halarm hvote hv hquiet⟩,
      fun v hvote hv hactive => lcDecode_waits hdecode hreset halarm hvote hv hactive, lcDecode_scraps hdecode hreset halarm⟩
  · intro s hstart
    refine ⟨fun k hk hstep => ⟨execSelfTestDone_passes hstart hk hstep, fun r d => ?_⟩, fun hstep herase => ⟨fun n m => ?_,
      fun n hroot hepoch hseed haddr => execVaultCheckDone_passes hstart hstep herase n hroot hepoch hseed haddr⟩, ?_⟩
    · obtain ⟨hreason, hstate, -⟩ := State.startFail_start hstart r d
      exact ⟨_, execSelfTestDone_fails hstart hk hstep r d, hreason, hstate⟩
    · obtain ⟨hreason, -, hrepairs⟩ := State.startFail_start (s := s.vaultChecked n) hstart 0x07 m
      exact ⟨_, execVaultCheckDone_step hstart hstep herase n (some m), hreason, hrepairs⟩
    · intro hstep hcaller hread image
      exact ⟨fun r d hformat => callerImage_malformed hstart hstep hcaller hread hformat,
        fun hformat haccept => callerImage_accepted hstart hstep hcaller hread hformat haccept,
        fun r d hformat haccept => ⟨callerImage_unsigned hstart hstep hcaller hread hformat haccept,
          callerImage_refused hstart hstep hcaller hread hformat haccept⟩⟩
  · intro s mask hpavane
    refine ⟨_, rfl, fun n hn hbit => rerunTests_runs hpavane (mem_testsAsked hn hbit) (by omega)⟩

end Sys2Proof.Machine
end

section
/-!
SUPPORT. The kinds of reset, and the ORDERLY reset that waits for the work (O40).
-/
namespace Sys2Proof.Machine

section
variable {s t u : State} {kind : ResetKind} {held : Bool} {x : Straps}

/-! ## A restart, held or released (R548 to R551) -/

@[simp] theorem LifeCycle.cut_tokens (n : Nat) (l : LifeCycle) : (l.cut n).tokens = l.tokens := by
  unfold LifeCycle.cut
  split
  · rfl
  · dsimp only
    split <;> rfl

theorem State.restart_rebooted (s : State) (kind : ResetKind) (x : Straps) :
    rebooted s (s.restart kind x) kind false :=
  ⟨rfl, rfl, rfl, rfl, rfl, rfl, rfl, rfl, rfl, rfl, rfl, rfl, rfl, rfl, rfl, rfl, LifeCycle.cut_tokens _ s.lc, rfl⟩

/-- What a reset leaves depends on the state before by what it keeps. -/
theorem rebooted.of_kept (h : rebooted u t kind held) (hboot : u.start.bootEpoch = s.start.bootEpoch) (hlc : u.lc = s.lc)
    (hpending : u.pending = s.pending) : rebooted s t kind held := by
  rwa [rebooted, hboot, hlc, hpending] at h

/-- What a reset leaves holds of a state that differs in the link alone. -/
theorem rebooted_of_link (h : rebooted s t kind held) (hfield : ∀ φ, φ ≠ .link → u.field φ = t.field φ) :
    rebooted s u kind held := by
  have hstart : u.start = t.start := hfield .start (by simp)
  have hreqs : u.reqs = t.reqs := hfield .reqs (by simp)
  have hengine : u.engine = t.engine := hfield .engine (by simp)
  have hlanes : u.lanes = t.lanes := hfield .lanes (by simp)
  have hdigest : u.digest = t.digest := hfield .digest (by simp)
  have htango : u.tango = t.tango := hfield .tango (by simp)
  have haccess : u.access = t.access := hfield .access (by simp)
  have hport : u.port = t.port := hfield .port (by simp)
  have hmemory : u.memory = t.memory := hfield .memory (by simp)
  have hdict : u.dict = t.dict := hfield .dict (by simp)
  have hevents : u.events = t.events := hfield .events (by simp)
  have hfifos : u.fifos = t.fifos := hfield .fifos (by simp)
  have hspread : u.spread = t.spread := hfield .spread (by simp)
  have hlc : u.lc = t.lc := hfield .lc (by simp)
  have hpending : u.pending = t.pending := hfield .pending (by simp)
  rwa [rebooted, hstart, hreqs, hengine, hlanes, hdigest, htango, haccess, hport, hmemory, hdict, hevents, hfifos, hspread,
    hlc, hpending]

theorem State.reboot_rebooted (s : State) (kind : ResetKind) (x : Straps) : rebooted s (s.reboot kind x) kind false :=
  rebooted_of_link (t := { s.restart kind x with start := { (s.restart kind x).start with inReset := false } })
    (s.restart_rebooted kind x)
    fun _ hφ => field_foldl _ State.tryLock (fun t p => t.tryLock_field p hφ) [0, 1]

theorem State.hold_rebooted (s : State) (kind : ResetKind) (x : Straps) : rebooted s (s.hold kind x) kind true :=
  ⟨rfl, rfl, rfl, rfl, rfl, rfl, rfl, rfl, rfl, rfl, rfl, rfl, rfl, rfl, rfl, rfl, LifeCycle.cut_tokens _ s.lc, rfl⟩

theorem State.reboot_iso (s : State) (kind : ResetKind) (x : Straps) : (s.reboot kind x).pins.iso = s.pins.iso :=
  have hpins : (s.reboot kind x).pins = (s.restart kind x).pins :=
    State.released_field (φ := .pins) (s.restart kind x) (by simp)
  have hkept : (s.restart kind x).pins.iso = s.pins.iso := rfl
  (congrArg Pins.iso hpins).trans hkept

theorem State.reboot_failedStarts (s : State) (kind : ResetKind) (x : Straps) :
    (s.reboot kind x).start.failedStarts = s.start.failedStarts :=
  have hstart : (s.reboot kind x).start = { (s.restart kind x).start with inReset := false } :=
    field_foldl (φ := .start) _ State.tryLock (fun t p => t.tryLock_field p (by simp)) [0, 1]
  have hkept : (s.restart kind x).start.failedStarts = s.start.failedStarts := rfl
  (congrArg Start.failedStarts hstart).trans hkept

/-! ## An ORDERLY reset (R550, R551) -/

/-- The start of an ORDERLY reset releases pages and stops requests, and neither touches the start or the ring engine. -/
theorem State.orderlyBegin_stops (s : State) :
    s.orderlyBegin.start.state = .resetting ∧ s.orderlyBegin.engine.fetchStopped = true := by
  have hrest : ∀ φ, φ ≠ .reqs ∧ φ ≠ .lanes ∧ φ ≠ .keys ∧ φ ≠ .digest → s.orderlyBegin.field φ =
      State.field { s with
        engine := { s.engine with fetchStopped := true }
        start := { s.start with state := .resetting, orderlyWaitsLc := false, drainStarted := true } } φ := by
    intro φ hφ
    simp [State.orderlyBegin, hφ]
  have hstart := hrest .start (by simp)
  have hengine := hrest .engine (by simp)
  exact ⟨congrArg Start.state hstart, congrArg RingEngine.fetchStopped hengine⟩

section
variable (hreset : s.start.inReset = false) (hresetting : s.start.state ≠ .resetting)
include hreset hresetting

theorem State.orderly_waits (hstatus : s.lc.status = 1) :
    s.orderly = { s with start := { s.start with orderlyWaitsLc := true } } := by
  simp only [State.orderly, hreset, hresetting, hstatus, Bool.false_eq_true, or_self, if_true, if_false]

theorem State.orderly_begins (hstatus : s.lc.status ≠ 1) : s.orderly = s.orderlyBegin := by
  simp only [State.orderly, hreset, hresetting, hstatus, Bool.false_eq_true, or_self, if_false]

end

theorem State.pavaneExit_reboots (hreset : s.start.inReset = false) (hreason : s.start.failReason ≠ 0x0D) (x : Straps) :
    (s.pavaneExit x).2 = { s with start := { s.start with failedStarts := 0 } }.reboot .immediate x := by
  simp only [State.pavaneExit, hreset, hreason, Bool.false_eq_true, or_self, if_false]

/-! ## The pins of reset -/

theorem execPowerOn_free (hiso : s.pins.iso = false) :
    execPowerOn x s = .next ({ s with start := { s.start with powerGood := true } }.reboot .powerOn x) := by
  simp only [execPowerOn, hiso, Bool.false_eq_true, if_false]

theorem execPowerOn_held (hiso : s.pins.iso = true) :
    execPowerOn x s = .next ({ s with start := { s.start with powerGood := true } }.hold .powerOn x) := by
  simp only [execPowerOn, hiso, if_true]

theorem execIso_rises (hgood : s.start.powerGood = true) (hiso : s.pins.iso = false) :
    execIso true x s = .next ({ s with pins := { s.pins with iso := true } }.hold .pin x) := by
  simp only [execIso, hgood, hiso, Bool.not_true, Bool.false_eq_true, Bool.true_eq_false, or_self, if_true, if_false]

theorem execIso_falls (hgood : s.start.powerGood = true) (hiso : s.pins.iso = true) :
    execIso false x s = .next ({ s with pins := { s.pins with iso := false } }.reboot s.start.lastReset x) := by
  simp only [execIso, hgood, hiso, Bool.not_true, Bool.false_eq_true, or_self, if_false]

end

/-- Settles O40: each kind of reset is a restart of the state, held or released. -/
theorem resetsLeaveTheResetState : Obligations.ResetsLeaveTheResetState := by
  unfold Obligations.ResetsLeaveTheResetState
  intro s x
  refine ⟨fun hiso => ⟨_, execPowerOn_free hiso, (State.reboot_rebooted _ _ _).of_kept rfl rfl rfl⟩,
    fun hiso => ⟨_, execPowerOn_held hiso, (State.hold_rebooted _ _ _).of_kept rfl rfl rfl⟩,
    ⟨_, rfl, (State.hold_rebooted _ _ _).of_kept rfl rfl rfl, rfl⟩, ?iso, ?free, ?drain, ?retry⟩
  case iso =>
    exact fun hgood => ⟨fun hiso => ⟨_, execIso_rises hgood hiso, (State.hold_rebooted _ _ _).of_kept rfl rfl rfl, rfl⟩,
      fun hiso => ⟨_, execIso_falls hgood hiso, (State.reboot_rebooted _ _ _).of_kept rfl rfl rfl, State.reboot_iso _ _ _⟩⟩
  case free =>
    intro hreset
    refine ⟨⟨s.reboot .pin x, ?_, State.reboot_rebooted _ _ _⟩, ⟨s.reboot .immediate x, ?_, State.reboot_rebooted _ _ _⟩,
      fun hreason => ⟨_, congrArg Host.Outcome.next (State.pavaneExit_reboots hreset hreason x),
        (State.reboot_rebooted _ _ _).of_kept rfl rfl rfl, State.reboot_failedStarts _ _ _⟩,
      fun hresetting => ⟨fun hstatus => congrArg Host.Outcome.next (State.orderly_waits hreset hresetting hstatus),
        fun hstatus => ⟨_, congrArg Host.Outcome.next (State.orderly_begins hreset hresetting hstatus),
          State.orderlyBegin_stops s⟩⟩⟩
    · simp only [exec, execPin, hreset, Bool.false_eq_true, if_false]
    · simp only [exec, execResetRequestImmediate, hreset, Bool.false_eq_true, if_false]
  case drain =>
    intro hresetting
    refine ⟨⟨s.reboot .orderly x, ?_, State.reboot_rebooted _ _ _⟩,
      fun hdrained => ⟨s.reboot .orderly x, ?_, State.reboot_rebooted _ _ _⟩⟩
    · simp only [exec, execResetDrainLimitExpiry, hresetting, if_true]
    · simp only [exec, execOrderlyResetTakesPlace, hresetting, hdrained, and_self, if_true]
  case retry =>
    intro hhalt harmed
    refine ⟨s.reboot .immediate x, ?_, State.reboot_rebooted _ _ _⟩
    simp only [exec, execStartRetryTimeExpiry, hhalt, harmed, and_self, if_true]

end Sys2Proof.Machine
end

section
/-!
SUPPORT. Tamper alarms and zeroisation, the mesh, the clocks and the detectors (O41).
-/
namespace Sys2Proof.Machine

section
variable {s : State} {i k : Nat}

/-! ## Zeroisation (R566) -/

/-- A table whose every entry is written again gives only values written. -/
theorem Tab.get_foldl_set {α : Type} [DecidableEq α] {P : α → Prop} (d : Nat → α) (g : α → α) (hg : ∀ v, P (g v)) (l t : Tab α)
    (ht : ∀ n, n ∉ l.map Prod.fst → P (Tab.get d t n)) (n : Nat) :
    P (Tab.get d (l.foldl (fun t e => Tab.set d t e.1 (g e.2)) t) n) := by
  induction l generalizing t with
  | nil => exact ht n (by simp)
  | cons e l ih =>
    rw [List.foldl_cons]
    refine ih _ fun m hm => ?_
    by_cases hme : m = e.1
    · rw [hme, Tab.get_set_same]
      exact hg e.2
    · rw [Tab.get_set_other d t e.1 m _ hme]
      refine ht m ?_
      rw [List.map_cons, List.mem_cons, not_or]
      exact ⟨hme, hm⟩

theorem Keys.zeroed_secret (x : Keys) (n : Nat) : (Tab.get Slot.dflt x.zeroed.slots n).secret = [] := by
  refine Tab.get_foldl_set (P := fun v => v.secret = []) Slot.dflt Slot.zeroed (fun _ => rfl) x.slots x.slots ?_ n
  intro m hm
  rw [Tab.get_of_not_mem _ hm]
  rfl

/-- The request that a zeroisation ends. -/
def State.zeroisedReq (t : State) (e : Nat × Req) : State :=
  if e.2.m.headSeen ∧ !e.2.ended then (t.onReq e.1 (fun r => { r with cause := 5 })).myenoEnd e.1 (ends .partialEnd 4) else t

/-- The state in which the requests have ended and the record has been written. -/
def State.zeroisedReqs (s : State) : State := ((s.reqs.foldl State.zeroisedReq s).setRecord 3 [0]).setRecord 4 (zeros 4)

theorem State.zeroisedReqs_field {φ : Field} (s : State) (hφ : φ ≠ .reqs ∧ φ ≠ .lanes ∧ φ ≠ .keys ∧ φ ≠ .digest ∧ φ ≠ .ident) :
    s.zeroisedReqs.field φ = s.field φ := by
  simp [State.zeroisedReqs, State.zeroisedReq, hφ]

/-- What a zeroisation leaves of keys, random numbers and engines. -/
structure Zeroised (t : State) : Prop where
  secret : ∀ n, (t.slot n).secret = []
  coldCache : t.keys.coldCache = []
  rngState : t.rng.state = .stopped
  stopCause : t.rng.stopCause = 6
  pool : t.rng.pool = []
  operands : t.pke.operands = List.replicate 16 []
  threads : t.pke.threads = List.replicate 16 []
  debugRights : t.lc.debugRights = 0
  fetchStopped : t.engine.fetchStopped = true
  alarmPending : t.start.alarmPending = true

theorem State.zeroise_zeroised (s : State) : Zeroised s.zeroise where
  secret := Keys.zeroed_secret s.zeroisedReqs.keys
  coldCache := rfl
  rngState := rfl
  stopCause := rfl
  pool := rfl
  operands := rfl
  threads := rfl
  debugRights := rfl
  fetchStopped := rfl
  alarmPending := rfl

theorem State.zeroise_tamperAlarms (s : State) : s.zeroise.start.tamperAlarms = s.start.tamperAlarms + 1 := by
  have hstart : s.zeroisedReqs.start = s.start := State.zeroisedReqs_field (φ := .start) s (by simp)
  have halarms : s.zeroise.start.tamperAlarms = s.zeroisedReqs.start.tamperAlarms + 1 := rfl
  rw [halarms, hstart]

theorem State.zeroise_waiting (s : State) : s.zeroise.events.waiting = s.events.waiting := by
  have hevents : s.zeroisedReqs.events = s.events := State.zeroisedReqs_field (φ := .events) s (by simp)
  have hwaiting : s.zeroise.events.waiting = s.zeroisedReqs.events.waiting := rfl
  rw [hwaiting, hevents]

theorem waits_zeroise {w : Nat} (h : waits s w) : waits s.zeroise w := by
  rwa [waits, State.zeroise_waiting]

theorem State.alarm_pins (s : State) (src arg info : Nat) : (s.alarm src arg info).pins = s.pins :=
  State.alarm_field (φ := .pins) s src arg info (by simp)

/-- The alarm of a tamper input zeroises. -/
theorem State.alarm_tamper (s : State) (hi : i < 8) (info : Nat) : s.alarm i i info = (s.raise i i info).zeroise := by
  simp only [State.alarm, hi, true_or, if_true]

theorem severityOf_tamper (hi : i < 8) : (severityOf i).isSome = true := by
  have halarm : severityOf i = some .alarm := if_pos (by omega)
  rw [halarm]
  rfl

/-! ## The tamper inputs (R565, R566) -/

/-- The state in which an enabled input has become active, before its alarm. -/
def State.tamperShown (s : State) (i lines : Nat) : State :=
  let active := s.pins.tamperActive ||| BitVec.ofNat 8 (2 ^ i)
  { s with
    pins := { s.pins with
      tamperActive := active
      tamperCause := active &&& tamperMask s
      meshFaultLine := if i < 2 ∨ i = 6 then BitVec.ofNat 20 lines else s.pins.meshFaultLine } }

theorem State.tamperInput_alarm (hactive : s.pins.tamperActive.getLsbD i = false) (hmask : (tamperMask s).getLsbD i = true)
    (hgood : s.start.powerGood = true) (lines : Nat) : s.tamperInput i lines = (s.tamperShown i lines).alarm i i 0 := by
  simp only [State.tamperInput, hactive, hmask, hgood, Bool.not_true, Bool.false_eq_true, or_self, if_false]
  rfl

/-- An input either changes the pins alone or raises its alarm on changed pins, which keep the lines of the mesh. -/
theorem State.tamperInput_cases (s : State) (i lines : Nat) :
    ∃ p : Pins, p.meshOpen = s.pins.meshOpen ∧ p.meshCross = s.pins.meshCross ∧
      (s.tamperInput i lines = { s with pins := p } ∨ s.tamperInput i lines = { s with pins := p }.alarm i i 0) := by
  unfold State.tamperInput
  dsimp only
  split
  · exact ⟨{ s.pins with tamperActive := s.pins.tamperActive ||| BitVec.ofNat 8 (2 ^ i) }, rfl, rfl, .inl rfl⟩
  · exact ⟨(s.tamperShown i lines).pins, rfl, rfl, .inr rfl⟩

theorem State.tamperInput_mesh (s : State) (i lines : Nat) :
    (s.tamperInput i lines).pins.meshOpen = s.pins.meshOpen ∧ (s.tamperInput i lines).pins.meshCross = s.pins.meshCross := by
  obtain ⟨p, hopen, hcross, h | h⟩ := s.tamperInput_cases i lines
  · rw [h]
    exact ⟨hopen, hcross⟩
  · rw [h, State.alarm_pins]
    exact ⟨hopen, hcross⟩

theorem waits_alarm {w : Nat} (src arg info : Nat) (h : waits s w) : waits (s.alarm src arg info) w := by
  unfold State.alarm
  dsimp only
  split
  · exact waits_zeroise (waits_raise _ _ _ h)
  · exact waits_raise _ _ _ h

theorem State.alarm_alarmPending (src arg info : Nat) (h : s.start.alarmPending = true) :
    (s.alarm src arg info).start.alarmPending = true := by
  unfold State.alarm
  dsimp only
  split
  · exact (State.zeroise_zeroised _).alarmPending
  · rw [State.raise_start]
    exact h

/-- What one input has raised stays when another becomes active. -/
theorem State.tamperInput_kept {w : Nat} (i lines : Nat) (h : s.start.alarmPending = true ∧ waits s w) :
    (s.tamperInput i lines).start.alarmPending = true ∧ waits (s.tamperInput i lines) w := by
  obtain ⟨p, -, -, heq | heq⟩ := s.tamperInput_cases i lines
  · rw [heq]
    exact h
  · rw [heq]
    exact ⟨State.alarm_alarmPending _ _ _ h.1, waits_alarm _ _ _ h.2⟩

/-- What the alarm of an enabled input leaves. -/
theorem State.tamperInput_zeroises (hi : i < 8) (hactive : s.pins.tamperActive.getLsbD i = false)
    (hmask : (tamperMask s).getLsbD i = true) (hgood : s.start.powerGood = true) (lines : Nat) :
    Zeroised (s.tamperInput i lines) ∧ waits (s.tamperInput i lines) i ∧
      (s.tamperInput i lines).start.tamperAlarms = s.start.tamperAlarms + 1 ∧
      (s.tamperInput i lines).pins = (s.tamperShown i lines).pins := by
  have heq := State.tamperInput_alarm hactive hmask hgood lines
  have hpins := State.alarm_pins (s.tamperShown i lines) i i 0
  rw [← heq] at hpins
  rw [State.alarm_tamper _ hi] at heq
  refine ⟨?_, ?_, ?_, hpins⟩
  · rw [heq]
    exact State.zeroise_zeroised _
  · rw [heq]
    exact waits_zeroise (State.raise_waits _ _ _ _ (severityOf_tamper hi))
  · rw [heq, State.zeroise_tamperAlarms, State.raise_start]
    rfl

/-! ## The hold and the wait (R567, R568) -/

theorem State.eraseVault_erasePending (s : State) : s.eraseVault.start.erasePending = false := by
  unfold State.eraseVault
  split
  · rfl
  · next h => exact Bool.eq_false_iff.mpr h

theorem execTamperHold_holds (hpending : s.start.alarmPending = true) (hstate : s.start.state ≠ .tamperHold) (hreqs : s.reqs = [])
    (hsettled : s.engine.pairs.all (fun e => recordsSettled e.2) = true) :
    execTamperHold s = .next { s.eraseVault with start := { s.eraseVault.start with state := .tamperHold } } := by
  simp only [execTamperHold, hpending, hstate, hreqs, hsettled, List.isEmpty_nil, Bool.not_true, Bool.false_eq_true, or_self,
    if_false]

/-- The state in which the inputs that were enabled are inactive again. -/
def State.tamperCleared (s : State) : State :=
  { s with pins := { s.pins with tamperActive := s.pins.tamperActive &&& ~~~(tamperMask s) } }

theorem execTamperWaitEnd_proceeds (hstate : s.start.state = .tamperWait) (hpending : s.start.alarmPending = false) :
    execTamperWaitEnd s = .next s.tamperCleared.proceed := by
  simp only [execTamperWaitEnd, hstate, hpending, Bool.not_false, and_self, if_true]
  rfl

theorem State.proceed_again (h : s.start.failedStarts < 3) : s.proceed.start.state = .selfTest ∧ s.proceed.start.step = 1 := by
  rw [State.proceed, if_neg (by omega)]
  exact ⟨rfl, rfl⟩

theorem State.proceed_pavane (h : 3 ≤ s.start.failedStarts) : s.proceed.start.state = .pavane := by
  obtain ⟨hstate, -, -⟩ := s.pavane_start
  rw [State.proceed, if_pos h]
  split
  · rw [State.raise_start]
    exact hstate
  · exact hstate

/-! ## The mesh (21 R667) -/

/-- The alarm of mesh input `i` for the lines that mismatched at two changes running. -/
def State.meshInput (s : State) (i : Nat) (lines : BitVec 20) : State := if lines = 0 then s else s.tamperInput i lines.toNat

/-- The state that shows the lines of a change. -/
def State.meshShown (s : State) (a b : BitVec 20) : State := { s with pins := { s.pins with meshOpen := a, meshCross := b } }

/-- The state after the inputs of a change: open lines, lines short of the shield, and lines of the other layer. -/
def State.meshChanged (s : State) (a b : BitVec 20) : State :=
  let opens := a &&& s.pins.meshOpen
  let shorts := b &&& s.pins.meshCross
  (((s.meshShown a b).meshInput 0 (opens &&& 0xFFFF)).meshInput 1 (shorts &&& 0xFFFF)).meshInput 6
    ((opens ||| shorts) &&& 0xF0000)

theorem execMeshPatternChange_changes (hgood : s.start.powerGood = true) (a b : BitVec 20) :
    execMeshPatternChange a b s = .next (s.meshChanged a b) := by
  simp only [execMeshPatternChange, hgood, Bool.not_true, Bool.false_eq_true, if_false]
  rfl

theorem State.meshInput_mesh (s : State) (i : Nat) (lines : BitVec 20) :
    (s.meshInput i lines).pins.meshOpen = s.pins.meshOpen ∧ (s.meshInput i lines).pins.meshCross = s.pins.meshCross := by
  unfold State.meshInput
  split
  · exact ⟨rfl, rfl⟩
  · exact State.tamperInput_mesh _ _ _

theorem State.meshInput_kept {w : Nat} (i : Nat) (lines : BitVec 20) (h : s.start.alarmPending = true ∧ waits s w) :
    (s.meshInput i lines).start.alarmPending = true ∧ waits (s.meshInput i lines) w := by
  unfold State.meshInput
  split
  · exact h
  · exact State.tamperInput_kept _ _ h

theorem State.meshInput_zero (s : State) (i : Nat) : s.meshInput i 0 = s := if_pos rfl

theorem State.meshChanged_mesh (s : State) (a b : BitVec 20) :
    (s.meshChanged a b).pins.meshOpen = a ∧ (s.meshChanged a b).pins.meshCross = b := by
  simp only [State.meshChanged, State.meshInput_mesh]
  exact ⟨rfl, rfl⟩

theorem State.meshChanged_alarms {a : BitVec 20} (b : BitVec 20) (hlines : (a &&& s.pins.meshOpen) &&& 0xFFFF#20 ≠ 0)
    (hactive : s.pins.tamperActive.getLsbD 0 = false) (hmask : (tamperMask s).getLsbD 0 = true)
    (hgood : s.start.powerGood = true) :
    (s.meshChanged a b).start.alarmPending = true ∧ waits (s.meshChanged a b) 0 := by
  have hfirst : (s.meshShown a b).meshInput 0 ((a &&& s.pins.meshOpen) &&& 0xFFFF) =
      (s.meshShown a b).tamperInput 0 ((a &&& s.pins.meshOpen) &&& 0xFFFF).toNat := if_neg hlines
  obtain ⟨hzero, hwaits, -, -⟩ := State.tamperInput_zeroises (s := s.meshShown a b) (i := 0) (by omega) hactive hmask hgood
    ((a &&& s.pins.meshOpen) &&& 0xFFFF).toNat
  rw [← hfirst] at hzero hwaits
  exact State.meshInput_kept _ _ (State.meshInput_kept _ _ ⟨hzero.alarmPending, hwaits⟩)

theorem State.meshChanged_quiet {a b : BitVec 20} (hopen : a &&& s.pins.meshOpen = 0) (hcross : b &&& s.pins.meshCross = 0) :
    s.meshChanged a b = s.meshShown a b := by
  have hnone : ∀ m : BitVec 20, 0 &&& m = 0 := fun _ => BitVec.zero_and
  simp only [State.meshChanged, hopen, hcross, BitVec.or_self, hnone, State.meshInput_zero]

theorem execMeshReseed_draws (hrun : s.rng.state = .running) (hdue : reseedDue s = false) :
    execMeshReseed s = .next { (s.internalDraw 32).2 with
      pins := { (s.internalDraw 32).2.pins with meshSeeds := (s.internalDraw 32).2.pins.meshSeeds + 1 } } := by
  simp only [execMeshReseed, hrun, hdue, Bool.not_false, and_self, if_true]

/-! ## The clocks (21 R648, R663) -/

theorem getLsbD_twoPow_nine (hk : k < 9) (j : Nat) : (BitVec.ofNat 9 (2 ^ k)).getLsbD j = decide (j = k) := by
  have htwo : BitVec.ofNat 9 (2 ^ k) = BitVec.twoPow 9 k := BitVec.eq_of_toNat_eq (by simp [BitVec.toNat_twoPow])
  rw [htwo, BitVec.getLsbD_twoPow, Bool.eq_iff_iff]
  simp only [Bool.and_eq_true, decide_eq_true_eq]
  omega

theorem getLsbD_without (x : BitVec 9) (hk : k < 9) (j : Nat) :
    (x &&& ~~~(BitVec.ofNat 9 (2 ^ k))).getLsbD j = (x.getLsbD j && decide (j ≠ k)) := by
  rw [BitVec.getLsbD_and, BitVec.getLsbD_not, getLsbD_twoPow_nine hk]
  by_cases hj : j < 9
  · simp [hj]
  · simp [BitVec.getLsbD_of_ge x j (by omega)]

theorem getLsbD_with (x : BitVec 9) (hk : k < 9) (j : Nat) :
    (x ||| BitVec.ofNat 9 (2 ^ k)).getLsbD j = (x.getLsbD j || decide (j = k)) := by
  rw [BitVec.getLsbD_or, getLsbD_twoPow_nine hk]

/-- The state in which clock `k` runs again. -/
def State.clockOn (s : State) (k : Nat) : State :=
  { s with pins := { s.pins with clocksPresent := s.pins.clocksPresent ||| BitVec.ofNat 9 (2 ^ k) } }

theorem execClockReturned_shows (hk : k < 9) (s : State) :
    ∃ t, execClockReturned k s = .next t ∧ t.pins = (s.clockOn k).pins := by
  refine ⟨_, unit_next _ hk, ?_⟩
  split
  · exact State.readImage_field (φ := .pins) (s.clockOn k) (by simp)
  · rfl

end

/-- Settles O41: an alarm zeroises the state that shows its input; a mesh change is three such inputs. -/
theorem tamperZeroisesAndPinsShow : Obligations.TamperZeroisesAndPinsShow := by
  unfold Obligations.TamperZeroisesAndPinsShow
  intro s
  refine ⟨?alarm, ?hold, ?wait, ?mesh, ?seed, ?detectors, ?clocks⟩
  case alarm =>
    intro i lines hi hactive hmask hgood
    obtain ⟨hzero, hwaits, halarms, hpins⟩ := State.tamperInput_zeroises hi hactive hmask hgood lines
    exact ⟨_, unit_next _ hi, hwaits, hzero.alarmPending, halarms, by rw [hpins]; exact getLsbD_or_twoPow _ hi, hzero.secret,
      hzero.coldCache, hzero.rngState, hzero.stopCause, hzero.pool, hzero.operands, hzero.threads, hzero.debugRights,
      hzero.fetchStopped⟩
  case hold =>
    exact fun hpending hstate hreqs hsettled => ⟨_, execTamperHold_holds hpending hstate hreqs hsettled, rfl,
      s.eraseVault_erasePending⟩
  case wait =>
    intro hstate hpending
    have hexec := execTamperWaitEnd_proceeds hstate hpending
    exact ⟨fun hfew => ⟨_, hexec, State.proceed_again (s := s.tamperCleared) hfew⟩,
      fun hmany => ⟨_, hexec, State.proceed_pavane (s := s.tamperCleared) hmany⟩⟩
  case mesh =>
    intro hgood a b
    obtain ⟨hopen, hcross⟩ := s.meshChanged_mesh a b
    exact ⟨_, execMeshPatternChange_changes hgood a b, hopen, hcross,
      fun hlines hactive hmask => State.meshChanged_alarms b hlines hactive hmask hgood,
      fun hopens hshorts => State.meshChanged_quiet hopens hshorts⟩
  case seed =>
    intro hrun hdue
    have hpins : (s.internalDraw 32).2.pins = s.pins := State.internalDraw_field (φ := .pins) s 32 (by simp)
    refine ⟨_, execMeshReseed_draws hrun hdue, ?_⟩
    rw [hpins]
  case detectors =>
    intro hgood
    simp only [exec, execVoltageDetectorsArmed, hgood, if_true]
  case clocks =>
    intro k hk
    obtain ⟨t, hexec, hpins⟩ := execClockReturned_shows hk s
    exact ⟨⟨_, unit_next _ hk, getLsbD_without _ hk⟩, ⟨t, hexec, fun j _ => by rw [hpins]; exact getLsbD_with _ hk j⟩⟩

end Sys2Proof.Machine
end

section
/-!
SUPPORT. The state of the link ports: what sending leaves of them, and how they come up, fail and go down (O42).
-/
namespace Sys2Proof.Machine

/-! ## What sending leaves of a port (R580, R581, R592) -/

/-- A port without what sending a message changes of it. -/
def LinkPort.settled (l : LinkPort) : LinkPort :=
  { l with
    framesTx := 0, lseqTx := 0, kept := [], credits := 0, creditsDue := 0, lackDue := false, queued := [], echoSent := none }

/-- Port `l'` is port `l` after messages: only what sending uses has changed, and nothing of a port that may not send. -/
structure LinkPort.sends (l l' : LinkPort) : Prop where
  settled : l'.settled = l.settled
  quiet : l.state ≠ .identify → l.state ≠ .up → l' = l

/-- Every port of `t` is that of `s` after messages. -/
def sendsOnly (s t : State) : Prop := ∀ p, (s.lport p).sends (t.lport p)

section
variable {s t u : State} {l l' : LinkPort} {p : Nat}

theorem LinkPort.sends.refl (l : LinkPort) : l.sends l := ⟨rfl, fun _ _ => rfl⟩

theorem LinkPort.sends.trans {l'' : LinkPort} (h : l.sends l') (h' : l'.sends l'') : l.sends l'' where
  settled := h'.settled.trans h.settled
  quiet hidentify hup := by
    have heq := h.quiet hidentify hup
    rw [← heq] at hidentify hup
    rw [h'.quiet hidentify hup, heq]

theorem LinkPort.sends.get {α : Type} (h : l.sends l') (f : LinkPort → α) : f l'.settled = f l.settled := congrArg f h.settled

theorem LinkPort.sends.state (h : l.sends l') : l'.state = l.state := h.get LinkPort.state

theorem LinkPort.sends.enable (h : l.sends l') : l'.enable = l.enable := h.get LinkPort.enable

theorem LinkPort.sends.peerDevice (h : l.sends l') : l'.peerDevice = l.peerDevice := h.get LinkPort.peerDevice

theorem LinkPort.sends.identSeen (h : l.sends l') : l'.identSeen = l.identSeen := h.get LinkPort.identSeen

theorem LinkPort.sends.width (h : l.sends l') : l'.width = l.width := h.get LinkPort.width

theorem LinkPort.sends.laneSet (h : l.sends l') : l'.laneSet = l.laneSet := h.get LinkPort.laneSet

theorem LinkPort.sends.laneStatus (h : l.sends l') : l'.laneStatus = l.laneStatus := h.get LinkPort.laneStatus

theorem LinkPort.sends.polarity (h : l.sends l') : l'.polarity = l.polarity := h.get LinkPort.polarity

theorem LinkPort.sends.reversed (h : l.sends l') : l'.reversed = l.reversed := h.get LinkPort.reversed

theorem LinkPort.sends.lastUp (h : l.sends l') : l'.lastUp = l.lastUp := h.get LinkPort.lastUp

theorem LinkPort.sends.trial (h : l.sends l') : l'.trial = l.trial := h.get LinkPort.trial

theorem LinkPort.sends.hopDelay (h : l.sends l') : l'.hopDelay = l.hopDelay := h.get LinkPort.hopDelay

theorem LinkPort.sends.relockDue (h : l.sends l') : l'.relockDue = l.relockDue := h.get LinkPort.relockDue

theorem LinkPort.sends.phyReady (h : l.sends l') : l'.phyReady = l.phyReady := h.get LinkPort.phyReady

theorem LinkPort.sendPacks_settled (ms : List (List Msg)) (l : LinkPort) : (sendPacks ms l).settled = l.settled := by
  induction ms generalizing l with
  | nil => rfl
  | cons m ms ih =>
    rw [sendPacks]
    split
    · exact ih _
    · rfl

theorem LinkPort.flush_settled (l : LinkPort) : l.flush.settled = l.settled := LinkPort.sendPacks_settled _ _

theorem sendsOnly.refl (s : State) : sendsOnly s s := fun _ => .refl _

theorem sendsOnly.trans (h : sendsOnly s t) (h' : sendsOnly t u) : sendsOnly s u := fun p => (h p).trans (h' p)

theorem sendsOnly_of_ports (h : t.link.ports = s.link.ports) : sendsOnly s t := by
  intro p
  have hport : t.lport p = s.lport p := congrArg (fun ports => Tab.get LinkPort.dflt ports p) h
  rw [hport]
  exact .refl _

theorem sendsOnly_onLink {f : Link → Link} (h : (f s.link).ports = s.link.ports) : sendsOnly s (s.onLink f) :=
  sendsOnly_of_ports h

theorem sendsOnly_onPeer (s : State) (i : Nat) (f : Peer → Peer) : sendsOnly s (s.onPeer i f) := sendsOnly_of_ports rfl

theorem sendsOnly_onLport {f : LinkPort → LinkPort} (h : (s.lport p).sends (f (s.lport p))) : sendsOnly s (s.onLport p f) := by
  intro j
  by_cases hj : j = p
  · rw [hj, State.lport_onLport_same]
    exact h
  · rw [State.lport_onLport_other _ _ _ _ hj]
    exact .refl _

theorem sendsOnly_foldl {α : Type} (f : State → α → State) (hf : ∀ t a, sendsOnly t (f t a)) (l : List α) (s : State) :
    sendsOnly s (l.foldl f s) := by
  induction l generalizing s with
  | nil => exact .refl s
  | cons a l ih => exact (hf s a).trans (ih _)

theorem sendsOnly_queueAt (s : State) (p : Nat) (m : Msg) : sendsOnly s (s.queueAt p m) := by
  refine sendsOnly_onLport ⟨?_, fun hidentify hup => ?_⟩
  · split
    · split
      · exact LinkPort.flush_settled _
      · rfl
    · rfl
  · have hmay : (s.lport p).maySend m = false := by
      simp only [LinkPort.maySend, Bool.or_eq_false_iff, beq_eq_false_iff_ne, Bool.and_eq_false_iff]
      exact ⟨hup, .inl hidentify⟩
    simp only [hmay, Bool.false_eq_true, if_false]

theorem sendsOnly_transmit (s : State) (m : Msg) : sendsOnly s (s.transmit m) := by
  unfold State.transmit
  split
  · exact sendsOnly_queueAt _ _ _
  · exact .refl s

theorem sendsOnly_originate (s : State) (m : Msg) : sendsOnly s (s.originate m) :=
  ((sendsOnly_onPeer s _ _).trans (sendsOnly_onLink rfl)).trans (sendsOnly_transmit _ _)

theorem sendsOnly_sendMsg (s : State) (kind dest : Nat) (body : Bytes) : sendsOnly s (s.sendMsg kind dest body) := by
  unfold State.sendMsg
  dsimp only
  split
  · split
    · exact sendsOnly_originate _ _
    · exact sendsOnly_onLink rfl
  · split
    · exact ((sendsOnly_onLink rfl).trans (sendsOnly_queueAt _ 0 _)).trans (sendsOnly_queueAt _ 1 _)
    · exact .trans (sendsOnly_onLink rfl) (sendsOnly_transmit _ _)

theorem sendsOnly_sendOn (s : State) (p kind : Nat) (body : Bytes) : sendsOnly s (s.sendOn p kind body) :=
  .trans (sendsOnly_onLink rfl) (sendsOnly_queueAt _ _ _)

theorem sendsOnly_resendTo (s : State) (d : Nat) : sendsOnly s (s.resendTo d) :=
  .trans (sendsOnly_onLink rfl) (sendsOnly_foldl State.transmit sendsOnly_transmit (s.peer d).pending _)

theorem sendsOnly_remap (s : State) : sendsOnly s s.remap := by
  unfold State.remap
  dsimp only
  split
  · exact .refl s
  · refine .trans (.trans (sendsOnly_foldl _ ?_ _ s) (sendsOnly_onLink rfl)) (sendsOnly_foldl _ ?_ _ _)
    · exact fun t d => sendsOnly_onPeer t d _
    · intro t d
      split
      · exact sendsOnly_resendTo _ _
      · exact .refl t

theorem sendsOnly_portChanged (s : State) : sendsOnly s s.portChanged :=
  (sendsOnly_remap s).trans (sendsOnly_sendMsg _ _ _ _)

theorem sendsOnly_raise (s : State) (src arg info : Nat) : sendsOnly s (s.raise src arg info) :=
  sendsOnly_of_ports (by rw [State.raise_link])

theorem sendsOnly_sendEcho (h : (s.lport p).state = .identify) : sendsOnly s (s.sendEcho p) :=
  (sendsOnly_onLport ⟨rfl, fun hne => absurd h hne⟩).trans (sendsOnly_sendOn _ _ _ _)

theorem State.onLport_congr (s : State) (p : Nat) {f g : LinkPort → LinkPort} (h : f (s.lport p) = g (s.lport p)) :
    s.onLport p f = s.onLport p g := by
  have hget : f (Tab.get LinkPort.dflt s.link.ports p) = g (Tab.get LinkPort.dflt s.link.ports p) := h
  simp only [State.onLport, Tab.upd, hget]

/-! ## A port that changes state -/

/-- A port changed and then announced is the changed port after messages. -/
theorem State.lport_changed (s : State) (p : Nat) (f : LinkPort → LinkPort) :
    (f (s.lport p)).sends ((s.onLport p f).portChanged.lport p) := by
  have h := sendsOnly_portChanged (s.onLport p f) p
  rwa [State.lport_onLport_same] at h

theorem State.lport_raised (s : State) (p : Nat) (f : LinkPort → LinkPort) (src arg info : Nat) :
    (f (s.lport p)).sends ((((s.onLport p f).raise src arg info).portChanged).lport p) := by
  have h := (sendsOnly_raise (s.onLport p f) src arg info).trans (sendsOnly_portChanged _) p
  rwa [State.lport_onLport_same] at h

theorem waits_portChanged {w : Nat} (h : waits s w) : waits s.portChanged w :=
  waits_of_events (State.portChanged_field (φ := .events) s (by simp)) h

/-- The port that a failure or a loss leaves sends nothing. -/
theorem LinkPort.sends.eq_of_stopped (h : l.sends l') (hstate : l.state = .down ∨ l.state = .failed) : l' = l := by
  refine h.quiet ?_ ?_
  · rcases hstate with h | h <;> rw [h] <;> decide
  · rcases hstate with h | h <;> rw [h] <;> decide

theorem State.portDown_port (s : State) (p : Nat) :
    (s.portDown p).lport p =
      { (s.lport p).lose with downCount := (s.lport p).downCount + 1, relockDue := true } :=
  (s.lport_raised p (fun l => { l.lose with downCount := l.downCount + 1, relockDue := true }) _ _ _).eq_of_stopped (.inl rfl)

theorem State.portDown_waits (s : State) (hp : p < 2) : waits (s.portDown p) (0x100 + p) := by
  have hknown : (severityOf (0x100 + p)).isSome = true := by
    obtain rfl | rfl : p = 0 ∨ p = 1 := by omega
    · decide
    · decide
  exact waits_portChanged (State.raise_waits _ _ _ _ hknown)

theorem State.portFail_port (s : State) (p c : Nat) :
    (s.portFail p c).lport p = { (s.lport p).lose with state := .failed, failCause := c } :=
  (s.lport_raised p (fun l => { l.lose with state := .failed, failCause := c }) _ _ _).eq_of_stopped (.inr rfl)

theorem State.portFail_waits (s : State) (hp : p < 2) (c : Nat) : waits (s.portFail p c) (0x102 + p) := by
  have hknown : (severityOf (0x102 + p)).isSome = true := by
    obtain rfl | rfl : p = 0 ∨ p = 1 := by omega
    · decide
    · decide
  exact waits_portChanged (State.raise_waits _ _ _ _ hknown)

/-! ## LOCK (R583, R590) -/

theorem State.tryLock_locks (hstate : (s.lport p).state = .down) (henable : (s.lport p).enable = true)
    (hready : (s.lport p).phyReady = true) (hsize : s.link.cascadeSize ≠ 1) (hreset : s.start.inReset = false) :
    ((s.tryLock p).lport p).state = .lock ∧ ((s.tryLock p).lport p).relockDue = false ∧
      ((s.tryLock p).lport p).enable = true ∧ ((s.tryLock p).lport p).phyReady = true := by
  have heq : s.tryLock p = (s.onLport p (fun x => { x with
      state := .lock, failCause := 0, relockDue := false, txCoeff := (List.replicate 8 presetTaps).flatten })).portChanged := by
    simp only [State.tryLock, hstate, henable, hready, hsize, hreset, ne_eq, not_false_eq_true, Bool.not_false, and_self,
      if_true]
  have hsends := s.lport_changed p (fun x => { x with
    state := .lock, failCause := 0, relockDue := false, txCoeff := (List.replicate 8 presetTaps).flatten })
  rw [heq]
  exact ⟨hsends.state, hsends.relockDue, hsends.enable.trans henable,
    hsends.phyReady.trans hready⟩

section
variable (hsize : s.link.cascadeSize ≠ 1) (hreset : s.start.inReset = false)
include hsize hreset

theorem execPhyReady_locks (hp : p < 2) (hstate : (s.lport p).state = .down) (henable : (s.lport p).enable = true)
    (hdue : (s.lport p).relockDue = false) :
    ∃ t, exec (.phyReady p) s = .next t ∧ (t.lport p).state = .lock ∧ (t.lport p).phyReady = true := by
  have hport := State.lport_onLport_same s p (fun l => { l with phyReady := true })
  obtain ⟨hlock, -, -, hready⟩ := State.tryLock_locks (s := s.onLport p (fun l => { l with phyReady := true })) (p := p)
    (by rw [hport]; exact hstate) (by rw [hport]; exact henable) (by rw [hport]) hsize hreset
  refine ⟨(s.onLport p (fun l => { l with phyReady := true })).tryLock p, ?_, hlock, hready⟩
  simp only [exec, execPhyReady, hdue, Bool.false_eq_true, if_false]
  exact unit_next _ hp

theorem execRelock_locks (hp : p < 2) (hstate : (s.lport p).state = .down) (henable : (s.lport p).enable = true)
    (hready : (s.lport p).phyReady = true) (hdue : (s.lport p).relockDue = true) :
    ∃ t, exec (.relock p) s = .next t ∧ (t.lport p).state = .lock ∧ (t.lport p).relockDue = false := by
  obtain ⟨hlock, hagain, -, -⟩ := State.tryLock_locks hstate henable hready hsize hreset
  refine ⟨s.tryLock p, ?_, hlock, hagain⟩
  simp only [exec, execRelock, hdue, if_true]
  exact unit_next _ hp

theorem execPortEnable_locks (hp : p < 2) (henable : (s.lport p).enable = false) (hready : (s.lport p).phyReady = true) :
    ∃ t, exec (.portEnable p true) s = .next t ∧ (t.lport p).state = .lock ∧ (t.lport p).enable = true := by
  have hport := State.lport_onLport_same s p (fun x => { x with enable := true, state := .down, failCause := 0 })
  obtain ⟨hlock, -, hon, -⟩ := State.tryLock_locks
    (s := s.onLport p (fun x => { x with enable := true, state := .down, failCause := 0 })) (p := p)
    (by rw [hport]) (by rw [hport]) (by rw [hport]; exact hready) hsize hreset
  refine ⟨(s.onLport p (fun x => { x with enable := true, state := .down, failCause := 0 })).tryLock p, ?_, hlock, hon⟩
  simp only [exec, execPortEnable, State.writePortEnable, henable, Bool.false_eq_true, if_true, if_false]
  exact unit_next _ hp

end

/-! ## PORT_ENABLE = 0 -/

/-- The port that PORT_ENABLE = 0 leaves. -/
def LinkPort.disabled (x : LinkPort) : LinkPort :=
  if x.state = .failed then { x with enable := false } else { x.lose with enable := false, relockDue := false }

theorem LinkPort.disabled_failed (h : l.state = .failed) : l.disabled = { l with enable := false } := if_pos h

theorem LinkPort.disabled_other (h : l.state ≠ .failed) : l.disabled = { l.lose with enable := false, relockDue := false } :=
  if_neg h

theorem execPortEnable_disables (hp : p < 2) (hstate : (s.lport p).state ≠ .failed) :
    ∃ t, exec (.portEnable p false) s = .next t ∧ (t.lport p).state = .down ∧ (t.lport p).enable = false := by
  have hport : (s.onLport p LinkPort.disabled).lport p = { (s.lport p).lose with enable := false, relockDue := false } := by
    rw [State.lport_onLport_same, LinkPort.disabled_other hstate]
  have hsends := (sendsOnly_portChanged (s.onLport p LinkPort.disabled)) p
  rw [hport] at hsends
  refine ⟨s.writePortEnable p false, unit_next _ hp, ?_⟩
  have heq : s.writePortEnable p false = if (s.lport p).state = .down ∨ (s.lport p).state = .failed
      then s.onLport p LinkPort.disabled else (s.onLport p LinkPort.disabled).portChanged := rfl
  rw [heq]
  split
  · rw [hport]
    exact ⟨rfl, rfl⟩
  · exact ⟨hsends.state, hsends.enable⟩

theorem execPortEnable_failed (hp : p < 2) (hstate : (s.lport p).state = .failed) :
    exec (.portEnable p false) s = .next (s.onLport p (fun x => { x with enable := false })) := by
  have heq : s.writePortEnable p false = s.onLport p LinkPort.disabled := if_pos (.inr hstate)
  have hcongr : s.onLport p LinkPort.disabled = s.onLport p (fun x => { x with enable := false }) :=
    s.onLport_congr p (LinkPort.disabled_failed hstate)
  rw [exec, execPortEnable, heq, hcongr]
  exact unit_next _ hp

end

/-! ## TRAIN (R584, R585) -/

section
variable {s u : State} {p : Nat}

theorem execLanesClassified_trains (hp : p < 2) (hstate : (s.lport p).state = .lock) (status : List Nat) (pol : BitVec 8) :
    ∃ t, exec (.lanesClassified p status pol) s = .next t ∧ (t.lport p).state = .train ∧ (t.lport p).trial = 0 ∧
      (t.lport p).polarity = pol ∧ (t.lport p).laneStatus = (List.range 8).map (fun i => status.getD i 1 % 4) := by
  have hsends := s.lport_changed p (fun l =>
    { l with state := .train, laneStatus := (List.range 8).map (fun i => status.getD i 1 % 4),
             polarity := pol, trial := 0, trained := 0, eye := zeros 8, bestPre := zeros 8,
             bestPost := List.replicate 8 4, basePost := List.replicate 8 4 })
  refine ⟨_, ?_, hsends.state, hsends.trial, hsends.polarity, hsends.laneStatus⟩
  simp only [exec, execLanesClassified, hstate, if_true]
  exact unit_next _ hp

theorem octet_map_range (f : Nat → Byte) {n i : Nat} (hi : i < n) : octet ((List.range n).map f) i = f i := by
  simp [octet, hi]

theorem LinkPort.tried_trained (coeff eye : Bytes) (noAnswer : BitVec 8) (l : LinkPort) {i : Nat} (hi : i < 8) :
    (l.tried coeff eye noAnswer).trained.getLsbD i = (l.trained.getLsbD i || !(noAnswer.getLsbD i)) := by
  have htrained : (l.tried coeff eye noAnswer).trained = l.trained ||| ~~~noAnswer := rfl
  rw [htrained, BitVec.getLsbD_or, BitVec.getLsbD_not, decide_eq_true hi, Bool.true_and]

theorem LinkPort.betterTrial_iff (l : LinkPort) (eye : Bytes) (noAnswer : BitVec 8) (i : Nat) :
    l.betterTrial eye noAnswer i = true ↔ (l.trialOf i).isSome = true ∧ noAnswer.getLsbD i = false ∧
      (l.trained.getLsbD i = false ∨ (octet l.eye i).toNat < (octet eye i).toNat) := by
  simp only [LinkPort.betterTrial, Bool.and_eq_true, Bool.or_eq_true, Bool.not_eq_true', decide_eq_true_eq, and_assoc]

theorem LinkPort.tried_eye (coeff eye : Bytes) (noAnswer : BitVec 8) (l : LinkPort) {i : Nat} (hi : i < 8) :
    octet (l.tried coeff eye noAnswer).eye i =
      if (l.trialOf i).isSome = true ∧ noAnswer.getLsbD i = false
        ∧ (l.trained.getLsbD i = false ∨ (octet l.eye i).toNat < (octet eye i).toNat) then octet eye i
      else octet l.eye i := by
  have heye : octet (l.tried coeff eye noAnswer).eye i =
      if l.betterTrial eye noAnswer i = true then octet eye i else octet l.eye i := octet_map_range _ hi
  rw [heye]
  exact if_congr (l.betterTrial_iff eye noAnswer i) rfl rfl

/-- A trial's change of the port: a trial made, or the peer's last request applied (R584). -/
def LinkPort.tries (coeff eye : Bytes) (noAnswer : BitVec 8) (l : LinkPort) : LinkPort :=
  if l.trial < 20 then l.tried coeff eye noAnswer else { l with txCoeff := cut coeff 0 24 }

/-- The accesses of a trial that got no answer are counted (21 R657). -/
def State.phycCounted (s : State) (noAnswer : BitVec 8) : State :=
  { s with pins := { s.pins with phycTimeouts := s.pins.phycTimeouts + BitVec.ofNat 32 (laneCount noAnswer) } }

theorem execTrainingTrial_tries (hp : p < 2) (hstate : (s.lport p).state = .train) (hruns : runsTrials s p = true)
    (hclock : s.pins.clocksPresent.getLsbD 7 = true) (coeff eye : Bytes) (noAnswer : BitVec 8) :
    exec (.trainingTrial p coeff ⟨eye, noAnswer⟩) s =
      .next ((s.phycCounted noAnswer).onLport p (LinkPort.tries coeff eye noAnswer)) := by
  have hcongr : (s.phycCounted noAnswer).onLport p (LinkPort.tries coeff eye noAnswer) =
      (s.phycCounted noAnswer).onLport p (if (s.lport p).trial < 20 then LinkPort.tried coeff eye noAnswer
        else fun x => { x with txCoeff := cut coeff 0 24 }) := by
    refine State.onLport_congr _ p ?_
    have hport : (s.phycCounted noAnswer).lport p = s.lport p := rfl
    rw [hport, LinkPort.tries]
    split
    · rfl
    · rfl
  rw [hcongr]
  simp only [exec, execTrainingTrial, hstate, hruns, hclock, and_self, if_true]
  exact unit_next _ hp

theorem execTrainingTrial_spec (hp : p < 2) (hstate : (s.lport p).state = .train) (hruns : runsTrials s p = true)
    (hclock : s.pins.clocksPresent.getLsbD 7 = true) (coeff eye : Bytes) (noAnswer : BitVec 8) :
    ∃ t, exec (.trainingTrial p coeff ⟨eye, noAnswer⟩) s = .next t ∧ (t.lport p).txCoeff = cut coeff 0 24 ∧
      t.pins.phycTimeouts = s.pins.phycTimeouts + BitVec.ofNat 32 (laneCount noAnswer) ∧
      (20 ≤ (s.lport p).trial → (t.lport p).trial = (s.lport p).trial ∧ (t.lport p).eye = (s.lport p).eye) ∧
      ((s.lport p).trial < 20 → (t.lport p).trial = (s.lport p).trial + 1 ∧
        ∀ i, i < 8 → ((t.lport p).trained.getLsbD i = ((s.lport p).trained.getLsbD i || !(noAnswer.getLsbD i))) ∧
          octet (t.lport p).eye i =
            if ((s.lport p).trialOf i).isSome = true ∧ noAnswer.getLsbD i = false
              ∧ ((s.lport p).trained.getLsbD i = false ∨ (octet (s.lport p).eye i).toNat < (octet eye i).toNat) then octet eye i
            else octet (s.lport p).eye i) := by
  refine ⟨_, execTrainingTrial_tries hp hstate hruns hclock coeff eye noAnswer, ?_⟩
  have hport : ((s.phycCounted noAnswer).onLport p (LinkPort.tries coeff eye noAnswer)).lport p =
      (s.lport p).tries coeff eye noAnswer := State.lport_onLport_same _ _ _
  rw [hport]
  by_cases hfew : (s.lport p).trial < 20
  · have htries : (s.lport p).tries coeff eye noAnswer = (s.lport p).tried coeff eye noAnswer := if_pos hfew
    rw [htries]
    exact ⟨rfl, rfl, fun h => absurd h (by omega),
      fun _ => ⟨rfl, fun i hi => ⟨LinkPort.tried_trained _ _ _ _ hi, LinkPort.tried_eye _ _ _ _ hi⟩⟩⟩
  · have htries : (s.lport p).tries coeff eye noAnswer = { s.lport p with txCoeff := cut coeff 0 24 } := if_neg hfew
    rw [htries]
    exact ⟨rfl, rfl, fun _ => ⟨rfl, rfl⟩, fun h => absurd h hfew⟩

/-- The lane statuses at the end of a training: one that is OK but has no good eye is MARGINAL (R585). -/
def State.trainedStatus (s : State) (p : Nat) : List Nat :=
  let l := s.lport p
  (List.range 8).map (fun i =>
    let v := l.laneStatus.getD i 1
    if v = 0 ∧ runsTrials s p ∧ (!(l.trained.getLsbD i) ∨ (octet l.eye i).toNat < s.link.eyeMin) then 4 else v)

/-- The port with the statuses and the coefficients of its training. -/
def State.trainedPort (s : State) (p : Nat) : State :=
  let l := s.lport p
  let coeff :=
    if runsTrials s p then l.txCoeff
    else if s.link.trainMode = 1 then (List.replicate 8 s.link.txFixed).flatten
    else l.lastUp.getD l.txCoeff
  s.onLport p (fun x => { x with laneStatus := s.trainedStatus p, txCoeff := coeff })

/-- The width and the lanes on which both ends are OK. -/
def State.trainedWidth (s : State) (p : Nat) (peerOk : BitVec 8) : Nat × Nat :=
  widthOf (fun i => (s.trainedStatus p).getD i 1 == 0 && peerOk.getLsbD i)

/-- The end of a training with the width and the lanes that it gave. -/
def State.trainingClosed (s : State) (p : Nat) (w : Nat × Nat) : State :=
  if w.1 = 0 then (s.trainedPort p).portFail p 1
  else ((s.trainedPort p).onLport p (fun x => { x with state := .align, width := w.1, laneSet := w.2 })).portChanged

theorem execTrainingEnd_eq (hp : p < 2) (hstate : (s.lport p).state = .train) (peerOk : BitVec 8) :
    exec (.trainingEnd p peerOk) s = .next (s.trainingClosed p (s.trainedWidth p peerOk)) := by
  simp only [exec, execTrainingEnd, hstate, ne_eq, not_true_eq_false, if_false]
  exact unit_next _ hp

theorem State.trainingClosed_wide (s : State) (p : Nat) :
    ((s.trainingClosed p (8, 0)).lport p).state = .align ∧ ((s.trainingClosed p (8, 0)).lport p).width = 8 ∧
      ((s.trainingClosed p (8, 0)).lport p).laneSet = 0 := by
  have hsends := (s.trainedPort p).lport_changed p (fun x => { x with state := .align, width := 8, laneSet := 0 })
  have heq : s.trainingClosed p (8, 0) =
      ((s.trainedPort p).onLport p (fun x => { x with state := .align, width := 8, laneSet := 0 })).portChanged :=
    if_neg (by decide)
  rw [heq]
  exact ⟨hsends.state, hsends.width, hsends.laneSet⟩

theorem State.trainingClosed_none (s : State) (p : Nat) : s.trainingClosed p (0, 0) = (s.trainedPort p).portFail p 1 :=
  if_pos rfl

theorem execTrainingEnd_aligns (hp : p < 2) (hstate : (s.lport p).state = .train)
    (hgood : ∀ i, i < 8 → (s.lport p).laneStatus.getD i 1 = 0 ∧
      (runsTrials s p = true → (s.lport p).trained.getLsbD i = true ∧ s.link.eyeMin ≤ (octet (s.lport p).eye i).toNat)) :
    ∃ t, exec (.trainingEnd p 0xFF) s = .next t ∧ (t.lport p).state = .align ∧ (t.lport p).width = 8 ∧
      (t.lport p).laneSet = 0 := by
  have hlane : ∀ i, i < 8 → (s.trainedStatus p).getD i 1 = 0 := by
    intro i hi
    obtain ⟨hok, hseen⟩ := hgood i hi
    have hbad : ¬ ((s.lport p).laneStatus.getD i 1 = 0 ∧ runsTrials s p = true ∧
        ((!((s.lport p).trained.getLsbD i)) = true ∨ (octet (s.lport p).eye i).toNat < s.link.eyeMin)) := by
      rintro ⟨-, hruns, hbad⟩
      obtain ⟨htrained, heye⟩ := hseen hruns
      rcases hbad with h | h
      · rw [htrained] at h
        exact absurd h (by decide)
      · omega
    rw [State.trainedStatus, List.getD_eq_getElem?_getD, List.getElem?_map, List.getElem?_range hi]
    exact (if_neg hbad).trans hok
  have hwidth : s.trainedWidth p 0xFF = (8, 0) := by
    refine if_pos (List.all_eq_true.mpr fun i hi => ?_)
    have hlt := List.mem_range.mp hi
    have hbit : BitVec.getLsbD (0xFF : BitVec 8) i = true := by
      interval_cases i <;> rfl
    rw [hlane i hlt, hbit]
    rfl
  refine ⟨_, execTrainingEnd_eq hp hstate _, ?_⟩
  rw [hwidth]
  exact s.trainingClosed_wide p

theorem execTrainingEnd_fails (hp : p < 2) (hstate : (s.lport p).state = .train) :
    ∃ t, exec (.trainingEnd p 0) s = .next t ∧ (t.lport p).state = .failed ∧ (t.lport p).failCause = 1 ∧
      waits t (0x102 + p) := by
  have hwidth : s.trainedWidth p 0 = (0, 0) := by
    have hnone : ∀ i, ((s.trainedStatus p).getD i 1 == 0 && BitVec.getLsbD (0 : BitVec 8) i) = false := by simp
    simp only [State.trainedWidth, hnone]
    rfl
  have hport := (s.trainedPort p).portFail_port p 1
  refine ⟨(s.trainedPort p).portFail p 1, ?_, by rw [hport], by rw [hport], State.portFail_waits _ hp _⟩
  rw [execTrainingEnd_eq hp hstate, hwidth, State.trainingClosed_none]

/-! ## ALIGN (R586) -/

/-- The port that enters IDENTIFY. -/
def LinkPort.identifies (l : LinkPort) : LinkPort :=
  { l with state := .identify, lseqTx := 0, lseqRx := 0, kept := [], queued := [], rx := [], credits := 256,
           creditsDue := 0, lackDue := false, replayRuns := 0, echoDelays := [], identSeen := false }

/-- A port that enters IDENTIFY sends, and no other port changes but by that. -/
theorem sendsOnly_identify (s : State) (p : Nat) : sendsOnly (s.onLport p LinkPort.identifies) (s.identify p) := by
  have hsent := sendsOnly_sendOn (s.onLport p LinkPort.identifies) p kIdent ((s.onLport p LinkPort.identifies).identBody p)
  have hstate := (hsent p).state
  rw [State.lport_onLport_same] at hstate
  exact (hsent.trans (sendsOnly_sendEcho hstate)).trans (sendsOnly_portChanged _)

theorem State.identify_port (s : State) (p : Nat) : (s.lport p).identifies.sends ((s.identify p).lport p) := by
  have h := sendsOnly_identify s p p
  rwa [State.lport_onLport_same] at h

section
variable (hp : p < 2) (hstate : (s.lport p).state = .align)
include hp hstate

theorem execAlignDone_skewed (order : List Nat) : ∃ t, exec (.alignDone p order false) s = .next t ∧
    (t.lport p).state = .failed ∧ (t.lport p).failCause = 3 := by
  have hport := s.portFail_port p 3
  refine ⟨s.portFail p 3, ?_, by rw [hport], by rw [hport]⟩
  simp only [exec, execAlignDone, hstate, ne_eq, not_true_eq_false, if_true, if_false]
  exact unit_next _ hp

variable {order : List Nat} {direct reversed : Bool}
  (hdirect : (activeLanes (s.lport p).laneSet).all (fun i => order.getD i 8 == i) = direct)
  (hreversed : (activeLanes (s.lport p).laneSet).all (fun i => order.getD i 8 == 7 - i) = reversed)
include hdirect hreversed

theorem execAlignDone_identifies (hone : direct = true ∨ reversed = true) :
    ∃ t, exec (.alignDone p order true) s = .next t ∧ (t.lport p).state = .identify ∧ (t.lport p).reversed = !direct := by
  have hport := (s.onLport p (fun x => { x with reversed := !direct })).identify_port p
  rw [State.lport_onLport_same] at hport
  refine ⟨(s.onLport p (fun x => { x with reversed := !direct })).identify p, ?_, hport.state, hport.reversed⟩
  have hlegal : ¬ ((!direct) = true ∧ (!reversed) = true) := by
    rcases hone with rfl | rfl <;> simp
  simp only [exec, execAlignDone, hstate, hdirect, hreversed, hlegal, ne_eq, not_true_eq_false, Bool.true_eq_false, if_false]
  exact unit_next _ hp

theorem execAlignDone_disordered (hnone : direct = false ∧ reversed = false) :
    ∃ t, exec (.alignDone p order true) s = .next t ∧ (t.lport p).state = .failed ∧ (t.lport p).failCause = 2 := by
  have hport := s.portFail_port p 2
  refine ⟨s.portFail p 2, ?_, by rw [hport], by rw [hport]⟩
  simp only [exec, execAlignDone, hstate, hdirect, hreversed, hnone, ne_eq, not_true_eq_false, Bool.true_eq_false, Bool.not_false,
    and_self, if_true, if_false]
  exact unit_next _ hp

end

/-- The receive lanes that a width leaves active are all eight, the lower four or the upper four. -/
theorem activeLanes_cases (set : Nat) :
    activeLanes set = [0, 1, 2, 3, 4, 5, 6, 7] ∨ activeLanes set = [0, 1, 2, 3] ∨ activeLanes set = [4, 5, 6, 7] := by
  unfold activeLanes
  split
  · exact .inl rfl
  · exact .inr (.inl rfl)
  · exact .inr (.inr rfl)

theorem lanes_direct (set : Nat) : (activeLanes set).all (fun i => [0, 1, 2, 3, 4, 5, 6, 7].getD i 8 == i) = true := by
  obtain h | h | h := activeLanes_cases set <;> rw [h] <;> rfl

theorem lanes_reversed (set : Nat) : (activeLanes set).all (fun i => [7, 6, 5, 4, 3, 2, 1, 0].getD i 8 == i) = false ∧
    (activeLanes set).all (fun i => [7, 6, 5, 4, 3, 2, 1, 0].getD i 8 == 7 - i) = true := by
  obtain h | h | h := activeLanes_cases set <;> rw [h] <;> exact ⟨rfl, rfl⟩

theorem lanes_disordered (set : Nat) : (activeLanes set).all (fun i => [0, 0, 0, 0, 0, 0, 0, 0].getD i 8 == i) = false ∧
    (activeLanes set).all (fun i => [0, 0, 0, 0, 0, 0, 0, 0].getD i 8 == 7 - i) = false := by
  obtain h | h | h := activeLanes_cases set <;> rw [h] <;> exact ⟨rfl, rfl⟩

/-! ## IDENTIFY (R587, R588) -/

/-- Port `l'` has the state and the peer of port `l`. -/
def LinkPort.sameIdent (l l' : LinkPort) : Prop :=
  l'.state = l.state ∧ l'.identSeen = l.identSeen ∧ l'.peerDevice = l.peerDevice

theorem LinkPort.sameIdent.trans {l l' l'' : LinkPort} (h : l.sameIdent l') (h' : l'.sameIdent l'') : l.sameIdent l'' := by
  obtain ⟨hstate, hseen, hdevice⟩ := h
  obtain ⟨hstate', hseen', hdevice'⟩ := h'
  exact ⟨hstate'.trans hstate, hseen'.trans hseen, hdevice'.trans hdevice⟩

theorem LinkPort.sends.sameIdent {l l' : LinkPort} (h : l.sends l') : l.sameIdent l' := ⟨h.state, h.identSeen, h.peerDevice⟩

theorem State.sameIdent_onLport (s : State) (j p : Nat) {f : LinkPort → LinkPort} (h : (s.lport j).sameIdent (f (s.lport j))) :
    (s.lport p).sameIdent ((s.onLport j f).lport p) := by
  by_cases hj : p = j
  · rw [hj, State.lport_onLport_same]
    exact h
  · rw [State.lport_onLport_other _ _ _ _ hj]
    exact ⟨rfl, rfl, rfl⟩

/-- The state in which a port has found that the roles are to be swapped, or not (R588). -/
def State.rolesSwapped (s : State) (swap : Bool) : State :=
  if swap then
    (((s.onLport 0 (fun l => { l with role := 1 - l.role })).onLport 1 (fun l => { l with role := 1 - l.role })).onLink
      (fun l => { l with roleSwapped := true })).raise 0x104 0 0
  else s

theorem State.rolesSwapped_ident (s : State) (swap : Bool) (p : Nat) : (s.lport p).sameIdent ((s.rolesSwapped swap).lport p) := by
  unfold State.rolesSwapped
  split
  · have hroles := (s.sameIdent_onLport 0 p (f := fun l => { l with role := 1 - l.role }) ⟨rfl, rfl, rfl⟩).trans
      (State.sameIdent_onLport _ 1 p (f := fun l => { l with role := 1 - l.role }) ⟨rfl, rfl, rfl⟩)
    exact hroles.trans (((sendsOnly_onLink (f := fun l => { l with roleSwapped := true }) rfl).trans (sendsOnly_raise _ _ _ _)) p).sameIdent
  · exact ⟨rfl, rfl, rfl⟩

/-- The last part of a fixed number: what the other port does (R588). -/
def State.otherPortTold (s : State) (p : Nat) : State :=
  if (s.lport (1 - p)).state = .up then s.identify (1 - p) else s.sendOn (1 - p) kIdent (s.identBody (1 - p))

theorem State.otherPortTold_ident (s : State) (hp : p < 2) : (s.lport p).sameIdent ((s.otherPortTold p).lport p) := by
  unfold State.otherPortTold
  split
  · have hsent := sendsOnly_identify s (1 - p) p
    rw [State.lport_onLport_other _ _ _ _ (by omega)] at hsent
    exact hsent.sameIdent
  · exact (sendsOnly_sendOn s _ _ _ p).sameIdent

theorem State.fixBy_ident (s : State) (hp : p < 2) (b : Bytes) : (s.lport p).sameIdent ((s.fixBy p b).lport p) := by
  obtain ⟨swap, f, body, hports, heq⟩ : ∃ swap f body, (f (s.rolesSwapped swap).link).ports = (s.rolesSwapped swap).link.ports ∧
      s.fixBy p b = (((s.rolesSwapped swap).onLink f).sendOn p kIdent body).otherPortTold p :=
    ⟨_, _, _, rfl, rfl⟩
  rw [heq]
  exact ((s.rolesSwapped_ident swap p).trans
    (((sendsOnly_onLink hports).trans (sendsOnly_sendOn _ _ _ _)) p).sameIdent).trans (State.otherPortTold_ident _ hp)

/-- The number that the IDENT of a fixed peer gives (R588). -/
def State.identFixed (v : State) (p : Nat) (b : Bytes) : State :=
  if !v.link.isFixed ∧ bit (octet b 50).toNat 1 then v.fixBy p b else v

/-- The head's identity that the IDENT gives. -/
def State.identHead (v : State) (b : Bytes) : State :=
  if v.link.headId = zeros 8 then v.onLink (fun l => { l with headId := cut b 56 8 }) else v

/-- The peer's device that the IDENT gives. -/
def State.identDevice (v : State) (b : Bytes) : State :=
  if (octet b 51).toNat < v.link.cascadeSize then v.onPeer (octet b 51).toNat (fun x => { x with deviceId := cut b 0 48 }) else v

/-- The state in which an IDENT without a conflict has been taken (R588). -/
def State.identTaken (v : State) (p : Nat) (b : Bytes) : State := ((v.identFixed p b).identHead b).identDevice b

theorem State.identFixed_ident (v : State) (hp : p < 2) (b : Bytes) : (v.lport p).sameIdent ((v.identFixed p b).lport p) := by
  unfold State.identFixed
  split
  · exact v.fixBy_ident hp b
  · exact ⟨rfl, rfl, rfl⟩

theorem sendsOnly_identHead (v : State) (b : Bytes) : sendsOnly v (v.identHead b) := by
  unfold State.identHead
  split
  · exact sendsOnly_onLink rfl
  · exact .refl v

theorem sendsOnly_identDevice (v : State) (b : Bytes) : sendsOnly v (v.identDevice b) := by
  unfold State.identDevice
  split
  · exact sendsOnly_onPeer v _ _
  · exact .refl v

theorem State.identTaken_ident (v : State) (hp : p < 2) (b : Bytes) : (v.lport p).sameIdent ((v.identTaken p b).lport p) :=
  (v.identFixed_ident hp b).trans (((sendsOnly_identHead _ b).trans (sendsOnly_identDevice _ b)) p).sameIdent

/-- What a port keeps of the IDENT of its peer. -/
def LinkPort.peerOf (b : Bytes) (x : LinkPort) : LinkPort :=
  { x with
    peerInstance := (octet b 51).toNat, peerPort := (octet b 48).toNat, peerFixed := bit (octet b 50).toNat 1
    peerRole := (octet b 49).toNat, peerDevice := cut b 0 48, identSeen := true }

section
variable {m : Msg} (hstate : (s.lport p).state = .identify) (htake : s.takeMsg p m kIdent = some u)
include hstate htake

theorem execIdent_conflict (hp : p < 2) {c : Nat} (hconflict : identConflict (u.onLport p (LinkPort.peerOf m.body)) p m.body = some c) :
    ∃ t, exec (.ident p m) s = .next t ∧ (t.lport p).state = .failed ∧ (t.lport p).failCause = c := by
  have hport := (u.onLport p (LinkPort.peerOf m.body)).portFail_port p c
  refine ⟨(u.onLport p (LinkPort.peerOf m.body)).portFail p c, ?_, by rw [hport], by rw [hport]⟩
  unfold LinkPort.peerOf at hconflict ⊢
  simp only [exec, execIdent, hstate, htake, hconflict, ne_eq, not_true_eq_false, if_false]
  exact unit_next _ hp

theorem State.takeMsg_state : (u.lport p).state = .identify := by
  unfold State.takeMsg at htake
  split at htake
  · cases htake
    have hport := State.lport_onLport_same s p (fun l =>
      { l with rx := l.rx.drop 1, creditsDue := l.creditsDue + ((l.rx.head?).map RxMsg.cost).getD 0 })
    exact (congrArg LinkPort.state hport).trans hstate
  · cases htake

theorem execIdent_taken (hp : p < 2) (hconflict : identConflict (u.onLport p (LinkPort.peerOf m.body)) p m.body = none) :
    ∃ t, exec (.ident p m) s = .next t ∧ (t.lport p).state = .identify ∧ (t.lport p).identSeen = true ∧
      (t.lport p).peerDevice = cut m.body 0 48 := by
  have hident := State.takeMsg_state hstate htake
  obtain ⟨hkept, hseen, hdevice⟩ := (u.onLport p (LinkPort.peerOf m.body)).identTaken_ident hp m.body
  rw [State.lport_onLport_same] at hkept hseen hdevice
  refine ⟨(u.onLport p (LinkPort.peerOf m.body)).identTaken p m.body, ?_, hkept.trans hident, hseen, hdevice⟩
  unfold LinkPort.peerOf at hconflict ⊢
  simp only [exec, execIdent, hstate, htake, hconflict, ne_eq, not_true_eq_false, if_false]
  exact unit_next _ hp

end

section
variable (hp : p < 2)
include hp

theorem execIdentPeriod_sends (hstate : (s.lport p).state = .identify)
    (hfree : s.link.isFixed = false ∨ (s.lport p).peerFixed = false) :
    exec (.identPeriod p) s = .next (s.sendOn p kIdent (s.identBody p)) := by
  simp only [exec, execIdentPeriod, hstate, hfree, and_self, if_true]
  exact unit_next _ hp

theorem execPortUp_comes (hstate : (s.lport p).state = .identify) (hseen : (s.lport p).identSeen = true)
    (hfixed : s.link.isFixed = true) (hpeer : (s.lport p).peerFixed = true) (hrole : (s.lport p).peerRole ≠ (s.lport p).role)
    (hechoes : 16 ≤ (s.lport p).echoDelays.length) :
    ∃ t, exec (.portUp p) s = .next t ∧ (t.lport p).state = .up ∧ (t.lport p).lastUp = some (s.lport p).txCoeff ∧
      (t.lport p).hopDelay = BitVec.ofNat 16 (((s.lport p).echoDelays.take 16).sum / 16) := by
  have hsends := s.lport_changed p (fun x =>
    { x with state := .up, credits := 256, creditsDue := 0, lastUp := some x.txCoeff,
             hopDelay := BitVec.ofNat 16 ((x.echoDelays.take 16).sum / 16) })
  refine ⟨_, ?_, hsends.state, hsends.lastUp, hsends.hopDelay⟩
  simp only [exec, execPortUp, hstate, hseen, hfixed, hpeer, hrole, hechoes, ne_eq, not_false_eq_true, and_self, if_true]
  exact unit_next _ hp

theorem execPortDown_goes {c : Nat} (hc : c < 2)
    (hstate : (s.lport p).state = .up ∨ (s.lport p).state = .identify ∨ (s.lport p).state = .align) :
    ∃ t, exec (.portDown p c) s = .next t ∧ (t.lport p).state = .down ∧
      (t.lport p).downCount = (s.lport p).downCount + 1 ∧ (t.lport p).relockDue = true ∧ waits t (0x100 + p) := by
  have hport := s.portDown_port p
  refine ⟨s.portDown p, ?_, by rw [hport]; rfl, by rw [hport], by rw [hport], State.portDown_waits _ hp⟩
  have hactive : (s.lport p).state = .identify ∨ (s.lport p).state = .up ∨ (s.lport p).state = .align := by
    rcases hstate with h | h | h
    · exact .inr (.inl h)
    · exact .inl h
    · exact .inr (.inr h)
  simp only [exec, execPortDown, hc, hactive, and_self, if_true]
  exact unit_next _ hp

end

end

/-- Settles O42: each command changes the port and announces it, which leaves all but what sending uses. -/
theorem linkPortsComeUpFailAndGoDown : Obligations.LinkPortsComeUpFailAndGoDown := by
  unfold Obligations.LinkPortsComeUpFailAndGoDown
  intro s p hp l
  refine ⟨?lock, fun hstate => execPortEnable_disables hp hstate, fun hstate => execPortEnable_failed hp hstate,
    fun status pol hstate => execLanesClassified_trains hp hstate status pol, ?train, ?align, ?identify, ?down⟩
  case lock =>
    intro hsize hreset
    refine ⟨fun hstate henable hdue => execPhyReady_locks hsize hreset hp hstate henable hdue, fun hdue => ?_,
      fun hstate henable hready hdue => execRelock_locks hsize hreset hp hstate henable hready hdue,
      fun henable hready => execPortEnable_locks hsize hreset hp henable hready⟩
    have hlater : (s.lport p).relockDue = true := hdue
    simp only [exec, execPhyReady, hlater, if_true]
    exact unit_next _ hp
  case train =>
    exact fun hstate => ⟨fun coeff eye noAnswer hruns hclock => execTrainingTrial_spec hp hstate hruns hclock coeff eye noAnswer,
      fun hgood => execTrainingEnd_aligns hp hstate hgood, execTrainingEnd_fails hp hstate⟩
  case align =>
    intro hstate
    obtain ⟨hnot, hreversed⟩ := lanes_reversed (s.lport p).laneSet
    obtain ⟨hnone, hneither⟩ := lanes_disordered (s.lport p).laneSet
    exact ⟨execAlignDone_identifies hp hstate (lanes_direct _) rfl (.inl rfl),
      execAlignDone_identifies hp hstate hnot hreversed (.inr rfl), execAlignDone_disordered hp hstate hnone hneither ⟨rfl, rfl⟩,
      execAlignDone_skewed hp hstate⟩
  case identify =>
    intro hstate
    refine ⟨?_, fun hfree => execIdentPeriod_sends hp hstate hfree,
      fun hseen hfixed hpeer hrole hechoes => execPortUp_comes hp hstate hseen hfixed hpeer hrole hechoes⟩
    rintro m u v htake rfl
    exact ⟨fun c hconflict => execIdent_conflict hstate htake hp hconflict,
      fun hconflict => execIdent_taken hstate htake hp hconflict⟩
  case down =>
    exact fun c hc hstate => execPortDown_goes hp hc hstate

end Sys2Proof.Machine
end

section
/-!
SUPPORT. The frames of a link port: taken, acknowledged and replayed (O43).
-/
namespace Sys2Proof.Machine

section
variable {s : State} {p : Nat}

/-! ## What a frame leaves of a port (R579 to R581) -/

theorem LinkPort.flush_rx (l : LinkPort) : l.flush.rx = l.rx :=
  have h : l.flush.settled.rx = l.settled.rx := congrArg LinkPort.rx l.flush_settled
  h

theorem LinkPort.flush_lseqRx (l : LinkPort) : l.flush.lseqRx = l.lseqRx :=
  have h : l.flush.settled.lseqRx = l.settled.lseqRx := congrArg LinkPort.lseqRx l.flush_settled
  h

theorem LinkPort.flush_framesRx (l : LinkPort) : l.flush.framesRx = l.framesRx :=
  have h : l.flush.settled.framesRx = l.settled.framesRx := congrArg LinkPort.framesRx l.flush_settled
  h

theorem LinkPort.flush_crcErrors (l : LinkPort) : l.flush.crcErrors = l.crcErrors :=
  have h : l.flush.settled.crcErrors = l.settled.crcErrors := congrArg LinkPort.crcErrors l.flush_settled
  h

/-- An acknowledgement changes the kept frames and the count of replays alone. -/
theorem LinkPort.ackTo_kept (l : LinkPort) (lack : Nat) : ∃ k n, l.ackTo lack = { l with kept := k, replayRuns := n } := by
  unfold LinkPort.ackTo
  split
  · exact ⟨l.kept, l.replayRuns, rfl⟩
  · dsimp only
    split
    · exact ⟨_, _, rfl⟩
    · exact ⟨l.kept, l.replayRuns, rfl⟩

/-- The port that has taken a good frame. -/
def LinkPort.framed (lack credit : Nat) (ms : List Msg) (now : BitVec 48) (x : LinkPort) : LinkPort :=
  (({ x with
      framesRx := x.framesRx + 1, lseqRx := (x.lseqRx + 1) % 65536, lackDue := true,
      credits := x.credits + credit, rx := x.rx ++ rxOf ms now }).ackTo lack).flush

theorem LinkPort.framed_spec (lack credit : Nat) (ms : List Msg) (now : BitVec 48) (x : LinkPort) :
    (x.framed lack credit ms now).rx = x.rx ++ rxOf ms now ∧
      (x.framed lack credit ms now).lseqRx = (x.lseqRx + 1) % 65536 ∧
      (x.framed lack credit ms now).framesRx = x.framesRx + 1 ∧
      (x.framed lack credit ms now).crcErrors = x.crcErrors := by
  obtain ⟨k, n, hack⟩ := LinkPort.ackTo_kept { x with
    framesRx := x.framesRx + 1, lseqRx := (x.lseqRx + 1) % 65536, lackDue := true,
    credits := x.credits + credit, rx := x.rx ++ rxOf ms now } lack
  rw [LinkPort.framed, hack, LinkPort.flush_rx, LinkPort.flush_lseqRx, LinkPort.flush_framesRx, LinkPort.flush_crcErrors]
  exact ⟨rfl, rfl, rfl, rfl⟩

theorem linkPort_active (hstate : (s.lport p).state = .identify ∨ (s.lport p).state = .up) : ¬ ((s.lport p).state ≠ .identify ∧ (s.lport p).state ≠ .up) := by
  rintro ⟨hidentify, hup⟩
  exact hstate.elim hidentify hup

section
variable (hp : p < 2) (hstate : (s.lport p).state = .identify ∨ (s.lport p).state = .up)
include hp hstate

theorem execFrameReceive_good (lack credit : Nat) (ms : List Msg) :
    exec (.frameReceive p (s.lport p).lseqRx lack credit true ms) s =
      .next (s.onLport p (LinkPort.framed lack credit ms s.now)) := by
  simp only [exec, execFrameReceive, linkPort_active hstate, Bool.true_eq_false, ne_eq, not_true_eq_false, or_self, if_false]
  exact unit_next _ hp

theorem execFrameReceive_bad {lseq : Nat} {good : Bool} (hbad : good = false ∨ lseq ≠ (s.lport p).lseqRx) (lack credit : Nat)
    (ms : List Msg) : exec (.frameReceive p lseq lack credit good ms) s =
      .next (s.onLport p (fun x => { x with crcErrors := x.crcErrors + 1 }.control)) := by
  simp only [exec, execFrameReceive, linkPort_active hstate, hbad, if_true, if_false]
  exact unit_next _ hp

/-- The port that has been told LACK and CREDIT. -/
def LinkPort.told (lack credit : Nat) (x : LinkPort) : LinkPort :=
  ({ x with framesRx := x.framesRx + 1, credits := x.credits + credit }).ackTo lack

theorem execControlFrame_eq (lack credit : Nat) : exec (.controlFrame p lack credit) s = .next (
    (if ((s.lport p).told lack credit).names lack then (s.onLport p (LinkPort.told lack credit)).resendFrames p
      else s.onLport p (LinkPort.told lack credit)).onLport p LinkPort.flush) := by
  have hport : (s.onLport p (LinkPort.told lack credit)).lport p = (s.lport p).told lack credit := State.lport_onLport_same _ _ _
  rw [← hport]
  simp only [exec, execControlFrame, linkPort_active hstate, if_false]
  exact unit_next _ hp

theorem execControlFrame_quiet {lack credit : Nat} (hnames : ((s.lport p).told lack credit).names lack = false) :
    ∃ t, exec (.controlFrame p lack credit) s = .next t ∧ t.lport p = ((s.lport p).told lack credit).flush := by
  refine ⟨_, execControlFrame_eq hp hstate lack credit, ?_⟩
  rw [State.lport_onLport_same, if_neg (by rw [hnames]; decide), State.lport_onLport_same]

theorem execControlFrame_replays {lack credit : Nat} (hnames : ((s.lport p).told lack credit).names lack = true)
    (hruns : ((s.lport p).told lack credit).replayRuns < 8) :
    ∃ t, exec (.controlFrame p lack credit) s = .next t ∧ t.lport p = ((s.lport p).told lack credit).replay.flush := by
  have hport : (s.onLport p (LinkPort.told lack credit)).lport p = (s.lport p).told lack credit := State.lport_onLport_same _ _ _
  refine ⟨_, execControlFrame_eq hp hstate lack credit, ?_⟩
  rw [State.lport_onLport_same, if_pos hnames, State.resendFrames, hport, if_neg (Nat.not_le.mpr hruns),
    State.lport_onLport_same, hport]

theorem execControlFrame_goesDown {lack credit : Nat} (hnames : ((s.lport p).told lack credit).names lack = true)
    (hruns : 8 ≤ ((s.lport p).told lack credit).replayRuns) :
    ∃ t, exec (.controlFrame p lack credit) s = .next t ∧ (t.lport p).state = .down ∧ (t.lport p).kept = [] ∧
      waits t (0x100 + p) := by
  have hport : (s.onLport p (LinkPort.told lack credit)).lport p = (s.lport p).told lack credit := State.lport_onLport_same _ _ _
  refine ⟨_, execControlFrame_eq hp hstate lack credit, ?_⟩
  rw [if_pos hnames, State.resendFrames, hport, if_pos hruns, State.lport_onLport_same, State.portDown_port]
  exact ⟨rfl, rfl, waits_of_events (State.onLport_events _ _ _) (State.portDown_waits _ hp)⟩

end

section
variable (hp : p < 2)
include hp

theorem execControlFramePeriod_sends (hstate : (s.lport p).state = .identify ∨ (s.lport p).state = .up)
    (hclock : s.linkClock p = true) (hdue : (s.lport p).lackDue = true ∨ 0 < (s.lport p).creditsDue) :
    exec (.controlFramePeriod p) s = .next (s.onLport p LinkPort.control) := by
  simp only [exec, execControlFramePeriod, hstate, hclock, hdue, and_self, if_true]
  exact unit_next _ hp

theorem exec_linkClock_stopped (hclock : s.linkClock p = false) :
    exec (.controlFramePeriod p) s = .next s ∧ exec (.replayTimeExpiry p) s = .next s := by
  constructor
  · simp only [exec, execControlFramePeriod, hclock, Bool.false_eq_true, false_and, and_false, if_false]
    exact unit_next _ hp
  · simp only [exec, execReplayTimeExpiry, hclock, Bool.not_false, or_true, if_true]
    exact unit_next _ hp

theorem execReplayTimeExpiry_resends (hclock : s.linkClock p = true) (hkept : (s.lport p).kept ≠ []) :
    exec (.replayTimeExpiry p) s = .next (s.resendFrames p) := by
  have hsome : (s.lport p).kept.isEmpty = false := by simpa using hkept
  simp only [exec, execReplayTimeExpiry, hclock, hsome, Bool.not_true, Bool.false_eq_true, or_self, if_false]
  exact unit_next _ hp

end

theorem State.resendFrames_replays (h : (s.lport p).replayRuns < 8) : (s.resendFrames p).lport p = (s.lport p).replay := by
  rw [State.resendFrames, if_neg (Nat.not_le.mpr h), State.lport_onLport_same]

theorem State.resendFrames_down (h : 8 ≤ (s.lport p).replayRuns) : s.resendFrames p = s.portDown p := if_pos h

end

/-- Settles O43: a frame changes its port alone, and a port that has replayed eight times goes down. -/
theorem linkFramesAreTakenAndReplayed : Obligations.LinkFramesAreTakenAndReplayed := by
  unfold Obligations.LinkFramesAreTakenAndReplayed
  intro s p hp hstate l
  refine ⟨fun lack credit ms => ⟨_, execFrameReceive_good hp hstate lack credit ms, ?_⟩,
    fun lseq lack credit good ms hbad => ⟨_, execFrameReceive_bad hp hstate hbad lack credit ms, ?_⟩, ?control,
    fun hclock hdue => execControlFramePeriod_sends hp hstate hclock hdue, fun hclock => exec_linkClock_stopped hp hclock, ?replay⟩
  · rw [State.lport_onLport_same]
    exact LinkPort.framed_spec lack credit ms s.now l
  · rw [State.lport_onLport_same]
    exact ⟨rfl, rfl, rfl⟩
  case control =>
    rintro lack credit a rfl
    exact ⟨fun hnames => execControlFrame_quiet hp hstate hnames,
      fun hnames hruns => execControlFrame_replays hp hstate hnames hruns,
      fun hnames hruns => execControlFrame_goesDown hp hstate hnames hruns⟩
  case replay =>
    intro hclock hkept
    have hexec := execReplayTimeExpiry_resends hp hclock hkept
    refine ⟨fun hruns => ⟨_, hexec, ?_⟩, fun hruns => ⟨_, hexec, ?_⟩⟩
    · rw [State.resendFrames_replays hruns]
      exact ⟨rfl, rfl, rfl, rfl⟩
    · rw [State.resendFrames_down hruns, State.portDown_port]
      exact ⟨rfl, rfl, State.portDown_waits _ hp⟩

end Sys2Proof.Machine
end

section
/-!
SUPPORT. The messages that are not ordered: MAP, TIME, ECHO, and forwarding (O44).
-/
namespace Sys2Proof.Machine

section
variable {s t u : State} {p : Nat} {m : Msg} {x : RxMsg} {kind : Nat}

/-! ## What sending leaves of the link (R592) -/

/-- A message transmitted changes the ports of the link alone. -/
theorem State.transmit_link (s : State) (m : Msg) : ∃ ports, (s.transmit m).link = { s.link with ports := ports } := by
  unfold State.transmit
  split
  · exact ⟨_, rfl⟩
  · exact ⟨s.link.ports, rfl⟩

theorem State.transmits_link (l : List Msg) (s : State) :
    ∃ ports, (l.foldl State.transmit s).link = { s.link with ports := ports } := by
  induction l generalizing s with
  | nil => exact ⟨s.link.ports, rfl⟩
  | cons m l ih =>
    obtain ⟨ports, hfirst⟩ := s.transmit_link m
    obtain ⟨ports', hrest⟩ := ih (s.transmit m)
    exact ⟨ports', by rw [List.foldl_cons, hrest, hfirst]⟩

/-- A resend counts its messages and changes nothing else of the link but the ports. -/
theorem State.resendTo_link (s : State) (d : Nat) : ∃ ports, (s.resendTo d).link =
    { s.link with ports := ports, e2eResends := s.link.e2eResends + BitVec.ofNat 64 (s.peer d).pending.length } := by
  obtain ⟨ports, h⟩ := State.transmits_link (s.peer d).pending
    (s.onLink (fun l => { l with e2eResends := l.e2eResends + BitVec.ofNat 64 (s.peer d).pending.length }))
  exact ⟨ports, h⟩

theorem State.peer_resendTo (s : State) (d i : Nat) : (s.resendTo d).peer i = s.peer i := by
  obtain ⟨ports, h⟩ := s.resendTo_link d
  rw [State.peer, h]
  rfl

/-- Peer `x'` tells of the same segments as peer `x`. -/
def Peer.sameUp (x x' : Peer) : Prop := x'.eastUp = x.eastUp ∧ x'.westUp = x.westUp

/-- What every instance has told of its segments stands. -/
def tellsSame (s t : State) : Prop := ∀ i, (s.peer i).sameUp (t.peer i)

theorem tellsSame.refl (s : State) : tellsSame s s := fun _ => ⟨rfl, rfl⟩

theorem tellsSame.trans (h : tellsSame s t) (h' : tellsSame t u) : tellsSame s u :=
  fun i => ⟨(h' i).1.trans (h i).1, (h' i).2.trans (h i).2⟩

theorem tellsSame_of_map (h : t.link.map = s.link.map) : tellsSame s t := by
  intro i
  have hpeer : t.peer i = s.peer i := congrArg (fun map => Tab.get Peer.dflt map i) h
  rw [hpeer]
  exact ⟨rfl, rfl⟩

theorem tellsSame_onPeer (s : State) (d : Nat) {f : Peer → Peer} (hf : ∀ x : Peer, x.sameUp (f x)) : tellsSame s (s.onPeer d f) := by
  intro i
  by_cases hi : i = d
  · rw [hi, State.peer_onPeer_same]
    exact hf _
  · rw [State.peer_onPeer_other _ _ _ _ hi]
    exact ⟨rfl, rfl⟩

theorem tellsSame_foldl {α : Type} (f : State → α → State) (hf : ∀ t a, tellsSame t (f t a)) (l : List α) (s : State) :
    tellsSame s (l.foldl f s) := by
  induction l generalizing s with
  | nil => exact .refl s
  | cons a l ih => exact (hf s a).trans (ih _)

theorem tellsSame_resendTo (s : State) (d : Nat) : tellsSame s (s.resendTo d) := fun i => by
  rw [State.peer_resendTo]
  exact ⟨rfl, rfl⟩

theorem tellsSame_onLink {f : Link → Link} (h : (f s.link).map = s.link.map) : tellsSame s (s.onLink f) := tellsSame_of_map h

theorem tellsSame_remap (s : State) : tellsSame s s.remap := by
  unfold State.remap
  dsimp only
  split
  · exact .refl s
  · refine .trans (.trans (tellsSame_foldl _ ?_ _ s) (tellsSame_onLink rfl)) (tellsSame_foldl _ ?_ _ _)
    · exact fun t d => tellsSame_onPeer t d fun x => ⟨rfl, rfl⟩
    · intro t d
      split
      · exact tellsSame_resendTo _ _
      · exact .refl t

/-- A message passed on changes the ports and the count of the link alone. -/
theorem State.forwardOn_link (s : State) (p : Nat) (m : Msg) :
    ∃ ports n, (s.forwardOn p m).link = { s.link with ports := ports, forwarded := n } := by
  unfold State.forwardOn
  split
  · exact ⟨_, _, rfl⟩
  · exact ⟨s.link.ports, s.link.forwarded, rfl⟩

theorem tellsSame_passOn (s : State) (p : Nat) (m : Msg) : tellsSame s (s.passOn p m) := by
  unfold State.passOn
  split
  · obtain ⟨ports, n, h⟩ := s.forwardOn_link p m
    exact tellsSame_of_map (by rw [h])
  · exact .refl s

/-! ## A message that is taken (R582) -/

/-- The state in which the message at the head of a port has been taken. -/
def State.msgTaken (s : State) (p : Nat) : State := (s.popRx p).onLink (fun l => { l with msgRx := l.msgRx + 1 })

theorem State.takeMsg_eq (h : s.takeMsg p m kind = some u) : u = s.msgTaken p := by
  unfold State.takeMsg at h
  split at h
  · cases h
    rfl
  · cases h

/-! ## MAP (R592) -/

/-- Does a MAP tell that its sender's segment of a role is up? -/
def mapUp (b : Bytes) (role : Nat) : Bool :=
  ((octet b 1).toNat == 5 && (octet b 2).toNat == role) || ((octet b 4).toNat == 5 && (octet b 5).toNat == role)

theorem mapUp_iff (b : Bytes) (role : Nat) (hrole : role < 256) :
    mapUp b role = true ↔ (octet b 1 = 5 ∧ octet b 2 = BitVec.ofNat 8 role) ∨ (octet b 4 = 5 ∧ octet b 5 = BitVec.ofNat 8 role) := by
  have heq : ∀ (x : Byte) (n : Nat), n < 256 → (x.toNat = n ↔ x = BitVec.ofNat 8 n) := by
    intro x n hn
    constructor
    · intro h
      exact BitVec.eq_of_toNat_eq (by simp [h]; omega)
    · rintro rfl
      simp
      omega
  simp only [mapUp, Bool.or_eq_true, Bool.and_eq_true, beq_iff_eq, heq _ 5 (by decide), heq _ role hrole]
  exact Iff.rfl

theorem execMap_tells (hp : p < 2) (htake : s.takeMsg p m kMap = some u) (hother : (octet m.body 0).toNat ≠ s.link.instanceNo)
    (hsize : (octet m.body 0).toNat < s.link.cascadeSize) :
    ∃ t, exec (.map p m) s = .next t ∧ (t.peer (octet m.body 0).toNat).eastUp = mapUp m.body 0 ∧
      (t.peer (octet m.body 0).toNat).westUp = mapUp m.body 1 := by
  obtain ⟨heast, hwest⟩ := ((tellsSame_remap
    (u.onPeer (octet m.body 0).toNat (fun x => { x with eastUp := mapUp m.body 0, westUp := mapUp m.body 1 }))).trans
    (tellsSame_passOn _ p m)) (octet m.body 0).toNat
  rw [State.peer_onPeer_same] at heast hwest
  refine ⟨_, ?_, heast, hwest⟩
  have hlocal : ¬ ((octet m.body 0).toNat = s.link.instanceNo ∨ s.link.cascadeSize ≤ (octet m.body 0).toNat) := by omega
  simp only [exec, execMap, htake, hlocal, if_false]
  exact unit_next _ hp

/-! ## TIME (R605) -/

/-- The time that a TIME message asks for. -/
def timeTarget (s : State) (m : Msg) (x : RxMsg) : BitVec 48 :=
  BitVec.ofNat 48 (leNat (cut m.body 0 8) % 2 ^ 48 + leNat (cut m.body 8 4) + (s.now - x.arrived).toNat)

/-- TIME steps the timestamp, or slews it. -/
def State.timeSet (s : State) (target : BitVec 48) (diff : Int) : State :=
  if diff < -64 ∨ 64 < diff then { s with now := target, link := { s.link with slewing := 0 } }
  else s.onLink (fun l => { l with slewing := diff })

theorem State.timeSet_steps (s : State) (target : BitVec 48) {diff : Int} (h : diff < -64 ∨ 64 < diff) :
    (s.timeSet target diff).now = target ∧ (s.timeSet target diff).link.slewing = 0 := by
  rw [State.timeSet, if_pos h]
  exact ⟨rfl, rfl⟩

theorem State.timeSet_slews (s : State) (target : BitVec 48) {diff : Int} (hlow : -64 ≤ diff) (hhigh : diff ≤ 64) :
    (s.timeSet target diff).now = s.now ∧ (s.timeSet target diff).link.slewing = diff := by
  rw [State.timeSet, if_neg (by omega)]
  exact ⟨rfl, rfl⟩

theorem execTime_sets (hp : p < 2) (htake : s.takeMsg p m kTime = some u) (hhead : (s.lport p).rx.head? = some x) :
    ∃ w : State, w.now = s.now ∧ exec (.time p m) s = .next (w.timeSet (timeTarget s m x) (timeTarget s m x - s.now).toInt) := by
  obtain ⟨body, heq⟩ : ∃ body, exec (.time p m) s = .next ((u.passOn p { m with body := body }).timeSet (timeTarget s m x)
      (timeTarget s m x - s.now).toInt) := by
    simp only [exec, execTime, htake, hhead]
    exact ⟨_, unit_next _ hp⟩
  refine ⟨u.passOn p { m with body := body }, ?_, heq⟩
  have hpass : (u.passOn p { m with body := body }).now = u.now := State.passOn_field (φ := .now) u p _ (by simp)
  have htaken : u.now = s.now := State.takeMsg_field (φ := .now) s p m kTime (by simp) htake
  rw [hpass, htaken]

/-! ## ECHO (R604) -/

theorem sendPacks_echoSent (ms : List (List Msg)) (l : LinkPort) : (sendPacks ms l).echoSent = l.echoSent := by
  induction ms generalizing l with
  | nil => rfl
  | cons m ms ih =>
    rw [sendPacks]
    split
    · exact ih _
    · rfl

theorem State.sendOn_echoSent (s : State) (p k : Nat) (body : Bytes) :
    ((s.sendOn p k body).lport p).echoSent = (s.lport p).echoSent := by
  refine (congrArg LinkPort.echoSent (State.lport_onLport_same _ _ _)).trans ?_
  split
  · split
    · exact sendPacks_echoSent _ _
    · rfl
  · rfl

theorem LinkPort.sends.echoDelays {l l' : LinkPort} (h : l.sends l') : l'.echoDelays = l.echoDelays := h.get LinkPort.echoDelays

theorem State.sendEcho_port (s : State) (p : Nat) : ((s.sendEcho p).lport p).echoDelays = (s.lport p).echoDelays ∧
    ((s.sendEcho p).lport p).echoSent = some s.now := by
  have hport := State.lport_onLport_same s p (fun l => { l with echoSent := some s.now })
  have hdelays := (sendsOnly_sendOn (s.onLport p (fun l => { l with echoSent := some s.now })) p kEcho
    (leBytes 8 s.now.toNat ++ zeros 8) p).echoDelays
  have hsent := (s.onLport p (fun l => { l with echoSent := some s.now })).sendOn_echoSent p kEcho
    (leBytes 8 s.now.toNat ++ zeros 8)
  rw [hport] at hdelays hsent
  exact ⟨hdelays, hsent⟩

theorem State.lport_msgTaken (s : State) (p : Nat) : (s.msgTaken p).lport p =
    { s.lport p with
      rx := (s.lport p).rx.drop 1
      creditsDue := (s.lport p).creditsDue + (((s.lport p).rx.head?).map RxMsg.cost).getD 0 } :=
  State.lport_onLport_same s p (fun l =>
    { l with rx := l.rx.drop 1, creditsDue := l.creditsDue + ((l.rx.head?).map RxMsg.cost).getD 0 })

theorem execEcho_answers (hp : p < 2) (htake : s.takeMsg p m kEcho = some u) (hhead : (s.lport p).rx.head? = some x)
    (hrequest : bit (leNat (cut m.body 0 8)) 63 = false) : exec (.echo p m) s = .next (u.sendOn p kEcho
      (leBytes 8 (leNat (cut m.body 0 8) % 2 ^ 48 + 2 ^ 63) ++ leBytes 4 (x.arrived.truncate 32).toNat
        ++ leBytes 4 (s.now.truncate 32).toNat)) := by
  simp only [exec, execEcho, htake, hhead, hrequest, Bool.false_eq_true, if_false]
  exact unit_next _ hp

/-- Half the round trip less the residence at the peer, as an ECHO tells it. -/
def echoDelay (b : Bytes) (x : RxMsg) : Nat :=
  (((x.arrived.truncate 32 : BitVec 32) - BitVec.ofNat 32 (leNat (cut b 0 8)))
    - (BitVec.ofNat 32 (leNat (cut b 12 4)) - BitVec.ofNat 32 (leNat (cut b 8 4)))).toNat / 2

/-- The port that has measured a delay. -/
def LinkPort.measured (d : Nat) (l : LinkPort) : LinkPort :=
  { l with
    echoDelays := if l.echoDelays.length < 16 then l.echoDelays ++ [d] else l.echoDelays.drop 1 ++ [d]
    echoSent := none }

/-- What follows a delay measured: the next ECHO, or the mean of the sixteen (R604). -/
def State.echoMeasured (s : State) (p : Nat) : State :=
  if (s.lport p).echoDelays.length < 16 then s.sendEcho p
  else if (s.lport p).state = .up then s.onLport p (fun l => { l with hopDelay := BitVec.ofNat 16 (l.echoDelays.sum / 16) })
  else s

theorem State.echoMeasured_echoDelays (s : State) (p : Nat) :
    ((s.echoMeasured p).lport p).echoDelays = (s.lport p).echoDelays := by
  unfold State.echoMeasured
  split
  · exact (s.sendEcho_port p).1
  · split
    · rw [State.lport_onLport_same]
    · rfl

theorem execEcho_measures (hp : p < 2) (htake : s.takeMsg p m kEcho = some u) (hhead : (s.lport p).rx.head? = some x)
    (hanswer : bit (leNat (cut m.body 0 8)) 63 = true) (hfew : (s.lport p).echoDelays.length < 16) :
    ∃ t, exec (.echo p m) s = .next t ∧ (t.lport p).echoDelays = (s.lport p).echoDelays ++ [echoDelay m.body x] := by
  have hport : (u.lport p).echoDelays = (s.lport p).echoDelays := by
    rw [State.takeMsg_eq htake, State.lport_msgTaken]
  refine ⟨(u.onLport p (LinkPort.measured (echoDelay m.body x))).echoMeasured p, ?_, ?_⟩
  · simp only [exec, execEcho, htake, hhead, hanswer, if_true]
    exact unit_next _ hp
  · rw [State.echoMeasured_echoDelays, State.lport_onLport_same, LinkPort.measured, hport, if_pos hfew]

theorem execEchoRenewal_renews (hp : p < 2) (hstate : (s.lport p).state = .up) :
    ∃ t, exec (.echoRenewal p) s = .next t ∧ (t.lport p).echoDelays = [] ∧ (t.lport p).echoSent = some s.now := by
  obtain ⟨hdelays, hsent⟩ := (s.onLport p (fun l => { l with echoDelays := [] })).sendEcho_port p
  rw [State.lport_onLport_same] at hdelays
  refine ⟨_, ?_, hdelays, hsent⟩
  simp only [exec, execEchoRenewal, hstate, if_true]
  exact unit_next _ hp

/-! ## Forwarding (R593) -/

theorem State.lport_popRx (s : State) (p : Nat) : ((s.popRx p).lport p).rx = (s.lport p).rx.drop 1 :=
  congrArg LinkPort.rx (State.lport_onLport_same s p _)

theorem State.popRx_other (s : State) {p j : Nat} (h : j ≠ p) : (s.popRx p).lport j = s.lport j :=
  State.lport_onLport_other _ _ _ _ h

section
variable (hp : p < 2) (hhead : ((s.lport p).rx.head?).map RxMsg.msg = some m)
include hp hhead

theorem execMessageForward_unknown (hkind : knownKind m.kind = false) :
    ∃ t, exec (.messageForward p m) s = .next t ∧ (t.lport p).rx = (s.lport p).rx.drop 1 ∧
      t.link.unknownKind = s.link.unknownKind + 1 ∧ waits t 0x105 := by
  refine ⟨((s.popRx p).onLink (fun l => { l with unknownKind := l.unknownKind + 1 })).raise 0x105 p m.kind, ?_, ?_, ?_,
    State.raise_waits _ _ _ _ (by decide)⟩
  · simp only [exec, execMessageForward, hhead, hkind, ne_eq, not_true_eq_false, Bool.not_false, if_true, if_false]
    exact unit_next _ hp
  · rw [State.lport, State.raise_link]
    exact s.lport_popRx p
  · rw [State.raise_link]
    rfl

section
variable (hkind : knownKind m.kind = true) (hother : s.forMe m = false)
include hkind hother

theorem execMessageForward_limit (hhops : s.link.cascadeSize ≤ m.hops + 1) :
    ∃ t, exec (.messageForward p m) s = .next t ∧ (t.lport p).rx = (s.lport p).rx.drop 1 ∧
      t.link.hopLimitDrops = s.link.hopLimitDrops + 1 ∧ waits t 0x106 := by
  refine ⟨((s.popRx p).onLink (fun l => { l with hopLimitDrops := l.hopLimitDrops + 1 })).raise 0x106 m.src m.kind, ?_, ?_, ?_,
    State.raise_waits _ _ _ _ (by decide)⟩
  · simp only [exec, execMessageForward, hhead, hkind, hother, hhops, ne_eq, not_true_eq_false, Bool.not_true,
      Bool.false_eq_true, if_true, if_false]
    exact unit_next _ hp
  · rw [State.lport, State.raise_link]
    exact s.lport_popRx p
  · rw [State.raise_link]
    rfl

theorem execMessageForward_passes (hhops : m.hops + 1 < s.link.cascadeSize) :
    exec (.messageForward p m) s = .next ((s.popRx p).forwardOn p m) := by
  simp only [exec, execMessageForward, hhead, hkind, hother, Nat.not_le.mpr hhops, ne_eq, not_true_eq_false, Bool.not_true,
    Bool.false_eq_true, if_false]
  exact unit_next _ hp

end

end

theorem State.forwardOn_up (hp : p < 2) (hup : (s.lport (1 - p)).state = .up) :
    ((s.forwardOn p m).lport p).rx = (s.lport p).rx ∧ (s.forwardOn p m).link.forwarded = s.link.forwarded + 1 := by
  have hport := State.lport_onLport_other (s.onLink (fun l => { l with forwarded := l.forwarded + 1 })) (1 - p) p (fun l =>
    if l.maySend { m with hops := m.hops + 1 } then
      (if s.linkClock (1 - p) then { l with queued := l.queued ++ [{ m with hops := m.hops + 1 }] }.flush
        else { l with queued := l.queued ++ [{ m with hops := m.hops + 1 }] })
    else l) (by omega)
  rw [State.forwardOn, if_pos hup]
  exact ⟨congrArg LinkPort.rx hport, rfl⟩

theorem State.forwardOn_notUp (hup : (s.lport (1 - p)).state ≠ .up) : s.forwardOn p m = s := if_neg hup

end

/-- Settles O44: each message is taken from its port, and what follows it is sent. -/
theorem unorderedMessagesMapTimeAndForward : Obligations.UnorderedMessagesMapTimeAndForward := by
  unfold Obligations.UnorderedMessagesMapTimeAndForward
  intro s p m hp
  refine ⟨?map, ?period, ?time, ?echo, fun hup => execEchoRenewal_renews hp hup, ?forward⟩
  case map =>
    intro u htake hother hsize
    obtain ⟨t, hexec, heast, hwest⟩ := execMap_tells hp htake hother hsize
    exact ⟨t, hexec, by rw [heast]; exact mapUp_iff m.body 0 (by decide), by rw [hwest]; exact mapUp_iff m.body 1 (by decide)⟩
  case period =>
    intro hsize
    refine ⟨?_, fun hhead => ?_⟩
    · simp only [exec, execMapPeriod, hsize, if_false, State.sendMap]
    · simp only [exec, execTimePeriod, hhead, hsize, ne_eq, not_false_eq_true, and_self, if_true]
  case time =>
    intro u x htake hhead target diff
    obtain ⟨w, hnow, hexec⟩ := execTime_sets hp htake hhead
    refine ⟨fun hfar => ⟨_, hexec, w.timeSet_steps target hfar⟩, fun hlow hhigh => ⟨_, hexec, ?_⟩⟩
    obtain ⟨hkept, hslew⟩ := w.timeSet_slews target hlow hhigh
    exact ⟨hkept.trans hnow, hslew⟩
  case echo =>
    exact fun u x htake hhead => ⟨fun hrequest => execEcho_answers hp htake hhead hrequest,
      fun hanswer hfew => execEcho_measures hp htake hhead hanswer hfew⟩
  case forward =>
    intro x hx hmsg
    have hhead : ((s.lport p).rx.head?).map RxMsg.msg = some m := by rw [hx, Option.map_some, hmsg]
    refine ⟨fun hkind => execMessageForward_unknown hp hhead hkind, fun hkind hother =>
      ⟨fun hhops => execMessageForward_limit hp hhead hkind hother hhops, fun hhops => ?_⟩⟩
    have hexec := execMessageForward_passes hp hhead hkind hother hhops
    have hport : (s.popRx p).lport (1 - p) = s.lport (1 - p) := s.popRx_other (by omega)
    refine ⟨fun hup => ⟨_, hexec, ?_⟩, fun hdown => ?_⟩
    · obtain ⟨hrx, hforwarded⟩ := State.forwardOn_up (s := s.popRx p) (m := m) hp (by rw [hport]; exact hup)
      exact ⟨hrx.trans (s.lport_popRx p), hforwarded⟩
    · rw [hexec, State.forwardOn_notUp (by rw [hport]; exact hdown)]

end Sys2Proof.Machine
end

section
/-!
SUPPORT. End-to-end acknowledgement, lost destinations, and doorbells over the link (O45).
-/
namespace Sys2Proof.Machine

section
variable {s u : State} {i p : Nat} {m : Msg}

/-! ## Acknowledgement (R595 to R598) -/

theorem State.peer_msgTaken (s : State) (p i : Nat) : (s.msgTaken p).peer i = s.peer i := rfl

theorem execAckE2e_restarts (hport : s.rxPort m = some p) (htake : s.takeMsg p m kAck = some u)
    (hrestart : bit (leNat (cut m.body 0 8)) 63 = true) : exec (.ackE2e m) s = .next (u.dropPeer m.src) := by
  simp only [exec, execAckE2e, hport, htake, hrestart, if_true]

theorem execAckE2e_releases (hport : s.rxPort m = some p) (htake : s.takeMsg p m kAck = some u)
    (hack : bit (leNat (cut m.body 0 8)) 63 = false) (hwaiting : u.link.waiting = []) :
    ∃ t, exec (.ackE2e m) s = .next t ∧ (t.peer m.src).pending = (s.peer m.src).pending.filter (fun y =>
      !decide ((leNat (cut m.body 0 8) % 65536 + 65536 - y.pseq) % 65536 < 32768)) := by
  refine ⟨(u.onPeer m.src (fun x => { x with pending := x.pending.filter (fun y =>
    !decide ((leNat (cut m.body 0 8) % 65536 + 65536 - y.pseq) % 65536 < 32768)) })).onLink (fun l => { l with waiting := [] }),
    ?_, ?_⟩
  · have hnone : (u.onPeer m.src (fun x => { x with pending := x.pending.filter (fun y =>
        !decide ((leNat (cut m.body 0 8) % 65536 + 65536 - y.pseq) % 65536 < 32768)) })).link.waiting = [] := hwaiting
    simp only [exec, execAckE2e, hport, htake, hack, Bool.false_eq_true, if_false, hnone, State.sendWaiting]
  · have htaken : u.peer m.src = s.peer m.src := by rw [State.takeMsg_eq htake, State.peer_msgTaken]
    rw [← htaken]
    exact congrArg Peer.pending (u.peer_onPeer_same m.src (fun x => { x with pending := x.pending.filter (fun y =>
      !decide ((leNat (cut m.body 0 8) % 65536 + 65536 - y.pseq) % 65536 < 32768)) }))

theorem Tab.has_del_same {α : Type} (t : Tab α) (k : Nat) : Tab.has (Tab.del t k) k = false := by
  induction t with
  | nil => rfl
  | cons e t ih =>
    obtain ⟨j, v⟩ := e
    by_cases hj : j = k
    · rw [Tab.del, if_pos hj, ih]
    · rw [Tab.del, if_neg hj, Tab.has, if_neg hj, ih]

/-- A destination that is dropped loses its messages and its transport key (R597). -/
theorem State.dropPeer_spec (s : State) (i : Nat) : ((s.dropPeer i).peer i).pending = [] ∧
    ((s.dropPeer i).peer i).restartDue = true ∧ Tab.has (s.dropPeer i).link.transportKeys i = false ∧
    waits (s.dropPeer i) 0x107 := by
  have hmap : (s.dropPeer i).link.map = (s.onPeer i (fun x => { x with pending := [], restartDue := true })).link.map := by
    rw [State.dropPeer, State.raise_link]
    rfl
  have hpeer : (s.dropPeer i).peer i = { s.peer i with pending := [], restartDue := true } := by
    rw [State.peer, hmap]
    exact State.peer_onPeer_same s i (fun x => { x with pending := [], restartDue := true })
  have hkeys : (s.dropPeer i).link.transportKeys = Tab.del s.link.transportKeys i := by
    rw [State.dropPeer, State.raise_link]
    rfl
  exact ⟨by rw [hpeer], by rw [hpeer], by rw [hkeys]; exact Tab.has_del_same _ _, State.raise_waits _ _ _ _ (by decide)⟩

section
variable (hi : i < 64)
include hi

theorem execE2eTimeExpiry_resends (hpending : (s.peer i).pending ≠ []) :
    ∃ t, exec (.e2eTimeExpiry i) s = .next t ∧ (t.peer i).pending = (s.peer i).pending ∧
      t.link.e2eResends = s.link.e2eResends + BitVec.ofNat 64 (s.peer i).pending.length := by
  obtain ⟨ports, hlink⟩ := s.resendTo_link i
  refine ⟨s.resendTo i, ?_, by rw [State.peer_resendTo], by rw [hlink]⟩
  have hsome : (s.peer i).pending.isEmpty = false := by simpa using hpending
  simp only [exec, execE2eTimeExpiry, hsome, Bool.false_eq_true, if_false]
  exact unit_next _ hi

theorem execAckE2ePeriod_acks (hdelivered : 0 < (s.peer i).delivered) {e : Nat} (hexpect : (s.peer i).expectPseq = some e) :
    exec (.ackE2ePeriod i) s =
      .next ((s.onPeer i (fun x => { x with delivered := 0 })).sendMsg kAck i (leBytes 8 ((e + 65535) % 65536))) := by
  simp only [exec, execAckE2ePeriod, hdelivered, if_true, State.sendAck, hexpect]
  exact unit_next _ hi

theorem execDestLost_drops (hsize : s.link.cascadeSize ≠ 1) (hother : i ≠ s.link.instanceNo) (hreach : (s.peer i).reach = 0)
    (hever : (s.peer i).everReached = true) : exec (.destLost i) s = .next (s.dropPeer i) := by
  simp only [exec, execDestLost, hsize, hother, hreach, hever, ne_eq, not_false_eq_true, and_self, if_true]
  exact unit_next _ hi

end

/-! ## Doorbells (R599) -/

/-- A message sent leaves the count of doorbells forwarded. -/
theorem State.doorbellsForwarded_sendMsg (s : State) (kind d : Nat) (body : Bytes) :
    (s.sendMsg kind d body).link.doorbellsForwarded = s.link.doorbellsForwarded := by
  have htransmit : ∀ (t : State) (m : Msg), (t.transmit m).link.doorbellsForwarded = t.link.doorbellsForwarded := by
    intro t m
    obtain ⟨ports, h⟩ := t.transmit_link m
    rw [h]
  unfold State.sendMsg
  dsimp only
  split
  · split
    · exact htransmit _ _
    · rfl
  · split
    · rfl
    · exact htransmit _ _

section
variable {b : Bus} {o pair reg addr : Nat} {v : U64}

/-- The address of a doorbell names its instance, its page, its pair and its register. -/
structure DoorbellAt (addr i o pair reg : Nat) : Prop where
  inst : addr / 0x40000 = i
  owner : addr % 0x40000 / 0x100 = o
  pair : addr % 0x40000 / 0x20 % 8 = pair
  off : addr % 0x40000 % 0x20 = 8 * reg

theorem doorbellAt (ho : o ≤ mgr) (hpair : pair < 8) (hreg : reg < 2) :
    DoorbellAt (0x40000 * i + 0x100 * o + 0x20 * pair + 8 * reg) i o pair reg := by
  have howner : o ≤ 512 := ho
  constructor <;> omega

theorem doorbell_legal (ho : o ≤ mgr) (hreg : reg < 2) : ¬ (512 < o ∨ (8 * reg ≠ 0 ∧ 8 * reg ≠ 8)) := by
  have howner : o ≤ 512 := ho
  omega

theorem execDoorbellWindowWrite_drops (hi : i < 64) (haddr : DoorbellAt addr i o pair reg) (hacc : accepts s b o = true)
    (hsize : s.link.cascadeSize ≤ i) : exec (.doorbellWindowWrite b addr v) s =
    .next (s.onLink (fun l => { l with doorbellDrops := l.doorbellDrops + 1 })) := by
  obtain ⟨hinst, -, -, -⟩ := haddr
  simp only [exec, execDoorbellWindowWrite, accepts_htAccess s b o hacc, hinst, Nat.not_le.mpr hi, hsize, if_true, if_false]

section
variable (hi : i < 64) (ho : o ≤ mgr) (hreg : reg < 2) (haddr : DoorbellAt addr i o pair reg) (hacc : accepts s b o = true)
include hi ho hreg haddr hacc

theorem execDoorbellWindowWrite_here (hzero : i = 0) (hsize : 0 < s.link.cascadeSize) :
    exec (.doorbellWindowWrite b addr v) s = .next (s.ringWrite o pair reg v.toNat) := by
  have hlegal := doorbell_legal ho hreg
  obtain ⟨hinst, howner, hpair, hoff⟩ := haddr
  obtain ⟨hpage, hlive⟩ := accepts_pageAccess s b o hacc
  have hdiv : 8 * reg / 8 = reg := by omega
  subst hzero
  simp only [exec, execDoorbellWindowWrite, accepts_htAccess s b o hacc, hinst, howner, hpair, hoff, Nat.not_le.mpr hi,
    Nat.not_le.mpr hsize, hlegal, hpage, hlive, hdiv, Bool.false_eq_true, if_true, if_false]

theorem execDoorbellWindowWrite_forwards (hother : i ≠ 0) (hsize : i < s.link.cascadeSize) :
    ∃ t, exec (.doorbellWindowWrite b addr v) s = .next t ∧
      t.link.doorbellsForwarded = s.link.doorbellsForwarded + 1 := by
  have hlegal := doorbell_legal ho hreg
  obtain ⟨hinst, howner, hpair, hoff⟩ := haddr
  obtain ⟨hpage, -⟩ := accepts_pageAccess s b o hacc
  refine ⟨(s.onLink (fun l => { l with doorbellsForwarded := l.doorbellsForwarded + 1 })).sendMsg kDoorbell i
    (doorbellBody o pair (8 * reg / 8) b v), ?_, State.doorbellsForwarded_sendMsg _ _ _ _⟩
  simp only [exec, execDoorbellWindowWrite, accepts_htAccess s b o hacc, hinst, howner, hpair, hoff, Nat.not_le.mpr hi,
    Nat.not_le.mpr hsize, hlegal, hpage, hother, if_false]

end

end

/-- The page that a DOORBELL names. -/
def doorbellOwner (b : Bytes) : Nat := if bit (leNat (cut b 0 2)) 9 then mgr else leNat (cut b 0 2) % 512

/-- The access that a DOORBELL stands for. -/
def doorbellBus (b : Bytes) : Bus :=
  { pasid := if bit (leNat (cut b 4 4)) 31 then none else some (BitVec.ofNat 20 (leNat (cut b 4 4))), be := 0xFF }

theorem execDoorbell_acts (hm : s.deliverMsg m kDoorbell = some u)
    (hpage : u.pageAccess (doorbellBus m.body) (doorbellOwner m.body) = (true, u))
    (hlive : pageDead u (doorbellOwner m.body) = false) :
    exec (.doorbell m) s = .next (u.ringWrite (doorbellOwner m.body) (leNat (cut m.body 2 1) % 8) (leNat (cut m.body 3 1))
      (leNat (cut m.body 8 8))) := by
  unfold doorbellBus at hpage
  unfold doorbellOwner at hpage hlive ⊢
  simp only [exec, execDoorbell, hm, hpage, hlive, Bool.false_eq_true, if_false]

end

/-- Settles O45: the peer's table keeps what is not acknowledged; a doorbell acts where its instance is. -/
theorem orderedMessagesAreKeptUntilAcknowledged : Obligations.OrderedMessagesAreKeptUntilAcknowledged := by
  unfold Obligations.OrderedMessagesAreKeptUntilAcknowledged
  intro s
  refine ⟨?ack, ?peer, ?window, ?doorbell⟩
  case ack =>
    exact fun m p u hport htake => ⟨fun hrestart => execAckE2e_restarts hport htake hrestart,
      fun hack hwaiting => execAckE2e_releases hport htake hack hwaiting⟩
  case peer =>
    exact fun i hi => ⟨fun hpending => execE2eTimeExpiry_resends hi hpending,
      fun hdelivered e hexpect => execAckE2ePeriod_acks hi hdelivered hexpect,
      fun hsize hother hreach hever => ⟨_, execDestLost_drops hi hsize hother hreach hever, State.dropPeer_spec s i⟩⟩
  case window =>
    intro b i o pair reg v hi ho hpair hreg hacc hsize addr
    have haddr := doorbellAt (i := i) ho hpair hreg
    exact ⟨fun hzero => execDoorbellWindowWrite_here hi ho hreg haddr hacc hzero hsize,
      fun hout => execDoorbellWindowWrite_drops hi haddr hacc hout,
      fun hother hin => execDoorbellWindowWrite_forwards hi ho hreg haddr hacc hother hin⟩
  case doorbell =>
    intro m u hm o pw hpage hlive
    exact execDoorbell_acts hm hpage hlive

end Sys2Proof.Machine
end

section
/-!
SUPPORT. The dictionary window: what an operation captures, how it ends, and the requests it answers (O46).
-/
namespace Sys2Proof.Machine

section
variable {s u : State} {m : Msg} {o : DictOp} {e : Option DictResult}

/-! ## A write of DICT_INDEX (R614, R622) -/

/-- The operation that a write of DICT_INDEX names. -/
theorem opOfIndex_withOp (v : U64) (data : Bytes) {op : Nat} (hop : op = 1 ∨ op = 2 ∨ op = 3) :
    (opOfIndex (withOp v op &&& indexMask).toNat data).op = op := by
  have hfield : ∀ w : U64, fld w.toNat 24 2 = (w.extractLsb' 24 2).toNat := fun w => by
    rw [fld, BitVec.extractLsb'_toNat]
  have hbits : (withOp v op &&& indexMask).extractLsb' 24 2 = BitVec.ofNat 2 op := by
    refine BitVec.eq_of_getLsbD_eq fun i hi => ?_
    have hi' : i = 0 ∨ i = 1 := by omega
    rw [BitVec.getLsbD_extractLsb', BitVec.getLsbD_and, withOp, BitVec.getLsbD_or, BitVec.getLsbD_and]
    rcases hi' with rfl | rfl <;> rcases hop with rfl | rfl | rfl <;> simp [indexMask]
  have hvalue : (BitVec.ofNat 2 op).toNat = op := by
    rcases hop with rfl | rfl | rfl <;> rfl
  exact ((hfield _).trans (congrArg BitVec.toNat hbits)).trans hvalue

theorem State.dictIndex_busy (hbusy : s.dict.busy = true) (w : U64) :
    s.dictIndex w = s.onDict (fun d => { d with opsDropped := d.opsDropped + 1 }) := if_pos hbusy

section
variable {w : U64} (hbusy : s.dict.busy = false) (ho : o = opOfIndex (w &&& indexMask).toNat s.dict.segment) (hop : o.op ≠ 0)
include hbusy ho hop

theorem State.dictIndex_here (htarget : o.target = instanceRead s) : s.dictIndex w =
    s.onDict (fun d => { d with indexReg := w &&& indexMask, busy := true, current := some (o, none) }) := by
  simp only [State.dictIndex, hbusy, ← ho, hop, htarget, Bool.false_eq_true, if_true, if_false]
  rfl

variable (htarget : o.target ≠ instanceRead s)
include htarget

theorem State.dictIndex_noRoute (hroute : dictRoute s o.target = false) : s.dictIndex w = s.onDict (fun d =>
    { d with indexReg := w &&& indexMask, busy := true, current := some (o, some (DictResult.refusal 0x0B)) }) := by
  simp only [State.dictIndex, hbusy, ← ho, hop, htarget, hroute, Bool.false_eq_true, Bool.not_false, if_true, if_false]
  rfl

theorem State.dictIndex_remote (hroute : dictRoute s o.target = true) : ∃ body, s.dictIndex w = (s.onDict (fun d =>
    { d with indexReg := w &&& indexMask, busy := true, current := some (o, none), awaiting := some d.tag,
             tag := (d.tag + 1) % 256, opsRemote := d.opsRemote + 1 })).sendMsg kDictReq o.target body := by
  simp only [State.dictIndex, hbusy, ← ho, hop, htarget, hroute, Bool.false_eq_true, Bool.not_true, if_false]
  exact ⟨_, rfl⟩

end

/-- What the command `i`, a write of DICT_INDEX with operation `op`, does. -/
structure IndexWrite (s : State) (v : U64) (i : Instr) (op : Nat) : Prop where
  exec : exec i s = .next (s.dictIndex (withOp v op))
  op : op = 1 ∨ op = 2 ∨ op = 3

theorem indexWrite_of_mem {b : Bus} {v : U64} (hacc : accepts s b mgr = true) {c : Instr × Nat}
    (hc : c ∈ [(Instr.dictRead b v, 1), (Instr.dictWrite b v, 2), (Instr.dictDescribe b v, 3)]) : IndexWrite s v c.1 c.2 := by
  simp only [List.mem_cons, List.not_mem_nil, or_false] at hc
  rcases hc with rfl | rfl | rfl
  · exact ⟨congrArg Host.Outcome.next (State.pageWrite_accepts s b mgr _ hacc), .inl rfl⟩
  · exact ⟨congrArg Host.Outcome.next (State.pageWrite_accepts s b mgr _ hacc), .inr (.inl rfl)⟩
  · exact ⟨congrArg Host.Outcome.next (State.pageWrite_accepts s b mgr _ hacc), .inr (.inr rfl)⟩

/-- What the write of DICT_INDEX captures: the operation, sent to its instance, refused for want of a route, or run here. -/
theorem indexWrite_captures {v : U64} {i : Instr} {op : Nat} (h : IndexWrite s v i op) :
    let w := withOp v op &&& indexMask
    let o := opOfIndex w.toNat s.dict.segment
    (s.dict.busy = true → exec i s = .next (s.onDict (fun d => { d with opsDropped := d.opsDropped + 1 }))) ∧
    (s.dict.busy = false → o.op = op ∧
      (o.target = instanceRead s → exec i s
        = .next (s.onDict (fun d => { d with indexReg := w, busy := true, current := some (o, none) }))) ∧
      (o.target ≠ instanceRead s → dictRoute s o.target = false → exec i s = .next (s.onDict (fun d =>
        { d with indexReg := w, busy := true, current := some (o, some (DictResult.refusal 0x0B)) }))) ∧
      (o.target ≠ instanceRead s → dictRoute s o.target = true → ∃ t, exec i s = .next t ∧ t.dict.busy = true ∧
        t.dict.current = some (o, none) ∧ t.dict.awaiting = some s.dict.tag ∧ t.dict.tag = (s.dict.tag + 1) % 256)) := by
  obtain ⟨hexec, hop⟩ := h
  intro w o
  have hname : o.op = op := opOfIndex_withOp v s.dict.segment hop
  have hsome : o.op ≠ 0 := by omega
  rw [hexec]
  refine ⟨fun hbusy => by rw [State.dictIndex_busy hbusy], fun hbusy => ⟨hname,
    fun htarget => by rw [State.dictIndex_here hbusy rfl hsome htarget],
    fun htarget hroute => by rw [State.dictIndex_noRoute hbusy rfl hsome htarget hroute], fun htarget hroute => ?_⟩⟩
  obtain ⟨body, heq⟩ := State.dictIndex_remote hbusy rfl hsome htarget hroute
  refine ⟨_, rfl, ?_⟩
  rw [heq]
  have hdict : ∀ t : State, (t.sendMsg kDictReq o.target body).dict = t.dict := fun t =>
    State.sendMsg_field (φ := .dict) t _ _ _ (by simp)
  rw [hdict]
  exact ⟨rfl, rfl, rfl, rfl⟩

/-! ## The end of an operation (R623, R625) -/

section
variable (hcurrent : s.dict.current = some (o, e))
include hcurrent

section
variable (hwait : s.dict.awaiting = none) (hreset : s.start.inReset = false) (hstep : s.start.step0Done = true)
include hwait hreset hstep

theorem execDictOperationEnd_early {r : DictResult} (he : e = some r) :
    exec .dictOperationEnd s = .next (s.onDict (fun d => d.finish o.op r)) := by
  simp only [exec, execDictOperationEnd, hcurrent, hwait, hreset, hstep, he, Bool.not_true, Bool.false_eq_true, or_self, if_false]

theorem execDictOperationEnd_resets (he : e = none) (hrun : (s.dictRun o 0).2.1 = true) :
    exec .dictOperationEnd s = .next (s.dictRun o 0).2.2 := by
  simp only [exec, execDictOperationEnd, hcurrent, hwait, hreset, hstep, he, hrun, Bool.not_true, Bool.false_eq_true, or_self,
    if_true, if_false]

theorem execDictOperationEnd_finishes (he : e = none) (hrun : (s.dictRun o 0).2.1 = false) :
    exec .dictOperationEnd s =
      .next ((s.dictRun o 0).2.2.onDict (fun d => { d.finish o.op (s.dictRun o 0).1 with opsLocal := d.opsLocal + 1 })) := by
  simp only [exec, execDictOperationEnd, hcurrent, hwait, hreset, hstep, he, hrun, Bool.not_true, Bool.false_eq_true, or_self,
    if_false]

end

theorem execDictRemoteTimeExpiry_ends {tag : Nat} (hwait : s.dict.awaiting = some tag) : exec .dictRemoteTimeExpiry s =
    .next (s.onDict (fun d => { d.finish o.op (DictResult.refusal 0x0C) with noResponses := d.noResponses + 1 })) := by
  simp only [exec, execDictRemoteTimeExpiry, hcurrent, hwait]

end

section
variable (hm : s.deliverMsg m kDictResp = some u)
include hm

theorem execDictResp_ends (hcurrent : u.dict.current = some (o, e))
    (hwait : u.dict.awaiting = some (leNat (cut m.body 7 1))) :
    exec (.dictResp m) s = .next (u.onDict (fun d => d.finish o.op (resultOfResp m))) := by
  simp only [exec, execDictResp, hm, hcurrent, hwait, if_true]

theorem execDictResp_late (hwait : u.dict.awaiting ≠ some (leNat (cut m.body 7 1))) :
    exec (.dictResp m) s = .next (u.onDict (fun d => { d with lateResponses := d.lateResponses + 1 })) := by
  cases hcurrent : u.dict.current with
  | none => simp only [exec, execDictResp, hm, hcurrent]
  | some c =>
    cases htag : u.dict.awaiting with
    | none => simp only [exec, execDictResp, hm, hcurrent, htag]
    | some tag =>
      have hother : tag ≠ leNat (cut m.body 7 1) := fun h => hwait (htag.trans (congrArg some h))
      simp only [exec, execDictResp, hm, hcurrent, htag, if_neg hother]

end

/-! ## Requests of the head (R626) -/

section
variable (hm : s.deliverMsg m kDictReq = some u) (hreset : s.start.inReset = false) (hstep : s.start.step0Done = true)
include hm hreset hstep

theorem execDictReq_discards (hsrc : m.src ≠ 0) : exec (.dictReq m) s =
    .next ((u.onDict (fun d => { d with remoteDiscarded := d.remoteDiscarded + 1 })).raise 0x109 m.src kDictReq) := by
  simp only [exec, execDictReq, hm, hreset, hstep, hsrc, Bool.not_true, Bool.false_eq_true, or_self, ne_eq, not_false_eq_true,
    if_true, if_false]

theorem execDictReq_answers (hsrc : m.src = 0) (hop : (opOfReq m).op ≠ 0) (hrun : (u.dictRun (opOfReq m) 1).2.1 = false) :
    exec (.dictReq m) s = .next (((u.dictRun (opOfReq m) 1).2.2.onDict (fun d =>
      { d.tally (u.dictRun (opOfReq m) 1).1.result with opsLocal := d.opsLocal + 1 })).sendMsg kDictResp 0
        (respBody (opOfReq m) (leNat (cut m.body 7 1)) (u.dictRun (opOfReq m) 1).1)) := by
  simp only [exec, execDictReq, hm, hreset, hstep, hsrc, hop, hrun, Bool.not_true, Bool.false_eq_true, or_self, ne_eq,
    not_true_eq_false, if_false]

end

end

/-- Settles O46: a write of DICT_INDEX captures its operation, and each way it ends is one change of the window. -/
theorem dictionaryWindowRunsOperations : Obligations.DictionaryWindowRunsOperations := by
  unfold Obligations.DictionaryWindowRunsOperations
  intro s
  refine ⟨fun b v hacc c hc => indexWrite_captures (indexWrite_of_mem hacc hc), ?ends, ?remote, ?response, ?request⟩
  case ends =>
    exact fun o e hcurrent hwait hreset hstep => ⟨fun r he => execDictOperationEnd_early hcurrent hwait hreset hstep he,
      fun he hrun => execDictOperationEnd_resets hcurrent hwait hreset hstep he hrun,
      fun he hrun => ⟨_, execDictOperationEnd_finishes hcurrent hwait hreset hstep he hrun, rfl, rfl, rfl, rfl⟩⟩
  case remote =>
    exact fun o e tag hcurrent hwait => ⟨_, execDictRemoteTimeExpiry_ends hcurrent hwait, rfl, rfl, rfl⟩
  case response =>
    exact fun m u hm => ⟨fun o e hcurrent hwait => execDictResp_ends hm hcurrent hwait,
      fun hwait => execDictResp_late hm hwait⟩
  case request =>
    intro m u hm hreset hstep
    refine ⟨fun hsrc => ⟨_, execDictReq_discards hm hreset hstep hsrc, ?_, State.raise_waits _ _ _ _ (by decide)⟩, ?_⟩
    · rw [State.raise_dict]
      rfl
    · intro hsrc hop x hrun
      exact execDictReq_answers hm hreset hstep hsrc hop hrun

end Sys2Proof.Machine
end

section
/-!
SUPPORT. The checks of a dictionary operation (O47).
-/
namespace Sys2Proof.Machine

section
variable {s : State} {o : DictOp} {src : Nat} {q : Sub}

/-! ## The sub-entry of an operation (R615) -/

theorem subEntry_unknown (htop : topSub o.index = none) (n : Nat) : subEntry s o.index n = .error 0x01 := by
  simp only [subEntry, htop]

theorem State.dictRun_refused {e : Nat} (hindex : o.index < 0xF000) (hsub : subEntry s o.index o.sub = .error e) :
    s.dictRun o src = (DictResult.refusal e, false, s) := by
  have hopen : ¬ (0xF000 ≤ o.index ∧ (!(vendorOpen s o.op)) = true) := fun h => absurd h.1 (Nat.not_le.mpr hindex)
  simp only [State.dictRun, if_neg hopen, hsub]

theorem State.dictRun_vendor (hindex : 0xF000 ≤ o.index) (hclosed : vendorOpen s o.op = false) :
    s.dictRun o src = (DictResult.refusal 0x05, false, s) := by
  simp only [State.dictRun, hindex, hclosed, Bool.not_false, and_self, if_true]

section
variable (hindex : o.index < 0xF000) (hsub : subEntry s o.index o.sub = .ok q)
include hindex hsub

theorem State.dictRun_describes (hop : o.op = 3) : s.dictRun o src = (q.describe, false, s) := by
  have hopen : ¬ (0xF000 ≤ o.index ∧ (!(vendorOpen s o.op)) = true) := fun h => absurd h.1 (Nat.not_le.mpr hindex)
  simp only [State.dictRun, if_neg hopen, hsub, if_pos hop]

theorem State.dictRun_reads (hop : o.op = 1) {r : DictResult} {t : State} (hread : s.dictRead o src q = (r, t)) :
    s.dictRun o src = (r, false, t) := by
  have hopen : ¬ (0xF000 ≤ o.index ∧ (!(vendorOpen s o.op)) = true) := fun h => absurd h.1 (Nat.not_le.mpr hindex)
  have hother : ¬ o.op = 3 := by omega
  simp only [State.dictRun, if_neg hopen, hsub, if_neg hother, if_pos hop, hread]

theorem State.dictRun_writes (hop : o.op = 2) {c : Nat} {r : DictResult} {t : State}
    (hwrite : s.dictWrite o src q = ((c, r), t)) (hreset : c ≠ resets) : s.dictRun o src = (r, false, t) := by
  have hopen : ¬ (0xF000 ≤ o.index ∧ (!(vendorOpen s o.op)) = true) := fun h => absurd h.1 (Nat.not_le.mpr hindex)
  have hthree : ¬ o.op = 3 := by omega
  have hone : ¬ o.op = 1 := by omega
  simp only [State.dictRun, if_neg hopen, hsub, if_neg hthree, if_neg hone, hwrite, beq_eq_false_iff_ne.mpr hreset]

end

/-! ## READ and WRITE of a sub-entry (Table 19-4) -/

theorem State.dictRead_writeOnly (h : q.access = aWO ∨ q.access = aWOS) : s.dictRead o src q = (q.outcome 0x04 0 [], s) :=
  if_pos h

theorem State.dictRead_scalar (hwo : q.access ≠ aWO) (hwos : q.access ≠ aWOS) (hscalar : q.isString = false)
    (hoffset : o.offset = 0) : s.dictRead o src q = (q.outcome 0 q.size (q.val.take q.size), s) := by
  simp only [State.dictRead, hwo, hwos, hscalar, hoffset, Nat.zero_mod, ne_eq, not_true_eq_false, false_and, or_self,
    Bool.not_false, if_true, if_false]

theorem State.dictWrite_readOnly (h : q.access = aRO) : s.dictWrite o src q = ((0x03, q.outcome 0x03 0 []), s) := if_pos h

theorem State.dictWrite_locked (h : q.access = aRWL) (hlocked : rwlOpen s = false) :
    s.dictWrite o src q = ((0x05, q.outcome 0x05 0 []), s) := by
  have hro : ¬ aRWL = aRO := by decide
  simp only [State.dictWrite, h, hro, hlocked, Bool.not_false, and_self, if_true, if_false]

theorem State.dictWrite_unlocked (hopen : q.access = aRWL → rwlOpen s = true) : ¬ (q.access = aRWL ∧ (!(rwlOpen s)) = true) := by
  rintro ⟨hrwl, hlocked⟩
  rw [hopen hrwl] at hlocked
  exact absurd hlocked (by decide)

section
variable (hro : q.access ≠ aRO) (hopen : q.access = aRWL → rwlOpen s = true)
include hro hopen

theorem State.dictWrite_scalarOffset (hscalar : q.isString = false) (hoffset : o.offset ≠ 0) :
    s.dictWrite o src q = ((0x09, q.outcome 0x09 0 []), s) := by
  have hunlocked := State.dictWrite_unlocked hopen
  simp only [State.dictWrite, if_neg hro, if_neg hunlocked, hscalar, hoffset, ne_eq, not_false_eq_true, Bool.not_false, and_self,
    or_true, Bool.false_eq_true, if_true, if_false]

theorem State.dictWrite_stringOffset (hstring : q.isString = true) (hoffset : o.offset % 32 ≠ 0) :
    s.dictWrite o src q = ((0x09, q.outcome 0x09 0 []), s.setSegments src (noTransfer src)) := by
  have hunlocked := State.dictWrite_unlocked hopen
  simp only [State.dictWrite, if_neg hro, if_neg hunlocked, hstring, hoffset, ne_eq, not_false_eq_true, true_or, if_true]

end

end

/-- Settles O47: each check ends the operation before the object is reached. -/
theorem dictionaryOperationsAreChecked : Obligations.DictionaryOperationsAreChecked := by
  unfold Obligations.DictionaryOperationsAreChecked
  intro s o src hop x
  refine ⟨fun hindex htop => State.dictRun_refused hindex (subEntry_unknown htop _),
    fun hindex hsub => State.dictRun_refused hindex hsub, fun hindex hclosed => State.dictRun_vendor hindex hclosed, ?_⟩
  intro q hindex hsub
  refine ⟨fun hthree => State.dictRun_describes hindex hsub hthree,
    fun hone haccess => State.dictRun_reads hindex hsub hone (State.dictRead_writeOnly haccess),
    fun hone hwo hwos hscalar hoffset => State.dictRun_reads hindex hsub hone (State.dictRead_scalar hwo hwos hscalar hoffset),
    ?_, ?_, ?_, ?_⟩
  · exact fun htwo haccess => State.dictRun_writes hindex hsub htwo (State.dictWrite_readOnly haccess) (by decide)
  · exact fun htwo haccess hlocked =>
      State.dictRun_writes hindex hsub htwo (State.dictWrite_locked haccess hlocked) (by decide)
  · exact fun htwo hro hopen hscalar hoffset =>
      State.dictRun_writes hindex hsub htwo (State.dictWrite_scalarOffset hro hopen hscalar hoffset) (by decide)
  · exact fun htwo hro hopen hstring hoffset =>
      State.dictRun_writes hindex hsub htwo (State.dictWrite_stringOffset hro hopen hstring hoffset) (by decide)

end Sys2Proof.Machine
end

section
/-!
SUPPORT. Events: accepted, cleared, forced, and received from another instance (O48).
-/
namespace Sys2Proof.Machine

section
variable {s t u : State} {m : Msg} {o : Occ} {p i : Nat}

/-! ## What an entry of the event queue leaves of the events (R637) -/

/-- Of the events of `s`, those of `t` differ in what waits and what was sent alone. -/
def raisesOnly (s t : State) : Prop := ∃ waiting sent, t.events = { s.events with waiting := waiting, sent := sent }

theorem raisesOnly_of_events (h : t.events = s.events) : raisesOnly s t := ⟨s.events.waiting, s.events.sent, h⟩

theorem raisesOnly.trans (h : raisesOnly s t) (h' : raisesOnly t u) : raisesOnly s u := by
  obtain ⟨w, n, h⟩ := h
  obtain ⟨w', n', h'⟩ := h'
  exact ⟨w', n', by rw [h', h]⟩

theorem raisesOnly_raise (s : State) (src arg info : Nat) : raisesOnly s (s.raise src arg info) := by
  unfold State.raise
  split
  · exact raisesOnly_of_events rfl
  · exact ⟨_, _, rfl⟩

theorem raisesOnly_putFifo (s : State) (kind o : Nat) (f : Fifo) : raisesOnly s (s.putFifo kind o f) :=
  raisesOnly_of_events (State.putFifo_field (φ := .events) s kind o f (by simp))

theorem raisesOnly_levelCheck (s : State) : raisesOnly s (s.levelCheck 4 mgr) := by
  simp only [State.levelCheck, Nat.reduceEqDiff, if_false]
  split
  · exact raisesOnly_putFifo _ _ _ _
  · split
    · exact (raisesOnly_putFifo _ _ _ _).trans (raisesOnly_raise _ _ _ _)
    · exact raisesOnly_putFifo _ _ _ _

theorem raisesOnly_queueWord (s : State) (w : BitVec 48) : raisesOnly s (s.queueWord w) :=
  (raisesOnly_putFifo s 4 mgr _).trans (raisesOnly_of_events (State.onKind_field (φ := .events) _ 4 _ (by simp)))

theorem raisesOnly_queueEntry (s : State) (e : Entry3) : raisesOnly s (s.queueEntry e) :=
  raisesOnly.trans
    (List.foldlRecOn (motive := fun t => raisesOnly s t) e.words State.queueWord (raisesOnly_of_events rfl)
      fun t ht w _ => ht.trans (raisesOnly_queueWord t w))
    (raisesOnly_levelCheck _)

theorem raisesOnly_linkRoute (s : State) (e : Entry3) : raisesOnly s (s.linkRoute e) := by
  unfold State.linkRoute
  split
  · exact raisesOnly_of_events rfl
  · split
    · exact raisesOnly_of_events rfl
    · exact ⟨s.events.waiting, _, rfl⟩

theorem raisesOnly_ite {c : Prop} [Decidable c] (ht : raisesOnly s t) : raisesOnly s (if c then t else s) := by
  split
  · exact ht
  · exact raisesOnly_of_events rfl

/-! ## An occurrence that is accepted (R634 to R636) -/

/-- The source that shows an occurrence. -/
def Source.shown (now : BitVec 48) (o : Occ) (x : Source) : Source :=
  { x with
    status := true, count := satInc x.count, lastTime := now, lastArg := BitVec.ofNat 14 o.arg
    lastInfo := BitVec.ofNat 46 o.info }

/-- The state in which an occurrence has been counted and its source shows it. -/
def State.occShown (s : State) (o : Occ) : State :=
  let s1 := s.onSource o.src (Source.shown s.now o)
  { s1 with
    events := { s1.events with
      accepted := s1.events.accepted + 1
      forcedCount := if o.forced then s1.events.forcedCount + 1 else s1.events.forcedCount } }

section
variable {sev : Severity} (hsev : severityOf o.src = some sev)
include hsev

theorem State.accept_masked (hmask : (s.source o.src).mask = true) : s.accept o = s.occShown o := by
  simp only [State.accept, hsev, hmask, if_true]
  rfl

theorem raisesOnly_accept (s : State) : raisesOnly (s.occShown o) (s.accept o) := by
  cases hmask : (s.source o.src).mask with
  | true =>
    rw [State.accept_masked hsev hmask]
    exact raisesOnly_of_events rfl
  | false =>
    simp only [State.accept, hsev, hmask, Bool.false_eq_true, if_false]
    exact (raisesOnly_ite (raisesOnly_queueEntry _ _)).trans (raisesOnly_ite (raisesOnly_linkRoute _ _))

theorem State.accept_spec (s : State) : (s.accept o).source o.src = (s.source o.src).shown s.now o ∧
    (s.accept o).events.accepted = s.events.accepted + 1 := by
  obtain ⟨w, n, hevents⟩ := raisesOnly_accept hsev s
  have hsources : (s.accept o).events.sources = (s.onSource o.src (Source.shown s.now o)).events.sources := by
    rw [hevents]
    rfl
  refine ⟨?_, by rw [hevents]; rfl⟩
  rw [State.source, hsources]
  exact State.source_onSource_same s o.src (Source.shown s.now o)

end

theorem execEventAccepted_accepts {rest : List Occ} {sev : Severity} (hwaiting : s.events.waiting = o :: rest)
    (hstep : s.start.step0Done = true) (hsev : severityOf o.src = some sev) :
    ∃ t, exec .eventAccepted s = .next t ∧ t.source o.src = (s.source o.src).shown s.now o ∧
      t.events.accepted = s.events.accepted + 1 ∧
      ((s.source o.src).mask = true → t.events.waiting = rest ∧ t.fifos = s.fifos) := by
  obtain ⟨hsource, haccepted⟩ := State.accept_spec hsev { s with events := { s.events with waiting := rest } }
  refine ⟨_, ?_, hsource, haccepted, fun hmask => ?_⟩
  · simp only [exec, execEventAccepted, hwaiting, hstep, if_true]
  · rw [State.accept_masked (s := { s with events := { s.events with waiting := rest } }) hsev hmask]
    exact ⟨rfl, rfl⟩

/-! ## STATUS bits cleared (R643) -/

/-- The clearing of source `64 * w + n` by bit `n` of the word written. -/
def State.statusBit (w : Nat) (v : U64) (u : State) (n : Nat) : State :=
  if v.getLsbD n then u.onSource (64 * w + n) (fun x => { x with status := false }) else u

/-- A source whose bit is written. -/
def Source.clearedBy (v : U64) (n : Nat) (x : Source) : Source := if v.getLsbD n then { x with status := false } else x

theorem State.source_statusBit_same (w : Nat) (v : U64) (u : State) (n : Nat) :
    (State.statusBit w v u n).source (64 * w + n) = (u.source (64 * w + n)).clearedBy v n := by
  unfold State.statusBit Source.clearedBy
  split
  · exact State.source_onSource_same _ _ _
  · rfl

theorem State.source_statusBit_other (w : Nat) (v : U64) (u : State) {n i : Nat} (h : i ≠ 64 * w + n) :
    (State.statusBit w v u n).source i = u.source i := by
  unfold State.statusBit
  split
  · exact State.source_onSource_other _ _ _ _ h
  · rfl

theorem Source.clearedBy_status (v : U64) (n : Nat) (x : Source) : (x.clearedBy v n).status = (x.status && !(v.getLsbD n)) := by
  unfold Source.clearedBy
  split
  · next h => rw [h, Bool.not_true, Bool.and_false]
  · next h => rw [Bool.eq_false_iff.mpr h, Bool.not_false, Bool.and_true]

theorem State.statusCleared_status (s : State) (w : Nat) (v : U64) (i : Nat) :
    (((List.range 64).foldl (State.statusBit w v) s).source i).status =
      ((s.source i).status && !(decide (i / 64 = w) && v.getLsbD (i % 64))) := by
  by_cases hword : i / 64 = w
  · have hplace : i = 64 * w + i % 64 := by omega
    have hfold := foldl_each (fun u n => State.source u (64 * w + n)) (State.statusBit w v) (Source.clearedBy v)
      (State.source_statusBit_same w v) (fun u n k hk => State.source_statusBit_other w v u (by omega))
      (List.range 64) List.nodup_range s (i % 64)
    have hmem : i % 64 ∈ List.range 64 := List.mem_range.mpr (by omega)
    rw [if_pos hmem, ← hplace] at hfold
    rw [hfold, Source.clearedBy_status, decide_eq_true hword, Bool.true_and]
  · have hkept : ((List.range 64).foldl (State.statusBit w v) s).source i = s.source i :=
      List.foldlRecOn (motive := fun u : State => u.source i = s.source i) _ _ rfl fun u hu n hn => by
        have hlt := List.mem_range.mp hn
        rw [State.source_statusBit_other w v u (by omega), hu]
    rw [hkept, decide_eq_false hword, Bool.false_and, Bool.not_false, Bool.and_true]

theorem execStatusClear_clears {b : Bus} {w : Nat} {v : U64} (hw : w < 10) (hacc : accepts s b mgr = true) :
    exec (.statusClear b w v) s = .next ((List.range 64).foldl (State.statusBit w v) s) := by
  rw [exec, execStatusClear, State.pageWrite_accepts s b mgr _ hacc]
  exact unit_next _ hw

/-! ## Forced occurrences and events of another instance (R637, R644) -/

theorem execForcedOccurrence_forces (hi : i < 640) (hknown : (severityOf i).isSome = true)
    (hright : s.lc.debugRights.getLsbD 6 = true) : exec (.forcedOccurrence i) s = .next { s with
      events := { s.events with
        waiting := s.events.waiting ++ [{ src := i, arg := 0, info := 0, forced := true }] } } := by
  simp only [exec, execForcedOccurrence, State.forceEvent, hknown, hright, and_self, if_true]
  exact unit_next _ hi

theorem execForcedOccurrence_denied (hi : i < 640) (hright : s.lc.debugRights.getLsbD 6 = false) :
    exec (.forcedOccurrence i) s = .next s := by
  simp only [exec, execForcedOccurrence, State.forceEvent, hright, Bool.false_eq_true, and_false, if_false]
  exact unit_next _ hi

theorem execEvent_counts (hport : s.rxPort m = some p) (htake : s.takeMsg p m kEvent = some u) :
    ∃ t, exec (.event m) s = .next t ∧ t.events.received = s.events.received + 1 ∧
      t.events.remotePending = s.events.remotePending ||| s.events.remoteRoute.truncate 8 := by
  have htaken : u.events = s.events := State.takeMsg_field (φ := .events) s p m kEvent (by simp) htake
  obtain ⟨e, hexec⟩ : ∃ e, exec (.event m) s = .next (
      let s2 := { u with
        events := { u.events with
          received := u.events.received + 1
          remotePending := u.events.remotePending ||| u.events.remoteRoute.truncate 8 } }
      if s2.events.remoteRoute.getLsbD 8 then s2.queueEntry e else s2) := by
    simp only [exec, execEvent, hport, htake]
    exact ⟨_, rfl⟩
  obtain ⟨w, n, hevents⟩ := raisesOnly_ite
    (c := u.events.remoteRoute.getLsbD 8 = true)
    (raisesOnly_queueEntry { u with
      events := { u.events with
        received := u.events.received + 1
        remotePending := u.events.remotePending ||| u.events.remoteRoute.truncate 8 } } e)
  refine ⟨_, hexec, ?_⟩
  rw [← htaken]
  dsimp only
  rw [hevents]
  exact ⟨rfl, rfl⟩

end

/-- Settles O48: an accepted occurrence shows at its source, whatever its routes raise. -/
theorem eventsAreAcceptedAndCleared : Obligations.EventsAreAcceptedAndCleared := by
  unfold Obligations.EventsAreAcceptedAndCleared
  intro s
  refine ⟨?accepted, fun b w v hw hacc => ⟨_, execStatusClear_clears hw hacc, s.statusCleared_status w v⟩, ?forced, ?pending,
    fun m p u hport htake => execEvent_counts hport htake⟩
  case accepted =>
    intro o rest sev hwaiting hstep hsev
    obtain ⟨t, hexec, hsource, haccepted, hmasked⟩ := execEventAccepted_accepts hwaiting hstep hsev
    exact ⟨t, hexec, by rw [hsource]; rfl, by rw [hsource]; rfl, by rw [hsource]; rfl, by rw [hsource]; rfl,
      by rw [hsource]; rfl, haccepted, hmasked⟩
  case forced =>
    exact fun i hi => ⟨fun hknown hright => ⟨_, execForcedOccurrence_forces hi hknown hright, rfl⟩,
      fun hright => execForcedOccurrence_denied hi hright⟩
  case pending =>
    exact fun b v hacc => ⟨_, congrArg Host.Outcome.next (State.pageWrite_accepts s b mgr _ hacc), rfl⟩

end Sys2Proof.Machine
end

section
/-!
SUPPORT. Accesses by address: the register of that address, and partial accesses (O49).
-/
namespace Sys2Proof.Machine

section
variable {s u : State} {b : Bus} {v : U64} {a n o off : Nat}

/-! ## The manager's window (R613, R653) -/

theorem execRegisterWrite_window (hacc : accepts s b mgr = true) (ha : a < 0x40) (halign : a % 8 = 0) :
    exec (.registerWrite b a v) s = .next (s.dictSet a v) := by
  have hspan : ¬ htSpan ≤ a := by unfold htSpan; omega
  have hplace : a / 8 * 8 = a := by omega
  simp only [exec, execRegisterWrite, if_neg hspan, hplace, ha, if_true, State.pageWrite_accepts s b mgr _ hacc]

theorem execRegisterRead_window (hacc : accepts s b mgr = true) (ha : a < 0x40) (halign : a % 8 = 0) :
    exec (.registerRead b a) s = .next (s.readBack (dictWord s a)) := by
  have hspan : ¬ htSpan ≤ a := by unfold htSpan; omega
  have hplace : a / 8 * 8 = a := by omega
  simp only [exec, execRegisterRead, if_neg hspan, hplace, ha, if_true, State.pageRead_accepts s b mgr _ hacc]

/-! ## The page of a slice (R461) -/

section
variable (hn : n < 512) (hoff : off < 0x10000) (halign : off % 8 = 0)
include hn hoff halign

theorem execRegisterWrite_page : exec (.registerWrite b (0x1000000 + 0x10000 * n + off) v) s = writeOnPage b n off v s := by
  have hspan : ¬ htSpan ≤ 0x1000000 + 0x10000 * n + off := by unfold htSpan; omega
  have hplace : (0x1000000 + 0x10000 * n + off) / 8 * 8 = 0x1000000 + 0x10000 * n + off := by omega
  have hpage : (0x1000000 + 0x10000 * n + off - 0x1000000) / 0x10000 = n := by omega
  have hrest : (0x1000000 + 0x10000 * n + off) % 0x10000 = off := by omega
  simp only [exec, execRegisterWrite, if_neg hspan, hplace, hpage, hrest]
  rw [if_neg (by omega), if_neg (by omega), if_neg (by omega), if_neg (by omega), if_neg (by omega), if_neg (by omega),
    if_pos (by omega)]

theorem execRegisterRead_page : exec (.registerRead b (0x1000000 + 0x10000 * n + off)) s = readOnPage b n off s := by
  have hspan : ¬ htSpan ≤ 0x1000000 + 0x10000 * n + off := by unfold htSpan; omega
  have hplace : (0x1000000 + 0x10000 * n + off) / 8 * 8 = 0x1000000 + 0x10000 * n + off := by omega
  have hpage : (0x1000000 + 0x10000 * n + off - 0x1000000) / 0x10000 = n := by omega
  have hrest : (0x1000000 + 0x10000 * n + off) % 0x10000 = off := by omega
  simp only [exec, execRegisterRead, if_neg hspan, hplace, hpage, hrest]
  rw [if_neg (by omega), if_neg (by omega), if_neg (by omega), if_neg (by omega), if_neg (by omega), if_neg (by omega),
    if_neg (by omega), if_neg (by omega), if_pos (by omega)]

end

/-- The offsets of a page that no command of its own answers. -/
def plainOffset (off : Nat) : Prop := off < 0x1000 ∨ off = 0x5100 ∨ off = 0x6000

theorem writeOnPage_plain (hacc : accepts s b o = true) (hplain : plainOffset off) :
    writeOnPage b o off v s = .next (s.pageSet o off v) := by
  unfold plainOffset at hplain
  unfold writeOnPage
  rw [if_neg (by omega), if_neg (by omega), if_neg (by omega), if_neg (by omega), if_neg (by omega), if_neg (by omega),
    State.pageWrite_accepts s b o _ hacc]
  split
  · rfl
  · rw [if_neg (by omega), if_neg (by omega), if_neg (by omega), if_neg (by omega)]

theorem readOnPage_plain (hacc : accepts s b o = true) (hplain : plainOffset off) :
    readOnPage b o off s = .next (s.readBack (pageWord s o off)) := by
  unfold plainOffset at hplain
  have hkept : s.pageAfterRead o off = s := if_neg (by omega)
  unfold readOnPage
  rw [if_neg (by omega), if_neg (by omega), if_neg (by omega), if_neg (by omega), State.pageRead_accepts s b o _ hacc, hkept]

theorem State.pageSet_ring (hoff : off < 0x400) : s.pageSet o off v = s.ringSet (pairKey o (off / 0x80)) (off % 0x80) v :=
  if_pos hoff

theorem pageWord_ring (hoff : off < 0x400) : pageWord s o off = (s.ring (pairKey o (off / 0x80))).word (off % 0x80) :=
  if_pos hoff

theorem State.pageSet_xring (hlow : 0x800 ≤ off) (hhigh : off < 0x880) :
    s.pageSet o off v = s.onXring o (fun x => x.write (off - 0x800) v) := by
  unfold State.pageSet
  rw [if_neg (by omega), if_pos ⟨hlow, hhigh⟩]

theorem pageWord_xring (hlow : 0x800 ≤ off) (hhigh : off < 0x880) : pageWord s o off = (s.xring o).word (off - 0x800) := by
  unfold pageWord
  rw [if_neg (by omega), if_pos ⟨hlow, hhigh⟩]

theorem State.pageSet_mailbox (ho : o ≠ mgr) : s.pageSet o 0x5100 v = s.onSlice o (fun x => { x with mbAddr := v }) := by
  unfold State.pageSet
  rw [if_neg (by omega), if_neg (by omega), if_neg (by omega), if_neg (by omega), if_neg ho, if_neg (by omega), if_pos rfl]

theorem pageWord_status (ho : o ≠ mgr) : pageWord s o 0x6000 = sliceWord s o := by
  unfold pageWord
  rw [if_neg (by omega), if_neg (by omega), if_neg (by omega), if_neg (by omega), if_neg (by omega), if_neg ho,
    if_neg (by omega), if_neg (by omega), if_neg (by omega), if_neg (by omega), if_pos rfl]

/-! ## Partial accesses (R653) -/

/-- A partial access is counted. -/
def State.partialCounted (s : State) : State :=
  { s with pins := { s.pins with htPartialDrops := s.pins.htPartialDrops + 1 } }

theorem State.htAccess_partial (hpins : s.pins.htEnabled = true) (hreset : s.start.inReset = false) (hbe : b.be ≠ 0xFF) :
    s.htAccess b = (false, s.partialCounted) := by
  have hopen : ¬ (s.pins.htEnabled = false ∨ s.start.inReset = true) := by
    rw [hpins, hreset]
    decide
  rw [State.htAccess, if_neg hopen, if_pos hbe, State.partialCounted]

section
variable (hht : s.htAccess b = (false, u))
include hht

theorem State.pageWrite_barred (o : Nat) (f : State → State) : s.pageWrite b o f = u := by
  simp only [State.pageWrite, hht]

theorem State.pageRead_barred (o : Nat) (f : State → Nat × State) : s.pageRead b o f = u.readBack 0 := by
  simp only [State.pageRead, hht]
  rfl

theorem State.kwAccess_barred (o : Nat) : s.kwAccess b o = (false, u) := by
  simp only [State.kwAccess, hht]

/-- A command of a register leaves what the access leaves, when the access is barred. -/
theorem WritesFor.exec_barred {c : Instr} (h : WritesFor b c) (hwf : c.wf = true) : exec c s = .next u := by
  have hpage := State.pageWrite_barred hht
  have hkw := State.kwAccess_barred hht
  have hunit : ∀ {i k : Nat}, i < k → unit i k u = .next u := fun hlt => unit_next _ hlt
  cases h with
  | kwCommitLoad o => simp only [exec, execKwCommitLoad, hkw]
  | kwCommitClear o => simp only [exec, execKwCommitClear, hkw]
  | dgConfig o v => simp only [exec, execDgConfig, hpage]
  | digestData o v => simp only [exec, execDigestData, hpage]
  | digestLast o v => simp only [exec, execDigestLast, hpage, ne_eq, not_true_eq_false, if_false]
  | dgCmdSave o => simp only [exec, execDgCmdSave, hpage]
  | dgCmdRestore o => simp only [exec, execDgCmdRestore, hpage]
  | dgCmdAbandon o => simp only [exec, execDgCmdAbandon, hpage]
  | fifoSetMark kind o =>
    rw [exec, execFifoSetMark, hpage]
    exact hunit ((hasReader_pos kind o).mpr (of_decide_eq_true hwf))
  | fifoRewind kind o =>
    rw [exec, execFifoRewind, hpage]
    exact hunit ((hasReader_pos kind o).mpr (of_decide_eq_true hwf))
  | fifoClearMark kind o =>
    rw [exec, execFifoClearMark, hpage]
    exact hunit ((hasReader_pos kind o).mpr (of_decide_eq_true hwf))
  | send kind o v =>
    rw [exec, execSend, hpage]
    exact hunit ((hasWriter_pos kind o).mpr (of_decide_eq_true hwf))
  | sendCmdOpen kind o =>
    rw [exec, execSendCmdOpen, hpage]
    exact hunit ((hasWriter_pos kind o).mpr (of_decide_eq_true hwf))
  | sendCmdAbandon kind o =>
    rw [exec, execSendCmdAbandon, hpage]
    exact hunit ((hasWriter_pos kind o).mpr (of_decide_eq_true hwf))
  | sendClose kind o v =>
    rw [exec, execSendClose, hpage]
    exact hunit ((hasWriter_pos kind o).mpr (of_decide_eq_true hwf))
  | statusClear word v =>
    rw [exec, execStatusClear, hpage]
    exact hunit (of_decide_eq_true hwf)
  | remotePending v => simp only [exec, execRemotePending, hpage]
  | doorbellWindowWrite addr v => simp only [exec, execDoorbellWindowWrite, hht]

theorem ReadsFor.exec_barred {c : Instr} (h : ReadsFor b c) (hwf : c.wf = true) : exec c s = .next (u.readBack 0) := by
  have hpage := State.pageRead_barred hht
  cases h with
  | pkFifoData o =>
    have hreader : isReader 0 o = true := (isReader_zero o).trans hwf
    rw [exec, execPkFifoData, hpage]
    exact unit_next _ ((hasReader_pos 0 o).mpr hreader)
  | rngWord o =>
    have ho : o < 513 := Nat.lt_succ_of_le (of_decide_eq_true hwf)
    rw [exec, execRngWord, hpage]
    exact unit_next _ ho
  | fifoData kind o =>
    rw [exec, execFifoData, hpage]
    exact unit_next _ ((hasReader_pos kind o).mpr (of_decide_eq_true hwf))

theorem execRegisterWrite_barred (ha : a < htSpan) : execRegisterWrite b a v s = .next u := by
  have hpage := State.pageWrite_barred hht
  have hkw := State.kwAccess_barred hht
  refine execRegisterWrite_elim (P := fun x => x = .next u) (fun c hc hwf => hc.exec_barred hht hwf) v
    (fun hle => absurd ha (Nat.not_lt.mpr hle)) (fun o => by rw [hkw]) (fun o off => by rw [hkw]) (fun o off => by rw [hpage])
    (fun off => by rw [hpage]) (fun kind o => by rw [hpage]) (fun o => by rw [hpage])

theorem execRegisterRead_barred (ha : a < htSpan) : execRegisterRead b a s = .next (u.readBack 0) := by
  have hpage := State.pageRead_barred hht
  have hkw := State.kwAccess_barred hht
  refine execRegisterRead_elim (P := fun x => x = .next (u.readBack 0)) (fun c hc hwf => hc.exec_barred hht hwf)
    (fun hle => absurd ha (Nat.not_lt.mpr hle)) (fun o off => by rw [hkw]; rfl) (fun o off => by rw [hpage])
    (fun f => by rw [hpage]) (by rw [hht]; rfl)

end

end

/-- Settles O49: an accepted access runs the register of its address; a partial one is counted whatever the address. -/
theorem registersActByAddress : Obligations.RegistersActByAddress := by
  unfold Obligations.RegistersActByAddress
  intro s b v
  refine ⟨fun hacc a ha halign => ⟨execRegisterWrite_window hacc ha halign, execRegisterRead_window hacc ha halign⟩, ?page,
    ?part, fun a ha => ⟨if_pos ha, if_pos ha⟩⟩
  case page =>
    intro n off hn hacc a
    have hne : n ≠ mgr := Nat.ne_of_lt hn
    refine ⟨fun hoff halign => ⟨?_, ?_⟩, fun hlow hhigh halign => ⟨?_, ?_⟩, fun hoff => ?_, fun hoff => ?_⟩
    · rw [execRegisterWrite_page hn (by omega) halign, writeOnPage_plain hacc (.inl (by omega)), State.pageSet_ring hoff]
    · rw [execRegisterRead_page hn (by omega) halign, readOnPage_plain hacc (.inl (by omega)), pageWord_ring hoff]
    · rw [execRegisterWrite_page hn (by omega) halign, writeOnPage_plain hacc (.inl (by omega)),
        State.pageSet_xring hlow hhigh]
    · rw [execRegisterRead_page hn (by omega) halign, readOnPage_plain hacc (.inl (by omega)), pageWord_xring hlow hhigh]
    · subst hoff
      rw [execRegisterWrite_page hn (by omega) (by omega), writeOnPage_plain hacc (.inr (.inl rfl)), State.pageSet_mailbox hne]
    · subst hoff
      rw [execRegisterRead_page hn (by omega) (by omega), readOnPage_plain hacc (.inr (.inr rfl)), pageWord_status hne]
  case part =>
    intro a ha hpins hreset hbe u
    have hht := State.htAccess_partial hpins hreset hbe
    exact ⟨execRegisterWrite_barred hht ha, execRegisterRead_barred hht ha⟩

end Sys2Proof.Machine
end

section
/-!
SUPPORT. An ABORT at the ring engine and at its target's decision point (O50).
-/
namespace Sys2Proof.Machine

section
variable {s : State} {rid a t : Nat} {q x : Req} {rest : List Nat}

/-- A request ended by the unit that holds it shows that ending, when it had none. -/
theorem Req.endOuter_stat {e : Ending} (h : q.stat = none) : (q.endOuter e).stat.map Stat.ending = some e := by
  simp only [Req.endOuter, h, Option.isSome_none, Bool.false_eq_true, if_false, Option.map_some]

theorem Req.endOuter_abortWaiting (e : Ending) (q : Req) : (q.endOuter e).abortWaiting = q.abortWaiting := by
  unfold Req.endOuter
  split
  · rfl
  · rfl

/-- An ABORT that waits is settled. -/
theorem State.settleAbort_eq (hq : s.req rid = some q) (hstage : q.stage = .abortWait) (d : Nat) :
    s.settleAbort rid d = s.putReq rid (q.endOuter (ends .ok d)) := by
  rw [State.settleAbort, State.onReq_of_req _ hq, if_pos hstage]

/-! ## At the ring engine (R107 to R110) -/

theorem ring_running {r : Ring} (hring : r.state = .enabled ∨ r.state = .draining) :
    ¬ (r.state ≠ .enabled ∧ r.state ≠ .draining) := fun h => hring.elim h.1 h.2

section
variable (hq : s.req rid = some q) (hop : q.d.opcode = 0x71) (hstage : q.stage = .abortWait)
include hq hop hstage

theorem execAbort_ringStopped (henabled : (s.ring (pairKey q.owner (abortRing q.d))).state ≠ .enabled)
    (hdraining : (s.ring (pairKey q.owner (abortRing q.d))).state ≠ .draining) :
    exec (.abort rid) s = .next (s.putReq rid (q.endOuter { st := .requestInvalid, detail := 0x0B })) := by
  simp only [exec, execAbort, hq, hop, hstage, henabled, hdraining, ne_eq, not_true_eq_false, not_false_eq_true, or_self, and_self,
    if_true, if_false, State.onReq_of_req _ hq]
  rfl

variable (hring : (s.ring (pairKey q.owner (abortRing q.d))).state = .enabled ∨
  (s.ring (pairKey q.owner (abortRing q.d))).state = .draining)
include hring

section
variable (htarget : abortTarget s q = some (t, x)) (hnew : rid ∉ x.abortWaiting)
include htarget hnew

theorem execAbort_barred (hread : x.stage ≠ .descRead) (hopcode : x.d.opcode = 0x70 ∨ x.d.opcode = 0x71) :
    exec (.abort rid) s = .next (s.putReq rid (q.endOuter { st := .ok, detail := 5 })) := by
  have hrunning := ring_running hring
  have hnone : x.abortWaiting.contains rid = false := by simpa using hnew
  simp only [exec, execAbort, hq, hop, hstage, if_neg hrunning, htarget, hnone, hread, hopcode, ne_eq, not_true_eq_false,
    not_false_eq_true, or_self, and_self, Bool.false_eq_true, if_true, if_false, State.settleAbort_eq hq hstage]
  rfl

theorem execAbort_waits (hmay : x.stage = .descRead ∨ (x.d.opcode ≠ 0x70 ∧ x.d.opcode ≠ 0x71)) :
    exec (.abort rid) s = .next (s.onReq t (fun y => { y with abortWaiting := y.abortWaiting ++ [rid] })) := by
  have hrunning := ring_running hring
  have hnone : x.abortWaiting.contains rid = false := by simpa using hnew
  have hfree : ¬ (x.stage ≠ .descRead ∧ (x.d.opcode = 0x70 ∨ x.d.opcode = 0x71)) := by
    rintro ⟨hread, hopcode⟩
    rcases hmay with h | ⟨hfence, habort⟩
    · exact hread h
    · exact hopcode.elim hfence habort
  simp only [exec, execAbort, hq, hop, hstage, if_neg hrunning, htarget, hnone, if_neg hfree, ne_eq, not_true_eq_false, or_self,
    Bool.false_eq_true, if_false]

end

theorem execAbort_absent (htarget : abortTarget s q = none) :
    let r := s.ring (pairKey q.owner (abortRing q.d))
    exec (.abort rid) s = .next (s.putReq rid (q.endOuter (ends .ok
      (if 2 ^ (r.rqLog2 + 1) ≤ abortPos q.d ∨ ptrSub (abortPos q.d) r.rqHead r.rqLog2 < 2 ^ r.rqLog2 then 3 else 4)))) := by
  have hrunning := ring_running hring
  intro r
  simp only [exec, execAbort, hq, hop, hstage, if_neg hrunning, htarget, ne_eq, not_true_eq_false, or_self, if_false,
    State.settleAbort_eq hq hstage]
  split
  · rfl
  · rfl

end

/-! ## At the target's decision point (R111 to R113) -/

/-- The target from whose list the abort has been taken. -/
def Req.abortTaken (q : Req) (rest : List Nat) : Req := { q with abortWaiting := rest }

/-- The decision on an abort: whether it stopped the target, which then stands as `q2` (R111 to R113). -/
def State.abortDecided (s : State) (rid a : Nat) (q : Req) : State :=
  let won := match s.req rid with
    | some q2 => stopped q q2
    | none => false
  if won then s.settleAbort a 0x01
  else (s.onReq rid (fun r => if r.recordIssued then r else { r with abortLate := true })).settleAbort a 0x02

section
variable (hq : s.req rid = some q) (hwaiting : q.abortWaiting = a :: rest) (hread : q.stage ≠ .descRead)
  (hlocal : ¬ (q.stage = .granted ∧ q.member ≠ 0 ∧ q.stat = none))
include hq hwaiting hread hlocal

theorem execAbortAtDecisionPoint_decides : exec (.abortAtDecisionPoint rid) s = .next
    (((s.putReq rid (q.abortTaken rest)).stopRequest rid (ends .aborted 0x01) (ends .aborted 0x02)).abortDecided rid a q) := by
  have hhere : ¬ (q.stage = .granted ∧ q.member ≠ 0 ∧ q.stat.isNone = true) := by
    rintro ⟨hgranted, hmember, hstat⟩
    exact hlocal ⟨hgranted, hmember, Option.isNone_iff_eq_none.mp hstat⟩
  have htaken : s.onReq rid (fun r => { r with abortWaiting := rest }) = s.putReq rid (q.abortTaken rest) :=
    State.onReq_of_req _ hq
  simp only [exec, execAbortAtDecisionPoint, hq, hwaiting, if_neg hread, if_neg hhere, htaken]
  rfl

end

/-- A decision that stopped the target settles the abort with DETAIL 0x01. -/
theorem State.abortDecided_won {q2 : Req} (hq2 : s.req rid = some q2) (hwon : stopped q q2 = true) :
    s.abortDecided rid a q = s.settleAbort a 0x01 := by
  simp only [State.abortDecided, hq2, hwon, if_true]

/-- A decision that came too late marks the target and settles the abort with DETAIL 0x02. -/
theorem State.abortDecided_late {q2 : Req} (hq2 : s.req rid = some q2) (hwon : stopped q q2 = false)
    (hissued : q2.recordIssued = false) :
    s.abortDecided rid a q = (s.putReq rid { q2 with abortLate := true }).settleAbort a 0x02 := by
  have hmark : s.onReq rid (fun r => if r.recordIssued then r else { r with abortLate := true }) =
      s.putReq rid { q2 with abortLate := true } := by
    rw [State.onReq_of_req _ hq2, hissued]
    rfl
  simp only [State.abortDecided, hq2, hwon, Bool.false_eq_true, if_false, hmark]

section
variable (hx : s.req a = some x) (hxstage : x.stage = .abortWait) (hxstat : x.stat = none) (ha : a ≠ rid)
include hx hxstage hxstat ha

/-- An abort that is settled shows its DETAIL and leaves its target. -/
theorem State.settleAbort_spec (q2 : Req) (d : Nat) : ∃ x', ((s.putReq rid q2).settleAbort a d).req rid = some q2 ∧
    ((s.putReq rid q2).settleAbort a d).req a = some x' ∧ x'.stat.map Stat.ending = some { st := .ok, detail := d } := by
  have hxkept : (s.putReq rid q2).req a = some x := by rw [State.req_putReq_other _ _ _ _ ha, hx]
  refine ⟨x.endOuter (ends .ok d), ?_, ?_, Req.endOuter_stat hxstat⟩
  · rw [State.settleAbort_eq hxkept hxstage, State.req_putReq_other _ _ _ _ (Ne.symm ha), State.req_putReq_same]
  · rw [State.settleAbort_eq hxkept hxstage, State.req_putReq_same]

section
variable (hq : s.req rid = some q) (hwaiting : q.abortWaiting = a :: rest) (hread : q.stage ≠ .descRead)
  (hlocal : ¬ (q.stage = .granted ∧ q.member ≠ 0 ∧ q.stat = none))
include hq hwaiting hread hlocal

/-- A target that the stop has changed to `q2` is settled as aborted. -/
theorem execAbortAtDecisionPoint_won {q2 : Req} (hstop : (s.putReq rid (q.abortTaken rest)).stopRequest rid (ends .aborted 0x01)
    (ends .aborted 0x02) = s.putReq rid q2) (hwon : stopped q q2 = true) :
    ∃ t x', exec (.abortAtDecisionPoint rid) s = .next t ∧ t.req rid = some q2 ∧ t.req a = some x' ∧
      x'.stat.map Stat.ending = some { st := .ok, detail := 1 } := by
  obtain ⟨x', htarget, habort, hend⟩ := State.settleAbort_spec hx hxstage hxstat ha q2 0x01
  refine ⟨_, x', ?_, htarget, habort, hend⟩
  rw [execAbortAtDecisionPoint_decides hq hwaiting hread hlocal, hstop,
    State.abortDecided_won (State.req_putReq_same _ _ _) hwon]

theorem execAbortAtDecisionPoint_late {q2 : Req} (hstop : (s.putReq rid (q.abortTaken rest)).stopRequest rid (ends .aborted 0x01)
    (ends .aborted 0x02) = s.putReq rid q2) (hwon : stopped q q2 = false) (hissued : q2.recordIssued = false) :
    ∃ t x', exec (.abortAtDecisionPoint rid) s = .next t ∧ t.req rid = some { q2 with abortLate := true } ∧
      t.req a = some x' ∧ x'.stat.map Stat.ending = some { st := .ok, detail := 2 } := by
  obtain ⟨x', htarget, habort, hend⟩ := State.settleAbort_spec hx hxstage hxstat ha { q2 with abortLate := true } 0x02
  refine ⟨_, x', ?_, htarget, habort, hend⟩
  rw [execAbortAtDecisionPoint_decides hq hwaiting hread hlocal, hstop,
    State.abortDecided_late (State.req_putReq_same _ _ _) hwon hissued, State.putReq_putReq]

end

end

/-- The target that had not been dispatched when it was stopped. -/
def Req.abortedEarly (q : Req) (rest : List Nat) : Req := { (q.abortTaken rest).endOuter (ends .aborted 0x01) with seam := [] }

/-- The running target that stops after the segments issued. -/
def Req.abortedRunning (q : Req) (rest : List Nat) : Req :=
  { q.abortTaken rest with m := { q.m with stopAtSegment := some (ends .aborted 0x02) } }

theorem State.stopRequest_early (hend : q.ended = false) (hhead : q.m.headSeen = false) (before after : Ending) :
    (s.putReq rid q).stopRequest rid before after = s.putReq rid { q.endOuter before with seam := [] } := by
  simp only [State.stopRequest, State.req_putReq_same, hend, hhead, Bool.false_eq_true, Bool.not_false, if_true, if_false]
  rw [State.onReq_of_req _ (State.req_putReq_same _ _ _), State.putReq_putReq]

theorem State.stopRequest_running (hend : q.ended = false) (hhead : q.m.headSeen = true) (hdisp : q.m.dispatched = true)
    (hkey : isKeyOp q.d.opcode = false) (hstop : q.m.stopAtSegment = none) (hseg : q.m.segIssued ≠ q.m.segPassed)
    (before after : Ending) :
    (s.putReq rid q).stopRequest rid before after =
      s.putReq rid { q with m := { q.m with stopAtSegment := some after } } := by
  have hnotKey : ¬ (isKeyOp q.d.opcode = true ∨ q.m.stopAtSegment.isSome = true) := by
    rw [hkey, hstop]
    decide
  unfold State.stopRequest
  rw [State.req_putReq_same]
  dsimp only
  rw [if_neg (by rw [hend]; decide), if_neg (by rw [hhead]; decide), if_neg (by rw [hdisp]; decide), if_neg hnotKey,
    if_neg fun h => hseg h.1, State.onReq_of_req _ (State.req_putReq_same _ _ _), State.putReq_putReq]

theorem State.stopRequest_ended (hend : q.ended = true) (before after : Ending) :
    (s.putReq rid q).stopRequest rid before after = s.putReq rid q := by
  simp only [State.stopRequest, State.req_putReq_same, hend, if_true]

theorem stopped_of_stat {q2 : Req} {e : Ending} (hend : q.ended = false) (hstop : q.m.stopAtSegment = none)
    (hstat : q2.stat.map Stat.ending = some e) : stopped q q2 = true := by
  have hsome : q2.stat.isSome = true := by
    rw [← Option.isSome_map (f := Stat.ending), hstat]
    rfl
  have hended : q2.ended = true := by rw [Req.ended, hsome, Bool.or_true]
  simp only [stopped, hend, hstop, hended, Bool.not_false, Option.isNone_none, Bool.true_or, Bool.and_self]

end

/-- Settles O50: the abort is settled by what its target's stop has changed. -/
theorem abortsAreSettledAtTheDecisionPoint : Obligations.AbortsAreSettledAtTheDecisionPoint := by
  unfold Obligations.AbortsAreSettledAtTheDecisionPoint
  refine ⟨?engine, ?decision⟩
  case engine =>
    intro s rid q hq hop hstage
    exact ⟨fun henabled hdraining => execAbort_ringStopped hq hop hstage henabled hdraining, fun hring =>
      ⟨fun t x htarget hnew => ⟨fun hread hopcode => execAbort_barred hq hop hstage hring htarget hnew hread hopcode,
        fun hmay => execAbort_waits hq hop hstage hring htarget hnew hmay⟩,
      fun htarget => execAbort_absent hq hop hstage hring htarget⟩⟩
  case decision =>
    intro s rid a rest q x hq hwaiting ha hx hxstage hxstat hread hlocal
    refine ⟨fun hend hhead hstop hstat => ?_, fun hend hhead hdisp hkey hstop hseg => ?_, fun hend hissued => ?_⟩
    · have haborted : (q.abortedEarly rest).stat.map Stat.ending = some { st := .aborted, detail := 1 } :=
        Req.endOuter_stat (q := q.abortTaken rest) hstat
      obtain ⟨t, x', hexec, htarget, habort, hsettled⟩ := execAbortAtDecisionPoint_won hx hxstage hxstat ha hq hwaiting hread
        hlocal (State.stopRequest_early (q := q.abortTaken rest) hend hhead _ _) (stopped_of_stat hend hstop haborted)
      exact ⟨t, _, x', hexec, htarget, Req.endOuter_abortWaiting _ (q.abortTaken rest), haborted, habort, hsettled⟩
    · have hwon : stopped q (q.abortedRunning rest) = true := by
        simp only [stopped, hend, hstop, Req.abortedRunning, Option.isSome_some, Option.isNone_none, Bool.not_false,
          Bool.or_true, Bool.and_self]
      obtain ⟨t, x', hexec, htarget, habort, hsettled⟩ := execAbortAtDecisionPoint_won hx hxstage hxstat ha hq hwaiting hread
        hlocal (State.stopRequest_running (q := q.abortTaken rest) hend hhead hdisp hkey hstop hseg _ _) hwon
      exact ⟨t, _, x', hexec, htarget, hend, rfl, habort, hsettled⟩
    · have hwon : stopped q (q.abortTaken rest) = false := by
        simp only [stopped, hend, Bool.not_true, Bool.false_and]
      obtain ⟨t, x', hexec, htarget, habort, hsettled⟩ := execAbortAtDecisionPoint_late hx hxstage hxstat ha hq hwaiting hread
        hlocal (State.stopRequest_ended (q := q.abortTaken rest) hend _ _) hwon hissued
      exact ⟨t, _, x', hexec, htarget, rfl, rfl, rfl, habort, hsettled⟩

end Sys2Proof.Machine
end
